-- ==== Sys2Proof/Word.lean ====
section
/-! DEFINITION. The word types of the OCL7240 (R11: little-endian, bit 0 the least significant). -/

namespace Sys2Proof

/-- One byte. -/
abbrev Byte := BitVec 8
/-- A 16-bit half-word; error codes are of this width (R15). -/
abbrev Half := BitVec 16
/-- A 32-bit word: the width of a register (R6). -/
abbrev Word := BitVec 32
/-- A 64-bit word: a memory word (R110) and a curtain time (R13). -/
abbrev DWord := BitVec 64
/-- An unsigned count of 5 ns ticks (R13). -/
abbrev CTime := BitVec 64

end Sys2Proof
end

