-- ==== Sys2Proof/Syntax.lean ====
section
/-! DEFINITION. The commands of the block (the rows of the table of operations and events) and their operand types. -/

namespace Sys2Proof

/-- The bus masters (R139). -/
inductive Master where
  | cc | en | fd | ld | hd | dbg
  deriving DecidableEq, Repr

/-- A memory word, by its byte address, in which an access finds this many bits in error (R110, R118). -/
structure Upset where
  addr : Nat
  bits : Nat
  deriving DecidableEq, Repr

/-- One entry of a crossing queue: its data and its sideband marks (R133, R135). -/
structure QEntry where
  data  : Word
  eop   : Bool
  abort : Bool := false
  qual  : BitVec 2 := 0
  deriving DecidableEq, Repr

/-- An error as it is raised: code, source block and 64-bit detail (R531). -/
structure Raise where
  code   : Half
  src    : Byte
  detail : DWord
  deriving DecidableEq, Repr

/-- An instruction reaches E in a cell (R287): the cell, the CLK_CORE cycles since its last instruction left E or since the
last of its stalls was reported, and the bits in error that the fetch of its word found (R278). -/
structure Issue where
  cell      : Fin 32
  cycles    : Nat
  fetchBits : Nat := 0
  deriving DecidableEq, Repr

/-- One pixel clock of the Camera Link: port A in [7:0], B in [15:8], C in [23:16], and the level of DVAL (R235, R237). -/
structure PixClock where
  data : BitVec 24
  dval : Bool
  deriving DecidableEq, Repr


/-- A confirmation entry of a valve bank (R317, R325). -/
structure EjConf where
  cseq  : Byte
  id    : Half
  code  : Byte
  delta : Half
  deriving DecidableEq, Repr

/-- A machine-link command frame that HOST_MAC or the broadcast address accepts (R374, R375): source address, TXN, EPOCH, LANE
and body. CODE is the row's. -/
structure HostCmd where
  src   : BitVec 48
  txn   : Word
  epoch : Word
  lane  : Byte
  body  : List Byte
  deriving DecidableEq, Repr

/-- The commands: one constructor for each row of the table of operations and events, in its order. -/
inductive Instr where
  /-- REGISTER_WRITE (R577). -/
  | registerWrite (m : Master) (addr : Word) (data : List Byte)
  /-- READ_CLEAR (R6). -/
  | readClear (m : Master) (addr : Word) (len : Nat)
  /-- POWER_UP (R51). -/
  | powerUp (drained : Bool)
  /-- PLL_LOCK (R51). -/
  | pllLock
  /-- POR_RELEASE (R44). -/
  | porRelease (role : BitVec 2) (recover : Bool)
  /-- BANK_ENABLE (R43). -/
  | bankEnable (bank : Fin 2) (v33 : Bool)
  /-- BANK_DISABLE (R43). -/
  | bankDisable (bank : Fin 2)
  /-- POWER_FAIL (R53). -/
  | powerFail (back : Bool)
  /-- REGULATOR_FAULT (R55). -/
  | regulatorFault (rail : Fin 3)
  /-- RESET_N_ASSERT (R50). -/
  | resetNAssert
  /-- RESET_N_RISE (R50). -/
  | resetNRise
  /-- DEVICE_RESET_RELEASE (R91). -/
  | deviceResetRelease (role : BitVec 2) (recover : Bool)
  /-- ROOT_SECRET_DONE (R421). -/
  | rootSecretDone (okA : Bool) (okB : Bool)
  /-- GPIO_EDGE (R58). -/
  | gpioEdge (pin : Fin 16) (level : Bool)
  /-- TIMER_ARM (R58). -/
  | timerArm (m : Master) (k : Fin 8) (v : Word)
  /-- TIMER_EXPIRED (R58). -/
  | timerExpired (k : Fin 8)
  /-- CLOCK_FAIL (R82). -/
  | clockFail (resonator : Bool)
  /-- CLOCK_RECOVERY (R83). -/
  | clockRecovery
  /-- CT_READ (R87). -/
  | ctRead (m : Master)
  /-- CT_LOAD (R88). -/
  | ctLoad (m : Master) (v : Word)
  /-- SOFTWARE_RESET (R90). -/
  | softwareReset (m : Master) (v : Word)
  /-- CC_RESTART_REQUEST (R90). -/
  | ccRestartRequest (m : Master) (v : Word)
  /-- WARM_PATH_DONE (R99). -/
  | warmPathDone
  /-- WDOG_KICK (R101). -/
  | wdogKick (m : Master) (v : Word)
  /-- WDOG_EXPIRE (R101). -/
  | wdogExpire
  /-- SRAM_READ (R110). -/
  | sramRead (m : Master) (addr : Word) (len : Nat) (found : List Upset)
  /-- SRAM_WRITE (R111). -/
  | sramWrite (m : Master) (addr : Word) (data : List Byte) (found : List Upset)
  /-- SCRUB_WORD (R115). -/
  | scrubWord (encl : Bool) (bits : List Nat)
  /-- MRAM_READ (R118). -/
  | mramRead (m : Master) (addr : Word) (len : Nat) (found : List Upset)
  /-- MRAM_WRITE (R119). -/
  | mramWrite (m : Master) (addr : Word) (data : List Byte)
  /-- MRAM_WORD_PROGRAMMED (R119). -/
  | mramWordProgrammed
  /-- MRAM_CLR_START (R122). -/
  | mramClrStart (m : Master) (sector : BitVec 11)
  /-- MRAM_CLR_SUSPEND (R123). -/
  | mramClrSuspend (m : Master)
  /-- MRAM_CLR_RESUME (R123). -/
  | mramClrResume (m : Master)
  /-- CLEAR_STEP_DONE (R122). -/
  | clearStepDone
  /-- PATROL_READ (R130). -/
  | patrolRead (bits : Nat)
  /-- RETIREMENT_DONE (R131). -/
  | retirementDone (lost : List (BitVec 9))
  /-- QUEUE_WRITE (R135). -/
  | queueWrite (q : Fin 24) (e : QEntry)
  /-- QUEUE_STALL_RELEASE (R135). -/
  | queueStallRelease (q : Fin 24)
  /-- Q_DROP (R136). -/
  | qDrop (m : Master) (v : Word)
  /-- Q_DROP_COMPLETE (R136). -/
  | qDropComplete (q : Fin 24)
  /-- GATE_RULE_WRITE (R157). -/
  | gateRuleWrite (m : Master) (addr : Word) (v : Word)
  /-- GATE_SYNC (R159). -/
  | gateSync (m : Master)
  /-- GATE_SYNC_RETURN (R159). -/
  | gateSyncReturn
  /-- GATE_SYNC_TIMEOUT (R160). -/
  | gateSyncTimeout (m : Master)
  /-- FE_RUN (R166). -/
  | feRun (m : Master)
  /-- FE_STOP (R166). -/
  | feStop (m : Master)
  /-- FE_CONFIG_WRITE (R166). -/
  | feConfigWrite (m : Master) (addr v : Word)
  /-- BFE_OUT_WRITE (R166). -/
  | bfeOutWrite (m : Master) (v : Word)
  /-- ROW_BOUNDARY (R167). -/
  | rowBoundary
  /-- BIAS_WRITE (R173). -/
  | biasWrite (m : Master) (n : Fin 6) (v : Word)
  /-- BIAS_LIMIT (R175). -/
  | biasLimit (n : Fin 6)
  /-- FPT_MEASURE (R176). -/
  | fptMeasure (raw : Word) (snsUv : Nat)
  /-- FPT_STALE (R177). -/
  | fptStale
  /-- SHT_POS_CHANGE (R178). -/
  | shtPosChange (pos1 pos0 : Bool)
  /-- SHT_POS_FAULT (R178). -/
  | shtPosFault
  /-- SHT_CLOSE (R180). -/
  | shtClose (m : Master)
  /-- SHT_OPEN (R180). -/
  | shtOpen (m : Master)
  /-- SHT_EVENT (R181). -/
  | shtEvent (m : Master)
  /-- SHT_PULSE_END (R179). -/
  | shtPulseEnd (volts : BitVec 8)
  /-- SHT_SETTLE_TIMEOUT (R184). -/
  | shtSettleTimeout
  /-- SHT_DWELL_END (R181). -/
  | shtDwellEnd
  /-- SHT_RECOVER_END (R182). -/
  | shtRecoverEnd
  /-- RESERVOIR_READY (R69). -/
  | reservoirReady
  /-- PIPELINE_SAMPLE (R190). -/
  | pipelineSample (code : BitVec 14) (clip : Bool) (ecc : List (Fin 4 × Bool))
  /-- NUC_COEF_WRITE (R194). -/
  | nucCoefWrite (m : Master) (v : Word)
  /-- NUC_COEF_READ (R194). -/
  | nucCoefRead (m : Master)
  /-- NUC_SETSEL (R197). -/
  | nucSetsel (m : Master) (v : Word)
  /-- TDI_APPLY (R207). -/
  | tdiApply (m : Master)
  /-- CAL_BEGIN (R217). -/
  | calBegin (c : HostCmd)
  /-- CAL_POINT_READY (R218). -/
  | calPointReady (c : HostCmd)
  /-- CAL_COMMIT (R226). -/
  | calCommit (c : HostCmd)
  /-- CAL_DISCARD (R218). -/
  | calDiscard (c : HostCmd)
  /-- CAL_ABORT (R223). -/
  | calAbort (c : HostCmd)
  /-- CAL_STATUS (R383). -/
  | calStatus (c : HostCmd)
  /-- CAL_EXPORT (R232). -/
  | calExport (c : HostCmd)
  /-- CAL_IMPORT (R232). -/
  | calImport (c : HostCmd)
  /-- CAL_COMPUTE_DONE (R220). -/
  | calComputeDone
  /-- CAL_WRITE_DONE (R226). -/
  | calWriteDone
  /-- CAL_SETTLE_TIMEOUT (R223). -/
  | calSettleTimeout
  /-- CAL_WAIT_TIMEOUT (R223). -/
  | calWaitTimeout
  /-- CAL_DRIFT_TIMEOUT (R222). -/
  | calDriftTimeout
  /-- CAL_RESELECT (R228). -/
  | calReselect
  /-- CAL_EXPIRY_CHECK (R227). -/
  | calExpiryCheck
  /-- VIS_ENABLE (R236). -/
  | visEnable (m : Master) (v : Word)
  /-- VIS_LOCK (R234). -/
  | visLock (khz : BitVec 17)
  /-- VIS_LOCK_LOST (R239). -/
  | visLockLost
  /-- VIS_LINE_START (R244). -/
  | visLineStart
  /-- VIS_LINE_END (R237). -/
  | visLineEnd (clocks : List PixClock)
  /-- VIS_SWAP (R243). -/
  | visSwap (m : Master) (v : Word)
  /-- VIS_REG_WRITE (R243). -/
  | visRegWrite (m : Master) (addr v : Word)
  /-- VIS_TRIG_ENABLE (R248). -/
  | visTrigEnable (m : Master) (v : Word)
  /-- VIS_TRIGGER (R248). -/
  | visTrigger (high : Bool)
  /-- CHOREO_LOAD (R267). -/
  | choreoLoad (c : HostCmd)
  /-- CHECK_PASS_DONE (R268). -/
  | checkPassDone (failed : Bool)
  /-- DRAIN_END (R271). -/
  | drainEnd
  /-- APPLY_DONE (R269). -/
  | applyDone (failed : Bool)
  /-- CHOREO_UNLOAD (R272). -/
  | choreoUnload (c : HostCmd)
  /-- TALLY_ENTRY (R263). -/
  | tallyEntry
  /-- CELL_MEM_ACCESS (R253). -/
  | cellMemAccess (m : Master) (wr : Bool) (addr : Word) (len : Nat) (data : List Byte)
  /-- ADD (R282). -/
  | cellAdd (i : Issue) (lanes : Bool) (d a b : Fin 16) (f : Bool)
  /-- ADDS (R282). -/
  | cellAdds (i : Issue) (lanes : Bool) (d a b : Fin 16) (f : Bool)
  /-- SUB (R282). -/
  | cellSub (i : Issue) (lanes : Bool) (d a b : Fin 16) (f : Bool)
  /-- SUBS (R282). -/
  | cellSubs (i : Issue) (lanes : Bool) (d a b : Fin 16) (f : Bool)
  /-- AND (R282). -/
  | cellAnd (i : Issue) (lanes : Bool) (d a b : Fin 16) (f : Bool)
  /-- OR (R282). -/
  | cellOr (i : Issue) (lanes : Bool) (d a b : Fin 16) (f : Bool)
  /-- XOR (R282). -/
  | cellXor (i : Issue) (lanes : Bool) (d a b : Fin 16) (f : Bool)
  /-- ANDN (R282). -/
  | cellAndn (i : Issue) (lanes : Bool) (d a b : Fin 16) (f : Bool)
  /-- MUL (R282). -/
  | cellMul (i : Issue) (lanes : Bool) (d a b : Fin 16) (f : Bool)
  /-- MULS (R282). -/
  | cellMuls (i : Issue) (lanes : Bool) (d a b : Fin 16) (f : Bool)
  /-- MULH (R282). -/
  | cellMulh (i : Issue) (d a b : Fin 16) (f : Bool)
  /-- MULHU (R282). -/
  | cellMulhu (i : Issue) (d a b : Fin 16) (f : Bool)
  /-- MIN (R282). -/
  | cellMin (i : Issue) (lanes : Bool) (d a b : Fin 16) (f : Bool)
  /-- MAX (R282). -/
  | cellMax (i : Issue) (lanes : Bool) (d a b : Fin 16) (f : Bool)
  /-- MINU (R282). -/
  | cellMinu (i : Issue) (lanes : Bool) (d a b : Fin 16) (f : Bool)
  /-- MAXU (R282). -/
  | cellMaxu (i : Issue) (lanes : Bool) (d a b : Fin 16) (f : Bool)
  /-- SHL (R285). -/
  | cellShl (i : Issue) (lanes : Bool) (d a b : Fin 16) (f : Bool)
  /-- SHR (R285). -/
  | cellShr (i : Issue) (lanes : Bool) (d a b : Fin 16) (f : Bool)
  /-- SAR (R285). -/
  | cellSar (i : Issue) (lanes : Bool) (d a b : Fin 16) (f : Bool)
  /-- ROR (R285). -/
  | cellRor (i : Issue) (lanes : Bool) (d a b : Fin 16) (f : Bool)
  /-- MAC (R282). -/
  | cellMac (i : Issue) (d a b : Fin 16) (f : Bool)
  /-- MACS (R282). -/
  | cellMacs (i : Issue) (d a b : Fin 16) (f : Bool)
  /-- CMP (R284). -/
  | cellCmp (i : Issue) (a b : Fin 16)
  /-- TST (R284). -/
  | cellTst (i : Issue) (a b : Fin 16)
  /-- NEG (R286). -/
  | cellNeg (i : Issue) (lanes : Bool) (d a : Fin 16) (f : Bool)
  /-- NEGS (R286). -/
  | cellNegs (i : Issue) (lanes : Bool) (d a : Fin 16) (f : Bool)
  /-- ABS (R286). -/
  | cellAbs (i : Issue) (lanes : Bool) (d a : Fin 16) (f : Bool)
  /-- ABSS (R286). -/
  | cellAbss (i : Issue) (lanes : Bool) (d a : Fin 16) (f : Bool)
  /-- CLZ (R282). -/
  | cellClz (i : Issue) (d a : Fin 16) (f : Bool)
  /-- MOV (R282). -/
  | cellMov (i : Issue) (d a : Fin 16) (f : Bool)
  /-- ADDI (R282). -/
  | cellAddi (i : Issue) (d a : Fin 16) (f : Bool) (imm : Half)
  /-- ADDIS (R282). -/
  | cellAddis (i : Issue) (d a : Fin 16) (f : Bool) (imm : Half)
  /-- ANDI (R282). -/
  | cellAndi (i : Issue) (d a : Fin 16) (f : Bool) (imm : Half)
  /-- ORI (R282). -/
  | cellOri (i : Issue) (d a : Fin 16) (f : Bool) (imm : Half)
  /-- XORI (R282). -/
  | cellXori (i : Issue) (d a : Fin 16) (f : Bool) (imm : Half)
  /-- CMPI (R282). -/
  | cellCmpi (i : Issue) (a : Fin 16) (imm : Half)
  /-- SHI (R282). -/
  | cellShi (i : Issue) (d a : Fin 16) (f : Bool) (kind : Fin 4) (amount : BitVec 6)
  /-- MOVL (R282). -/
  | cellMovl (i : Issue) (d : Fin 16) (f : Bool) (imm : Half)
  /-- MOVH (R282). -/
  | cellMovh (i : Issue) (d : Fin 16) (f : Bool) (imm : Half)
  /-- MOVA (R282). -/
  | cellMova (i : Issue) (a : Fin 4) (b : Fin 16)
  /-- RDA (R282). -/
  | cellRda (i : Issue) (d : Fin 16) (a : Fin 4)
  /-- ADDA (R282). -/
  | cellAdda (i : Issue) (a : Fin 4) (imm : Half)
  /-- DIV (R286). -/
  | cellDiv (i : Issue) (d a b : Fin 16)
  /-- DIVU (R286). -/
  | cellDivu (i : Issue) (d a b : Fin 16)
  /-- REM (R286). -/
  | cellRem (i : Issue) (d a b : Fin 16)
  /-- REMU (R286). -/
  | cellRemu (i : Issue) (d a b : Fin 16)
  /-- RECIP (R286). -/
  | cellRecip (i : Issue) (d a : Fin 16)
  /-- SQRT (R282). -/
  | cellSqrt (i : Issue) (d a : Fin 16)
  /-- SQRTQ (R282). -/
  | cellSqrtq (i : Issue) (d a : Fin 16)
  /-- DSU_RESULT (R291). -/
  | dsuResult (c : Fin 32)
  /-- LDW (R282). -/
  | cellLdw (i : Issue) (d : Fin 16) (a : Fin 4) (p : Bool) (off : Half) (ecc : Nat)
  /-- LDH (R282). -/
  | cellLdh (i : Issue) (d : Fin 16) (a : Fin 4) (p : Bool) (off : Half) (ecc : Nat)
  /-- LDHU (R282). -/
  | cellLdhu (i : Issue) (d : Fin 16) (a : Fin 4) (p : Bool) (off : Half) (ecc : Nat)
  /-- LDB (R282). -/
  | cellLdb (i : Issue) (d : Fin 16) (a : Fin 4) (p : Bool) (off : Half) (ecc : Nat)
  /-- LDBU (R282). -/
  | cellLdbu (i : Issue) (d : Fin 16) (a : Fin 4) (p : Bool) (off : Half) (ecc : Nat)
  /-- STW (R282). -/
  | cellStw (i : Issue) (d : Fin 16) (a : Fin 4) (p : Bool) (off : Half)
  /-- STH (R282). -/
  | cellSth (i : Issue) (d : Fin 16) (a : Fin 4) (p : Bool) (off : Half) (ecc : Nat)
  /-- STB (R282). -/
  | cellStb (i : Issue) (d : Fin 16) (a : Fin 4) (p : Bool) (off : Half) (ecc : Nat)
  /-- B (R289). -/
  | cellB (i : Issue) (cond : Fin 16) (off : BitVec 12)
  /-- JAL (R289). -/
  | cellJal (i : Issue) (d : Fin 16) (off : BitVec 12)
  /-- JR (R289). -/
  | cellJr (i : Issue) (a : Fin 16)
  /-- HALT (R304). -/
  | cellHalt (i : Issue)
  /-- POP (R295). -/
  | cellPop (i : Issue) (d : Fin 16) (slot : Fin 4)
  /-- PUSH (R296). -/
  | cellPush (i : Issue) (a : Fin 16) (slot : Fin 4) (e : Bool) (q : BitVec 2) (x : Bool)
  /-- DROP (R297). -/
  | cellDrop (i : Issue) (slot : Fin 4)
  /-- AVAIL (R282). -/
  | cellAvail (i : Issue) (d : Fin 16) (slot : Fin 4)
  /-- SPACE (R282). -/
  | cellSpace (i : Issue) (d : Fin 16) (slot : Fin 4)
  /-- RDS (R301). -/
  | cellRds (i : Issue) (d : Fin 16) (sel : BitVec 3)
  /-- WRF (R282). -/
  | cellWrf (i : Issue) (a : Fin 16)
  /-- GPW (R299). -/
  | cellGpw (i : Issue) (a : Fin 16) (pin : Fin 16)
  /-- GPR (R299). -/
  | cellGpr (i : Issue) (d : Fin 16) (pin : Fin 16)
  /-- TARM (R300). -/
  | cellTarm (i : Issue) (a : Fin 16) (k : Fin 8)
  /-- TWAIT (R300). -/
  | cellTwait (i : Issue) (k : Fin 8)
  /-- TRD (R300). -/
  | cellTrd (i : Issue) (d : Fin 16) (k : Fin 8)
  /-- NOP (R282). -/
  | cellNop (i : Issue)
  /-- DECISION_RECORD (R309). -/
  | decisionRecord
  /-- EJ_ENABLE (R312). -/
  | ejEnable (m : Master) (v : Word)
  /-- EJ_ARM (R330). -/
  | ejArm (m : Master) (v : Word)
  /-- FIRE_DUE (R313). -/
  | fireDue (port : Fin 4)
  /-- SYNC_DUE (R322). -/
  | syncDue (port : Fin 4)
  /-- STATUS_POLL (R322). -/
  | statusPoll (port : Fin 4)
  /-- LINK_OPEN_PROBE (R327). -/
  | linkOpenProbe (port : Fin 4)
  /-- PORT_REPROBE (R327). -/
  | portReprobe (port : Fin 4)
  /-- FIRE_ACK (R325). -/
  | fireAck (port : Fin 4) (seq : Byte) (res : List Byte) (conf : List EjConf)
  /-- SYNC_RSP (R323). -/
  | syncRsp (port : Fin 4) (seq : Byte) (t2 t3 : Word) (t4 : CTime)
  /-- STATUS_FRAME (R327). -/
  | statusFrame (port : Fin 4) (seq nvalves flags : Byte) (conf : List EjConf)
  /-- EXCHANGE_TIMEOUT (R320). -/
  | exchangeTimeout (port : Fin 4)
  /-- EJ_NOCONF (R325). -/
  | ejNoconf (port : Fin 4) (id : Half)
  /-- EJ_DRIVER_HOT (R329). -/
  | ejDriverHot (port : Fin 4)
  /-- DRIVER_COOL (R71). -/
  | driverCool (port : Fin 4)
  /-- ADMIT (R270). -/
  | admitLane (lane : BitVec 7)
  /-- LINK_SIGNAL (R335). -/
  | linkSignal (port : Fin 2)
  /-- TRAIN_RECEIVED (R335). -/
  | trainReceived (port : Fin 2) (letter state : Byte)
  /-- LINK_DOWN (R336). -/
  | linkDown (port : Fin 2)
  /-- LINK_IDLE_TIMEOUT (R336). -/
  | linkIdleTimeout (port : Fin 2)
  /-- FRAME_HEADER (R346). -/
  | frameHeader (port : Fin 2) (header : List Byte) (stamp : DWord)
  /-- FRAME_END (R341). -/
  | frameEnd (port : Fin 2) (payload : List Byte) (fcs : Word) (eof : Bool) (fault : Bool)
  /-- ACK (R343). -/
  | ack (port : Fin 2) (s0 s1 chk : Byte)
  /-- NAK (R343). -/
  | nak (port : Fin 2) (s0 s1 chk : Byte)
  /-- ACK_TIMER (R343). -/
  | ackTimer (port : Fin 2)
  /-- BUSY_BACKOFF (R343). -/
  | busyBackoff (port : Fin 2)
  /-- REPLAY_TIMEOUT (R344). -/
  | replayTimeout (port : Fin 2)
  /-- ENUM (R357). -/
  | enum (port : Fin 2)
  /-- ENUM_ROUND (R358). -/
  | enumRound
  /-- ASSIGN (R358). -/
  | assign (port : Fin 2)
  /-- TIME (R367). -/
  | time (port : Fin 2)
  /-- TIME_PERIOD (R364). -/
  | timePeriod
  /-- PDELAY_PERIOD (R365). -/
  | pdelayPeriod
  /-- PDELAY_REQ (R365). -/
  | pdelayReq (port : Fin 2)
  /-- PDELAY_RSP (R365). -/
  | pdelayRsp (port : Fin 2)
  /-- TIME_SOURCE_SWITCH (R366). -/
  | timeSourceSwitch
  /-- TIME_LOST (R367). -/
  | timeLost
  /-- TXN (R354). -/
  | txn (port : Fin 2)
  /-- TXN_RESPONSE (R352). -/
  | txnResponse (port : Fin 2)
  /-- TXN_RETRY (R353). -/
  | txnRetry (txn : Word)
  /-- FEATURE_SEND (R356). -/
  | featureSend
  /-- FEATURE (R356). -/
  | feature (port : Fin 2)
  /-- FEATURE_TIMEOUT (R356). -/
  | featureTimeout (pos : BitVec 8)
  /-- HELLO (R383). -/
  | hello (c : HostCmd)
  /-- STATUS (R383). -/
  | status (c : HostCmd)
  /-- SET_TIME (R88). -/
  | setTime (c : HostCmd)
  /-- SET_UTC (R477). -/
  | setUtc (c : HostCmd)
  /-- EVENT_MASK (R383). -/
  | eventMask (c : HostCmd)
  /-- DIAG_READ (R383). -/
  | diagRead (c : HostCmd)
  /-- RESET_DEVICE (R383). -/
  | resetDevice (c : HostCmd)
  /-- REENUMERATE (R554). -/
  | reenumerate (c : HostCmd)
  /-- SERVICE_FIRE (R383). -/
  | serviceFire (c : HostCmd)
  /-- SHUTTER_EVENT (R383). -/
  | shutterEvent (c : HostCmd)
  /-- INJECT (R385). -/
  | inject (c : HostCmd)
  /-- LOOP_SET (R394). -/
  | loopSet (c : HostCmd)
  /-- LOOP_STATUS (R383). -/
  | loopStatus (c : HostCmd)
  /-- UPLOAD_OPEN (R384). -/
  | uploadOpen (c : HostCmd)
  /-- UPLOAD_DATA (R384). -/
  | uploadData (c : HostCmd)
  /-- UPLOAD_CLOSE (R384). -/
  | uploadClose (c : HostCmd)
  /-- DOWNLOAD_READ (R384). -/
  | downloadRead (c : HostCmd)
  /-- FW_STAGE (R506). -/
  | fwStage (c : HostCmd)
  /-- FW_SCHEDULE (R516). -/
  | fwSchedule (c : HostCmd)
  /-- FW_CANCEL (R519). -/
  | fwCancel (c : HostCmd)
  /-- FW_STATUS (R526). -/
  | fwStatus (c : HostCmd)
  /-- TENANT_KEYS (R435). -/
  | tenantKeys (c : HostCmd) (fault : Bool)
  /-- APPLET_LOAD (R496). -/
  | appletLoad (c : HostCmd)
  /-- STATEMENT_READ (R489). -/
  | statementRead (c : HostCmd)
  /-- PERIOD_CLOSE (R485). -/
  | periodClose (c : HostCmd)
  /-- PLANT_CONFIG (R392). -/
  | plantConfig (c : HostCmd)
  /-- PLANT_STATUS (R383). -/
  | plantStatus (c : HostCmd)
  /-- HOST_FRAME_INVALID (R375). -/
  | hostFrameInvalid (foreign : Bool)
  /-- EVENT_ACK (R387). -/
  | eventAck (epoch eseq : Word)
  /-- EVENT_RESEND (R387). -/
  | eventResend
  /-- HOST_LINK_DOWN (R398). -/
  | hostLinkDown
  /-- PLANT_STATUS_DATAGRAM (R393). -/
  | plantStatusDatagram
  /-- STATEMENT_RESEND (R393). -/
  | statementResend
  /-- ARP_REQUEST (R391). -/
  | arpRequest (ip : Word)
  /-- ARP_REFRESH (R391). -/
  | arpRefresh
  /-- PLANT_NOARP (R391). -/
  | plantNoarp
  /-- ICMP_ECHO (R391). -/
  | icmpEcho (data : List Byte)
  /-- PLANT_RX_DISCARD (R391). -/
  | plantRxDiscard
  /-- PLANT_LINK_UP (R391). -/
  | plantLinkUp
  /-- PLANT_LINK_DOWN (R390). -/
  | plantLinkDown
  /-- LOOP_MEASURE (R396). -/
  | loopMeasure (n : Fin 2) (ua : BitVec 15)
  /-- MAILBOX_REQUEST (R403). -/
  | mailboxRequest (m : Master) (v : Word)
  /-- MAILBOX_RESPONSE (R403). -/
  | mailboxResponse (status : Half) (raddr : Word)
  /-- COUNTER_INCREMENT (R405). -/
  | counterIncrement (m : Master) (n : Word)
  /-- LC_TRANSITION (R408). -/
  | lcTransition (lc : BitVec 2) (met : Bool)
  /-- TAMPER_SENSOR (R411). -/
  | tamperSensor (sensor : Fin 6)
  /-- RNG_WINDOW (R417). -/
  | rngWindow (pass : Bool)
  /-- DBG_LEVEL_WRITE (R418). -/
  | dbgLevelWrite (secure : Bool)
  /-- DBG_SIGNATURE (R418). -/
  | dbgSignature (lulomus owner : List Byte)
  /-- DBG_CLOSE (R418). -/
  | dbgClose (m : Master) (v : Word)
  /-- SPREAD_MODE (R402). -/
  | spreadMode (m : Master) (v : Word)
  /-- CLEAR_WRITE (R428). -/
  | clearWrite (m : Master) (slot : BitVec 9)
  /-- INVALIDATE (R430). -/
  | invalidate (m : Master) (slot : BitVec 9)
  /-- LOAD_SESS (R441). -/
  | loadSess (m : Master) (reg : Fin 3) (slot : BitVec 9)
  /-- ZERO_SESS (R441). -/
  | zeroSess (m : Master) (reg : Fin 3)
  /-- KEY_REMASK (R429). -/
  | keyRemask
  /-- CHALLENGE (R440). -/
  | setupChallenge (port : Fin 2)
  /-- RESPONSE (R438). -/
  | setupResponse (port : Fin 2)
  /-- CONFIRM (R438). -/
  | setupConfirm (port : Fin 2)
  /-- DONE (R438). -/
  | setupDone (port : Fin 2)
  /-- SETUP_TIMEOUT (R439). -/
  | setupTimeout (pos : BitVec 8) (pathB : Bool)
  /-- SETUP_RETRY (R439). -/
  | setupRetry (pos : BitVec 8) (pathB : Bool)
  /-- TENANT_KEY_DELIVERY (R442). -/
  | tenantKeyDelivery (port : Fin 2)
  /-- DIG_SUBMIT (R444). -/
  | digSubmit (m : Master) (addr : Word)
  /-- CIP_SUBMIT (R444). -/
  | cipSubmit (m : Master) (addr : Word)
  /-- PKA_SUBMIT (R444). -/
  | pkaSubmit (m : Master) (addr : Word)
  /-- SHA_256 (R450). -/
  | engSha256
  /-- SHA_384 (R450). -/
  | engSha384
  /-- SHA_512 (R450). -/
  | engSha512
  /-- HMAC_SHA_256 (R450). -/
  | engHmacSha256
  /-- HMAC_SHA_384 (R450). -/
  | engHmacSha384
  /-- HMAC_SHA_512 (R450). -/
  | engHmacSha512
  /-- ECB_ENCRYPT (R458). -/
  | engEcbEncrypt (fault : Bool)
  /-- ECB_DECRYPT (R458). -/
  | engEcbDecrypt (fault : Bool)
  /-- CBC_ENCRYPT (R458). -/
  | engCbcEncrypt (fault : Bool)
  /-- CBC_DECRYPT (R458). -/
  | engCbcDecrypt (fault : Bool)
  /-- CTR (R458). -/
  | engCtr (fault : Bool)
  /-- GCM_ENCRYPT (R459). -/
  | engGcmEncrypt (fault : Bool)
  /-- GCM_DECRYPT (R459). -/
  | engGcmDecrypt (fault : Bool)
  /-- CMAC (R458). -/
  | engCmac (fault : Bool)
  /-- KEY_WRAP (R458). -/
  | engKeyWrap (fault : Bool)
  /-- KEY_UNWRAP (R458). -/
  | engKeyUnwrap (fault : Bool)
  /-- KEYGEN (R462). -/
  | engKeygen
  /-- PUBLIC (R461). -/
  | engPublic
  /-- SIGN (R465). -/
  | engSign (fault : Bool)
  /-- VERIFY (R466). -/
  | engVerify
  /-- ECDH (R464). -/
  | engEcdh
  /-- DESCRIPTOR_COMPLETE (R445). -/
  | descriptorComplete (eng : Fin 3)
  /-- DELTA_REPORT (R472). -/
  | deltaReport
  /-- DELTA_REPORT_APPLY (R474). -/
  | deltaReportApply (port : Fin 2)
  /-- DELTA_ACK (R473). -/
  | deltaAck (port : Fin 2)
  /-- PERSISTENCE_ROUND (R475). -/
  | persistenceRound
  /-- HIGH_WATER_UPDATE (R478). -/
  | highWaterUpdate
  /-- INIT (R498). -/
  | hookInit
  /-- TICK (R498). -/
  | hookTick (slot : Fin 8)
  /-- CLOSE (R498). -/
  | hookClose
  /-- LOAD_CHECK (R498). -/
  | hookLoadCheck
  /-- PUSH8 (R491). -/
  | acsPush8
  /-- PUSH16 (R491). -/
  | acsPush16
  /-- PUSH32 (R491). -/
  | acsPush32
  /-- DUP (R491). -/
  | acsDup
  /-- ACS_DROP (R491). -/
  | acsDrop
  /-- SWAP (R491). -/
  | acsSwap
  /-- OVER (R491). -/
  | acsOver
  /-- PICK (R491). -/
  | acsPick
  /-- ACS_ADD (R491). -/
  | acsAdd
  /-- ACS_SUB (R491). -/
  | acsSub
  /-- ACS_MUL (R491). -/
  | acsMul
  /-- ACS_DIVU (R491). -/
  | acsDivu
  /-- ACS_REMU (R491). -/
  | acsRemu
  /-- DIVS (R491). -/
  | acsDivs
  /-- REMS (R491). -/
  | acsRems
  /-- ACS_AND (R491). -/
  | acsAnd
  /-- ACS_OR (R491). -/
  | acsOr
  /-- ACS_XOR (R491). -/
  | acsXor
  /-- NOT (R491). -/
  | acsNot
  /-- ACS_SHL (R491). -/
  | acsShl
  /-- ACS_SHR (R491). -/
  | acsShr
  /-- ACS_SAR (R491). -/
  | acsSar
  /-- EQ (R491). -/
  | acsEq
  /-- LTU (R491). -/
  | acsLtu
  /-- LTS (R491). -/
  | acsLts
  /-- ADD64 (R491). -/
  | acsAdd64
  /-- SUB64 (R491). -/
  | acsSub64
  /-- LTU64 (R491). -/
  | acsLtu64
  /-- MULU64 (R491). -/
  | acsMulu64
  /-- ACS_LDW (R491). -/
  | acsLdw
  /-- ACS_STW (R491). -/
  | acsStw
  /-- ACS_LDB (R491). -/
  | acsLdb
  /-- ACS_STB (R491). -/
  | acsStb
  /-- JMP (R491). -/
  | acsJmp
  /-- JZ (R491). -/
  | acsJz
  /-- JNZ (R491). -/
  | acsJnz
  /-- CALL (R491). -/
  | acsCall
  /-- RET (R491). -/
  | acsRet
  /-- END (R491). -/
  | acsEnd
  /-- SYS_TIME (R493). -/
  | acsSysTime
  /-- PERIOD (R493). -/
  | acsPeriod
  /-- TALLY (R493). -/
  | acsTally
  /-- FLOOR (R493). -/
  | acsFloor
  /-- RAISE_FLOOR (R493). -/
  | acsRaiseFloor
  /-- HMAC (R493). -/
  | acsHmac
  /-- RANDOM (R493). -/
  | acsRandom
  /-- CLOSE_REQ (R493). -/
  | acsCloseReq
  /-- OUT (R493). -/
  | acsOut
  /-- LOAD_INFO (R493). -/
  | acsLoadInfo
  /-- LANES (R493). -/
  | acsLanes
  /-- COPY_DONE (R517). -/
  | copyDone
  /-- CHUNK_SEND (R512). -/
  | chunkSend
  /-- FW_BLOCK (R513). -/
  | fwBlock (port : Fin 2)
  /-- FW_OPEN (R515). -/
  | fwOpen (port : Fin 2)
  /-- FW_QUERY (R515). -/
  | fwQuery (port : Fin 2)
  /-- FW_ARM (R515). -/
  | fwArm (port : Fin 2)
  /-- FW_DISARM (R515). -/
  | fwDisarm (port : Fin 2)
  /-- CHAIN_LOAD_RETRY (R514). -/
  | chainLoadRetry
  /-- SWITCH_COMMIT (R517). -/
  | switchCommit
  /-- SWITCHOVER (R518). -/
  | switchover
  /-- FW_READY (R510). -/
  | fwReady (m : Master) (v : Word)
  /-- HEALTH_CONFIRM (R521). -/
  | healthConfirm (m : Master) (v : Word)
  /-- HEALTH_CHECK (R522). -/
  | healthCheck
  /-- PROBATION_EXPIRED (R523). -/
  | probationExpired
  /-- ERROR_RAISE (R531). -/
  | errorRaise (l : List Raise)
  /-- ERR_DONE (R532). -/
  | errDone (m : Master) (v : Word)
  /-- SAFE_REQUEST (R535). -/
  | safeRequest (m : Master) (v : Word)
  /-- SAFE_TIMEOUT (R535). -/
  | safeTimeout
  /-- ERR_REPORT (R539). -/
  | errReport (port : Fin 2)
  /-- TAKEOVER_PROBE (R549). -/
  | takeoverProbe
  /-- TAKEOVER (R550). -/
  | takeover
  /-- RUNHRS_UPDATE (R117). -/
  | runhrsUpdate
  /-- BIAS_LIMIT_END (R175). -/
  | biasLimitEnd (n : Fin 6)
  /-- BANK_RESPONSE_DISCARDED (R318). -/
  | bankResponseDiscarded (port : Fin 4) (wrong : Bool)
  /-- SIGNAL_LOST (R335). -/
  | signalLost (port : Fin 2)
  /-- HOST_LINK_UP (R374). -/
  | hostLinkUp
  /-- UNKNOWN_COMMAND (R383). -/
  | unknownCommand (c : HostCmd) (code : Half)
  /-- ARP_REPLY (R391). -/
  | arpReply (ip : Word)
  /-- TRST_N_ASSERT (R94). -/
  | trstNAssert
  /-- ILLEGAL_INSTRUCTION (R281). -/
  | illegalInstruction (i : Issue)
  /-- ACS_BAD_OPCODE (R492). -/
  | acsBadOpcode
  /-- ADMITTING_SHUTTER_RETRY (R30). -/
  | admittingShutterRetry (lane : BitVec 7)
  /-- ADMISSION_SHUTTER_RETRY (R547). -/
  | admissionShutterRetry (lane : BitVec 7)
  /-- INJECT_TIMEOUT (R385). -/
  | injectTimeout
  /-- RNG_REQUEST_TIMEOUT (R417). -/
  | rngRequestTimeout
  deriving DecidableEq, Repr

end Sys2Proof
end

