-- ==== Sys2Proof/Machine/Regs.lean ====
section
/-! DEFINITION. The registers: their names, addresses (R109 and the register tables of every chapter), field types (R6)
and reset values (R9). A register array takes its index as an argument. -/

namespace Sys2Proof.Machine

/-- One row of a register table: the addresses it covers and the mask of each field type of R6. A bit in no mask is RO,
WO or reserved. `lock` is the distance from the register to the one that holds its lock bit, and that bit. -/
structure RegDesc where
  base   : Nat
  stride : Nat := 4
  count  : Nat := 1
  reset  : Word := 0
  rw     : Word := 0
  w1c    : Word := 0
  w1s    : Word := 0
  rc     : Word := 0
  rwl    : Word := 0
  lockOff : Nat := 0
  lockBit : Nat := 31
  deriving DecidableEq, Repr

namespace Reg

abbrev SYS_ID : Nat := 0x40000000
abbrev SYS_ROLE : Nat := 0x40000010
abbrev SYS_STRAP : Nat := 0x40000014
abbrev SYS_SUPPLY : Nat := 0x40000018
abbrev SYS_GPIO_DIR : Nat := 0x40000100
abbrev SYS_GPIO_OUT : Nat := 0x40000104
abbrev SYS_GPIO_IN : Nat := 0x40000108
abbrev SYS_GPIO_IRQ_CFG : Nat := 0x4000010C
abbrev SYS_GPIO_IRQ_STAT : Nat := 0x40000110
abbrev SYS_TMR_LO (k : Nat) : Nat := 0x40000140 + 0x10 * k
abbrev SYS_TMR_HI (k : Nat) : Nat := 0x40000144 + 0x10 * k
abbrev SYS_TMR_CTRL (k : Nat) : Nat := 0x40000148 + 0x10 * k
abbrev SYS_PAVMB_REQ : Nat := 0x40000200
abbrev SYS_PAVMB_RSP : Nat := 0x40000204
abbrev SYS_PAVMB_RADDR : Nat := 0x40000208
abbrev CLK_STAT : Nat := 0x40010000
abbrev CLK_CT_LO : Nat := 0x40010010
abbrev CLK_CT_HI : Nat := 0x40010014
abbrev CLK_CT_SET_LO : Nat := 0x40010018
abbrev CLK_CT_SET_HI : Nat := 0x4001001C
abbrev CLK_CT_CTRL : Nat := 0x40010020
abbrev RST_CAUSE : Nat := 0x40020000
abbrev RST_DEVICE : Nat := 0x40020004
abbrev RST_CCRESTART : Nat := 0x40020008
abbrev RST_WDOG : Nat := 0x40020010
abbrev RST_WDOG_KICK : Nat := 0x40020014
abbrev MEM_SCRUB_CTRL : Nat := 0x40030000
abbrev MEM_SCRUB_PASS : Nat := 0x40030004
abbrev MEM_CE_CNT (k : Nat) : Nat := 0x40030010 + 0x4 * k
abbrev MEM_UE_ADDR : Nat := 0x40030030
abbrev MEM_POISON_HITS : Nat := 0x40030034
abbrev MRAM_STAT : Nat := 0x40040000
abbrev MRAM_CLR : Nat := 0x40040008
abbrev MRAM_CLR_STAT : Nat := 0x4004000C
abbrev MRAM_SSTAT_IDX : Nat := 0x40040010
abbrev MRAM_SSTAT : Nat := 0x40040014
abbrev MRAM_WEAR_SECTOR : Nat := 0x40040018
abbrev MRAM_CE_CNT : Nat := 0x4004001C
abbrev Q_DROP : Nat := 0x40050000
abbrev Q_STAT (k : Nat) : Nat := 0x40050100 + 0x4 * k
abbrev GATE_SYNC : Nat := 0x40060000
abbrev GATE_PSLOT (k : Nat) : Nat := 0x40060010 + 0x4 * k
abbrev GATE_SSLOT (k : Nat) : Nat := 0x40060100 + 0x4 * k
abbrev GATE_MSLOT (k : Nat) : Nat := 0x40060120 + 0x4 * k
abbrev GATE_CSLOT (k : Nat) : Nat := 0x40060140 + 0x4 * k
abbrev GATE_SCO_BASE (k : Nat) : Nat := 0x40060200 + 0x10 * k
abbrev GATE_SCO_LIMIT (k : Nat) : Nat := 0x40060204 + 0x10 * k
abbrev GATE_SCO_PERM (k : Nat) : Nat := 0x40060208 + 0x10 * k
abbrev GATE_MCO_BASE (k : Nat) : Nat := 0x40060300 + 0x10 * k
abbrev GATE_MCO_LIMIT (k : Nat) : Nat := 0x40060304 + 0x10 * k
abbrev GATE_MCO_PERM (k : Nat) : Nat := 0x40060308 + 0x10 * k
abbrev GATE_CCO_BASE (k : Nat) : Nat := 0x40060400 + 0x10 * k
abbrev GATE_CCO_LIMIT (k : Nat) : Nat := 0x40060404 + 0x10 * k
abbrev GATE_CCO_PERM (k : Nat) : Nat := 0x40060408 + 0x10 * k
abbrev GATE_FLT_ADDR (k : Nat) : Nat := 0x40060800 + 0x10 * k
abbrev GATE_FLT_INFO (k : Nat) : Nat := 0x40060804 + 0x10 * k
abbrev GATE_FLT_CNT (k : Nat) : Nat := 0x40060808 + 0x10 * k
abbrev ERR_STAT : Nat := 0x40150000
abbrev ERR_DONE : Nat := 0x40150004
abbrev ERR_SAFE_REQ : Nat := 0x40150008
abbrev ERR_OVF (k : Nat) : Nat := 0x40150010 + 0x4 * k
abbrev ERR_COUNT (k : Nat) : Nat := 0x40150030 + 0x4 * k
abbrev ERR_LATCH_CODE (k : Nat) : Nat := 0x40150100 + 0x20 * k
abbrev ERR_LATCH_DETAIL_LO (k : Nat) : Nat := 0x40150108 + 0x20 * k
abbrev ERR_LATCH_DETAIL_HI (k : Nat) : Nat := 0x4015010C + 0x20 * k
abbrev ERR_LATCH_TIME_LO (k : Nat) : Nat := 0x40150110 + 0x20 * k
abbrev ERR_LATCH_TIME_HI (k : Nat) : Nat := 0x40150114 + 0x20 * k
abbrev ERR_IRQ_PEND0 : Nat := 0x40150200
abbrev ERR_IRQ_PEND1 : Nat := 0x40150204
abbrev ERR_IRQ_EN0 : Nat := 0x40150208
abbrev ERR_IRQ_EN1 : Nat := 0x4015020C
abbrev ERR_RPTLOST : Nat := 0x40150210
abbrev ERR_EVT : Nat := 0x40150214
abbrev PAV_LC : Nat := 0x50000000
abbrev PAV_CLKCFG : Nat := 0x50000004
abbrev PAV_TAMPER_CFG : Nat := 0x50000010
abbrev PAV_TAMPER_STAT : Nat := 0x50000014
abbrev PAV_CNT_IDX : Nat := 0x50000020
abbrev PAV_CNT_ADD : Nat := 0x50000024
abbrev PAV_CNT_LO : Nat := 0x50000028
abbrev PAV_CNT_HI : Nat := 0x5000002C
abbrev PAV_RNG_STAT : Nat := 0x50000030
abbrev PAV_DBG : Nat := 0x50000040
abbrev PAV_DBG_CLOSE : Nat := 0x50000044
abbrev PAV_MEMCE : Nat := 0x50000050
abbrev HOST_STAT : Nat := 0x40110004
abbrev BFE_CTRL : Nat := 0x40070000
abbrev BFE_STAT : Nat := 0x40070004
abbrev BFE_GEOM : Nat := 0x40070010
abbrev BFE_ROWPER : Nat := 0x40070014
abbrev BFE_RDCFG : Nat := 0x40070018
abbrev BFE_INT_START : Nat := 0x4007001C
abbrev BFE_INT_END : Nat := 0x40070020
abbrev BFE_OUT : Nat := 0x40070024
abbrev BFE_BIAS (k : Nat) : Nat := 0x40070040 + 0x4 * k
abbrev BFE_BIASLIM0 : Nat := 0x40070060
abbrev BFE_BIASLIM1 : Nat := 0x40070064
abbrev BFE_BIASLIM2 : Nat := 0x40070068
abbrev BFE_BIASLIM3 : Nat := 0x4007006C
abbrev BFE_BIASLIM4 : Nat := 0x40070070
abbrev BFE_BIASLIM5 : Nat := 0x40070074
abbrev BFE_BIASLOCK : Nat := 0x40070078
abbrev BFE_BIAS_STAT : Nat := 0x4007007C
abbrev BFE_FPT_CFG : Nat := 0x40070080
abbrev BFE_FPT_RAW : Nat := 0x40070084
abbrev BFE_FPT_K : Nat := 0x40070088
abbrev BFE_FPT_STAT : Nat := 0x4007008C
abbrev BFE_FPT_TAB_RAW (k : Nat) : Nat := 0x40070090 + 0x8 * k
abbrev BFE_FPT_TAB_K (k : Nat) : Nat := 0x40070094 + 0x8 * k
abbrev BFE_CLIP (k : Nat) : Nat := 0x40070110 + 0x4 * k
abbrev BFE_FRAME : Nat := 0x40070130
abbrev SHT_CFG : Nat := 0x40080000
abbrev SHT_TIME : Nat := 0x40080004
abbrev SHT_CMD : Nat := 0x40080008
abbrev SHT_STAT : Nat := 0x4008000C
abbrev SHT_EVCNT : Nat := 0x40080010
abbrev NUC_CFG : Nat := 0x40090000
abbrev NUC_STAT : Nat := 0x40090004
abbrev NUC_OUT : Nat := 0x40090008
abbrev NUC_CADDR : Nat := 0x40090010
abbrev NUC_CDATA_LO : Nat := 0x40090014
abbrev NUC_CDATA_HI : Nat := 0x40090018
abbrev NUC_SETSEL : Nat := 0x40090020
abbrev NUC_TLO : Nat := 0x40090024
abbrev NUC_THI : Nat := 0x40090028
abbrev NUC_TREF_SET : Nat := 0x4009002C
abbrev NUC_FLAG_DT : Nat := 0x40090030
abbrev NUC_TSHUT : Nat := 0x40090034
abbrev NUC_TAU : Nat := 0x40090038
abbrev NUC_TAUCFG : Nat := 0x4009003C
abbrev NUC_TAU_FP : Nat := 0x40090040
abbrev NUC_TAU_REJECT : Nat := 0x40090044
abbrev NUC_TAU_LIMITED : Nat := 0x40090048
abbrev NUC_SAT_CNT : Nat := 0x4009004C
abbrev NUC_ECC_CNT : Nat := 0x40090050
abbrev NUC_ECC_PIX : Nat := 0x40090054
abbrev TDI_CTRL : Nat := 0x400A0000
abbrev TDI_PATH : Nat := 0x400A0004
abbrev TDI_V0 : Nat := 0x400A0008
abbrev TDI_G : Nat := 0x400A000C
abbrev TDI_PITCH : Nat := 0x400A0010
abbrev TDI_DISCARD : Nat := 0x400A0014
abbrev TDI_DLY (k : Nat) : Nat := 0x400A0100 + 0x4 * k
abbrev CAL_STATE : Nat := 0x400B0000
abbrev CAL_STAB : Nat := 0x400B0004
abbrev CAL_CAPT : Nat := 0x400B0008
abbrev CAL_GLIM : Nat := 0x400B000C
abbrev CAL_NOISE : Nat := 0x400B0010
abbrev CAL_DRIFT : Nat := 0x400B0014
abbrev CAL_SLOTSTAT : Nat := 0x400B0018
abbrev CAL_SEL : Nat := 0x400B001C
abbrev CAL_UNFIT : Nat := 0x400B0020
abbrev VIS_CTRL : Nat := 0x400C0000
abbrev VIS_STAT : Nat := 0x400C0004
abbrev VIS_FMT : Nat := 0x400C0008
abbrev VIS_LINE : Nat := 0x400C000C
abbrev VIS_FREQ : Nat := 0x400C0010
abbrev VIS_STAMP_ADJ : Nat := 0x400C0014
abbrev VIS_SWAP : Nat := 0x400C0018
abbrev VIS_TRIG : Nat := 0x400C001C
abbrev VIS_TRIG_PER : Nat := 0x400C0020
abbrev VIS_LINECNT : Nat := 0x400C0024
abbrev VIS_LENERR : Nat := 0x400C0028
abbrev VIS_DROP : Nat := 0x400C002C
abbrev VIS_UNLOCK : Nat := 0x400C0030
abbrev VIS_REG0 (k : Nat) : Nat := 0x400C1000 + 0x4 * k
abbrev VIS_REG1 (k : Nat) : Nat := 0x400C2000 + 0x4 * k
abbrev FAB_STAT : Nat := 0x400D0000
abbrev FAB_VERSION : Nat := 0x400D0004
abbrev FAB_RES_LIMIT : Nat := 0x400D0008
abbrev FAB_LAST_ERR : Nat := 0x400D000C
abbrev FAB_LATE : Nat := 0x400D0010
abbrev FAB_RES_MAX : Nat := 0x400D0014
abbrev FAB_BLIND_DROP : Nat := 0x400D0018
abbrev FAB_TALLY_BAD : Nat := 0x400D001C
abbrev FAB_CLAIM_GPIO : Nat := 0x400D0020
abbrev FAB_CLAIM_MISC : Nat := 0x400D0024
abbrev FAB_CLAIM_Q : Nat := 0x400D0028
abbrev CELL_STAT (k : Nat) : Nat := 0x400E0000 + 0x10 * k
abbrev CELL_POPSTALL (k : Nat) : Nat := 0x400E0004 + 0x10 * k
abbrev CELL_PUSHSTALL (k : Nat) : Nat := 0x400E0008 + 0x10 * k
abbrev CELL_DSU (k : Nat) : Nat := 0x400E000C + 0x10 * k
abbrev CELL_CE : Nat := 0x400E0200
abbrev CELL_EXC_FIRST : Nat := 0x400E0204
abbrev KEY_STAT : Nat := 0x50010000
abbrev KEY_CFG : Nat := 0x50010004
abbrev KEY_CMD : Nat := 0x50010008
abbrev KEY_CMD_STAT : Nat := 0x5001000C
abbrev KEY_CLR_ATTR : Nat := 0x50010010
abbrev KEY_CLR_LEN : Nat := 0x50010014
abbrev KEY_CLR_DATA (k : Nat) : Nat := 0x50010020 + 0x4 * k
abbrev KEY_SLOT_IDX : Nat := 0x50010060
abbrev KEY_SLOT_ATTR : Nat := 0x50010064
abbrev KEY_PUB (k : Nat) : Nat := 0x50010080 + 0x4 * k
abbrev KEY_SETUP_IGN : Nat := 0x500100E0
abbrev DIG_SUBMIT : Nat := 0x50020000
abbrev DIG_STAT : Nat := 0x50020004
abbrev DIG_DONE_CNT : Nat := 0x50020008
abbrev DIG_ERR_CNT : Nat := 0x5002000C
abbrev DIG_FAULT_CNT : Nat := 0x50020010
abbrev DIG_RESULT (k : Nat) : Nat := 0x50020040 + 0x4 * k
abbrev CIP_SUBMIT : Nat := 0x50030000
abbrev CIP_STAT : Nat := 0x50030004
abbrev CIP_DONE_CNT : Nat := 0x50030008
abbrev CIP_ERR_CNT : Nat := 0x5003000C
abbrev CIP_FAULT_CNT : Nat := 0x50030010
abbrev PKA_SUBMIT : Nat := 0x50040000
abbrev PKA_STAT : Nat := 0x50040004
abbrev PKA_DONE_CNT : Nat := 0x50040008
abbrev PKA_ERR_CNT : Nat := 0x5004000C
abbrev PKA_FAULT_CNT : Nat := 0x50040010
abbrev EJ_CTRL : Nat := 0x400F0000
abbrev EJ_STAT : Nat := 0x400F0004
abbrev EJ_RECBAD : Nat := 0x400F0008
abbrev EJ_DISARMED : Nat := 0x400F000C
abbrev EJ_PCFG (k : Nat) : Nat := 0x400F0100 + 0x40 * k
abbrev EJ_PTIME (k : Nat) : Nat := 0x400F0104 + 0x40 * k
abbrev EJ_PLIM (k : Nat) : Nat := 0x400F0108 + 0x40 * k
abbrev EJ_PSTAT (k : Nat) : Nat := 0x400F010C + 0x40 * k
abbrev EJ_PCLK_BM (k : Nat) : Nat := 0x400F0110 + 0x40 * k
abbrev EJ_PCLK_RATE (k : Nat) : Nat := 0x400F0114 + 0x40 * k
abbrev EJ_PLATE (k : Nat) : Nat := 0x400F0118 + 0x40 * k
abbrev EJ_PDROPPED (k : Nat) : Nat := 0x400F011C + 0x40 * k
abbrev EJ_PFIRED (k : Nat) : Nat := 0x400F0120 + 0x40 * k
abbrev EJ_PNOTFIRED (k : Nat) : Nat := 0x400F0124 + 0x40 * k
abbrev EJ_PUNKNOWN (k : Nat) : Nat := 0x400F0128 + 0x40 * k
abbrev EJ_PNOCONF (k : Nat) : Nat := 0x400F012C + 0x40 * k
abbrev EJ_PRETRY (k : Nat) : Nat := 0x400F0130 + 0x40 * k
abbrev EJ_PVIOL (k : Nat) : Nat := 0x400F0134 + 0x40 * k
abbrev EJ_PCONFLOST (k : Nat) : Nat := 0x400F0138 + 0x40 * k
abbrev EJ_PART (k : Nat) : Nat := 0x400F0200 + 0x4 * k
abbrev EJ_CLASS (k : Nat) : Nat := 0x400F0300 + 0x4 * k
abbrev FRL_CTRL : Nat := 0x40100000
abbrev FRL_STAT : Nat := 0x40100004
abbrev FRL_TOFFS : Nat := 0x40100008
abbrev FRL_TOUTLIER : Nat := 0x4010000C
abbrev FRL_RING : Nat := 0x40100010
abbrev FRL_PDELAY (k : Nat) : Nat := 0x40100020 + 0x20 * k
abbrev FRL_PCRC (k : Nat) : Nat := 0x40100024 + 0x20 * k
abbrev FRL_PNAK (k : Nat) : Nat := 0x40100028 + 0x20 * k
abbrev FRL_PREPLAY (k : Nat) : Nat := 0x4010002C + 0x20 * k
abbrev FRL_PABORT (k : Nat) : Nat := 0x40100030 + 0x20 * k
abbrev FRL_PBADOS (k : Nat) : Nat := 0x40100034 + 0x20 * k
abbrev FRL_PDOWN (k : Nat) : Nat := 0x40100038 + 0x20 * k
abbrev FRL_AUTHFAIL : Nat := 0x40100060
abbrev FRL_FEAT_DROP : Nat := 0x40100064
abbrev HOST_CTRL : Nat := 0x40110000
abbrev HOST_MAC_LO : Nat := 0x40110008
abbrev HOST_MAC_HI : Nat := 0x4011000C
abbrev HOST_RXFRAMES : Nat := 0x40110010
abbrev HOST_FOREIGN : Nat := 0x40110014
abbrev HOST_BADHDR : Nat := 0x40110018
abbrev HOST_RXDROP : Nat := 0x4011001C
abbrev HOST_FEAT_DROP : Nat := 0x40110020
abbrev PLANT_STAT : Nat := 0x40120000
abbrev PLANT_TX : Nat := 0x40120004
abbrev PLANT_RXDROP : Nat := 0x40120008
abbrev PLANT_NOARP : Nat := 0x4012000C
abbrev LOOP_CTRL (k : Nat) : Nat := 0x40130000 + 0x10 * k
abbrev LOOP_CMD (k : Nat) : Nat := 0x40130004 + 0x10 * k
abbrev LOOP_MEAS (k : Nat) : Nat := 0x40130008 + 0x10 * k
abbrev LOOP_STAT : Nat := 0x40130020
abbrev FW_STAT : Nat := 0x40140000
abbrev FW_READY : Nat := 0x40140004
abbrev FW_CONFIRM : Nat := 0x40140008
abbrev FW_PROB_LEFT : Nat := 0x4014000C
abbrev FW_SWITCH_AT_LO : Nat := 0x40140010
abbrev FW_SWITCH_AT_HI : Nat := 0x40140014
abbrev FW_SWITCH_CTRL : Nat := 0x40140018
abbrev FW_PACE : Nat := 0x4014001C
abbrev FW_VERSION : Nat := 0x40140020
abbrev SVC_STAT : Nat := 0x40160000
abbrev SVC_UPTIME : Nat := 0x40160004
abbrev SVC_RUNHRS : Nat := 0x40160008
abbrev SVC_STARTS : Nat := 0x4016000C
abbrev SVC_TJ : Nat := 0x40160010
abbrev SVC_VIN : Nat := 0x40160014
abbrev ACS_STAT : Nat := 0x50050000
abbrev ACS_TRAPS : Nat := 0x50050004
abbrev ACS_RSEQ : Nat := 0x50050008
abbrev ACS_BASE : Nat := 0x5005000C
abbrev ACS_REGRESS : Nat := 0x50050010
abbrev ACS_TALLY_LO (k : Nat) : Nat := 0x50050100 + 0x8 * k
abbrev ACS_TALLY_HI (k : Nat) : Nat := 0x50050104 + 0x8 * k

end Reg

/-- The registers of the block at 0x4000_0000. -/
def regTable4000 : List RegDesc := [
  { base := 0x40000000, reset := 0x72400011 },
  { base := 0x40000010, reset := 0xFF0000 },
  { base := 0x40000014, reset := 0x28 },
  { base := 0x40000018, reset := 0xF8 },
  { base := 0x40000100, rw := 0xFFFF },
  { base := 0x40000104, rw := 0xFFFF },
  { base := 0x40000108 },
  { base := 0x4000010C, rw := 0xFFFFFFFF },
  { base := 0x40000110, w1c := 0xFFFF },
  { base := 0x40000140, stride := 0x10, count := 8, rw := 0xFFFFFFFF },
  { base := 0x40000144, stride := 0x10, count := 8, rw := 0xFFFFFFFF },
  { base := 0x40000148, stride := 0x10, count := 8, rw := 0x1, w1c := 0x2 },
  { base := 0x40000200, rw := 0xFFFFFFFF },
  { base := 0x40000204, w1c := 0x40000000 },
  { base := 0x40000208 }]

/-- The registers of the block at 0x4001_0000. -/
def regTable4001 : List RegDesc := [
  { base := 0x40010000, reset := 0x3 },
  { base := 0x40010010 },
  { base := 0x40010014 },
  { base := 0x40010018, rw := 0xFFFFFFFF },
  { base := 0x4001001C, rw := 0xFFFFFFFF },
  { base := 0x40010020 }]

/-- The registers of the block at 0x4002_0000. -/
def regTable4002 : List RegDesc := [
  { base := 0x40020000 },
  { base := 0x40020004 },
  { base := 0x40020008 },
  { base := 0x40020010, reset := 0x107D0, w1s := 0x80000000, rwl := 0x1FFFF },
  { base := 0x40020014 }]

/-- The registers of the block at 0x4003_0000. -/
def regTable4003 : List RegDesc := [
  { base := 0x40030000, reset := 0x11000, w1s := 0x80000000, rwl := 0x1FFFF },
  { base := 0x40030004 },
  { base := 0x40030010, stride := 0x4, count := 8, rc := 0xFFFF },
  { base := 0x40030030 },
  { base := 0x40030034, rc := 0xFFFF }]

/-- The registers of the block at 0x4004_0000. -/
def regTable4004 : List RegDesc := [
  { base := 0x40040000, reset := 0x40000000 },
  { base := 0x40040008 },
  { base := 0x4004000C },
  { base := 0x40040010, rw := 0x7FF },
  { base := 0x40040014 },
  { base := 0x40040018, reset := 0x7FF },
  { base := 0x4004001C, rc := 0xFFFFFFFF }]

/-- The registers of the block at 0x4005_0000. -/
def regTable4005 : List RegDesc := [
  { base := 0x40050000 },
  { base := 0x40050100, stride := 0x4, count := 24, rc := 0xFFF00000 }]

/-- The registers of the block at 0x4006_0000. -/
def regTable4006 : List RegDesc := [
  { base := 0x40060000 },
  { base := 0x40060010, stride := 0x4, count := 23, reset := 0x10000C0F, w1s := 0x80000000, rwl := 0x40000FFF },
  { base := 0x40060100, stride := 0x4, count := 8, reset := 0x10000C0F, w1s := 0x80000000, rwl := 0x40000FFF },
  { base := 0x40060120, stride := 0x4, count := 8, reset := 0x1000040F, w1s := 0x80000000, rwl := 0x40000FFF },
  { base := 0x40060140, stride := 0x4, count := 8, reset := 0x10000431, w1s := 0x80000000, rwl := 0x40000FFF },
  { base := 0x40060200, stride := 0x10, count := 8, rwl := 0x7FF, lockOff := 0x8 },
  { base := 0x40060204, stride := 0x10, count := 8, rwl := 0x7FF, lockOff := 0x4 },
  { base := 0x40060208, stride := 0x10, count := 8, w1s := 0x80000000, rwl := 0x50000FFF },
  { base := 0x40060300, stride := 0x10, count := 8, rwl := 0x7FF, lockOff := 0x8 },
  { base := 0x40060304, stride := 0x10, count := 8, rwl := 0x7FF, lockOff := 0x4 },
  { base := 0x40060308, stride := 0x10, count := 8, w1s := 0x80000000, rwl := 0x50000FFF },
  { base := 0x40060400, stride := 0x10, count := 8, rwl := 0x7FF, lockOff := 0x8 },
  { base := 0x40060404, stride := 0x10, count := 8, rwl := 0x7FF, lockOff := 0x4 },
  { base := 0x40060408, stride := 0x10, count := 8, w1s := 0x80000000, rwl := 0x50000FFF },
  { base := 0x40060800, stride := 0x10, count := 8 },
  { base := 0x40060804, stride := 0x10, count := 8, w1c := 0x80000000 },
  { base := 0x40060808, stride := 0x10, count := 8, rc := 0xFFFF }]

/-- The registers of the block at 0x4015_0000. -/
def regTable4015 : List RegDesc := [
  { base := 0x40150000 },
  { base := 0x40150004 },
  { base := 0x40150008 },
  { base := 0x40150010, stride := 0x4, count := 5, rc := 0xFFFF },
  { base := 0x40150030, stride := 0x4, count := 5 },
  { base := 0x40150100, stride := 0x20, count := 5 },
  { base := 0x40150108, stride := 0x20, count := 5 },
  { base := 0x4015010C, stride := 0x20, count := 5 },
  { base := 0x40150110, stride := 0x20, count := 5 },
  { base := 0x40150114, stride := 0x20, count := 5 },
  { base := 0x40150200 },
  { base := 0x40150204 },
  { base := 0x40150208, rw := 0xFFFFFFFF },
  { base := 0x4015020C, rw := 0xFFFFFFFF },
  { base := 0x40150210, rc := 0xFFFFFFFF },
  { base := 0x40150214, w1c := 0x73FE }]

/-- The registers of the block at 0x5000_0000. -/
def regTable5000 : List RegDesc := [
  { base := 0x50000000 },
  { base := 0x50000004, rw := 0x1 },
  { base := 0x50000010, reset := 0x400013, w1s := 0x80000000, rwl := 0xFF003F },
  { base := 0x50000014, w1c := 0x3F },
  { base := 0x50000020, rw := 0x3FF },
  { base := 0x50000024 },
  { base := 0x50000028 },
  { base := 0x5000002C },
  { base := 0x50000030 },
  { base := 0x50000040 },
  { base := 0x50000044 },
  { base := 0x50000050, rc := 0xFFFF }]

/-- The registers of the block at 0x4011_0000. -/
def regTable4011 : List RegDesc := [
  { base := 0x40110004 },
  { base := 0x40110000, reset := 0x1, rw := 0x1 },
  { base := 0x40110008, reset := 0x4D000000, rw := 0xFFFFFFFF },
  { base := 0x4011000C, reset := 0x24C, rw := 0xFFFF },
  { base := 0x40110010, rc := 0xFFFFFFFF },
  { base := 0x40110014, rc := 0xFFFFFFFF },
  { base := 0x40110018, rc := 0xFFFFFFFF },
  { base := 0x4011001C, rc := 0xFFFFFFFF },
  { base := 0x40110020, rc := 0xFFFFFFFF }]

/-- The registers of the block at 0x4007_0000. -/
def regTable4007 : List RegDesc := [
  { base := 0x40070000, rw := 0x1 },
  { base := 0x40070004 },
  { base := 0x40070010, rw := 0xEF7F07FF },
  { base := 0x40070014, reset := 0x7D0, rw := 0xFFFFF },
  { base := 0x40070018, rw := 0xFFFFFFFF },
  { base := 0x4007001C, rw := 0xFFFFF },
  { base := 0x40070020, rw := 0xFFFFF },
  { base := 0x40070024, rw := 0xFFFF },
  { base := 0x40070040, stride := 0x4, count := 6, rw := 0x8000FFFF },
  { base := 0x40070060, rwl := 0xFFFFFFFF, lockOff := 0x18, lockBit := 0 },
  { base := 0x40070064, rwl := 0xFFFFFFFF, lockOff := 0x14, lockBit := 0 },
  { base := 0x40070068, rwl := 0xFFFFFFFF, lockOff := 0x10, lockBit := 0 },
  { base := 0x4007006C, rwl := 0xFFFFFFFF, lockOff := 0xC, lockBit := 0 },
  { base := 0x40070070, rwl := 0xFFFFFFFF, lockOff := 0x8, lockBit := 0 },
  { base := 0x40070074, rwl := 0xFFFFFFFF, lockOff := 0x4, lockBit := 0 },
  { base := 0x40070078, w1s := 0x1 },
  { base := 0x4007007C, w1c := 0x3F },
  { base := 0x40070080, reset := 0x6400, rw := 0xFF03 },
  { base := 0x40070084 },
  { base := 0x40070088 },
  { base := 0x4007008C },
  { base := 0x40070090, stride := 0x8, count := 16, rw := 0xFFFFFFFF },
  { base := 0x40070094, stride := 0x8, count := 16, rw := 0xFFFFFFFF },
  { base := 0x40070110, stride := 0x4, count := 8, rc := 0xFFFFFFFF },
  { base := 0x40070130 }]

/-- The registers of the block at 0x4008_0000. -/
def regTable4008 : List RegDesc := [
  { base := 0x40080000, reset := 0x801E000A, rw := 0xC0FF001F },
  { base := 0x40080004, reset := 0x960028, rw := 0x3FF00FF },
  { base := 0x40080008 },
  { base := 0x4008000C },
  { base := 0x40080010, rc := 0xFFFFFFFF }]

/-- The registers of the block at 0x4009_0000. -/
def regTable4009 : List RegDesc := [
  { base := 0x40090000, reset := 0x1, rw := 0x1 },
  { base := 0x40090004 },
  { base := 0x40090008, reset := 0x4, rw := 0xF },
  { base := 0x40090010, rw := 0xC001FFFF },
  { base := 0x40090014, rw := 0xFFFFFFFF },
  { base := 0x40090018, rw := 0xFFFFFFFF },
  { base := 0x40090020, rw := 0xF },
  { base := 0x40090024, rw := 0xFFFFFFFF },
  { base := 0x40090028, rw := 0xFFFFFFFF },
  { base := 0x4009002C, rw := 0xFFFFFFFF },
  { base := 0x40090030, rw := 0xFFFFFFFF },
  { base := 0x40090034 },
  { base := 0x40090038, reset := 0x400, rw := 0xFFF },
  { base := 0x4009003C, reset := 0x10060810, rw := 0xFF0FFFFF },
  { base := 0x40090040, rw := 0x7FFFFFF },
  { base := 0x40090044, rc := 0xFFFFFFFF },
  { base := 0x40090048, rc := 0xFFFFFFFF },
  { base := 0x4009004C, rc := 0xFFFFFFFF },
  { base := 0x40090050, rc := 0xFFFF },
  { base := 0x40090054 }]

/-- The registers of the block at 0x400A_0000. -/
def regTable400A : List RegDesc := [
  { base := 0x400A0000 },
  { base := 0x400A0004, rw := 0x7F7F00FF },
  { base := 0x400A0008, rw := 0xFFFF },
  { base := 0x400A000C, reset := 0x264F, rw := 0xFFFF },
  { base := 0x400A0010, rw := 0xFFFF },
  { base := 0x400A0014, rc := 0xFFFFFFFF },
  { base := 0x400A0100, stride := 0x4, count := 96 }]

/-- The registers of the block at 0x400B_0000. -/
def regTable400B : List RegDesc := [
  { base := 0x400B0000 },
  { base := 0x400B0004, reset := 0x20200064, rw := 0xFFFFFFFF },
  { base := 0x400B0008, reset := 0x40012C, rw := 0x1FFFFFF },
  { base := 0x400B000C, reset := 0x40000052, rw := 0xFFFFFFFF },
  { base := 0x400B0010, reset := 0xA000028, rw := 0xFF003FFF },
  { base := 0x400B0014, reset := 0x70801F4, rw := 0xFFFFFFFF },
  { base := 0x400B0018 },
  { base := 0x400B001C },
  { base := 0x400B0020 }]

/-- The registers of the block at 0x400C_0000. -/
def regTable400C : List RegDesc := [
  { base := 0x400C0000, rw := 0x7 },
  { base := 0x400C0004 },
  { base := 0x400C0008, rw := 0xF0300 },
  { base := 0x400C000C, rw := 0x3FFF },
  { base := 0x400C0010 },
  { base := 0x400C0014, rw := 0xFFFFFFFF },
  { base := 0x400C0018 },
  { base := 0x400C001C, rw := 0x810FFFFF },
  { base := 0x400C0020, rw := 0xFFFFFFFF },
  { base := 0x400C0024 },
  { base := 0x400C0028, rc := 0xFFFFFFFF },
  { base := 0x400C002C, rc := 0xFFFFFFFF },
  { base := 0x400C0030, rc := 0xFFFFFFFF },
  { base := 0x400C1000, stride := 0x4, count := 1024, rw := 0x9FFF003F },
  { base := 0x400C2000, stride := 0x4, count := 1024, rw := 0x9FFF003F }]

/-- The registers of the block at 0x400D_0000. -/
def regTable400D : List RegDesc := [
  { base := 0x400D0000 },
  { base := 0x400D0004 },
  { base := 0x400D0008 },
  { base := 0x400D000C },
  { base := 0x400D0010, rc := 0xFFFFFFFF },
  { base := 0x400D0014, rc := 0x3FFF },
  { base := 0x400D0018, rc := 0xFFFFFFFF },
  { base := 0x400D001C, rc := 0xFFFFFFFF },
  { base := 0x400D0020 },
  { base := 0x400D0024 },
  { base := 0x400D0028 }]

/-- The registers of the block at 0x400E_0000. -/
def regTable400E : List RegDesc := [
  { base := 0x400E0000, stride := 0x10, count := 32 },
  { base := 0x400E0004, stride := 0x10, count := 32, rc := 0xFFFFFFFF },
  { base := 0x400E0008, stride := 0x10, count := 32, rc := 0xFFFFFFFF },
  { base := 0x400E000C, stride := 0x10, count := 32, rc := 0xFFFFFFFF },
  { base := 0x400E0200, rc := 0xFFFF },
  { base := 0x400E0204 }]

/-- The registers of the block at 0x5001_0000. -/
def regTable5001 : List RegDesc := [
  { base := 0x50010000 },
  { base := 0x50010004, reset := 0x1, w1s := 0x80000000, rwl := 0xFF },
  { base := 0x50010008 },
  { base := 0x5001000C },
  { base := 0x50010010, rw := 0xFFFFFFFF },
  { base := 0x50010014, rw := 0x7F },
  { base := 0x50010020, stride := 0x4, count := 16 },
  { base := 0x50010060, rw := 0x1FF },
  { base := 0x50010064 },
  { base := 0x50010080, stride := 0x4, count := 24 },
  { base := 0x500100E0, rc := 0xFFFFFFFF }]

/-- The registers of the block at 0x5002_0000. -/
def regTable5002 : List RegDesc := [
  { base := 0x50020000 },
  { base := 0x50020004 },
  { base := 0x50020008 },
  { base := 0x5002000C, rc := 0xFFFFFFFF },
  { base := 0x50020010, rc := 0xFFFF },
  { base := 0x50020040, stride := 0x4, count := 16 }]

/-- The registers of the block at 0x5003_0000. -/
def regTable5003 : List RegDesc := [
  { base := 0x50030000 },
  { base := 0x50030004 },
  { base := 0x50030008 },
  { base := 0x5003000C, rc := 0xFFFFFFFF },
  { base := 0x50030010, rc := 0xFFFF }]

/-- The registers of the block at 0x5004_0000. -/
def regTable5004 : List RegDesc := [
  { base := 0x50040000 },
  { base := 0x50040004 },
  { base := 0x50040008 },
  { base := 0x5004000C, rc := 0xFFFFFFFF },
  { base := 0x50040010, rc := 0xFFFF }]

/-- The registers of the block at 0x400F_0000. -/
def regTable400F : List RegDesc := [
  { base := 0x400F0000, rw := 0xFF03 },
  { base := 0x400F0004 },
  { base := 0x400F0008, rc := 0xFFFFFFFF },
  { base := 0x400F000C, rc := 0xFFFFFFFF },
  { base := 0x400F0100, stride := 0x40, count := 4, reset := 0x30A07D0, rw := 0xC7FF0FFF },
  { base := 0x400F0104, stride := 0x40, count := 4, reset := 0x3E8, rw := 0xFFFFFFFF },
  { base := 0x400F0108, stride := 0x40, count := 4, reset := 0xC8, rw := 0xFFFF },
  { base := 0x400F010C, stride := 0x40, count := 4 },
  { base := 0x400F0110, stride := 0x40, count := 4 },
  { base := 0x400F0114, stride := 0x40, count := 4 },
  { base := 0x400F0118, stride := 0x40, count := 4, rc := 0xFFFFFFFF },
  { base := 0x400F011C, stride := 0x40, count := 4, rc := 0xFFFFFFFF },
  { base := 0x400F0120, stride := 0x40, count := 4, rc := 0xFFFFFFFF },
  { base := 0x400F0124, stride := 0x40, count := 4, rc := 0xFFFFFFFF },
  { base := 0x400F0128, stride := 0x40, count := 4, rc := 0xFFFFFFFF },
  { base := 0x400F012C, stride := 0x40, count := 4, rc := 0xFFFFFFFF },
  { base := 0x400F0130, stride := 0x40, count := 4, rc := 0xFFFFFFFF },
  { base := 0x400F0134, stride := 0x40, count := 4, rc := 0xFFFFFFFF },
  { base := 0x400F0138, stride := 0x40, count := 4, rc := 0xFFFFFFFF },
  { base := 0x400F0200, stride := 0x4, count := 8 },
  { base := 0x400F0300, stride := 0x4, count := 16, rc := 0xFFFFFFFF }]

/-- The registers of the block at 0x4010_0000. -/
def regTable4010 : List RegDesc := [
  { base := 0x40100000, reset := 0x3, rw := 0x3 },
  { base := 0x40100004 },
  { base := 0x40100008 },
  { base := 0x4010000C, rc := 0xFFFFFFFF },
  { base := 0x40100010 },
  { base := 0x40100020, stride := 0x20, count := 2 },
  { base := 0x40100024, stride := 0x20, count := 2, rc := 0xFFFFFFFF },
  { base := 0x40100028, stride := 0x20, count := 2, rc := 0xFFFFFFFF },
  { base := 0x4010002C, stride := 0x20, count := 2, rc := 0xFFFFFFFF },
  { base := 0x40100030, stride := 0x20, count := 2, rc := 0xFFFFFFFF },
  { base := 0x40100034, stride := 0x20, count := 2, rc := 0xFFFFFFFF },
  { base := 0x40100038, stride := 0x20, count := 2, rc := 0xFFFFFFFF },
  { base := 0x40100060, rc := 0xFFFFFFFF },
  { base := 0x40100064, rc := 0xFFFFFFFF }]

/-- The registers of the block at 0x4012_0000. -/
def regTable4012 : List RegDesc := [
  { base := 0x40120000, reset := 0x2 },
  { base := 0x40120004, rc := 0xFFFFFFFF },
  { base := 0x40120008, rc := 0xFFFFFFFF },
  { base := 0x4012000C, rc := 0xFFFFFFFF }]

/-- The registers of the block at 0x4013_0000. -/
def regTable4013 : List RegDesc := [
  { base := 0x40130000, stride := 0x10, count := 2, rw := 0x30003 },
  { base := 0x40130004, stride := 0x10, count := 2, reset := 0xE10, rw := 0x7FFF },
  { base := 0x40130008, stride := 0x10, count := 2 },
  { base := 0x40130020 }]

/-- The registers of the block at 0x4014_0000. -/
def regTable4014 : List RegDesc := [
  { base := 0x40140000 },
  { base := 0x40140004 },
  { base := 0x40140008 },
  { base := 0x4014000C },
  { base := 0x40140010, rw := 0xFFFFFFFF },
  { base := 0x40140014, rw := 0xFFFFFFFF },
  { base := 0x40140018, rw := 0x1 },
  { base := 0x4014001C, reset := 0x2BC, rw := 0x3FFF },
  { base := 0x40140020 }]

/-- The registers of the block at 0x4016_0000. -/
def regTable4016 : List RegDesc := [
  { base := 0x40160000 },
  { base := 0x40160004 },
  { base := 0x40160008 },
  { base := 0x4016000C },
  { base := 0x40160010 },
  { base := 0x40160014 }]

/-- The registers of the block at 0x5005_0000. -/
def regTable5005 : List RegDesc := [
  { base := 0x50050000 },
  { base := 0x50050004, rc := 0xFFFFFFFF },
  { base := 0x50050008 },
  { base := 0x5005000C },
  { base := 0x50050010, rc := 0xFFFFFFFF },
  { base := 0x50050100, stride := 0x8, count := 16 },
  { base := 0x50050104, stride := 0x8, count := 16 }]

/-- The register table of the 64 KiB block that holds an address (R109). -/
def regTable (a : Nat) : List RegDesc :=
  match a / 0x10000 with
  | 0x4000 => regTable4000
  | 0x4001 => regTable4001
  | 0x4002 => regTable4002
  | 0x4003 => regTable4003
  | 0x4004 => regTable4004
  | 0x4005 => regTable4005
  | 0x4006 => regTable4006
  | 0x4015 => regTable4015
  | 0x5000 => regTable5000
  | 0x4011 => regTable4011
  | 0x4007 => regTable4007
  | 0x4008 => regTable4008
  | 0x4009 => regTable4009
  | 0x400A => regTable400A
  | 0x400B => regTable400B
  | 0x400C => regTable400C
  | 0x400D => regTable400D
  | 0x400E => regTable400E
  | 0x5001 => regTable5001
  | 0x5002 => regTable5002
  | 0x5003 => regTable5003
  | 0x5004 => regTable5004
  | 0x400F => regTable400F
  | 0x4010 => regTable4010
  | 0x4012 => regTable4012
  | 0x4013 => regTable4013
  | 0x4014 => regTable4014
  | 0x4016 => regTable4016
  | 0x5005 => regTable5005
  | _ => []

/-- Whether a table row covers an address. -/
def RegDesc.covers (d : RegDesc) (a : Nat) : Bool :=
  d.base ≤ a && (a - d.base) % d.stride == 0 && (a - d.base) / d.stride < d.count

/-- The table row of an address; none where no register is named (R578). -/
def regDesc (a : Nat) : Option RegDesc := (regTable a).find? (·.covers a)

end Sys2Proof.Machine
end

