-- ==== Sys2Proof/Config.lean ====
section
/-! DEFINITION. What the manual leaves open: constants without a body, so that no proof can see a value of one. -/

namespace Sys2Proof.Config

/-- Free 32-bit values, one for each draw (random numbers R417, unspecified results). -/
opaque freeWord : Nat → Word
/-- Free 64-bit values, one for each draw. -/
opaque freeDWord : Nat → DWord
/-- Free bytes, one for each draw (nonces, scalars, masks). -/
opaque freeByte : Nat → Byte
/-- Free counts, one for each draw (the lag of a queue flag, R134). -/
opaque freeNat : Nat → Nat
/-- The undocumented content of the boot ROM (R108), by byte address. -/
opaque romByte : Nat → Byte

/-- The root secret that the PUF array yields (R421), by byte. -/
opaque rootByte : Nat → Byte
/-- The Lulomus keys held in ROM, by byte: 0 ownership (R435), 1 debug (R418), 2 firmware signing. -/
opaque lulomusByte : Nat → Nat → Byte

end Sys2Proof.Config
end

