-- ==== Sys2Proof/Machine/State.lean ====
section
/-! DEFINITION. The state of the block, as plain data, and the state after reset. Every field's default is its value
right after a power-on reset has been released (R9, R92), so `State.reset` is the structure of all defaults. A register
the manual numbers has one home: the list `regs`, sparse over the reset values of its register table. -/

namespace Sys2Proof.Machine

/-- A sparse map: keys strictly rising, no entry equal to what an unlisted key reads as. -/
abbrev Sparse (α : Type) := List (Nat × α)

/-- The byte-addressed memories of R108: system SRAM, MRAM, enclave SRAM and cell data memories. -/
abbrev Memory := List Host.Cell

/-- Something the block sends out or answers: the observable effect of a command. -/
inductive Output where
  /-- The response to a bus access: data of a read, or nothing, and the precise error (0 for none). -/
  | busResp (m : Master) (data : List Byte) (err : Half)
  /-- An event frame on the machine link (R387, R388). -/
  | event (eseq : Nat) (code : Half) (lane : Nat) (body : List Byte)
  /-- An engine raises its completion interrupt to EN (R445): 0 digest, 1 cipher, 2 public-key. -/
  | engineDone (engine : Nat) (code : Half)
  /-- What the PAV debug data register returns (R418): nonce, level and life-cycle state. -/
  | debugChallenge (nonce : List Byte) (level lc : Nat)
  /-- A frame on ejector link `port` (R317). -/
  | ejFrame (port : Nat) (bytes : List Byte)
  /-- A Farandole port starts a frame: SOF and header (R337). -/
  | frlHead (port : Nat) (hdr : List Byte)
  /-- A Farandole port ends a frame: payload and FCS, then EOF, or ABORT (R347). -/
  | frlTail (port : Nat) (bytes : List Byte) (good : Bool)
  /-- An ACK, or a NAK, as a Farandole port sends it (R334). -/
  | frlAck (port : Nat) (nak : Bool) (s0 s1 chk : Byte)
  /-- A TRAIN group (R335): the port's letter and STATE. -/
  | frlTrain (port : Nat) (letter state : Byte)
  /-- A response on the machine link (R375): destination, CODE, TXN, EPOCH, STATUS, LANE and body. -/
  | response (dst : BitVec 48) (code : Half) (txn epoch : Word) (status : Half) (lane : Nat) (body : List Byte)
  /-- A feature frame on the machine link (R389). -/
  | feature (lane : Nat) (body : List Byte)
  /-- A UDP datagram's payload on the plant port (R393). -/
  | datagram (dst : Word) (bytes : List Byte)
  /-- An ARP packet on the plant port (R391): reply or request, and the address asked for or announced. -/
  | arp (reply : Bool) (ip : Word)
  /-- An ICMP echo reply on the plant port (R391). -/
  | echo (data : List Byte)
  deriving DecidableEq, Repr

/-! ## Power, clocks and reset -/

/-- How far the power-up sequence of R51 has come. -/
inductive PowerPhase where
  /-- VIN has not passed 2.9 V since the last power fail (R54). -/
  | off
  /-- Steps 1 to 6: storage, regulators, resonator. -/
  | ramping
  /-- Step 7: the PLL has held lock and clocks are distributed; step 8 waits for bank 2 (R44). -/
  | locked
  /-- Power-on reset is released. -/
  | running
  deriving DecidableEq, Repr

/-- The voltage classification of an IO bank (R43). -/
inductive BankState where
  | disabled | on18 | on33
  deriving DecidableEq, Repr

/-- The level of the EJ_PERMIT ball (R41). -/
inductive Permit where
  | highZ | low | high
  deriving DecidableEq, Repr

/-- What the control core is running (R95, R96, R106, R421). -/
inductive CoreMode where
  /-- The boot ROM, before the root secret is regenerated. -/
  | romStart
  /-- ROM listen state: forwards ring traffic and admits nothing. -/
  | listen
  /-- ROM recovery of a manager (R107). -/
  | recovery
  /-- The ROM warm path of a control-core restart (R96). -/
  | warm
  /-- Lulomus firmware. -/
  | firmware
  deriving DecidableEq, Repr

structure PowerSt where
  phase     : PowerPhase := .running
  bank1     : BankState := .on33
  bank2     : BankState := .on33
  /-- The internal storage has fallen below 1.8 V since the last power-on reset (R57). -/
  drained   : Bool := false
  ejPermit  : Permit := .low
  /-- External levels of the GPIO balls (R58). -/
  gpioIn    : BitVec 16 := 0
  /-- The shutter reservoir holds at least 3.8 V (R69). -/
  resReady  : Bool := false
  /-- The JTAG test access port is in reset (R94). -/
  tapReset  : Bool := true
  deriving DecidableEq, Repr

/-- A device reset that is asserted (R91): what still holds it. -/
structure ResetSt where
  /-- Device reset is asserted. -/
  asserted  : Bool := false
  /-- RESET_N is low past its filter (R50). -/
  resetNLow : Bool := false
  /-- The clock monitor has declared a failure and the clock has not recovered (R83). -/
  clockBad  : Bool := false
  /-- RESET_DEVICE has been answered; the reset follows once the response has left (R383). -/
  due       : Bool := false
  deriving DecidableEq, Repr

structure CoreSt where
  mode       : CoreMode := .romStart
  /-- The tick of the last kick of the watchdog, counted from the release of device reset (R101). -/
  kick       : Nat := 0
  /-- The root secret is present in the enclave (R421). -/
  rootSecret : Bool := false
  /-- The root secret could not be regenerated (R421). -/
  rootFailed : Bool := false
  /-- A clock failure caused the last reset and firmware has not yet reported 0x0010 (R83). -/
  owesClockFail : Bool := false
  /-- A watchdog restart that firmware has not yet reported as 0x0011 (R101). -/
  owesWdog   : Bool := false
  /-- An ERASE whose report 0x9002 firmware owes after the start, and its sensor (R414). -/
  owesErase  : Option (Fin 6) := none
  /-- 0xE020 has been raised since the last start (R555). -/
  sparesWarned : Bool := false
  deriving DecidableEq, Repr

/-! ## Memories and queues -/

/-- One MRAM word on its way to the programming engine (R119). -/
structure MWord where
  /-- The write it belongs to. -/
  id     : Nat
  master : Master
  addr   : Nat
  data   : DWord
  /-- Last word of its write: its programming sends the response. -/
  last   : Bool
  deriving DecidableEq, Repr

/-- The current sector clear (R122–R124). -/
structure ClearSt where
  sector    : Nat
  suspended : Bool
  /-- SUSPEND takes effect when the step in progress completes. -/
  suspendRq : Bool
  /-- Words cleared, 0 to 512. -/
  done      : Nat
  /-- Who started it. -/
  master    : Master
  deriving DecidableEq, Repr

structure MramSt where
  /-- Sector status codes of R121, sparse over 0 (VALID). -/
  status   : Sparse Nat := []
  /-- Words that read uncorrectable (R118, R131), by byte address. -/
  bad      : List Nat := []
  /-- Words read and bits corrected of each sector (R129). -/
  wear     : Sparse (Nat × Nat) := []
  engine   : Option MWord := none
  /-- The write buffer: at most four words. -/
  buffer   : List MWord := []
  /-- Words of stalled writes, in order of arrival (R119). -/
  waiting  : List MWord := []
  clear    : Option ClearSt := none
  /-- The next word of the patrol reader, as a word index (R130). -/
  patrol   : Nat := 0
  /-- Sectors to be retired; the copy of the first into a spare runs (R131). -/
  retiring : List Nat := []
  /-- Sectors remapped to a spare (R121). -/
  remapped : List Nat := []
  /-- A START of the retiring sector, which stalls until its copy ends (R131). -/
  clearWait : Option (Nat × Master) := none
  /-- The number of the next write. -/
  nextId   : Nat := 0
  deriving DecidableEq, Repr

/-- An entry in a crossing queue, with the curtain time of its writing, which bounds the flag lag of R134. -/
structure QSlot where
  entry : QEntry
  time  : CTime
  deriving DecidableEq, Repr

/-- One crossing queue (R133–R137). -/
structure Queue where
  slots     : List QSlot := []
  /-- Entries a stalled writer is holding. -/
  stalled   : List QEntry := []
  /-- The writer has written at least one entry of its packet. -/
  midPacket : Bool := false
  /-- The writer discards the rest of its packet. -/
  discard   : Bool := false
  /-- A truncated packet's abort entry is still to be written when space frees. -/
  owesAbort : Bool := false
  /-- The reader has read an entry since the last end-of-packet entry (R136). -/
  begun     : Bool := false
  /-- Q_DROP discards arriving entries (DROPPING). -/
  dropping  : Bool := false
  /-- When the reader last freed space in a full queue: the full flag may persist for a while (R134). -/
  freedAt   : Option CTime := none
  deriving DecidableEq, Repr

/-- A low-half write held in a master's pair buffer (R112). -/
structure PairHold where
  master : Master
  addr   : Nat
  data   : List Byte
  deriving DecidableEq, Repr

/-- A GATE_SYNC read that waits (R159): accesses with a smaller id must complete first. -/
structure SyncWait where
  master : Master
  mark   : Nat
  /-- Word addresses of the same access still to be read, and the data already read (R577). -/
  rest   : List Nat := []
  got    : List Byte := []
  deriving DecidableEq, Repr

structure GateSt where
  /-- The MRAM-write id at the last rule write that took effect. -/
  mark  : Nat := 0
  waits : List SyncWait := []
  /-- Reads of a curtain-time half captured for each master (R87). -/
  ctShadow : Vector Word 6 := Vector.replicate 6 0
  deriving DecidableEq, Repr

structure MemSt where
  /-- Poisoned 64-bit words of system and enclave SRAM, by byte address, rising (R110, R400). -/
  poison  : List Nat := []
  pairs   : List PairHold := []
  /-- The scrubber's word index, the same in every bank, and that of enclave SRAM (R115, R400). -/
  scrub   : Nat := 0
  scrubEn : Nat := 0
  deriving DecidableEq, Repr

/-! ## Errors and reports -/

/-- A report a worker holds until it is answered (R538). -/
structure ErrReport where
  code   : Half
  cls    : Nat
  ovf    : Nat
  detail : DWord
  time   : CTime
  deriving DecidableEq, Repr

structure ErrSt where
  /-- Reports not yet answered, oldest first; at most 64 (R538). -/
  reports : List ErrReport := []
  /-- 0x0060 is to be reported when space frees. -/
  owesLost : Bool := false
  /-- The next SEQ of the error log (R541). -/
  logSeq  : Nat := 1
  deriving DecidableEq, Repr

/-- Lane states of R28. -/
inductive LaneState where
  | vacant | listen | admitting | idle | sorting | safe
  deriving DecidableEq, Repr

/-- The faults of R30 that keep a lane in ADMITTING. -/
structure LaneFaults where
  cell : Bool := false
  ports : Bool := false
  flag : Bool := false
  bank : Bool := false
  deriving DecidableEq, Repr

/-- One lane as the manager tracks it (R28, R30). -/
structure Lane where
  state  : LaneState := .vacant
  faults : LaneFaults := {}
  deriving DecidableEq, Repr

structure LaneSt where
  /-- The device's own lane (R28). -/
  own    : Lane := { state := .listen }
  /-- The manager's record of the other lanes, sparse over VACANT (R28). -/
  others : Sparse Lane := []
  /-- ADMIT has been accepted and the lane enters SORTING at the next row boundary (R270). -/
  admitPending : Bool := false
  /-- LANE_DARK is raised for the own lane and it has not returned (R29, R395). -/
  dark   : Bool := false
  /-- Lanes that have left SORTING and not returned to it (R29). -/
  left   : List Nat := []
  deriving DecidableEq, Repr

/-! ## Machine link -/

/-- An event that waits for acknowledgement (R387). -/
structure HostEvent where
  eseq : Nat
  code : Half
  lane : Nat
  body : List Byte
  deriving DecidableEq, Repr

/-- Where the response of a command goes that is executed on behalf of a machine computer or a manager. -/
inductive ReplyTo where
  /-- Nobody waits for it. -/
  | none
  /-- A machine-link command (R375): source address, CODE, TXN, EPOCH and LANE. -/
  | host (src : BitVec 48) (code : Half) (txn epoch : Word) (lane : Nat)
  /-- A transaction of the manager on the ring, by its number (R352). -/
  | ring (txn : Nat)
  /-- The manager's own steps in admitting a position (R546). -/
  | admission (pos : Nat)
  /-- A buffer that the manager passes to the standby (R548). -/
  | provision
  deriving DecidableEq, Repr

/-- The state of a bulk buffer (R384). -/
inductive BufPhase where
  | empty | opened | closed
  deriving DecidableEq, Repr

/-- A bulk buffer: its bytes by offset, zero where unlisted. -/
structure BulkBuf where
  phase : BufPhase := .empty
  size  : Nat := 0
  data  : Sparse Byte := []
  deriving DecidableEq, Repr

/-- An executed command as the manager records it (R378). -/
structure HostRec where
  txn    : Word
  code   : Half
  status : Half
  body   : List Byte
  deriving DecidableEq, Repr

/-- A command that is executing (R378, R381). -/
structure HostJob where
  src   : BitVec 48
  code  : Half
  txn   : Word
  epoch : Word
  lane  : Nat
  body  : List Byte
  /-- An earlier command of the lane has completed and this one has begun (R381). -/
  begun : Bool
  deriving DecidableEq, Repr

/-- How far a command for another lane has been carried. -/
inductive CarryPhase where
  /-- What it needs travels to the worker's staging buffer (R384). -/
  | staging
  /-- The tenant's keys travel to the worker's enclave (R442). -/
  | keys
  /-- The command itself travels (R382). -/
  | command
  /-- The result of CAL_EXPORT travels back into buffer 2 (R384). -/
  | fetching
  deriving DecidableEq, Repr

/-- A command that the manager carries to another lane (R382, R384). -/
structure Carry where
  id    : Nat
  pos   : Nat
  code  : Half
  body  : List Byte
  /-- What the worker's staging buffer is to hold, and the bytes of it that have arrived there. -/
  data  : List Byte := []
  sent  : Nat := 0
  phase : CarryPhase
  /-- The SIZE that is fetched, and the bytes fetched so far. -/
  size  : Nat := 0
  got   : List Byte := []
  reply : ReplyTo
  deriving DecidableEq, Repr

/-- The settings of PLANT_CONFIG (R392). -/
structure PlantCfg where
  ip       : Word
  mask     : Word
  gateway  : Word
  dst      : Word
  srcPort  : Half
  dstPort  : Half
  interval : Nat
  deriving DecidableEq, Repr

/-- A statement set that is still to be repeated: DSEQ, lane-independent body and sends left (R393). -/
structure StatementSet where
  dseq : Nat
  body : List Byte
  left : Nat
  deriving DecidableEq, Repr

/-- The settings of one loop as LOOP_SET gives them (R394). -/
structure LoopCfg where
  mode  : Nat
  value : Nat
  dark  : Bool
  high  : Bool
  deriving DecidableEq, Repr

/-- What a sink's compliance evaluation has counted (R396), and whether the loop has been configured since reset (R397). -/
structure LoopEval where
  configured : Bool := false
  /-- Consecutive measurements more than 100 µA below the target, and consecutive ones that are not. -/
  short : Nat := 0
  fine  : Nat := 0
  deriving DecidableEq, Repr

structure HostSt where
  /-- Upload buffers 0 and 1 and download buffer 2 (R384). -/
  bufs    : Vector BulkBuf 3 := Vector.replicate 3 {}
  /-- A worker's staging buffer for what the manager forwards (R384). -/
  stage   : BulkBuf := {}
  /-- UTC seconds as given last, and the curtain time of that moment (R227, R383). -/
  utc     : Option (Nat × CTime) := none
  /-- The bound peer's address (R376). -/
  peer    : Option (BitVec 48) := none
  /-- EPOCH (R377). -/
  epoch   : Word := 0
  /-- Events not acknowledged, oldest first; at most 256. -/
  events  : List HostEvent := []
  /-- The ESEQ of the next event. -/
  eseq    : Nat := 1
  /-- Events discarded because 256 wait. -/
  lost    : Nat := 0
  /-- The last 64 executed commands, newest first, and HIGHEST (R378). -/
  records : List HostRec := []
  highest : Option Nat := none
  /-- Commands that are executing, in order of acceptance. -/
  jobs    : List HostJob := []
  /-- Commands that are carried to other lanes, and the number of the next one. -/
  carries : List Carry := []
  nextCarry : Nat := 0
  /-- EVENT_MASK (R383): forward INFO, forward CORRECTED. -/
  maskInfo : Bool := false
  maskCorr : Bool := false
  /-- INJECT packets that wait for space (R385). -/
  injects : List (List Word × ReplyTo) := []
  /-- Plant settings in force (R392). -/
  plant   : Option PlantCfg := none
  /-- Datagrams that wait for address resolution (R391). -/
  plantWait : List (List Byte) := []
  /-- DSEQ of the next datagram set (R393). -/
  dseq    : Nat := 1
  /-- Statement sets that are still to be sent again (R393). -/
  repeats : List StatementSet := []
  /-- Curtain times of the echo answers of the last second (R391). -/
  echoes  : List CTime := []
  /-- The manager's loop settings of each lane, by 2 × lane + loop (R394). -/
  loopStore : Sparse (Option LoopCfg) := []
  /-- The own sinks. -/
  loops   : Vector LoopEval 2 := Vector.replicate 2 {}
  deriving DecidableEq, Repr

/-! ## Pavane -/

structure PavSt where
  /-- Curtain times of the SECURITY errors of the last second, newest first (R411). -/
  secTimes : List CTime := []
  /-- SEC_FLOOD has reached its threshold and its response has not yet acted. -/
  flood    : Bool := false
  /-- The Pavane gate's slots: PAV_, KEY_, DIG_, CIP_, PKA_, ACS_, enclave SRAM (R401). -/
  slots    : Vector Word 7 := Vector.replicate 7 0x5000000C
  /-- The Pavane gate's own fault record: address, INFO word and count (R154). -/
  fltAddr  : Word := 0
  fltInfo  : Word := 0
  fltCnt   : Nat := 0
  /-- The life-cycle state in force (R408): 0 MANUFACTURE to 3 RETIRED, as read from counter 0x000 at the last start. -/
  lcInForce : Nat := 0
  /-- Consecutive windows of the generator that failed (R417). -/
  rngFails : Nat := 0
  /-- A debug nonce that awaits its attempt, and the level asked for (R418). -/
  dbgNonce : Option (List Byte × Nat) := none
  /-- Failed debug attempts since the device reset. -/
  dbgFails : Nat := 0
  deriving DecidableEq, Repr

/-! ## Key store and engines -/

/-- A key slot: attribute word, material and tag (R424, R425, R427). -/
structure KeySlot where
  attr : Word := 0
  key  : List Byte := []
  tag  : List Byte := []
  deriving DecidableEq, Repr

/-- One exchange of R438, as either side holds it. -/
structure Setup where
  pos    : Nat
  /-- PATH: false for the A-path. -/
  pathB  : Bool
  nm     : List Byte
  nw     : List Byte := []
  /-- The own ephemeral private key and public key. -/
  priv   : Nat := 0
  pub    : List Byte := []
  peer   : List Byte := []
  /-- The agreed key, once computed. -/
  key    : List Byte := []
  /-- Restarts so far for this appearance of the node (R439). -/
  tries  : Nat := 0
  deriving DecidableEq, Repr

structure KeySt where
  slots   : Sparse KeySlot := []
  /-- The draw from which the present masks were taken (R429). -/
  maskDraw : Nat := 0
  /-- The tag key's register (R423). -/
  tagKey  : List Byte := []
  /-- The session-key registers of ports A and B and of the machine link; empty without a key. -/
  sessA   : List Byte := []
  sessB   : List Byte := []
  sessHost : List Byte := []
  /-- Exchanges under way on this device. -/
  setups  : List Setup := []
  /-- Exchanges to restart after 1 s: position, path and restarts so far (R439). -/
  retries : List (Nat × Bool × Nat) := []
  /-- Slots that hold a tenant's CHOREO_KEY and CHOREO_VK. -/
  tenants : Sparse (Nat × Nat) := []
  deriving DecidableEq, Repr

/-- The words that an engine writes back (R445, R447). -/
structure EngOut where
  code     : Half
  trunc    : Bool := false
  withheld : Bool := false
  detail   : Half := 0
  result   : Word := 0
  deriving DecidableEq, Repr

/-- An open digest job (R451, R452). -/
structure DigJob where
  op     : Nat
  decl   : Nat
  count  : Nat := 0
  msg    : List Byte := []
  secure : Bool
  slot   : Nat := 0
  tag    : List Byte := []
  /-- The HMAC key as read at the job's first descriptor. -/
  key    : List Byte := []
  deriving DecidableEq, Repr

/-- An open cipher job (R458, R459). -/
structure CipJob where
  op    : Nat
  count : Nat := 0
  /-- The chaining block, or the counter block of the next segment. -/
  iv    : List Byte := []
  /-- The first IV of a GCM job, its additional data and its ciphertext so far; a CMAC job's message so far. -/
  iv0   : List Byte := []
  aad   : List Byte := []
  data  : List Byte := []
  deriving DecidableEq, Repr

structure EngSt where
  /-- Addresses of the descriptors that each engine holds, first submitted first; at most four (R444). -/
  digQ : List Nat := []
  cipQ : List Nat := []
  pkaQ : List Nat := []
  /-- The outcome of the first descriptor once it has run. -/
  digOut : Option EngOut := none
  cipOut : Option EngOut := none
  pkaOut : Option EngOut := none
  dig  : Option DigJob := none
  cip  : Option CipJob := none
  /-- The generation value of saved states (R456). -/
  gen  : Word := 0
  /-- Sealed states written since the device reset, with the jobs they hold. -/
  saved : List (List Byte × DigJob) := []
  /-- OUT_LEN of the result in the digest registers; 0 while they hold none (R454, R461). -/
  resLen : Nat := 0
  deriving DecidableEq, Repr


/-! ## Front end, shutter and pipeline -/

/-- The SHUT state a row header carries (R171, R182). -/
inductive Shut where
  | opened | moving | closed | recovering
  deriving DecidableEq, Repr

/-- The decoded shutter position (R178). -/
inductive ShtPos where
  | opened | closed | between | fault
  deriving DecidableEq, Repr

/-- Where the shutter sequencer stands (R181, R184). -/
inductive ShtSeq where
  /-- No event and no recovery sequence. -/
  | idle
  /-- Step 1 and 2: the close pulse has been issued and CLOSED is awaited. -/
  | closing
  /-- Step 3: DWELL since CLOSED has not passed. -/
  | dwell
  /-- An open pulse is due as soon as the reservoir is ready. -/
  | waitOpen
  /-- Step 4 and 5: the open pulse has been issued and OPEN is awaited. -/
  | opening
  /-- Step 6. -/
  | recovering
  deriving DecidableEq, Repr

structure ShtSt where
  /-- The accepted position of the balls (R178). -/
  pos       : ShtPos := .opened
  /-- What row headers carry (R182). -/
  shut      : Shut := .opened
  /-- RECOVER has passed; rows return to OPEN at the next frame boundary. -/
  recovered : Bool := false
  seq       : ShtSeq := .idle
  /-- The sequence is a shutter event, not a recovery sequence. -/
  event     : Bool := false
  /-- The event counts as failed (R184). -/
  failed    : Bool := false
  /-- The flag did not reach CLOSED: rows carry MOVING until OPEN (R182). -/
  noClose   : Bool := false
  /-- The one further open pulse of R184 has been asked for. -/
  retried   : Bool := false
  /-- The pulse that runs: true closes, false opens. -/
  pulse     : Option Bool := none
  /-- A single CLOSE (true) or OPEN (false) pulse whose position is still awaited. -/
  watch     : Option Bool := none
  /-- A single pulse or sequence has moved the flag: an uncommanded move is told apart from a commanded one. -/
  commanded : Bool := false
  /-- The reservoir voltage in 20 mV units (SHT_STAT). -/
  volts     : BitVec 8 := 0
  /-- Firmware has read the position since the front end was last left unconfigured (R185). -/
  posRead   : Bool := false
  deriving DecidableEq, Repr

/-- What a channel has returned (R170). -/
structure ChStuck where
  /-- The one code of the present frame, once a sample has arrived. -/
  code   : Option Nat := none
  /-- The present frame has held two different codes. -/
  varied : Bool := false
  /-- The one code of the last frames, and how many. -/
  last   : Option Nat := none
  frames : Nat := 0
  deriving DecidableEq, Repr

/-- A row's header as it is captured at its boundary (R171). -/
structure RowHdr where
  stamp : CTime := 0
  frame : Nat := 0
  row   : Nat := 0
  t     : Nat := 0
  stale : Bool := false
  shut  : Shut := .opened
  deriving DecidableEq, Repr

/-- A sample after stage 4 of the pipeline, with its raw bits (R171, R190). -/
structure Pix where
  code  : Nat
  clip  : Bool
  stuck : Bool
  y     : Int
  sat   : Bool
  dead  : Bool
  deriving DecidableEq, Repr

structure FeSt where
  /-- The row in progress; none before the first row boundary after RUN. -/
  row    : Option Nat := none
  hdr    : RowHdr := {}
  /-- Samples of the row in progress, in column order. -/
  buf    : List Pix := []
  /-- Row boundaries since RUN was set (R208). -/
  rows   : Nat := 0
  /-- BFE_OUT in force (R165, R166). -/
  outNow : Word := 0
  /-- Bias codes and enables in force (R174). -/
  bias   : Vector Word 6 := Vector.replicate 6 0
  stuck  : Vector ChStuck 8 := Vector.replicate 8 {}
  /-- The sensor is in an open or a short (R177). -/
  fptOpen  : Bool := false
  fptShort : Bool := false
  deriving DecidableEq, Repr

/-- One complete frame as the event engine and the calibration keep it: codes by pixel index, and the headers' sums. -/
structure FrameRec where
  codes  : Sparse Nat := []
  tSum   : Nat := 0
  rows   : Nat := 0
  stale  : Bool := false
  /-- The lowest and the highest focal-plane temperature of its rows. -/
  tMin   : Nat := 0xFFFFFFFF
  tMax   : Nat := 0
  /-- Pixels with a clipped sample, rising. -/
  clips  : List Nat := []
  /-- Every row carried CLOSED. -/
  closed : Bool := true
  /-- Every row carried OPEN. -/
  opened : Bool := true
  deriving DecidableEq, Repr

/-- A close or open window of the event engine: frames 0, 1, M and M + 1 (R201). -/
structure TauWin where
  /-- The window waits for its first frame boundary. -/
  armed  : Bool := false
  frames : Nat := 0
  x0 : Sparse Nat := []
  x1 : Sparse Nat := []
  xm : Sparse Nat := []
  xn : Sparse Nat := []
  done : Bool := false
  deriving DecidableEq, Repr

structure NucSt where
  /-- Coefficient records, key table × 2^17 + index (R193). -/
  coef    : Sparse DWord := []
  /-- Records that read uncorrectable (R196). -/
  bad     : List Nat := []
  /-- The tau-inverse state of each pixel (R192). -/
  uPrev   : Sparse Int := []
  selLo   : Nat := 0
  selHi   : Nat := 0
  tlo     : Nat := 0
  thi     : Nat := 0
  /-- The pending selection (LO, HI) (R197). -/
  pendSel : Option (Nat × Nat) := none
  /-- Pixels that a write to the live table has marked dead (R228). -/
  userDead : List Nat := []
  /-- DEAD changes that wait for the frame boundary (R195). -/
  pendDead : List (Nat × Bool) := []
  /-- The weight of the row in progress (R198). -/
  w       : Nat := 0
  /-- The row in progress has K_eff 0 throughout (R200). -/
  tauOff  : Bool := true
  /-- The frame in progress. -/
  cur     : FrameRec := {}
  closeWin : TauWin := {}
  openWin  : TauWin := {}
  /-- Complete frames since the close window ended, newest first, at most 32 (the offset window, R201). -/
  frames  : List FrameRec := []
  /-- The offset window, taken when the open pulse starts. -/
  ofsWin  : Option (List FrameRec) := none
  /-- A completed event whose results wait for the frame boundary where SHUT returns to OPEN. -/
  apply   : Bool := false
  deriving DecidableEq, Repr

/-- A path row's values as the integrator keeps them. -/
structure TdiRow where
  stamp  : CTime
  row    : Nat
  opened : Bool
  tauOff : Bool
  extrap : Bool
  stale  : Bool
  /-- Value and QUAL of each column. -/
  vals   : List (Nat × Nat)
  deriving DecidableEq, Repr

/-- One open line of the integrator (R208). -/
structure TdiLine where
  tl     : CTime
  t      : Nat
  num    : Nat
  /-- Path rows that have contributed. -/
  got    : List Nat := []
  rows   : List TdiRow := []
  deriving DecidableEq, Repr

structure TdiSt where
  /-- The path in force (R207): first row, rows, step, direction (true upwards) and delays in µs. -/
  first : Nat := 0
  n     : Nat := 0
  step  : Nat := 1
  up    : Bool := true
  dly   : List Nat := []
  lines : List TdiLine := []
  /-- Complete rows of the last half frame. -/
  hist  : List TdiRow := []
  count : Nat := 0
  deriving DecidableEq, Repr

/-! ## Calibration -/

/-- A frame of a stability window: the sum of its codes and its focal-plane temperatures (R219). -/
structure CalFrame where
  sum  : Nat
  tMin : Nat
  tMax : Nat
  tSum : Nat
  rows : Nat
  deriving DecidableEq, Repr

/-- The accumulator of the CAL_ block over one capture: each pixel's codes and squared codes, by pixel index. -/
structure Capture where
  frames : Nat := 0
  sum    : Sparse Nat := []
  sq     : Sparse Nat := []
  clips  : List Nat := []
  tSum   : Nat := 0
  rows   : Nat := 0
  deriving DecidableEq, Repr

/-- Where DRIFT stands (R222). -/
inductive DriftPhase where
  | first | waiting | second
  deriving DecidableEq, Repr

/-- The arguments of CAL_BEGIN (R217). -/
structure CalArgs where
  slot      : Nat := 0
  drift     : Bool := false
  tLo       : Nat := 0
  tHi       : Nat := 0
  refId     : List Byte := []
  calTime   : Nat := 0
  validDays : Nat := 0
  tauNom    : Nat := 0
  deriving DecidableEq, Repr

/-- The coefficients of one pixel (R220, R222): O_SET in Q14.4, G in Q2.14, D in Q3.12. -/
structure Coefs where
  o : Int
  g : Nat
  d : Int
  deriving DecidableEq, Repr

structure CalSt where
  args   : CalArgs := {}
  /-- The frame in progress began before the present state was entered. -/
  skip   : Bool := false
  /-- The last frames of a SETTLE state, newest first. -/
  win    : List CalFrame := []
  /-- The lowest and highest frame sum of the last stable window. -/
  band   : Nat × Nat := (0, 0)
  anchor : Option Nat := none
  cap    : Capture := {}
  lo     : Capture := {}
  hi     : Capture := {}
  d1     : Capture := {}
  d2     : Capture := {}
  phase  : DriftPhase := .first
  driftOk : Bool := false
  /-- The computed coefficients by set index; none for an unfit pixel. -/
  result : List (Option Coefs) := []
  /-- The slot whose set each set bank holds (R228). -/
  loaded : Vector (Option Nat) 3 := Vector.replicate 3 none
  deriving DecidableEq, Repr

/-! ## The fabric -/

/-- An operation in the DSU (R291–R293). -/
structure DsuOp where
  /-- The FN of the instruction: 0 DIV to 6 SQRTQ. -/
  fn : Nat
  d  : Nat
  s  : Word
  t  : Word
  /-- A taken branch or HALT squashed it: only its occupancy is left. -/
  squashed : Bool
  deriving DecidableEq, Repr

/-- An entry of an input slot and when it was pushed, with the ticks after which it is certain to have arrived (R294). -/
structure SlotEntry where
  entry : QEntry
  time  : CTime
  lag   : Nat
  deriving DecidableEq, Repr

/-- One input slot (R294, R297). -/
structure InSlot where
  entries  : List SlotEntry := []
  /-- An entry has been popped since the last end of packet. -/
  begun    : Bool := false
  /-- The slot discards up to the next end of packet. -/
  dropping : Bool := false
  deriving DecidableEq, Repr

/-- One stage cell (R276). What CELL_STATc reports is in its register. -/
structure CellSt where
  g  : Vector Word 16 := Vector.replicate 16 0
  a  : Vector (BitVec 15) 4 := Vector.replicate 4 0
  pc : BitVec 11 := 0
  z  : Bool := false
  n  : Bool := false
  c  : Bool := false
  v  : Bool := false
  dz : Bool := false
  sb : BitVec 4 := 0
  cyc : Word := 0
  /-- Bits [63:32] of curtain time captured by the last RDS 3 (R301). -/
  shadow : Word := 0
  dsu : Option DsuOp := none
  /-- DSU stall cycles not yet counted as a unit of 16. -/
  dsuRest : Nat := 0
  /-- The register that the last instruction writes at the end of W (R288). -/
  lateReg : Option Nat := none
  ins : Vector InSlot 4 := Vector.replicate 4 {}
  deriving DecidableEq, Repr

/-- A route (R258). -/
structure Route where
  srcCell : Nat
  srcSlot : Nat
  dstCell : Nat
  dstSlot : Nat
  hops    : Nat
  path    : Nat
  deriving DecidableEq, Repr

/-- A port entry (R258). -/
structure PortCfg where
  port  : Nat
  slots : List (Nat × Nat)
  deriving DecidableEq, Repr

/-- A claim entry (R262). -/
structure Claim where
  kind  : Nat
  id    : Nat
  flags : Nat
  base  : Nat
  limit : Nat
  deriving DecidableEq, Repr

/-- What the header and the sections of a choreography set up, but for code and constants (R255, R258). -/
structure Choreo where
  tenant   : Nat := 0
  recipe   : Nat := 0
  version  : Nat := 0
  resLimit : Nat := 0
  bodyLen  : Nat := 0
  cells    : Nat := 0
  routes   : List Route := []
  ports    : List PortCfg := []
  /-- PRIV_KIB and FD_WRITE of each cell. -/
  parts    : List (Nat × Bool) := []
  claims   : List Claim := []
  /-- CLASS_ID and KIND of each tally class. -/
  tally    : List (Nat × Nat) := []
  deriving DecidableEq, Repr

/-- Where a load stands (R268–R271). -/
inductive LoadPhase where
  | checking | waitSwap | draining | applying | abandoned
  deriving DecidableEq, Repr

structure LoadJob where
  replace : Bool
  swapAt  : CTime
  /-- The buffer that holds the choreography: 0 and 1 are upload buffers, 2 is a worker's staging buffer. -/
  buf     : Nat
  phase   : LoadPhase
  /-- What the check pass has parsed. -/
  choreo  : Choreo := {}
  /-- The tenant's choreography keys that the check pass has used. -/
  keys    : List Byte × List Byte := ([], [])
  reply   : ReplyTo
  deriving DecidableEq, Repr

structure UnloadJob where
  /-- The ports are closed and the fabric drains. -/
  draining : Bool
  reply    : ReplyTo
  deriving DecidableEq, Repr

structure FabSt where
  /-- Code memories: cell × 2048 + word index, zero where unlisted. -/
  code   : Sparse Word := []
  cells  : Vector CellSt 32 := Vector.replicate 32 {}
  /-- The loaded choreography, while FAB_STAT.LOADED is 1. -/
  conf   : Choreo := {}
  /-- Claims the loaded choreography holds, and those reserved for a pending replacement (R266). -/
  held     : List Claim := []
  reserved : List Claim := []
  load   : Option LoadJob := none
  unload : Option UnloadJob := none
  /-- The input ports open at the next row boundary (R271). -/
  openDue : Bool := false
  /-- Whether the packet an input port is passing goes to the cells; none between packets. -/
  portMode : Vector (Option Bool) 6 := Vector.replicate 6 none
  /-- Entries that visible ports 0 and 1 hold (R246). -/
  visBuf : Vector (List QEntry) 2 := Vector.replicate 2 []
  /-- Low stamp half and entry time of the last 64 thermal packets of ports 0 and 1 (R273). -/
  seen0  : List (Nat × CTime) := []
  seen1  : List (Nat × CTime) := []
  /-- Levels that cells drive on claimed pins (R299). -/
  pins   : BitVec 16 := 0
  /-- Claimed timers: the armed value, and whether it has expired (R300). -/
  timers : Vector (Option Word × Bool) 8 := Vector.replicate 8 (none, false)
  deriving DecidableEq, Repr

/-! ## Visible channel -/

structure VisSt where
  /-- The stamp of the line in progress (R244). -/
  line   : Option CTime := none
  /-- A swap of the registration banks is due at the next line start (R243). -/
  swap   : Bool := false
  /-- GAP is due on the next line delivered on visible port 0 and on port 1 (R245, R246). -/
  gap0   : Bool := false
  gap1   : Bool := false
  /-- The condition of R237 has been entered. -/
  lenErr : Bool := false
  /-- The pin that the trigger drives high now. -/
  trigHigh : Bool := false
  /-- Row boundaries since the trigger's last pulse. -/
  trigRows : Nat := 0
  /-- The curtain time of the trigger's last pulse, or of its enable. -/
  trigAt : CTime := 0
  deriving DecidableEq, Repr

/-! ## Ejection -/

/-- A fire command of the timed queue (R311, R313, R315). -/
structure FireCmd where
  part  : Nat
  /-- T_ON in curtain time. -/
  tOn   : Nat
  width : Nat
  mask  : DWord
  /-- The tally class of its record; none for a service fire. -/
  cls   : Option Nat
  id    : Nat
  deriving DecidableEq, Repr

/-- The device frames of R317. -/
inductive EjFrame where
  | fire | sync | statusReq | linkOpen
  deriving DecidableEq, Repr

/-- An exchange whose response is awaited (R319, R320). -/
structure EjExch where
  kind : EjFrame
  seq  : Nat
  /-- The commands of a FIRE. -/
  cmds : List FireCmd := []
  /-- Resends made. -/
  tries : Nat := 0
  /-- Curtain time of the frame's first start bit: T1 of a SYNC (R323). -/
  sent : CTime
  deriving DecidableEq, Repr

/-- The state of an ejector port (R327). -/
inductive EjState where
  | off | probing | up | down
  deriving DecidableEq, Repr

/-- One ejector port. -/
structure EjPort where
  state  : EjState := .off
  /-- The SEQ of the next new frame, and the ID of the next command. -/
  nextSeq : Nat := 0
  nextId : Nat := 0
  /-- Commands not yet sent, ascending T_ON, then order of acceptance. -/
  queue  : List FireCmd := []
  exch   : Option EjExch := none
  /-- A STATUS has answered the LINK_OPEN of PROBING, with its NVALVES. -/
  opened : Option Nat := none
  nvalves : Nat := 64
  /-- LINK_OPEN is the port's next exchange (R331). -/
  openNext : Bool := false
  /-- Consecutive accepted SYNC pairs in PROBING, and consecutive outliers. -/
  good   : Nat := 0
  outliers : Nat := 0
  /-- The last accepted pairs (cm, bm without wrap), newest first, at most 17 (R323). -/
  pairs  : List (Nat × Int) := []
  /-- Consecutive failed exchanges. -/
  fails  : Nat := 0
  /-- Curtain times of the violations of the last second, newest first. -/
  viol   : List CTime := []
  /-- Commands that await confirmation, and those of unknown fate. -/
  await  : List FireCmd := []
  unknown : List FireCmd := []
  /-- A confirmation has been received since the port opened, so that CACK is known. -/
  cackKnown : Bool := false
  /-- The last STATUS had CONF_OVERFLOW. -/
  overflow : Bool := false
  /-- Valves whose VALVE_FAULT has been raised. -/
  faulty : List Nat := []
  deriving DecidableEq, Repr

structure EjSt where
  ports : Vector EjPort 4 := Vector.replicate 4 {}
  /-- When each error of R309 was last raised, by code and port (4: no port). -/
  raised : List ((Nat × Nat) × CTime) := []
  deriving DecidableEq, Repr


/-! ## The Farandole ring -/

/-- A frame as it travels, but for LSEQ, LEN, HCRC and FCS, which belong to a hop (R337). -/
structure Frame where
  typ   : Nat
  flags : Byte := 0
  src   : Nat
  dst   : Nat
  hops  : Nat := 0
  txn   : Word := 0
  payload : List Byte := []
  deriving DecidableEq, Repr

/-- What a port fills in at a frame's egress (R364, R365, R369): the egress stamp at a payload offset, or the egress stamp
and a further value added to the 64-bit field at an offset. -/
inductive Fix where
  | stamp (off : Nat)
  | add (off : Nat) (v : DWord)
  deriving DecidableEq, Repr

/-- A frame that waits for its output port. -/
structure QFrame where
  frame : Frame
  fix   : List Fix := []
  deriving DecidableEq, Repr

/-- A frame in sequence whose header has been judged and whose end has not arrived (R341, R345). -/
structure RxFrame where
  hdr     : List Byte
  frame   : Frame
  len     : Nat
  /-- The ingress stamp: curtain time and fraction of the first character of SOF. -/
  stamp   : DWord
  deliver : Bool
  forward : Bool
  /-- The other port is sending it already (R346). -/
  cut     : Bool
  deriving DecidableEq, Repr

/-- One Farandole port. Its state is in FRL_STAT. -/
structure FrlPort where
  /-- The STATE that the port's TRAIN groups carry: 0 seeking, 1 aligned, 2 ready (R335). -/
  train   : Nat := 0
  /-- TRAIN groups with STATE ready sent and received. -/
  sent    : Nat := 0
  got     : Nat := 0
  /-- LSEQ of the next new frame, and the replay buffer, oldest first (R340). -/
  txSeq   : Nat := 0
  unacked : List (Nat × Frame) := []
  /-- Consecutive replays without movement of the acknowledged point (R344). -/
  replays : Nat := 0
  /-- A BUSY NAK has been received and 5 µs have not passed (R343). -/
  backoff : Bool := false
  /-- The other port's input is being sent out here. -/
  cutting : Bool := false
  /-- EXP, and whether a NAK has been sent for it (R341). -/
  exp     : Nat := 0
  nakSent : Bool := false
  /-- Good frames in sequence since the last ACK (R343). -/
  good    : Nat := 0
  rx      : Option RxFrame := none
  /-- What waits to be sent, by class (R348): TIME and PDELAY, forwarded (at most 4), originated locally. -/
  prio    : List QFrame := []
  fwd     : List QFrame := []
  loc     : List QFrame := []
  /-- Consecutive forwarded frames while a local one waits. -/
  run     : Nat := 0
  /-- The last link delays, newest first, at most 16 (R365). -/
  delays  : List Int := []
  deriving DecidableEq, Repr

/-- What one ENUM brought back (R357, R369). -/
structure EnumRes where
  /-- It arrived on the manager's other port: the ring is closed. -/
  through : Bool
  count   : Nat
  records : List Word
  hops    : Nat := 0
  /-- The ring time it carried less the manager's time at its ingress. -/
  adopt   : Option DWord := none
  deriving DecidableEq, Repr

/-- A node as the last enumeration found it. -/
structure RingNode where
  pathB  : Bool
  hop    : Nat
  pos    : Nat
  role   : Nat
  listen : Bool
  deriving DecidableEq, Repr

/-- What a transaction's response is for. -/
inductive TxnUse where
  /-- A step of a command that is carried to another lane (R382), by its number. -/
  | carry (id : Nat)
  /-- A worker's error report (R538), link report (R336, R362) or delta report (R487). -/
  | report | link | delta
  /-- A transaction of chain loading or switchover with this code (R514, R519). -/
  | firmware (code : Half)
  /-- The calibration record of a position that is admitted (R545, R546). -/
  | check
  /-- A takeover probe (R549), by path. -/
  | probe
  /-- ADMIT of a lane (R30, R270). -/
  | enterLane (lane : Nat)
  /-- Nothing follows from the response. -/
  | quiet
  deriving DecidableEq, Repr

/-- A transaction that awaits its response (R352, R353). -/
structure TxnPend where
  txn   : Nat
  pos   : Nat
  toEn  : Bool
  body  : List Byte
  tries : Nat := 1
  use   : TxnUse
  deriving DecidableEq, Repr

/-- A responder's record of a transaction (R354): no response while it executes. -/
structure TxnRec where
  src  : Nat
  txn  : Nat
  port : Nat
  toEn : Bool
  resp : Option (List Byte) := none
  deriving DecidableEq, Repr

/-- Parts of a feature packet that the manager is joining (R356). -/
structure FeatJoin where
  pos     : Nat
  pkt     : Nat
  nparts  : Nat
  next    : Nat
  entries : List (List Byte)
  deriving DecidableEq, Repr

structure RingSt where
  ports   : Vector FrlPort 2 := Vector.replicate 2 {}
  /-- Link-layer frames delivered and not yet processed: port, frame, ingress stamp. -/
  inbox   : List (Nat × Frame × DWord) := []
  /-- The last broadcast identifiers delivered, newest first, at most 16 (R345), and the next one to send. -/
  bcast   : List Word := []
  nextBcast : Nat := 0
  /-- TSEQ and HOPS of the last TIME of the A-path and of the B-path (R366). -/
  seen    : Vector (Option (Nat × Nat)) 2 := Vector.replicate 2 none
  /-- Consecutive source TIMEs within 10 ns, and consecutive outliers (R367). -/
  good    : Nat := 0
  outliers : Nat := 0
  /-- Ticks by which the counter is still to be slewed, and the tick of the last slew (R85). -/
  slew    : Int := 0
  slewAt  : Nat := 0
  /-- The manager's TIMEs: the next TSEQ, consecutive ones that have not returned by sending port, and the last TSEQ of each
  sending port that has returned (R361, R364). -/
  tseq    : Nat := 0
  miss    : Vector Nat 2 := Vector.replicate 2 0
  back    : Vector (Option Nat) 2 := Vector.replicate 2 none
  timeSent : Bool := false
  /-- Curtain time has been adopted since the device reset, or the first enumeration found none to adopt (R369). -/
  adopted : Bool := false
  /-- The sticky map: N and the occupied positions (R358). -/
  sticky  : Option (Nat × List Nat) := none
  closed  : Bool := false
  /-- 0x7010 is raised and the ring has not closed since. -/
  openErr : Bool := false
  /-- An enumeration is under way, with its NONCE; one is due; one has completed since the device reset. -/
  nonce   : Option (List Byte) := none
  oldNonce : List Byte := []
  due     : Bool := false
  known   : Bool := false
  /-- The enumeration is a re-enumeration (R359), and where its command's response goes. -/
  renum   : Option ReplyTo := none
  /-- Results of the present and of the previous round, by sending port. -/
  cur     : Vector (Option EnumRes) 2 := Vector.replicate 2 none
  prev    : Vector (Option EnumRes) 2 := Vector.replicate 2 none
  nodes   : List RingNode := []
  /-- DUPLICATE_MANAGER (R21). -/
  duplicate : Bool := false
  /-- The last PSEQ sent and accepted, by 2 × position + path (R350). -/
  pseqTx  : Sparse Nat := []
  pseqRx  : Sparse Nat := []
  /-- Bits [30:0] of the next TXN (R352). -/
  nextTxn : Nat := 0
  pend    : List TxnPend := []
  done    : List TxnRec := []
  /-- When a protected frame last verified on each path (R440, R518). -/
  lastProt : Vector (Option CTime) 2 := Vector.replicate 2 none
  /-- Changes of a worker's ports and calibration that its firmware has still to tell the manager: requests (R329, R336, R388). -/
  notes   : List (List Byte) := []
  /-- The next PKT, and the packets the manager is joining (R356). -/
  pkt     : Nat := 0
  joins   : List FeatJoin := []
  deriving DecidableEq, Repr


/-! ## Metering and applets -/

/-- A tally key: TENANT, CLASS_ID and KIND (R471). -/
abbrev TallyKey := Nat × Nat × Nat

/-- An accumulator of an open period, as the enclave holds it (R481). -/
structure Accum where
  period   : Nat
  start    : Nat
  untimed  : Bool := false
  restarted : Bool := false
  regress  : Nat := 0
  overflow : Nat := 0
  carry    : Nat := 0
  /-- Entries in ascending order of CLASS_ID and KIND, with their counts. -/
  entries  : List ((Nat × Nat) × Nat) := []
  /-- It has changed since the last persistence round. -/
  dirty    : Bool := true
  /-- 0xC025 has been raised in this period. -/
  warned   : Bool := false
  deriving DecidableEq, Repr

/-- What the manager holds of a reporting position (R474, R475): the last RSEQ applied, ACKED, and the applied totals, each
with the RSEQ that last set it. -/
structure Applied where
  last   : Nat := 0
  acked  : Nat := 0
  totals : List (TallyKey × Nat × Nat) := []
  deriving DecidableEq, Repr

/-- The hooks of R495 and R498. -/
inductive Hook where
  | init | loadCheck | close | tick
  deriving DecidableEq, Repr

/-- A loaded applet (R494, R495). -/
structure Applet where
  tenant  : Nat
  seq     : Nat
  version : Nat
  code    : List Byte
  /-- Entry points INIT, LOAD_CHECK, CLOSE, TICK. -/
  entry   : Vector Nat 4
  faulted : Bool := false
  /-- Traps in a row. -/
  traps   : Nat := 0
  /-- Data memory, zero where unlisted (R490). -/
  data    : Sparse Byte := []
  deriving DecidableEq, Repr

/-- The invocation that runs (R490). -/
structure AcsRun where
  slot   : Nat
  hook   : Hook
  pc     : Nat
  /-- The operand stack, top first, and the call stack. -/
  stack  : List Word := []
  calls  : List Nat := []
  /-- Instructions executed. -/
  count  : Nat := 0
  /-- The applet data that OUT has set. -/
  out    : List Byte := []
  /-- CLOSE_REQ has been called. -/
  closeReq : Bool := false
  deriving DecidableEq, Repr

/-- A close of a period under way (R485). -/
structure Closing where
  tenant : Nat
  snap   : Accum
  endAt  : Nat
  untimed : Bool
  reply  : ReplyTo
  /-- A revocation with this SEQ follows (R436). -/
  revoke : Option Nat
  deriving DecidableEq, Repr

/-- A choreography load that awaits its LOAD_CHECK (R498): tenant, RECIPE_ID, VERSION, lane and the command. -/
structure LoadAsk where
  tenant  : Nat
  recipe  : Nat
  version : Nat
  lane    : Nat
  mode    : Nat
  buf     : Nat
  swapAt  : CTime
  reply   : ReplyTo
  deriving DecidableEq, Repr

structure MetSt where
  /-- Folded values by key (R471). -/
  folded  : List (TallyKey × Nat) := []
  /-- The last RSEQ sent, BASE, the totals at BASE, and the snapshots of the last 8 reports, newest first (R473). -/
  rseq    : Nat := 0
  base    : Nat := 0
  atBase  : List (TallyKey × Nat) := []
  snaps   : List (Nat × List (TallyKey × Nat)) := []
  /-- The last RSEQ sent before a session key was last installed. -/
  keyRseq : Nat := 0
  /-- The manager's record of each reporting position (R474). -/
  applied : Sparse Applied := []
  /-- Open accumulators by tenant (R481–R483). -/
  acc     : Sparse (Option Accum) := []
  /-- The high-water time H (R478). -/
  high    : Nat := 0
  /-- SET_UTC has been given since the device reset. -/
  timed   : Bool := false
  /-- The next LOG_SEQ (R488). -/
  logSeq  : Nat := 1
  applets : Vector (Option Applet) 8 := Vector.replicate 8 none
  run     : Option AcsRun := none
  /-- Invocations that wait, in the order of their events (R498). -/
  hooks   : List (Hook × Nat) := []
  closing : Option Closing := none
  /-- Closes and loads that wait for their turn. -/
  closeQ  : List (Nat × ReplyTo × Option Nat) := []
  loads   : List LoadAsk := []
  deriving DecidableEq, Repr


/-! ## Firmware -/

/-- What a node holds of one image area (R505, R513). -/
structure FwArea where
  session  : Option Word := none
  /-- The first 16 bytes of W_DIGEST that FW_OPEN named. -/
  digest   : List Byte := []
  /-- Header-phase chunks received, by chunk number. -/
  header   : List (Nat × List Byte) := []
  headerOk : Bool := false
  /-- The content key, once the header has verified. -/
  key      : List Byte := []
  /-- Block chunks held, by block and chunk number. -/
  chunks   : List ((Nat × Nat) × List Byte) := []
  /-- Verified blocks, rising. -/
  good     : List Nat := []
  deriving DecidableEq, Repr

/-- One chunk of a load (R512): of the header phase, or of a block. -/
structure Chunk where
  header : Bool
  block  : Nat
  chunk  : Nat
  deriving DecidableEq, Repr

/-- How far a chain load has come: FW_OPEN awaits answers, chunks are broadcast, FW_QUERY awaits answers, chunks are repaired. -/
inductive ChainPhase where
  | opening | sending | asking | repairing
  deriving DecidableEq, Repr

/-- A chain load that the manager runs (R511–R514). -/
structure ChainLoad where
  session : Word
  /-- It fills the next area rather than the run area. -/
  next    : Bool
  /-- It brings devices into line with the running bundle (R520). -/
  catchUp : Bool := false
  /-- Where the bundle is read: the address of a firmware slot, or of the own run area after a takeover (R551). -/
  source  : Nat
  targets : List Nat
  phase   : ChainPhase := .opening
  /-- Chunks broadcast so far. -/
  sent    : Nat := 0
  /-- Repair chunks still to be sent, by position. -/
  repair  : List (Nat × Chunk) := []
  rounds  : Nat := 0
  /-- Targets that have not answered the last FW_OPEN or FW_QUERY. -/
  waiting : List Nat := []
  deriving DecidableEq, Repr

/-- A switchover in progress (R516, R517). -/
structure Switch where
  at'    : Nat
  phase  : Nat
  /-- The slot that COPY fills: 0 A, 1 B. -/
  slot   : Nat
  /-- Devices that have been armed. -/
  armed  : List Nat := []
  /-- FW_QUERY of the commit is under way. -/
  asking : Bool := false
  /-- Devices that have not answered FW_ARM or the commit's FW_QUERY. -/
  waiting : List Nat := []
  deriving DecidableEq, Repr

structure FwSt where
  /-- A switchover in progress, on the manager. -/
  switch  : Option Switch := none
  load    : Option ChainLoad := none
  /-- Devices to load next, devices whose failed load waits 10 s (R514), and devices that run another worker image (R520). -/
  want    : List Nat := []
  failed  : List Nat := []
  behind  : List Nat := []
  /-- Positions whose worker firmware runs (R382, R514). -/
  running : List Nat := []
  areas   : Vector FwArea 2 := Vector.replicate 2 {}
  /-- When probation expires (R521). -/
  probEnd : Option CTime := none
  /-- What this start owes: slots set FAILED, a failed start before it, a revert, a failed next area (R510, R518, R523). -/
  owesBad : List Nat := []
  owesStart : Bool := false
  owesRevert : Bool := false
  owesWorker : Bool := false
  /-- Since the image started: FW_READY written, a FATAL error raised, a lane left SORTING (R522). -/
  ready   : Bool := false
  sawFatal : Bool := false
  sawDark : Bool := false
  /-- Consecutive health checks that have held. -/
  healthy : Nat := 0
  deriving DecidableEq, Repr

/-! ## Service -/

/-- The steps 4 to 8 of R546 for one position. -/
inductive AdmitStep where
  | check | loop0 | loop1 | choreo | shutter | enterLane
  deriving DecidableEq, Repr

structure SvcSt where
  /-- The manager's calibration records: digest prefixes of each lane (R545). -/
  records : Sparse (List (List Byte)) := []
  /-- The calibration record that holds on this device's lane; none while no record names it (R545). -/
  allow   : Option (List (List Byte)) := none
  /-- The last choreography of each lane, as the manager keeps it for R546. -/
  choreos : Sparse (List Byte) := []
  /-- Positions that are being admitted: the step under way, and its outcome once known (R546). -/
  admits  : List (Nat × AdmitStep × Option Half) := []
  /-- Probes sent in the present takeover attempt (R549). -/
  probes  : Nat := 0
  /-- Ticks since the release of device reset, for SVC_UPTIME. -/
  ticks   : Nat := 0
  /-- Lanes that wait for one more shutter event (R30, R547). -/
  shutterRetry : List Nat := []
  /-- Shutter events completed since the start (R270). -/
  shutters : Nat := 0
  deriving DecidableEq, Repr

/-! ## The whole state -/

/-- The state of the block. -/
structure State where
  /-- Register values that differ from their reset values, by address. -/
  regs : List (Nat × Word) := []
  /-- Bytes of system SRAM, MRAM, enclave SRAM and cell data memories that are not zero. -/
  mem : Memory := []
  /-- Curtain time (R84). -/
  ct : CTime := 0
  /-- A LOAD of curtain time waits for the next tick (R88). -/
  ctArmed : Bool := false
  /-- The model's own: how many free values have been drawn. -/
  free : Nat := 0
  /-- The model's own: what the block has sent or answered, newest first. -/
  out : List Output := []
  /-- The commands that are waiting, first in, first out. -/
  pending : List Instr := []
  power : PowerSt := {}
  rst : ResetSt := {}
  core : CoreSt := {}
  ms : MemSt := {}
  mram : MramSt := {}
  queues : Vector Queue 24 := Vector.replicate 24 {}
  gate : GateSt := {}
  err : ErrSt := {}
  lanes : LaneSt := {}
  host : HostSt := {}
  pav : PavSt := {}
  fe : FeSt := {}
  sht : ShtSt := {}
  nuc : NucSt := {}
  tdi : TdiSt := {}
  cal : CalSt := {}
  fab : FabSt := {}
  vis : VisSt := {}
  key : KeySt := {}
  eng : EngSt := {}
  ej : EjSt := {}
  ring : RingSt := {}
  met : MetSt := {}
  fw : FwSt := {}
  svc : SvcSt := {}
  deriving DecidableEq, Repr

/-- Why a command stops the machine. Every command of this block has an effect for every operand, so no command faults. -/
inductive Fault where
  /-- Raised by no meaning of this model; kept so that the outcome type has a reason. Safe. -/
  | none
  deriving DecidableEq, Repr

/-- Why a command is turned away. -/
inductive Refusal where
  /-- Raised by an arm of the dispatch whose command has no meaning yet. Safe: no claim can be proved of it. -/
  | notModelled (mnemonic : String)
  deriving DecidableEq, Repr

/-- The machine right after power-on reset has been released, straps unconnected. -/
def State.reset : State := {}

end Sys2Proof.Machine
end

