-- ==== Sys2Proof/Machine/Update.lean ====
section
/-! DEFINITION. One update function for each part of the state. -/

namespace Sys2Proof.Machine

/-- Changes `regs` alone. -/
def State.modRegs (s : State) (f : List (Nat × Word) → List (Nat × Word)) : State := { s with regs := f s.regs }

/-- Changes `mem` alone. -/
def State.modMem (s : State) (f : Memory → Memory) : State := { s with mem := f s.mem }

/-- Changes `ct` alone. -/
def State.modCt (s : State) (f : CTime → CTime) : State := { s with ct := f s.ct }

/-- Changes `ctArmed` alone. -/
def State.modCtArmed (s : State) (f : Bool → Bool) : State := { s with ctArmed := f s.ctArmed }

/-- Changes `free` alone. -/
def State.modFree (s : State) (f : Nat → Nat) : State := { s with free := f s.free }

/-- Changes `out` alone. -/
def State.modOut (s : State) (f : List Output → List Output) : State := { s with out := f s.out }

/-- Changes `pending` alone. -/
def State.modPending (s : State) (f : List Instr → List Instr) : State := { s with pending := f s.pending }

/-- Changes `power` alone. -/
def State.modPower (s : State) (f : PowerSt → PowerSt) : State := { s with power := f s.power }

/-- Changes `rst` alone. -/
def State.modRst (s : State) (f : ResetSt → ResetSt) : State := { s with rst := f s.rst }

/-- Changes `core` alone. -/
def State.modCore (s : State) (f : CoreSt → CoreSt) : State := { s with core := f s.core }

/-- Changes `ms` alone. -/
def State.modMs (s : State) (f : MemSt → MemSt) : State := { s with ms := f s.ms }

/-- Changes `mram` alone. -/
def State.modMram (s : State) (f : MramSt → MramSt) : State := { s with mram := f s.mram }

/-- Changes `queues` alone. -/
def State.modQueues (s : State) (f : Vector Queue 24 → Vector Queue 24) : State := { s with queues := f s.queues }

/-- Changes `gate` alone. -/
def State.modGate (s : State) (f : GateSt → GateSt) : State := { s with gate := f s.gate }

/-- Changes `err` alone. -/
def State.modErr (s : State) (f : ErrSt → ErrSt) : State := { s with err := f s.err }

/-- Changes `lanes` alone. -/
def State.modLanes (s : State) (f : LaneSt → LaneSt) : State := { s with lanes := f s.lanes }

/-- Changes `host` alone. -/
def State.modHost (s : State) (f : HostSt → HostSt) : State := { s with host := f s.host }

/-- Changes `pav` alone. -/
def State.modPav (s : State) (f : PavSt → PavSt) : State := { s with pav := f s.pav }

/-- Changes `fe` alone. -/
def State.modFe (s : State) (f : FeSt → FeSt) : State := { s with fe := f s.fe }

/-- Changes `sht` alone. -/
def State.modSht (s : State) (f : ShtSt → ShtSt) : State := { s with sht := f s.sht }

/-- Changes `nuc` alone. -/
def State.modNuc (s : State) (f : NucSt → NucSt) : State := { s with nuc := f s.nuc }

/-- Changes `tdi` alone. -/
def State.modTdi (s : State) (f : TdiSt → TdiSt) : State := { s with tdi := f s.tdi }

/-- Changes `cal` alone. -/
def State.modCal (s : State) (f : CalSt → CalSt) : State := { s with cal := f s.cal }

/-- Changes `fab` alone. -/
def State.modFab (s : State) (f : FabSt → FabSt) : State := { s with fab := f s.fab }

/-- Changes `vis` alone. -/
def State.modVis (s : State) (f : VisSt → VisSt) : State := { s with vis := f s.vis }

/-- Changes `key` alone. -/
def State.modKey (s : State) (f : KeySt → KeySt) : State := { s with key := f s.key }

/-- Changes `eng` alone. -/
def State.modEng (s : State) (f : EngSt → EngSt) : State := { s with eng := f s.eng }

/-- Changes `ej` alone. -/
def State.modEj (s : State) (f : EjSt → EjSt) : State := { s with ej := f s.ej }

/-- Changes `ring` alone. -/
def State.modRing (s : State) (f : RingSt → RingSt) : State := { s with ring := f s.ring }

/-- Changes `met` alone. -/
def State.modMet (s : State) (f : MetSt → MetSt) : State := { s with met := f s.met }

/-- Changes `fw` alone. -/
def State.modFw (s : State) (f : FwSt → FwSt) : State := { s with fw := f s.fw }

/-- Changes `svc` alone. -/
def State.modSvc (s : State) (f : SvcSt → SvcSt) : State := { s with svc := f s.svc }

end Sys2Proof.Machine
end

