-- ==== Sys2Proof/Machine/Ops.lean ====
section
/-! DEFINITION. The named operations over bit fields, sparse maps, memory, registers, the output log and free values. -/

namespace Sys2Proof.Machine

/-! ## Bit fields and bytes -/

/-- Bits [hi:lo] of a word, as a number (R11). -/
def fld {n : Nat} (w : BitVec n) (hi lo : Nat) : Nat := w.toNat / 2 ^ lo % 2 ^ (hi + 1 - lo)

/-- Bit k of a word. -/
def bitOf {n : Nat} (w : BitVec n) (k : Nat) : Bool := w.getLsbD k

/-- A word with bits [hi:lo] replaced by the low bits of `v`. -/
def setFld (w : Word) (hi lo v : Nat) : Word :=
  let m : Word := BitVec.ofNat 32 ((2 ^ (hi + 1 - lo) - 1) * 2 ^ lo)
  (w &&& ~~~m) ||| (BitVec.ofNat 32 (v * 2 ^ lo) &&& m)

/-- The number a truth value stores in a one-bit field. -/
def b2n (b : Bool) : Nat := if b then 1 else 0

/-- The n low bytes of a number, least significant first (R11). -/
def bytesLE : Nat → Nat → List Byte
  | 0, _ => []
  | n + 1, v => BitVec.ofNat 8 v :: bytesLE n (v / 256)

/-- The number that bytes spell, least significant first. -/
def natLE : List Byte → Nat
  | [] => 0
  | b :: r => b.toNat + 256 * natLE r

/-- The n low bytes of a number, most significant first. -/
def bytesBE (n v : Nat) : List Byte := (bytesLE n v).reverse

/-- The number that bytes spell, most significant first. -/
def natBE (l : List Byte) : Nat := natLE l.reverse

/-- The word that four bytes spell, little-endian. -/
def wordLE (l : List Byte) : Word := BitVec.ofNat 32 (natLE (l.take 4))

/-- n bytes of a list from an offset, padded with zero bytes where the list ends. -/
def slice (l : List Byte) (off n : Nat) : List Byte :=
  let t := (l.drop off).take n
  t ++ List.replicate (n - t.length) 0

/-- The little-endian number of n bytes from an offset. -/
def numAt (l : List Byte) (off n : Nat) : Nat := natLE (slice l off n)

/-- A count kept in n bits that stops at its largest value. -/
def satAdd (bits a b : Nat) : Nat := min (a + b) (2 ^ bits - 1)

/-- The value of an n-bit two's-complement number. -/
def sInt {n : Nat} (w : BitVec n) : Int := w.toInt

/-! ## Sparse maps -/

/-- The value a key reads as: its entry, or the default. -/
def sget {α : Type} (d : Nat → α) : Sparse α → Nat → α
  | [], k => d k
  | (k', v) :: r, k => if k' = k then v else sget d r k

/-- Sets a key, keeping keys rising and no entry equal to the default. -/
def sset {α : Type} [DecidableEq α] (d : Nat → α) (m : Sparse α) (k : Nat) (v : α) : Sparse α :=
  match m with
  | [] => if v = d k then [] else [(k, v)]
  | (k', v') :: r =>
    if k < k' then (if v = d k then (k', v') :: r else (k, v) :: (k', v') :: r)
    else if k = k' then (if v = d k then r else (k, v) :: r)
    else (k', v') :: sset d r k v

/-- Keys at or above `lo` and rising, no entry equal to the default. -/
def swfFrom {α : Type} [DecidableEq α] (d : Nat → α) : Nat → Sparse α → Bool
  | _, [] => true
  | lo, (k, v) :: r => decide (lo ≤ k) && decide (v ≠ d k) && swfFrom d (k + 1) r

/-- The canonical form of a sparse map. -/
def swf {α : Type} [DecidableEq α] (d : Nat → α) (m : Sparse α) : Bool := swfFrom d 0 m

/-- Removes every entry whose key lies in [lo, hi). -/
def sclear {α : Type} (m : Sparse α) (lo hi : Nat) : Sparse α :=
  m.filter (fun e => !(decide (lo ≤ e.1) && decide (e.1 < hi)))

/-- Adds a number to a rising list without repeats. -/
def nsAdd : List Nat → Nat → List Nat
  | [], k => [k]
  | x :: r, k => if k < x then k :: x :: r else if k = x then x :: r else x :: nsAdd r k

/-- Removes a number from a list. -/
def nsDel (l : List Nat) (k : Nat) : List Nat := l.filter (· ≠ k)

/-! ## Memory -/

/-- What an unlisted address reads as: zero (system SRAM is zeroed by ROM, R93; DESIGN CHOICE for MRAM, log 4). -/
def memDefault (_ : Nat) : Byte := 0

/-- The canonical form of memory. -/
def Memory.wf (m : Memory) : Bool := swf memDefault m

/-- One byte of memory. -/
def State.byteAt (s : State) (a : Nat) : Byte := sget memDefault s.mem a

/-- n bytes of memory from an address. -/
def State.bytesAt (s : State) (a : Nat) : Nat → List Byte
  | 0 => []
  | n + 1 => s.byteAt a :: State.bytesAt s (a + 1) n

/-- Stores bytes at consecutive addresses. -/
def putBytes (m : Memory) (a : Nat) : List Byte → Memory
  | [] => m
  | b :: r => putBytes (sset memDefault m a b) (a + 1) r

/-- Stores bytes at consecutive addresses of memory. -/
def State.setBytes (s : State) (a : Nat) (l : List Byte) : State := s.modMem (putBytes · a l)

/-- The 64-bit word at an address (R11). -/
def State.dwordAt (s : State) (a : Nat) : Nat := natLE (s.bytesAt a 8)

/-- The 32-bit word at an address. -/
def State.wordAt (s : State) (a : Nat) : Nat := natLE (s.bytesAt a 4)

/-- Every byte of [lo, hi) becomes zero. -/
def State.zeroRange (s : State) (lo hi : Nat) : State := s.modMem (sclear · lo hi)

/-! ## Registers -/

/-- The reset value of a register (R9): that of its table row, with the entries of R148 that differ from their row. -/
def resetWord (a : Nat) : Word :=
  match a with
  | 0x40060028 => 0x1000040F
  | 0x40060134 => 0xD000000C
  | 0x40060138 => 0xD000000C
  | a => match regDesc a with
    | some d => d.reset
    | none => 0

/-- The value a register holds. -/
def State.rd (s : State) (a : Nat) : Word := sget resetWord s.regs a

/-- The hardware sets a register. -/
def State.wr (s : State) (a : Nat) (v : Word) : State := s.modRegs (sset resetWord · a v)

/-- Bits [hi:lo] of a register. -/
def State.rdf (s : State) (a hi lo : Nat) : Nat := fld (s.rd a) hi lo

/-- The hardware sets bits [hi:lo] of a register. -/
def State.wrf (s : State) (a hi lo v : Nat) : State := s.wr a (setFld (s.rd a) hi lo v)

/-- One bit of a register. -/
def State.rdb (s : State) (a k : Nat) : Bool := bitOf (s.rd a) k

/-- The hardware sets one bit of a register. -/
def State.wrb (s : State) (a k : Nat) (b : Bool) : State := s.wrf a k k (b2n b)

/-- A saturating count in bits [hi:lo] of a register advances. -/
def State.bump (s : State) (a hi lo : Nat) (by' : Nat := 1) : State :=
  s.wrf a hi lo (satAdd (hi + 1 - lo) (s.rdf a hi lo) by')

/-- Two registers, low half first, set from one 64-bit value. -/
def State.wr64 (s : State) (lo hi v : Nat) : State := (s.wr lo (BitVec.ofNat 32 v)).wr hi (BitVec.ofNat 32 (v / 2 ^ 32))

/-- The 64-bit value of two registers. -/
def State.rd64 (s : State) (lo hi : Nat) : Nat := (s.rd lo).toNat + 2 ^ 32 * (s.rd hi).toNat

/-! ## Output and free values -/

/-- The block sends or answers something. -/
def State.emit (s : State) (o : Output) : State := s.modOut (o :: ·)

/-- The response of a bus access to its master (R151). -/
def State.resp (s : State) (m : Master) (data : List Byte) (err : Half := 0) : State := s.emit (.busResp m data err)

/-- Draws a free 32-bit value. -/
def State.drawWord (s : State) : Word × State := (Config.freeWord s.free, s.modFree (· + 1))

/-- Draws a free 64-bit value. -/
def State.drawDWord (s : State) : DWord × State := (Config.freeDWord s.free, s.modFree (· + 1))

/-- Draws a free count. -/
def State.drawNat (s : State) : Nat × State := (Config.freeNat s.free, s.modFree (· + 1))

/-- n free bytes from a draw number on. -/
def freeBytes (k : Nat) : Nat → List Byte
  | 0 => []
  | n + 1 => Config.freeByte k :: freeBytes (k + 1) n

/-- Draws n free bytes. -/
def State.drawBytes (s : State) (n : Nat) : List Byte × State := (freeBytes s.free n, s.modFree (· + n))

/-- Curtain time takes another value; the UTC pair that firmware keeps beside it follows, so that UTC does not step. -/
def State.stepCt (s : State) (f : CTime → CTime) : State :=
  (s.modCt f).modHost fun h => { h with utc := h.utc.map fun (u, c) => (u, c + (f s.ct - s.ct)) }

/-! ## Masters, roles and phases -/

/-- The MASTER code of a fault record (R151). -/
def masterCode : Master → Nat
  | .cc => 0 | .en => 1 | .fd => 2 | .ld => 3 | .hd => 4 | .dbg => 5

/-- The device is out of every reset: it answers commands. -/
def State.live (s : State) : Bool := decide (s.power.phase = .running) && !s.rst.asserted

/-- The acting role as SYS_ROLE.ACTING codes it: 0 worker, 1 manager, 2 standby. -/
def State.acting (s : State) : Nat := s.rdf Reg.SYS_ROLE 3 2

def State.isManager (s : State) : Bool := s.acting == 1
def State.isStandby (s : State) : Bool := s.acting == 2

/-- SYS_ROLE.POSITION; 0xFF without one. -/
def State.position (s : State) : Nat := s.rdf Reg.SYS_ROLE 23 16

/-- Firmware is running on the control core. -/
def State.fwRuns (s : State) : Bool := decide (s.core.mode = .firmware)

/-- Applies a change only while the device is out of reset. -/
def whenLive (s : State) (f : State → State) : State := if s.live then f s else s

/-- Applies a change only where its condition holds. -/
def whenB (c : Bool) (s : State) (f : State → State) : State := if c then f s else s

/-- Whether secure debug is open (PAV_DBG.SECURE, R418). -/
def State.secureDebug (s : State) : Bool := s.rdb Reg.PAV_DBG 1

/-- The world of a master's accesses (R139). -/
def State.secureWorld (s : State) (m : Master) : Bool :=
  match m with
  | .en => true
  | .dbg => s.secureDebug
  | _ => false

end Sys2Proof.Machine
end

