-- ==== Sys2Proof/Machine/Operands.lean ====
section
/-! DEFINITION. The operand forms of the stage cells: the five instruction formats, which words are legal, and effective
addresses (R277, R280–R282). -/

namespace Sys2Proof.Machine

/-! ## Formats (R280) -/

/-- A word of format R. -/
def encR (op d s t : Nat) (f : Bool) (fn : Nat) : Word :=
  BitVec.ofNat 32 (op * 2 ^ 26 + d * 2 ^ 22 + s * 2 ^ 18 + t * 2 ^ 14 + b2n f * 2 ^ 13 + fn * 2 ^ 8)

/-- A word of format I. -/
def encI (op d s : Nat) (f : Bool) (imm : Nat) : Word :=
  BitVec.ofNat 32 (op * 2 ^ 26 + d * 2 ^ 22 + s * 2 ^ 18 + b2n f * 2 ^ 17 + imm)

/-- A word of format M. -/
def encM (op d a : Nat) (p : Bool) (off : Half) : Word :=
  BitVec.ofNat 32 (op * 2 ^ 26 + d * 2 ^ 22 + a * 2 ^ 20 + b2n p * 2 ^ 19 + off.toNat)

/-- A word of format B. -/
def encB (op cond s : Nat) (off : BitVec 12) : Word :=
  BitVec.ofNat 32 (op * 2 ^ 26 + cond * 2 ^ 22 + s * 2 ^ 18 + off.toNat)

/-- A word of format S. -/
def encS (op r slot : Nat) (e : Bool) (q : BitVec 2) (x : Bool) : Word :=
  BitVec.ofNat 32 (op * 2 ^ 26 + r * 2 ^ 22 + slot * 2 ^ 20 + b2n e * 2 ^ 19 + q.toNat * 2 ^ 17 + b2n x * 2 ^ 16)

/-! ## Legality (R281, R282) -/

/-- Fields of a word that must be 0: bits [hi:lo]. -/
def zeroAt (w : Word) (hi lo : Nat) : Bool := fld w hi lo == 0

/-- The functions of OP 0x01 that exist in lane form (R282). -/
def laneFn (fn : Nat) : Bool := decide (fn ≤ 0x09) || (decide (0x0C ≤ fn) && decide (fn ≤ 0x13)) || (decide (0x18 ≤ fn) && decide (fn ≤ 0x1B))

/-- A word of OP 0x01 or 0x02 is legal. -/
def legalAlu (w : Word) (lanes : Bool) : Bool :=
  let fn := fld w 12 8
  zeroAt w 7 0 && decide (fn ≤ 0x1D) && (!lanes || laneFn fn) &&
    (if fn = 0x16 ∨ fn = 0x17 then zeroAt w 25 22 && bitOf w 13 else true) &&
    (if 0x18 ≤ fn then zeroAt w 17 14 else true)

/-- A word of OP 0x0C is legal. -/
def legalDsu (w : Word) : Bool :=
  let fn := fld w 12 8
  zeroAt w 7 0 && !bitOf w 13 && decide (fn ≤ 6) && (if 4 ≤ fn then zeroAt w 17 14 else true)

/-- A word is one of the instructions of R282 with its reserved and unused fields at 0. -/
def cellLegal (w : Word) : Bool :=
  match fld w 31 26 with
  | 0x01 => legalAlu w false
  | 0x02 => legalAlu w true
  | 0x03 | 0x04 | 0x05 | 0x06 | 0x07 => zeroAt w 16 16
  | 0x08 => zeroAt w 25 22 && zeroAt w 16 16 && bitOf w 17
  | 0x09 => zeroAt w 16 16 && zeroAt w 15 10 && zeroAt w 7 6
  | 0x0A | 0x0B => zeroAt w 21 18 && zeroAt w 16 16
  | 0x0C => legalDsu w
  | 0x10 | 0x11 | 0x12 | 0x13 | 0x14 | 0x15 | 0x16 | 0x17 => zeroAt w 18 16
  | 0x18 => zeroAt w 25 24 && zeroAt w 17 0
  | 0x19 => zeroAt w 21 20 && zeroAt w 17 0
  | 0x1A => zeroAt w 25 24 && zeroAt w 21 16
  | 0x20 => zeroAt w 21 12
  | 0x21 => zeroAt w 21 12
  | 0x22 => zeroAt w 25 22 && zeroAt w 17 0
  | 0x23 => zeroAt w 25 0
  | 0x28 | 0x2B | 0x2C => zeroAt w 19 0
  | 0x29 => zeroAt w 15 0
  | 0x2A => zeroAt w 25 22 && zeroAt w 19 0
  | 0x30 => zeroAt w 21 3
  | 0x31 => zeroAt w 25 22 && zeroAt w 17 0
  | 0x34 => zeroAt w 25 22 && zeroAt w 17 4
  | 0x35 => zeroAt w 21 4
  | 0x36 => zeroAt w 25 22 && zeroAt w 17 3
  | 0x37 => zeroAt w 25 3
  | 0x38 => zeroAt w 21 3
  | 0x3F => zeroAt w 25 0
  | _ => false

/-! ## Addresses (R277, R282) -/

/-- An address register plus a signed offset, modulo 32,768. -/
def addOff (a : BitVec 15) (off : Half) : BitVec 15 := a + off.truncate 15

/-- The effective address of a memory instruction, and its address register afterwards. -/
def effAddr (a : BitVec 15) (p : Bool) (off : Half) : BitVec 15 × BitVec 15 :=
  if p then (a, addOff a off) else (addOff a off, a)

/-- A signed word offset added to PC, modulo 2048. -/
def branchTarget (pc : BitVec 11) (off : BitVec 12) : BitVec 11 := pc + off.truncate 11

end Sys2Proof.Machine
end

