-- ==== Sys2Proof/Machine/Flags.lean ====
section
/-! DEFINITION. The arithmetic of the stage cells with its carry and overflow (R282, R284–R286): each operation at any width,
so that the lane forms are the 16-bit instances. -/

namespace Sys2Proof.Machine

/-- A result with the C and V it gives. -/
structure Arith (n : Nat) where
  r : BitVec n
  c : Bool := false
  v : Bool := false
  deriving DecidableEq, Repr

/-- The least signed number of n bits. -/
def sMin (n : Nat) : Int := -(2 ^ (n - 1) : Nat)

/-- The greatest signed number of n bits. -/
def sMax (n : Nat) : Int := (2 ^ (n - 1) : Nat) - 1

/-- An exact signed result lies outside the format. -/
def overflows (n : Nat) (x : Int) : Bool := decide (x < sMin n) || decide (sMax n < x)

/-- An exact signed result narrowed by wrapping. -/
def wrapTo (n : Nat) (x : Int) : BitVec n := BitVec.ofInt n x

/-- An exact signed result narrowed by saturation. -/
def satTo (n : Nat) (x : Int) : BitVec n := BitVec.ofInt n (max (sMin n) (min (sMax n) x))

/-- The narrowed form of an exact result. -/
def narrow (sat : Bool) (n : Nat) (x : Int) : BitVec n := if sat then satTo n x else wrapTo n x

def aluAddWith (sat : Bool) {n : Nat} (s t : BitVec n) : Arith n :=
  { r := narrow sat n (s.toInt + t.toInt), c := decide (2 ^ n ≤ s.toNat + t.toNat), v := overflows n (s.toInt + t.toInt) }
def aluSubWith (sat : Bool) {n : Nat} (s t : BitVec n) : Arith n :=
  { r := narrow sat n (s.toInt - t.toInt), c := decide (t.toNat ≤ s.toNat), v := overflows n (s.toInt - t.toInt) }
def aluMulWith (sat : Bool) {n : Nat} (s t : BitVec n) : Arith n :=
  { r := narrow sat n (s.toInt * t.toInt), v := overflows n (s.toInt * t.toInt) }
/-- |s|: an overflow exactly at the most negative number. -/
def aluAbsWith (sat : Bool) {n : Nat} (s : BitVec n) : Arith n :=
  { r := narrow sat n (if s.toInt < 0 then -s.toInt else s.toInt),
    v := overflows n (if s.toInt < 0 then -s.toInt else s.toInt) }

def aluAdd {n : Nat} (s t : BitVec n) : Arith n := aluAddWith false s t
def aluAdds {n : Nat} (s t : BitVec n) : Arith n := aluAddWith true s t
def aluSub {n : Nat} (s t : BitVec n) : Arith n := aluSubWith false s t
def aluSubs {n : Nat} (s t : BitVec n) : Arith n := aluSubWith true s t
def aluAnd {n : Nat} (s t : BitVec n) : Arith n := { r := s &&& t }
def aluOr {n : Nat} (s t : BitVec n) : Arith n := { r := s ||| t }
def aluXor {n : Nat} (s t : BitVec n) : Arith n := { r := s ^^^ t }
def aluAndn {n : Nat} (s t : BitVec n) : Arith n := { r := s &&& ~~~t }
def aluMul {n : Nat} (s t : BitVec n) : Arith n := aluMulWith false s t
def aluMuls {n : Nat} (s t : BitVec n) : Arith n := aluMulWith true s t
def aluMulh (s t : Word) : Arith 32 := { r := BitVec.ofInt 32 (s.toInt * t.toInt / 2 ^ 32) }
def aluMulhu (s t : Word) : Arith 32 := { r := BitVec.ofNat 32 (s.toNat * t.toNat / 2 ^ 32) }
def aluMin {n : Nat} (s t : BitVec n) : Arith n := { r := if s.toInt ≤ t.toInt then s else t }
def aluMax {n : Nat} (s t : BitVec n) : Arith n := { r := if t.toInt ≤ s.toInt then s else t }
def aluMinu {n : Nat} (s t : BitVec n) : Arith n := { r := if s.toNat ≤ t.toNat then s else t }
def aluMaxu {n : Nat} (s t : BitVec n) : Arith n := { r := if t.toNat ≤ s.toNat then s else t }
/-- The shift amount of t: its low 6 bits, or the low 5 bits of a lane (R285). -/
def shiftAmount {n : Nat} (t : BitVec n) : Nat := if n = 32 then t.toNat % 64 else t.toNat % 32
def aluShl {n : Nat} (s t : BitVec n) : Arith n := { r := s <<< shiftAmount t }
def aluShr {n : Nat} (s t : BitVec n) : Arith n := { r := s >>> shiftAmount t }
def aluSar {n : Nat} (s t : BitVec n) : Arith n := { r := s.sshiftRight (shiftAmount t) }
def aluRor {n : Nat} (s t : BitVec n) : Arith n := { r := s.rotateRight (shiftAmount t % n) }
/-- The multiply-accumulates take d as their third operand. -/
def aluMacWith (sat : Bool) (d s t : Word) : Arith 32 :=
  { r := narrow sat 32 (d.toInt + s.toInt * t.toInt), v := overflows 32 (d.toInt + s.toInt * t.toInt) }
def aluMac (d s t : Word) : Arith 32 := aluMacWith false d s t
def aluMacs (d s t : Word) : Arith 32 := aluMacWith true d s t
def aluNeg {n : Nat} (s _t : BitVec n) : Arith n := aluSubWith false 0 s
def aluNegs {n : Nat} (s _t : BitVec n) : Arith n := aluSubWith true 0 s
def aluAbs {n : Nat} (s _t : BitVec n) : Arith n := aluAbsWith false s
def aluAbss {n : Nat} (s _t : BitVec n) : Arith n := aluAbsWith true s
/-- Leading zero bits from bit n − 1 down. -/
def leadingZeros {m : Nat} (s : BitVec m) : Nat → Nat
  | 0 => 0
  | n + 1 => if s.getLsbD n then 0 else 1 + leadingZeros s n
def aluClz (s _t : Word) : Arith 32 := { r := BitVec.ofNat 32 (leadingZeros s 32) }
def aluMov (s _t : Word) : Arith 32 := { r := s }

/-- An operation on two 16-bit lanes: C from the high lane, V from either (R284). -/
def onLanes (f : BitVec 16 → BitVec 16 → Arith 16) (s t : Word) : Arith 32 :=
  let h := f (s.extractLsb' 16 16) (t.extractLsb' 16 16)
  let l := f (s.extractLsb' 0 16) (t.extractLsb' 0 16)
  { r := h.r ++ l.r, c := h.c, v := h.v || l.v }

/-! ## The DSU (R282, R286) -/

/-- What a DSU operation writes: its result, V, and whether it sets DZ. -/
structure DsuOut where
  r  : Word
  v  : Bool := false
  dz : Bool := false
  deriving DecidableEq, Repr

/-- DIV: truncated toward zero, with the edges of R286. -/
def dsuDiv (s t : Word) : DsuOut :=
  if t = 0 then { r := if s = 0 then 0 else if s.toInt < 0 then 0x80000000 else 0x7FFFFFFF, dz := true }
  else if s = 0x80000000 ∧ t = 0xFFFFFFFF then { r := 0x7FFFFFFF, v := true }
  else { r := BitVec.ofInt 32 (s.toInt.tdiv t.toInt) }

def dsuDivu (s t : Word) : DsuOut :=
  if t = 0 then { r := if s = 0 then 0 else 0xFFFFFFFF, dz := true } else { r := BitVec.ofNat 32 (s.toNat / t.toNat) }

def dsuRem (s t : Word) : DsuOut :=
  if t = 0 then { r := s, dz := true } else { r := BitVec.ofInt 32 (s.toInt.tmod t.toInt) }

def dsuRemu (s t : Word) : DsuOut :=
  if t = 0 then { r := s, dz := true } else { r := BitVec.ofNat 32 (s.toNat % t.toNat) }

/-- RECIP: 2^32 ÷ s to nearest, ties away from zero (R12). -/
def dsuRecip (s : Word) : DsuOut :=
  if s = 0 then { r := 0xFFFFFFFF, dz := true }
  else
    let q := (2 * 2 ^ 32 + s.toNat) / (2 * s.toNat)
    if 2 ^ 32 ≤ q then { r := 0xFFFFFFFF, v := true } else { r := BitVec.ofNat 32 q }

/-- ⌊√n⌋ from the highest bit down: r holds the bits already found. -/
def rootBits (n : Nat) : Nat → Nat → Nat
  | 0, r => r
  | b + 1, r => rootBits n b (if (r + 2 ^ b) * (r + 2 ^ b) ≤ n then r + 2 ^ b else r)

def dsuSqrt (s : Word) : DsuOut := { r := BitVec.ofNat 32 (rootBits s.toNat 16 0) }
def dsuSqrtq (s : Word) : DsuOut := { r := BitVec.ofNat 32 (rootBits (s.toNat * 2 ^ 16) 24 0) }

/-- The DSU operation of an FN. -/
def dsuOut (fn : Nat) (s t : Word) : DsuOut :=
  match fn with
  | 0 => dsuDiv s t
  | 1 => dsuDivu s t
  | 2 => dsuRem s t
  | 3 => dsuRemu s t
  | 4 => dsuRecip s
  | 5 => dsuSqrt s
  | _ => dsuSqrtq s

end Sys2Proof.Machine
end

