-- ==== Sys2Proof/Machine/ErrCodes.lean ====
section
/-! DEFINITION. The error codes (R529) and the class of each (R528). -/

namespace Sys2Proof.Machine

namespace Err

/-! The codes of R530. -/

abbrev CLOCK_FAIL : Half := 0x0010
abbrev WDOG_RESTART : Half := 0x0011
abbrev VIO1_LOST : Half := 0x0031
abbrev CT_SET_BUSY : Half := 0x0041
abbrev SAFE_NESTED : Half := 0x0050
abbrev SAFE_TIMEOUT : Half := 0x0051
abbrev SAFE_REQUESTED : Half := 0x0052
abbrev ERR_REPORT_LOST : Half := 0x0060
abbrev REG_ACCESS : Half := 0x0070

/-! The codes of R138. -/

abbrev MEM_CE : Half := 0x1001
abbrev MEM_UE : Half := 0x1002
abbrev MEM_POISON : Half := 0x1003
abbrev MEM_WR_POISON : Half := 0x1004
abbrev MRAM_CE : Half := 0x1010
abbrev MRAM_UE : Half := 0x1011
abbrev MRAM_NOT_VALID : Half := 0x1012
abbrev MRAM_PROG_REFUSED : Half := 0x1013
abbrev MRAM_WEAR : Half := 0x1014
abbrev MRAM_RETIRED : Half := 0x1015
abbrev MRAM_SPARES_OUT : Half := 0x1016
abbrev MRAM_BUSY : Half := 0x1017
abbrev MRAM_ALIGN : Half := 0x1018
abbrev MRAM_CLR_DENIED : Half := 0x1019
abbrev Q_DROPPED : Half := 0x1020

/-! The codes of R162. -/

abbrev GATE_DENIED : Half := 0x2001
abbrev GATE_NOMATCH : Half := 0x2002
abbrev GATE_WORLD : Half := 0x2003
abbrev GATE_POSTED_DENIED : Half := 0x2004
abbrev GATE_SYNC_TIMEOUT : Half := 0x2005

/-! The codes of R189. -/

abbrev FE_TIMING : Half := 0x3001
abbrev FE_BUSY : Half := 0x3002
abbrev FE_CHANNEL_STUCK : Half := 0x3010
abbrev BIAS_RANGE : Half := 0x3020
abbrev BIAS_LIMIT : Half := 0x3021
abbrev FPT_OPEN : Half := 0x3030
abbrev FPT_SHORT : Half := 0x3031
abbrev SHT_NOT_READY : Half := 0x3040
abbrev SHT_NO_CLOSE : Half := 0x3041
abbrev SHT_NO_OPEN : Half := 0x3042
abbrev SHT_POS_FAULT : Half := 0x3043
abbrev SHT_BUSY : Half := 0x3044
abbrev SHT_ABSENT : Half := 0x3045
abbrev SHT_UNCOMMANDED : Half := 0x3046
abbrev SHT_INHIBITED : Half := 0x3047

/-! The codes of R214. -/

abbrev NUC_BANK_BUSY : Half := 0x3050
abbrev NUC_EXTRAP : Half := 0x3051
abbrev NUC_COEF_ECC : Half := 0x3052
abbrev NUC_OFS_SKIPPED : Half := 0x3053
abbrev NUC_SETSEL_BAD : Half := 0x3056
abbrev TDI_CONFIG : Half := 0x3060

/-! The codes of R250. -/

abbrev VIS_FORMAT : Half := 0x3070
abbrev VIS_LOCK_LOST : Half := 0x3071
abbrev VIS_LINE_LEN : Half := 0x3072
abbrev VIS_DROPPED : Half := 0x3073
abbrev VIS_REG_BUSY : Half := 0x3074
abbrev VIS_TRIG_CLAIM : Half := 0x3075

/-! The codes of R233. -/

abbrev CAL_NOT_IDLE : Half := 0x4001
abbrev CAL_BAD_ARGS : Half := 0x4002
abbrev CAL_WRONG_STATE : Half := 0x4003
abbrev CAL_ACTIVE : Half := 0x4004
abbrev CAL_NONE : Half := 0x4010
abbrev CAL_CORRUPT : Half := 0x4011
abbrev CAL_EXPIRED : Half := 0x4012
abbrev CAL_MISMATCH : Half := 0x4013
abbrev CAL_SHADOWED : Half := 0x4014
abbrev CAL_ABORTED : Half := 0x4020

/-! The codes of R275. -/

abbrev FAB_FORMAT : Half := 0x5101
abbrev FAB_HEADER : Half := 0x5102
abbrev FAB_ROUTE : Half := 0x5103
abbrev FAB_CLAIM_CONFLICT : Half := 0x5104
abbrev FAB_SECTION : Half := 0x5105
abbrev FAB_PORT : Half := 0x5106
abbrev FAB_CELL : Half := 0x5107
abbrev FAB_ROLLBACK : Half := 0x5108
abbrev FAB_AUTH : Half := 0x5109
abbrev FAB_NO_KEY : Half := 0x510A
abbrev FAB_GEOMETRY : Half := 0x510B
abbrev FAB_BUSY : Half := 0x510C
abbrev FAB_STAGING : Half := 0x510D
abbrev FAB_CLAIM_INVALID : Half := 0x510E
abbrev FAB_LANE_STATE : Half := 0x510F
abbrev FAB_PRIVATE : Half := 0x5111
abbrev FAB_APPLY_FAILED : Half := 0x5120
abbrev FAB_TALLY_CLASS : Half := 0x5130

/-! The codes of R306. -/

abbrev CELL_EXCEPTION : Half := 0x5140
abbrev CELL_MEM_CE : Half := 0x5141

/-! The codes of R332. -/

abbrev EJ_REC_BAD : Half := 0x6001
abbrev EJ_PORT_OFF : Half := 0x6002
abbrev EJ_PART_UNCLAIMED : Half := 0x6003
abbrev EJ_MASK : Half := 0x6004
abbrev EJ_PART_FULL : Half := 0x6005
abbrev EJ_LATE : Half := 0x6006
abbrev EJ_FAR : Half := 0x6007
abbrev EJ_BANK_SILENT : Half := 0x6010
abbrev EJ_CLOCK : Half := 0x6011
abbrev EJ_BANK_PROTOCOL : Half := 0x6012
abbrev EJ_PORT_UP : Half := 0x6013
abbrev EJ_VALVE_FAULT : Half := 0x6014
abbrev EJ_DRIVER_HOT : Half := 0x6015
abbrev EJ_NOCONF : Half := 0x6016

/-! The codes of R373. -/

abbrev FRL_LINK_DOWN : Half := 0x7001
abbrev FRL_REPLAY_LIMIT : Half := 0x7002
abbrev FRL_MISCABLED : Half := 0x7003
abbrev FRL_RING_OPEN : Half := 0x7010
abbrev NODE_LOST : Half := 0x7011
abbrev FRL_RING_CHANGED : Half := 0x7012
abbrev RING_OVERSIZE : Half := 0x7013
abbrev DUPLICATE_MANAGER : Half := 0x7014
abbrev FRL_STANDBY_EXTRA : Half := 0x7015
abbrev FRL_TIME_LOST : Half := 0x7020
abbrev FRL_AUTH_FAIL : Half := 0x7030
abbrev FRL_PSEQ_REPLAY : Half := 0x7031
abbrev FRL_UNPROTECTED : Half := 0x7032
abbrev FRL_TXN_FAILED : Half := 0x7040

/-! The codes of R399. -/

abbrev HOST_PENDING : Half := 0x8002
abbrev HOST_UNKNOWN_CMD : Half := 0x8003
abbrev HOST_BUSY : Half := 0x8004
abbrev HOST_EPOCH : Half := 0x8005
abbrev HOST_TXN_STALE : Half := 0x8006
abbrev HOST_NOT_MANAGER : Half := 0x8007
abbrev HOST_BAD_ARGS : Half := 0x8008
abbrev HOST_INJECT_CLOSED : Half := 0x8009
abbrev HOST_INJECT_FULL : Half := 0x800A
abbrev HOST_LANE_ABSENT : Half := 0x800B
abbrev HOST_DIGEST : Half := 0x800C
abbrev HOST_BUFFER : Half := 0x800D
abbrev HOST_RECOVERY : Half := 0x800E
abbrev HOST_LANE_SAFE : Half := 0x800F
abbrev HOST_LINK_DOWN : Half := 0x8010
abbrev HOST_EVENT_LOST : Half := 0x8011
abbrev LOOP_COMPLIANCE : Half := 0x8020
abbrev LOOP_RANGE : Half := 0x8021
abbrev PLANT_LINK_DOWN : Half := 0x8030
abbrev PLANT_NOARP : Half := 0x8031
abbrev PLANT_CONFIG : Half := 0x8032

/-! The codes of R420. -/

abbrev PAV_TAMPER_ALERT : Half := 0x9001
abbrev PAV_TAMPER_ERASE : Half := 0x9002
abbrev PAV_LC_REFUSED : Half := 0x9010
abbrev PAV_CNT_SATURATED : Half := 0x9020
abbrev PAV_CNT_DIRECT : Half := 0x9021
abbrev PAV_CNT_CLEAR : Half := 0x9022
abbrev PAV_CNT_LOST : Half := 0x9023
abbrev PAV_RNG_FAIL : Half := 0x9030
abbrev PAV_DBG_FAIL : Half := 0x9040
abbrev PAV_DBG_OPEN : Half := 0x9041

/-! The codes of R443. -/

abbrev KEY_ROOT_FAIL : Half := 0xA001
abbrev KEY_HELPER_COPY : Half := 0xA002
abbrev KEY_SLOT_INVALID : Half := 0xA010
abbrev KEY_USE_DENIED : Half := 0xA011
abbrev KEY_TAG_FAIL : Half := 0xA012
abbrev KEY_CLEAR_REFUSED : Half := 0xA013
abbrev KEY_SLOT_BUSY : Half := 0xA014
abbrev KEY_PKG_FORMAT : Half := 0xA020
abbrev KEY_PKG_AUTH : Half := 0xA021
abbrev KEY_PKG_ROLLBACK : Half := 0xA022
abbrev KEY_PKG_STATE : Half := 0xA023
abbrev KEY_MEMBERSHIP_FAIL : Half := 0xA030
abbrev KEY_REMASK_STALL : Half := 0xA031

/-! The codes of R469. -/

abbrev ENG_QUEUE_FULL : Half := 0xB001
abbrev ENG_DESC_BAD : Half := 0xB002
abbrev ENG_DMA : Half := 0xB003
abbrev DIG_LENGTH : Half := 0xB010
abbrev DIG_NO_JOB : Half := 0xB011
abbrev DIG_STATE_AUTH : Half := 0xB012
abbrev ENG_EXPECT_BAD : Half := 0xB013
abbrev ENG_DEST : Half := 0xB014
abbrev DIG_STATE_STALE : Half := 0xB015
abbrev CIP_LENGTH : Half := 0xB020
abbrev CIP_CTR_WRAP : Half := 0xB021
abbrev CIP_TAG_FAIL : Half := 0xB022
abbrev CIP_UNWRAP_FAIL : Half := 0xB023
abbrev ENG_FAULT : Half := 0xB030
abbrev PKA_POINT : Half := 0xB040
abbrev PKA_ZERO : Half := 0xB041
abbrev PKA_RNG : Half := 0xB042

/-! The codes of R499. -/

abbrev ACS_FORMAT : Half := 0xC001
abbrev ACS_ROLLBACK : Half := 0xC002
abbrev ACS_AUTH : Half := 0xC003
abbrev ACS_NO_SLOT : Half := 0xC004
abbrev ACS_STATE : Half := 0xC005
abbrev ACS_NO_KEY : Half := 0xC006
abbrev ACS_TRAP : Half := 0xC010
abbrev ACS_FAULTED : Half := 0xC011
abbrev ACS_LICENCE : Half := 0xC012
abbrev MET_CLOCK_REGRESSION : Half := 0xC020
abbrev MET_NO_KEY : Half := 0xC021
abbrev MET_NOT_FOUND : Half := 0xC022
abbrev MET_RECORD_LOST : Half := 0xC024
abbrev MET_ENTRY_OVERFLOW : Half := 0xC025

/-! The codes of R527. -/

abbrev FW_FORMAT : Half := 0xD001
abbrev FW_AUTH : Half := 0xD002
abbrev FW_ROLLBACK : Half := 0xD003
abbrev FW_STEPPING : Half := 0xD004
abbrev FW_NOT_STAGED : Half := 0xD005
abbrev FW_BUSY : Half := 0xD006
abbrev FW_TIME : Half := 0xD007
abbrev FW_PROBATION : Half := 0xD008
abbrev FW_TOO_LATE : Half := 0xD009
abbrev FW_STORE : Half := 0xD00A
abbrev FW_NONE_PENDING : Half := 0xD00B
abbrev FW_CHAIN_FAIL : Half := 0xD010
abbrev FW_SWITCH_CANCELLED : Half := 0xD011
abbrev FW_REVERTED : Half := 0xD012
abbrev FW_SLOT_BAD : Half := 0xD013
abbrev FW_FAILED_START : Half := 0xD014
abbrev FW_WORKER_IMAGE : Half := 0xD015
abbrev FW_CONFIRMED : Half := 0xD020

/-! The codes of R557. -/

abbrev SVC_TAKEOVER : Half := 0xE001
abbrev SVC_TAKEOVER_DECLINED : Half := 0xE002
abbrev SVC_STANDBY_KEYS : Half := 0xE003
abbrev SVC_TAKEOVER_LIMIT : Half := 0xE004
abbrev SVC_CAL_FOREIGN : Half := 0xE010
abbrev SVC_SPARES_LOW : Half := 0xE020
abbrev SVC_CAL_DUE : Half := 0xE021
abbrev SVC_RENUMBERED : Half := 0xE030

end Err

/-- The class number of R528 under which a code enters the error controller; a code that never enters it is 0. -/
def errClass (c : Half) : Fin 5 :=
  match c.toNat with
  | 0x2003 | 0x7030 | 0x7031 | 0x9001 | 0x9002 | 0x9040 | 0x9041 | 0xA012 | 0xA030 | 0xB012 | 0xB013 | 0xB030 => 4
  | 0x1016 | 0x9023 | 0xA001 => 3
  | 0x0010 | 0x0011 | 0x0031 | 0x0050 | 0x0051 | 0x0052 | 0x0060 | 0x0070 | 0x1002 | 0x1004 | 0x1011 | 0x1014 | 0x2004 | 0x3010 | 0x3021 | 0x3030 | 0x3031 | 0x3041 | 0x3042 | 0x3043 | 0x3052 | 0x3053 | 0x3071 | 0x4010 | 0x4011 | 0x4012 | 0x5120 | 0x5140 | 0x6005 | 0x6010 | 0x6011 | 0x6012 | 0x6014 | 0x6015 | 0x7001 | 0x7002 | 0x7003 | 0x7010 | 0x7011 | 0x7012 | 0x7014 | 0x7020 | 0x7040 | 0x8010 | 0x8011 | 0x8020 | 0x9030 | 0xA002 | 0xA031 | 0xC010 | 0xC011 | 0xC021 | 0xC024 | 0xD00A | 0xD010 | 0xD011 | 0xD012 | 0xD013 | 0xD014 | 0xD015 | 0xE001 | 0xE010 | 0xE020 => 2
  | 0x1001 | 0x1010 | 0x5141 => 1
  | _ => 0

end Sys2Proof.Machine
end

