-- ==== Sys2Proof/Machine/Errors.lean ====
section
/-! DEFINITION. Events to the machine computer, lane states, the error controller's latches and the safe state. -/

namespace Sys2Proof.Machine

/-! ## Events (R387) -/

/-- Whether an event frame can leave now: a peer is bound, the machine link is up, and no warm path runs (R376, R398). -/
def State.hostReady (s : State) : Bool := s.host.peer.isSome && s.rdb Reg.HOST_STAT 0 && decide (s.core.mode ≠ .warm)

/-- Queues an event under the next ESEQ and sends it if a peer is bound; with 256 waiting it is discarded and counted. A worker's
change of an ejector port or of its calibration is noted for the manager, which sends the event. -/
def postEvent (s : State) (code : Half) (lane : Nat) (body : List Byte) : State :=
  if !s.isManager then
    if code = 0x0104 ∨ code = 0x0105 then s.modRing fun r => { r with notes := r.notes ++ [[0x0A, 0x0E, 0, 0] ++ bytesLE 2 code.toNat ++ body] }
    else s
  else if 256 ≤ s.host.events.length then s.modHost fun h => { h with lost := h.lost + 1 }
  else
    let e : HostEvent := { eseq := s.host.eseq, code := code, lane := lane, body := body }
    let s1 := s.modHost fun h => { h with events := h.events ++ [e], eseq := h.eseq + 1 }
    if s.hostReady then s1.emit (.event e.eseq code lane body) else s1

/-! ## Latches (R531) -/

/-- The enable or pending registers' view of the latch lines 0 to 4: line 4 − k for class k (R542). -/
def classLine (k : Nat) : Nat := 4 - k

/-- Counts an error and latches it, or counts it as overflow when its class latch is full. -/
def latchError (s : State) (code : Half) (src : Byte) (detail : DWord) : State :=
  let k := (errClass code).val
  let s0 := if k = 3 then s.modFw fun w => { w with sawFatal := true } else s
  let s1 := s0.bump (Reg.ERR_COUNT k) 31 0
  if s1.rdb Reg.ERR_STAT (16 + k) then s1.bump (Reg.ERR_OVF k) 15 0
  else
    let s2 := s1.wrb Reg.ERR_STAT (16 + k) true
    let s3 := s2.wr (Reg.ERR_LATCH_CODE k) (BitVec.ofNat 32 (src.toNat * 2 ^ 16 + code.toNat))
    let s4 := s3.wr64 (Reg.ERR_LATCH_DETAIL_LO k) (Reg.ERR_LATCH_DETAIL_HI k) detail.toNat
    s4.wr64 (Reg.ERR_LATCH_TIME_LO k) (Reg.ERR_LATCH_TIME_HI k) s4.ct.toNat

/-! ## Lanes (R28, R29) -/

/-- The lane-state byte of STATUS. -/
def laneCode : LaneState → Nat
  | .vacant => 0 | .listen => 1 | .admitting => 2 | .idle => 3 | .sorting => 4 | .safe => 5

/-- The device's own lane number: its position, or 0 for a manager that has not yet begun enumeration. -/
def State.ownLane (s : State) : Nat := if s.isManager && s.position == 0xFF then 0 else s.position

/-- A lane as this device knows it. -/
def State.lane (s : State) (p : Nat) : Lane :=
  if p = s.ownLane then s.lanes.own else sget (fun _ => {}) s.lanes.others p

/-- Changes the record of a lane. -/
def State.modLane (s : State) (p : Nat) (f : Lane → Lane) : State :=
  if p = s.ownLane then s.modLanes fun l => { l with own := f l.own }
  else s.modLanes fun l => { l with others := sset (fun _ => {}) l.others p (f (sget (fun _ => {}) l.others p)) }

/-- The faults of a lane as bits: cell, ports, flag, bank. -/
def faultBits (f : LaneFaults) : Nat := b2n f.cell + 2 * b2n f.ports + 4 * b2n f.flag + 8 * b2n f.bank

/-- Moves a lane to a state, and on the manager sends LANE_STATE, LANE_DARK and LANE_RESUMED as R29 says. A worker
whose own lane leaves SORTING or becomes SAFE notes it for the manager. -/
def setLane (s : State) (p : Nat) (st : LaneState) (cause : Half := 0) : State :=
  let old := (s.lane p).state
  if old = st then s
  else
    let s1 := s.modLane p fun l => { l with state := st }
    let s2 := postEvent s1 0x0101 p [BitVec.ofNat 8 (laneCode old), BitVec.ofNat 8 (laneCode st), 0, 0]
    let own := decide (p = s.ownLane)
    let s2 := if old = .sorting then s2.modFw fun w => { w with sawDark := true } else s2
    let s2 := if ((old = .sorting ∧ st ≠ .idle) ∨ st = .safe) ∧ own = true ∧ s2.isManager = false then
        s2.modRing fun r => { r with notes := r.notes ++ [[0x0B, 0x0E, 0, 0, BitVec.ofNat 8 (laneCode st), BitVec.ofNat 8 (faultBits s2.lanes.own.faults)] ++
          bytesLE 2 cause.toNat] }
      else s2
    if old = .sorting then
      let s3 := s2.modLanes fun l =>
        { l with left := nsAdd l.left p, dark := if own then decide (st ≠ .idle) else l.dark }
      if st = .idle then s3 else postEvent s3 0x0102 p (bytesLE 2 cause.toNat ++ [0, 0])
    else if st = .sorting ∧ p ∈ s2.lanes.left then
      postEvent (s2.modLanes fun l => { l with left := nsDel l.left p, dark := if own then false else l.dark }) 0x0103 p []
    else s2

/-- The own lane leaves SORTING for ADMITTING on a fault of R30; in any other state only the fault is recorded. -/
def ownLaneFault (s : State) (cause : Half) (f : LaneFaults → LaneFaults) : State :=
  if s.lanes.own.state = .sorting then
    setLane (s.modLane s.ownLane fun l => { l with faults := f l.faults }) s.ownLane .admitting cause
  else if s.lanes.own.state = .admitting then s.modLane s.ownLane fun l => { l with faults := f l.faults }
  else s

/-! ## The safe state (R535, R536) and the raise of an error (R531, R534) -/

/-- An ejector port. -/
def State.ejp (s : State) (n : Nat) : EjPort := if h : n < 4 then s.ej.ports[n] else {}

/-- Changes an ejector port. -/
def State.modEjp (s : State) (n : Nat) (f : EjPort → EjPort) : State :=
  s.modEj fun e => { e with ports := if h : n < 4 then e.ports.set n (f e.ports[n]) else e.ports }

/-- The timed queue of a port is discarded, counted as dropped (R327, R331). -/
def ejDiscard (s : State) (n : Nat) : State :=
  (s.bump (Reg.EJ_PDROPPED n) 31 0 (s.ejp n).queue.length).modEjp n fun p => { p with queue := [] }

/-- EJ_PERMIT follows ARM outside the safe state (R41, R105, R330). -/
def setPermit (s : State) : State :=
  s.modPower fun p =>
    { p with ejPermit := if p.ejPermit = .highZ then .highZ
                         else if s.rdb Reg.EJ_CTRL 1 && !s.rdb Reg.ERR_STAT 31 then .high else .low }

/-- ARM clears: the timed queue is discarded, and LINK_OPEN is the next exchange of each UP port (R330, R331). -/
def ejDisarm (s : State) : State :=
  setPermit <| (List.range 4).foldl (fun t n => (ejDiscard t n).modEjp n fun p => { p with openNext := decide (p.state = .up) })
    (s.wrb Reg.EJ_CTRL 1 false)

/-- Every cell stops issuing and the input ports close (R303, R305); what the cells hold is kept. -/
def cellsStop (s : State) : State :=
  let s1 := (List.range 32).foldl (fun t c => t.wrb (Reg.CELL_STAT c) 31 false) s
  (s1.wrb Reg.FAB_STAT 30 false).modFab fun f =>
    { f with cells := f.cells.map fun x => { x with dsu := none }, openDue := false }

/-- A load in its check pass or waiting for its swap is abandoned, and its reserved claims are released (R274). -/
def loadAbandon (s : State) : State :=
  match s.fab.load with
  | some j =>
    if j.phase = .checking ∨ j.phase = .waitSwap then
      (s.wrf Reg.FAB_STAT 29 28 0).modFab fun f => { f with load := some { j with phase := .abandoned }, reserved := [] }
    else s
  | none => s

/-- What entry into the safe state changes outside the error controller (R536). The loops follow the safe state by themselves
(R395). -/
def safeEffects (s : State) (cause : Half) : State :=
  let s1 := ejDisarm (loadAbandon (cellsStop s))
  setLane s1 s1.ownLane .safe cause

/-- A condition of R535 with its cause: entry into the safe state, unless the device is already in it. -/
def enterSafe (s : State) (cause : Half) : State :=
  if s.rdb Reg.ERR_STAT 31 then s
  else
    let s1 := (s.wrb Reg.ERR_STAT 31 true).wrf Reg.ERR_STAT 15 0 cause.toNat
    safeEffects (latchError s1 cause 0x15 0) cause

/-- One second of curtain time (R13). -/
def ticksPerSecond : Nat := 200000000

/-- A SECURITY error reaches Pavane on the hardware path and counts toward SEC_FLOOD (R411, R534). -/
def countSecurity (s : State) : State :=
  let now := s.ct.toNat
  let recent := (s.ct :: s.pav.secTimes).filter fun t => decide (now - t.toNat < ticksPerSecond)
  let limit := max 1 (s.rdf Reg.PAV_TAMPER_CFG 23 16)
  s.modPav fun p => { p with secTimes := recent, flood := p.flood || decide (limit < recent.length) }

/-- An error is raised (R531); a SECURITY error reaches Pavane (R534), a FATAL error that cannot be latched enters the
safe state (R535). -/
def raise (s : State) (code : Half) (src : Byte) (detail : DWord := 0) : State :=
  let full := s.rdb Reg.ERR_STAT 19
  let s1 := latchError s code src detail
  let s2 := if errClass code = 4 then countSecurity s1 else s1
  if errClass code = 3 ∧ full = true then enterSafe s2 Err.SAFE_NESTED else s2

/-- Whether the first of two errors of one CLK_PER cycle is latched before the second (R531); equal ones take a free order. -/
def raiseBefore (k : Nat) (a b : Raise) : Bool :=
  let ka := a.src.toNat * 2 ^ 16 + a.code.toNat
  let kb := b.src.toNat * 2 ^ 16 + b.code.toNat
  if ka = kb then Config.freeNat k % 2 == 0 else decide (ka < kb)

/-- Inserts an error among errors of one cycle. -/
def insertRaise (k : Nat) (a : Raise) : List Raise → List Raise
  | [] => [a]
  | b :: r => if raiseBefore k a b then a :: b :: r else b :: insertRaise (k + 1) a r

/-- Errors of one CLK_PER cycle in the order in which they reach their latches. -/
def sortRaises (k : Nat) : List Raise → List Raise
  | [] => []
  | a :: r => insertRaise k a (sortRaises (k + r.length + 1) r)

/-- Errors raised in the same CLK_PER cycle (R531, R535). -/
def raiseMany (s : State) (l : List Raise) : State :=
  let fatal := l.filter fun e => errClass e.code = 3
  let nested := decide (1 < fatal.length + b2n (s.rdb Reg.ERR_STAT 19)) && !fatal.isEmpty && !s.rdb Reg.ERR_STAT 31
  let all := if nested then { code := Err.SAFE_NESTED, src := 0x15, detail := 0 } :: l else l
  let s1 := (sortRaises s.free all).foldl (fun t e => latchError t e.code e.src e.detail)
    (s.modFree (· + all.length * all.length + 1))
  let s2 := l.foldl (fun t e => if errClass e.code = 4 then countSecurity t else t) s1
  if nested then
    safeEffects ((s2.wrb Reg.ERR_STAT 31 true).wrf Reg.ERR_STAT 15 0 Err.SAFE_NESTED.toNat) Err.SAFE_NESTED
  else s2

end Sys2Proof.Machine
end

