-- ==== Sys2Proof/Machine/Gates.lean ====
section
/-! DEFINITION. The target gates (R139–R162): which access a gate permits, and what a refused access does. -/

namespace Sys2Proof.Machine

/-- One access as a gate sees it. -/
structure Access where
  master : Master
  write  : Bool
  addr   : Nat
  len    : Nat
  /-- EN issues it for a descriptor stamped with the normal world (R446). -/
  normal : Bool := false
  deriving DecidableEq, Repr

/-- The gate in front of an address (R108, R140). -/
def gateOf (a : Nat) : Nat :=
  if a < 0x00020000 then 0
  else if 0x10000000 ≤ a ∧ a < 0x10400000 then 1
  else if 0x20000000 ≤ a ∧ a < 0x20800000 then 2
  else if 0x30000000 ≤ a ∧ a < 0x30080000 then 3
  else if 0x40000000 ≤ a ∧ a < 0x40170000 then 4
  else if 0x50000000 ≤ a ∧ a < 0x500C0000 then 5
  else if 0x60000000 ≤ a ∧ a < 0x60100000 then 6
  else 7

/-- The base of a gate's region. -/
def gateBase (g : Nat) : Nat :=
  match g with
  | 1 => 0x10000000 | 2 => 0x20000000 | 3 => 0x30000000 | 4 => 0x40000000 | 5 => 0x50000000 | 6 => 0x60000000
  | _ => 0

/-- The store of an MRAM sector, in the order of R116. -/
def mramStore (sector : Nat) : Nat :=
  if sector < 16 then 0 else if sector < 336 then 1 else if sector < 656 then 2 else if sector < 976 then 3
  else if sector < 1744 then 4 else if sector < 1808 then 5 else if sector < 1824 then 6 else 7

/-- The sector of an address of the MRAM window. -/
def mramSector (a : Nat) : Nat := (a - 0x20000000) / 0x1000

/-- The Pavane gate's slot of an address: one for each block of R109 and one for enclave SRAM; the reserved slot permits
no master (R140, R401). -/
def pavSlot (s : State) (a : Nat) : Word :=
  let b := (a - 0x50000000) / 0x10000
  if h : b < 6 then s.pav.slots[b] else if b < 8 then 0x50000000 else s.pav.slots[6]

/-- The permission word of the fixed slot that covers an address (R140, R148). -/
def fixedSlot (s : State) (a : Nat) : Word :=
  match gateOf a with
  | 0 => 0x90000405
  | 1 => s.rd (Reg.GATE_SSLOT ((a - 0x10000000) / 0x80000))
  | 2 => s.rd (Reg.GATE_MSLOT (mramStore (mramSector a)))
  | 3 => 0xD0000008
  | 4 => s.rd (Reg.GATE_PSLOT ((a - 0x40000000) / 0x10000))
  | 5 => pavSlot s a
  | 6 => s.rd (Reg.GATE_CSLOT ((a - 0x60000000) / 0x20000))
  | _ => 0

/-- The base, limit and permission registers of carve-out e of a memory gate; none at the other gates. -/
def carveRegs (g e : Nat) : Option (Nat × Nat × Nat) :=
  match g with
  | 1 => some (Reg.GATE_SCO_BASE e, Reg.GATE_SCO_LIMIT e, Reg.GATE_SCO_PERM e)
  | 2 => some (Reg.GATE_MCO_BASE e, Reg.GATE_MCO_LIMIT e, Reg.GATE_MCO_PERM e)
  | 6 => some (Reg.GATE_CCO_BASE e, Reg.GATE_CCO_LIMIT e, Reg.GATE_CCO_PERM e)
  | _ => none

/-- Whether carve-out e of gate g matches an address (R145). -/
def carveMatches (s : State) (g e a : Nat) : Bool :=
  match carveRegs g e with
  | none => false
  | some (b, l, p) =>
    let page := (a - gateBase g) / 0x1000
    s.rdb p 28 && decide (s.rdf b 10 0 ≤ page) && decide (page ≤ s.rdf l 10 0)

/-- The entry that decides an access: the first matching carve-out, or the fixed slot (R146), with its number for a fault
record (0xF fixed slot, 0xE no match). -/
def gateEntry (s : State) (a : Nat) : Nat × Word :=
  let g := gateOf a
  match (List.range 8).find? (fun e => carveMatches s g e a) with
  | some e => match carveRegs g e with
    | some (_, _, p) => (e, s.rd p)
    | none => (0xF, fixedSlot s a)
  | none => if g = 7 then (0xE, 0) else (0xF, fixedSlot s a)

/-- An access carries the secure world (R139, R446). -/
def accessSecure (s : State) (acc : Access) : Bool := s.secureWorld acc.master && !acc.normal

/-- Judges an access by a permission word (R146); none permits. -/
def judge (s : State) (acc : Access) (perm : Word) : Option Half :=
  if bitOf perm 30 && !accessSecure s acc then some Err.GATE_WORLD
  else if bitOf perm (2 * masterCode acc.master + b2n acc.write)
    then none
  else some Err.GATE_DENIED

/-- The refusal of an access, if any, by the rules at its first byte (R141, R146, R155). -/
def gateRefusal (s : State) (acc : Access) : Option Half :=
  if gateOf acc.addr = 7 then some Err.GATE_NOMATCH else judge s acc (gateEntry s acc.addr).2

/-- Whether a write is posted (R152): writes of CC and DBG to system SRAM and peripheral blocks, except MRAM_CLR. -/
def postedWrite (m : Master) (a : Nat) : Bool :=
  (match m with | .cc => true | .dbg => true | _ => false) &&
    (gateOf a == 1 || (gateOf a == 4 && a != Reg.MRAM_CLR))

/-- The INFO word of a refused access, VALID at 0 (R151). -/
def faultInfo (s : State) (acc : Access) (entry : Nat) (code : Nat) : Nat :=
  masterCode acc.master * 2 ^ 28 + b2n (accessSecure s acc) * 2 ^ 27 + b2n acc.write * 2 ^ 26 +
    b2n (acc.write && postedWrite acc.master acc.addr) * 2 ^ 25 + ((acc.len - 1) % 512) * 2 ^ 16 + entry * 2 ^ 12 + code

/-- The detail of a gate error or an imprecise notice (R151). -/
def gateDetail (addr info : Nat) : DWord := BitVec.ofNat 64 (addr + info * 2 ^ 32)

/-- Records a refusal in the fault record of its gate (R154). -/
def recordFault (s : State) (g addr info : Nat) : State :=
  if g = 5 then
    s.modPav fun p =>
      if bitOf p.fltInfo 31 then { p with fltCnt := satAdd 16 p.fltCnt 1 }
      else { p with fltAddr := BitVec.ofNat 32 addr, fltInfo := BitVec.ofNat 32 (info + 2 ^ 31), fltCnt := satAdd 16 p.fltCnt 1 }
  else
    let s1 := s.bump (Reg.GATE_FLT_CNT g) 15 0
    if s1.rdb (Reg.GATE_FLT_INFO g) 31 then s1
    else (s1.wr (Reg.GATE_FLT_ADDR g) (BitVec.ofNat 32 addr)).wr (Reg.GATE_FLT_INFO g) (BitVec.ofNat 32 (info + 2 ^ 31))

/-- The source block of a gate error: the gate block, or PAV_ for the Pavane gate. -/
def gateSrc (g : Nat) : Byte := if g = 5 then 0x80 else 0x06

/-- The effect of a refused access outside its target (R151, R154): the fault record and the errors raised. -/
def refuseAccess (s : State) (acc : Access) (code : Half) : State :=
  let g := gateOf acc.addr
  let info := faultInfo s acc (gateEntry s acc.addr).1 (code.toNat % 4096)
  let s1 := recordFault s g acc.addr info
  if code = Err.GATE_WORLD then raise s1 Err.GATE_WORLD (gateSrc g) (gateDetail acc.addr info)
  else if acc.write && postedWrite acc.master acc.addr then
    raise s1 Err.GATE_POSTED_DENIED (gateSrc g) (gateDetail acc.addr info)
  else s1

/-- An imprecise notice of a posted write (R114, R151, R577). -/
def impreciseNotice (s : State) (acc : Access) (code : Half) (src : Byte) : State :=
  raise s code src (gateDetail acc.addr (faultInfo s acc 0xF (code.toNat % 4096)))

/-- Whether a master can issue an access now: DBG only while debug is open (R418), FD, LD, HD and DBG once ROM has admitted
them (R95), and no master whose MRAM write stalls (R119). -/
def canAccess (s : State) (m : Master) : Bool :=
  (match m with
   | .dbg => s.rdb Reg.PAV_DBG 0 || s.rdb Reg.PAV_DBG 1
   | .cc | .en => true
   | _ => decide (s.core.mode ≠ .romStart)) &&
  !(s.mram.waiting.any fun w => w.master = m)

/-- The response of a read or write that is refused: zeros and the precise error, or a posted write's bare completion. -/
def refusedResp (s : State) (acc : Access) (code : Half) : State :=
  if acc.write then s.resp acc.master [] (if postedWrite acc.master acc.addr then 0 else code)
  else s.resp acc.master (List.replicate acc.len 0) code

/-- An access through its gate: a refused one changes nothing in its target (R10, R151); a permitted one has its effect. -/
def gated (s : State) (acc : Access) (f : State → State) : State :=
  if !canAccess s acc.master then s
  else match gateRefusal s acc with
    | some c => refusedResp (refuseAccess s acc c) acc c
    | none => f s

end Sys2Proof.Machine
end

