-- ==== Sys2Proof/Machine/Sram.lean ====
section
/-! DEFINITION. System SRAM and enclave SRAM (R110–R115, R400, R579): error correction, poison, partial writes, write pairs
and the scrubbers. -/

namespace Sys2Proof.Machine

/-- The base of enclave SRAM. -/
def enclaveBase : Nat := 0x50080000

/-- Whether an address lies in system SRAM or enclave SRAM. -/
def isSram (a : Nat) : Bool := gateOf a == 1 || (decide (enclaveBase ≤ a) && decide (a < 0x500C0000))

/-- The source block of an SRAM error: MEM_ for system SRAM, PAV_ for enclave SRAM. -/
def sramSrc (a : Nat) : Byte := if gateOf a = 1 then 0x03 else 0x80

/-- The bits in error that an access or a scrub finds in a word. -/
def upsetBits (found : List Upset) (w : Nat) : Nat :=
  match found.find? (fun u => u.addr == w) with
  | some u => u.bits
  | none => 0

/-- A corrected word is counted and raised (R110, R400). -/
def sramCorrected (s : State) (w : Nat) : State :=
  let s1 := if gateOf w = 1 then s.bump (Reg.MEM_CE_CNT ((w - 0x10000000) / 0x80000)) 15 0 else s.bump Reg.PAV_MEMCE 15 0
  raise s1 Err.MEM_CE (sramSrc w) (BitVec.ofNat 64 w)

/-- A newly found uncorrectable word is poisoned and raised (R110). -/
def sramPoison (s : State) (w : Nat) : State :=
  let s1 := s.modMs fun m => { m with poison := nsAdd m.poison w }
  let s2 := if gateOf w = 1 then s1.wr Reg.MEM_UE_ADDR (BitVec.ofNat 32 w) else s1
  raise s2 Err.MEM_UE (sramSrc w) (BitVec.ofNat 64 w)

/-- What the check bits do to a word that is read with this many bits in error: nothing for a poisoned word, correction of
one bit, poison for two or more. -/
def sramCheck (s : State) (w bits : Nat) : State :=
  if w ∈ s.ms.poison then s
  else if bits = 0 then s
  else if bits = 1 then sramCorrected s w
  else sramPoison s w

/-- A read of one 64-bit word: its bytes and its precise error (R110). -/
def sramReadWord (s : State) (w bits : Nat) : List Byte × Half × State :=
  let s1 := sramCheck s w bits
  if w ∈ s1.ms.poison then
    (List.replicate 8 0, Err.MEM_POISON, if gateOf w = 1 then s1.bump Reg.MEM_POISON_HITS 15 0 else s1)
  else (s1.bytesAt w 8, 0, s1)

/-- A read of n consecutive words, judged word by word; the precise error is that of the lowest word (R579). -/
def sramReadWords (s : State) (found : List Upset) : Nat → Nat → List Byte × Half × State
  | _, 0 => ([], 0, s)
  | w, n + 1 =>
    let (d, e, s1) := sramReadWord s w (upsetBits found w)
    let (d', e', s2) := sramReadWords s1 found (w + 8) n
    (d ++ d', if e = 0 then e' else e, s2)

/-- The number of 64-bit words an access touches. -/
def wordSpan (addr len : Nat) : Nat := if len = 0 then 0 else (addr + len - 1) / 8 - addr / 8 + 1

/-- A read of SRAM: the bytes asked for and the precise error. -/
def sramRead (s : State) (found : List Upset) (addr len : Nat) : List Byte × Half × State :=
  let (d, e, s1) := sramReadWords s found (addr / 8 * 8) (wordSpan addr len)
  ((d.drop (addr % 8)).take len, e, s1)

/-- A write of bytes within one word: full writes clear poison (R111), partial ones keep it (R113). Answers whether the
word is poisoned after a partial write. -/
def sramWriteWord (s : State) (w off : Nat) (data : List Byte) (bits : Nat) : Bool × State :=
  if off = 0 ∧ data.length = 8 then
    (false, (s.setBytes w data).modMs fun m => { m with poison := nsDel m.poison w })
  else
    let s1 := sramCheck s w bits
    (decide (w ∈ s1.ms.poison), s1.setBytes (w + off) data)

/-- A write split into its words; answers the lowest word that is left poisoned by a partial write. -/
def sramWriteWords (s : State) (found : List Upset) : Nat → Nat → List Byte → Option Nat × State
  | 0, _, _ => (none, s)
  | n + 1, addr, data =>
    let w := addr / 8 * 8
    let off := addr % 8
    let here := data.take (8 - off)
    let (bad, s1) := sramWriteWord s w off here (upsetBits found w)
    let (r, s2) := sramWriteWords s1 found n (w + 8) (data.drop (8 - off))
    (if bad then some w else r, s2)

/-- A permitted write to SRAM and the report to its writer (R114). -/
def sramWrite (s : State) (m : Master) (found : List Upset) (addr : Nat) (data : List Byte) : State :=
  let (bad, s1) := sramWriteWords s found (wordSpan addr data.length) addr data
  match bad with
  | none => s1.resp m []
  | some w =>
    if postedWrite m addr then
      impreciseNotice (s1.resp m []) { master := m, write := true, addr := w, len := data.length } Err.MEM_WR_POISON (sramSrc w)
    else s1.resp m [] Err.MEM_WR_POISON

/-! ## The write pair (R112, R158) -/

/-- Performs a held low half: a partial write in SRAM; in MRAM a lone half is refused (R119). -/
def performHeld (s : State) (h : PairHold) : State :=
  if isSram h.addr then sramWrite s h.master [] h.addr h.data else s.resp h.master [] Err.MRAM_ALIGN

/-- Performs the held writes that a new access ends: the master's own, and any other master's to the same word. -/
def flushPairs (s : State) (m : Master) (addr : Nat) : State :=
  let ends := fun (h : PairHold) => decide (h.master = m) || decide (h.addr / 8 = addr / 8)
  (s.ms.pairs.filter ends).foldl performHeld
    (s.modMs fun x => { x with pairs := x.pairs.filter fun h => !ends h })

/-- The held low half that a write completes to a pair. -/
def matchingPair (s : State) (m : Master) (addr len : Nat) : Option PairHold :=
  if len = 4 ∧ addr % 8 = 4 then s.ms.pairs.find? fun h => decide (h.master = m) && decide (h.addr + 4 = addr) else none

/-- Holds the low half of a possible write pair. -/
def holdPair (s : State) (m : Master) (addr : Nat) (data : List Byte) : State :=
  s.modMs fun x => { x with pairs := x.pairs ++ [{ master := m, addr := addr, data := data }] }

/-- Takes a held half out of the pair buffer. -/
def dropPair (s : State) (h : PairHold) : State := s.modMs fun x => { x with pairs := x.pairs.filter (· ≠ h) }

/-- A permitted write by a master to SRAM, through the pair buffer. -/
def sramStore (s : State) (m : Master) (found : List Upset) (addr : Nat) (data : List Byte) : State :=
  match matchingPair s m addr data.length with
  | some h => sramWrite (flushPairs (dropPair s h) m addr) m found h.addr (h.data ++ data)
  | none =>
    let s1 := flushPairs s m addr
    if data.length = 4 ∧ addr % 8 = 0 then holdPair s1 m addr data else sramWrite s1 m found addr data

/-! ## The meanings of the SRAM commands -/

/-- SRAM_READ (R108, R110, R146, R151): a gated read of system SRAM, enclave SRAM, ROM or an address that refuses reads. -/
def execSramRead (m : Master) (addr : Word) (len : Nat) (found : List Upset) (s : State) :
    Host.Outcome State Fault Refusal :=
  .next <| whenLive s fun s =>
    if !canAccess s m then s
    else
      let a := addr.toNat
      let s0 := flushPairs s m a
      gated s0 { master := m, write := false, addr := a, len := len } fun s =>
        if isSram a then
          let (d, e, s1) := sramRead s found a len
          s1.resp m d e
        else if gateOf a = 0 then s.resp m ((List.range len).map fun i => Config.romByte (a + i))
        else s.resp m (List.replicate len 0)

/-- SRAM_WRITE (R111–R114, R151, R152): a gated write to system SRAM or enclave SRAM. -/
def execSramWrite (m : Master) (addr : Word) (data : List Byte) (found : List Upset) (s : State) :
    Host.Outcome State Fault Refusal :=
  .next <| whenLive s fun s =>
    if !canAccess s m then s
    else
      let a := addr.toNat
      let acc : Access := { master := m, write := true, addr := a, len := data.length }
      match gateRefusal s acc with
      | some c =>
        let s1 := flushPairs s m a
        refusedResp (refuseAccess s1 acc c) acc c
      | none => if isSram a then sramStore s m found a data else (flushPairs s m a).resp m []

/-- One scrub of a word (R115). -/
def scrubOne (s : State) (w bits : Nat) : State := sramCheck s w bits

/-- The scrub of word i in every bank: `bits` gives the bits in error found in banks 0, 1, … -/
def scrubBanks (s : State) (i : Nat) (bits : List Nat) : Nat → State
  | 0 => s
  | n + 1 => scrubOne (scrubBanks s i bits n) (0x10000000 + n * 0x80000 + 8 * i) (bits.getD n 0)

/-- SCRUB_WORD (R115, R400): the system-SRAM scrubber visits the next word of each bank, or the enclave's the next word. -/
def execScrubWord (encl : Bool) (bits : List Nat) (s : State) : Host.Outcome State Fault Refusal :=
  .next <| whenLive s fun s =>
    if encl then
      let i := s.ms.scrubEn
      (scrubOne s (enclaveBase + 8 * i) (bits.getD 0 0)).modMs fun m => { m with scrubEn := (i + 1) % 32768 }
    else if s.rdb Reg.MEM_SCRUB_CTRL 16 then
      let i := s.ms.scrub
      let s1 := (scrubBanks s i bits 8).modMs fun m => { m with scrub := (i + 1) % 65536 }
      if i = 65535 then s1.bump Reg.MEM_SCRUB_PASS 31 0 else s1
    else s

end Sys2Proof.Machine
end

