-- ==== Sys2Proof/Machine/Mram.lean ====
section
/-! DEFINITION. MRAM (R116–R132, R579, R580): reads and their correction, word programming, sector clears, wear and
retirement. -/

namespace Sys2Proof.Machine

/-- The first address of a sector. -/
def sectorAddr (sec : Nat) : Nat := 0x20000000 + sec * 0x1000

/-- The status code of a sector (R121): VALID reads 0, or 4 when remapped to a spare. -/
def sectorStatus (s : State) (sec : Nat) : Nat :=
  match sget (fun _ => 0) s.mram.status sec with
  | 0 => if sec ∈ s.mram.remapped then 4 else 0
  | c => c

/-- Whether a sector reads and programs normally (R121). -/
def sectorValid (s : State) (sec : Nat) : Bool := sget (fun _ => 0) s.mram.status sec == 0

/-- Sets the status code of a sector. -/
def setSectorStatus (s : State) (sec code : Nat) : State :=
  s.modMram fun m => { m with status := sset (fun _ => 0) m.status sec code }

/-! ## Wear and retirement (R129–R132) -/

/-- A sector is due for retirement: its copy starts, or the spares are out (R131, R132). -/
def retireSector (s : State) (sec : Nat) : State :=
  if sec ∈ s.mram.retiring then s
  else if s.rdf Reg.MRAM_STAT 31 24 = 0 then
    raise s Err.MRAM_SPARES_OUT 0x04 (BitVec.ofNat 64 (sec + mramStore sec * 2 ^ 16))
  else s.modMram fun m => { m with retiring := m.retiring ++ [sec] }

/-- The evaluation after 1000 words read (R129): 5 or more corrected bits raise 0x1014, 11 or more also retire. -/
def wearEvaluate (s : State) (sec corrected : Nat) : State :=
  if corrected < 5 then s
  else
    let s1 := raise (s.wr Reg.MRAM_WEAR_SECTOR (BitVec.ofNat 32 sec)) Err.MRAM_WEAR 0x04 (BitVec.ofNat 64 sec)
    if 11 ≤ corrected then retireSector s1 sec else s1

/-- Counts a word read and its corrected bits toward the sector's wear, evaluating at 1000 words. -/
def wearCount (s : State) (sec corrected : Nat) : State :=
  let (n, c) := sget (fun _ => (0, 0)) s.mram.wear sec
  if n + 1 = 1000 then
    wearEvaluate (s.modMram fun m => { m with wear := sset (fun _ => (0, 0)) m.wear sec (0, 0) }) sec (c + corrected)
  else s.modMram fun m => { m with wear := sset (fun _ => (0, 0)) m.wear sec (n + 1, c + corrected) }

/-! ## Reads (R118, R121, R579) -/

/-- The decision of the code on one word of a VALID sector: correction, or an uncorrectable word whose sector retires. -/
def mramCheck (s : State) (w bits : Nat) : Bool × State :=
  let sec := mramSector w
  if 3 ≤ bits ∨ w ∈ s.mram.bad then
    let s1 := s.modMram fun m => { m with bad := nsAdd m.bad w }
    (true, retireSector (raise (wearCount s1 sec 0) Err.MRAM_UE 0x04 (BitVec.ofNat 64 w)) sec)
  else if bits = 0 then (false, wearCount s sec 0)
  else
    let s1 := s.bump Reg.MRAM_CE_CNT 31 0 bits
    (false, wearCount (raise s1 Err.MRAM_CE 0x04 (BitVec.ofNat 64 w)) sec bits)

/-- A read of one MRAM word: its bytes and its precise error. -/
def mramReadWord (s : State) (w bits : Nat) : List Byte × Half × State :=
  if !sectorValid s (mramSector w) then (List.replicate 8 0, Err.MRAM_NOT_VALID, s)
  else
    let (bad, s1) := mramCheck s w bits
    if bad then (List.replicate 8 0, Err.MRAM_UE, s1) else (s1.bytesAt w 8, 0, s1)

/-- A read of n consecutive MRAM words (R579). -/
def mramReadWords (s : State) (found : List Upset) : Nat → Nat → List Byte × Half × State
  | _, 0 => ([], 0, s)
  | w, n + 1 =>
    let (d, e, s1) := mramReadWord s w (upsetBits found w)
    let (d', e', s2) := mramReadWords s1 found (w + 8) n
    (d ++ d', if e = 0 then e' else e, s2)

/-- MRAM_READ (R118, R121, R579): a gated read of the MRAM window. -/
def execMramRead (m : Master) (addr : Word) (len : Nat) (found : List Upset) (s : State) :
    Host.Outcome State Fault Refusal :=
  .next <| whenLive s fun s =>
    if !canAccess s m then s
    else
      let a := addr.toNat
      gated (flushPairs s m a) { master := m, write := false, addr := a, len := len } fun s =>
        if gateOf a = 2 then
          let (d, e, s1) := mramReadWords s found (a / 8 * 8) (wordSpan a len)
          s1.resp m ((d.drop (a % 8)).take len) e
        else s.resp m (List.replicate len 0)

/-! ## Programming (R119, R580) -/

/-- Whether an address lies in the counters store. -/
def inCounters (a : Nat) : Bool := mramStore (mramSector a) == 6

/-- The words of a write, as the controller queues them. -/
def mwords (id : Nat) (m : Master) : Nat → Nat → List Byte → List MWord
  | 0, _, _ => []
  | n + 1, a, d =>
    { id := id, master := m, addr := a, data := BitVec.ofNat 64 (natLE (d.take 8)), last := n == 0 } ::
      mwords id m n (a + 8) (d.drop 8)

/-- Whether a word may start now: its sector is not being copied into a spare (R131). -/
def wordFree (s : MramSt) (w : MWord) : Bool := s.retiring.head? ≠ some (mramSector w.addr)

/-- Takes the first word that may start out of a list. -/
def takeFree (m : MramSt) : List MWord → Option (MWord × List MWord)
  | [] => none
  | w :: r => if wordFree m w then some (w, r) else (takeFree m r).map fun (x, l) => (x, w :: l)

/-- The programming engine takes the next word of the write buffer, and the buffer the next waiting words: at most one word
in the engine and four in the buffer (R119). -/
def mramAdvance (m : MramSt) : MramSt :=
  let m1 := { m with buffer := (m.buffer ++ m.waiting).take 4, waiting := (m.buffer ++ m.waiting).drop 4 }
  match m1.engine with
  | some _ => m1
  | none => match takeFree m1 m1.buffer with
    | none => m1
    | some (w, rest) =>
      { m1 with engine := some w, buffer := (rest ++ m1.waiting).take 4, waiting := (rest ++ m1.waiting).drop 4 }

/-- Why the MRAM controller refuses a write, in the order of R580. -/
def mramWriteRefusal (s : State) (a len : Nat) : Option Half :=
  let words := (List.range (wordSpan a len)).map fun i => a / 8 * 8 + 8 * i
  if words.any inCounters then some Err.PAV_CNT_DIRECT
  else if a % 8 ≠ 0 ∨ len % 8 ≠ 0 then some Err.MRAM_ALIGN
  else if words.any fun w => !sectorValid s (mramSector w) then some Err.MRAM_PROG_REFUSED
  else none

/-- A write the gate has permitted and whose form is final. -/
def mramWrite (s : State) (m : Master) (a : Nat) (data : List Byte) : State :=
  match mramWriteRefusal s a data.length with
  | some c => s.resp m [] c
  | none =>
    s.modMram fun x => mramAdvance
      { x with waiting := x.waiting ++ mwords x.nextId m (data.length / 8) a data, nextId := x.nextId + 1 }

/-- MRAM_WRITE (R119, R580): a gated write to the MRAM window, write pairs included. -/
def execMramWrite (m : Master) (addr : Word) (data : List Byte) (s : State) : Host.Outcome State Fault Refusal :=
  .next <| whenLive s fun s =>
    if !canAccess s m then s
    else
      let a := addr.toNat
      let acc : Access := { master := m, write := true, addr := a, len := data.length }
      match gateRefusal s acc with
      | some c => refusedResp (refuseAccess (flushPairs s m a) acc c) acc c
      | none =>
        if gateOf a ≠ 2 then (flushPairs s m a).resp m []
        else match matchingPair s m a data.length with
          | some h => mramWrite (flushPairs (dropPair s h) m a) m h.addr (h.data ++ data)
          | none =>
            let s1 := flushPairs s m a
            if data.length = 4 ∧ a % 8 = 0 ∧ !inCounters a then holdPair s1 m a data else mramWrite s1 m a data

/-- MRAM_WORD_PROGRAMMED (R119, R120): the word in the engine is stored; the last word of a write sends its response. -/
def execMramWordProgrammed (s : State) : Host.Outcome State Fault Refusal :=
  .next <| whenLive s fun s =>
    match s.mram.engine with
    | none => s
    | some w =>
      let s1 := s.setBytes w.addr (bytesLE 8 w.data.toNat)
      let s2 := s1.modMram fun m => mramAdvance { m with engine := none, bad := nsDel m.bad w.addr }
      if w.last then s2.resp w.master [] else s2

/-- A store that firmware or ROM makes into MRAM as part of a larger command: whole words, refused where the sector is not
VALID. Answers whether it was programmed. -/
def mramStoreBytes (s : State) (a : Nat) (data : List Byte) : Bool × State :=
  if (List.range (wordSpan a data.length)).all fun i => sectorValid s (mramSector (a / 8 * 8 + 8 * i)) then
    (true, (s.setBytes a data).modMram fun m =>
      { m with bad := m.bad.filter fun w => !(decide (a ≤ w) && decide (w < a + data.length)) })
  else (false, s)

/-- A word that firmware reads from MRAM as part of a larger command; none where it is not readable. -/
def mramWord (s : State) (a : Nat) : Option Nat :=
  if sectorValid s (mramSector a) && !(a / 8 * 8 ∈ s.mram.bad) then some (s.dwordAt a) else none

/-- Bytes that firmware reads from MRAM; none where a word of them is not readable. -/
def mramBytes (s : State) (a len : Nat) : Option (List Byte) :=
  if (List.range (wordSpan a len)).all fun i => (mramWord s (a / 8 * 8 + 8 * i)).isSome then some (s.bytesAt a len) else none

/-! ## Monotonic counters (R404, R405, R408) -/

/-- The two words of counter k. -/
def counterA (k : Nat) : Nat := sectorAddr (1808 + k / 512) + 8 * (k % 512)
def counterB (k : Nat) : Nat := sectorAddr (1812 + k / 512) + 8 * (k % 512)

/-- A read of counter k: the larger of the readable copies; none where it is unusable (R405). -/
def cntRead (s : State) (k : Nat) : Option Nat :=
  match mramWord s (counterA k), mramWord s (counterB k) with
  | some a, some b => some (max a b)
  | some a, none => some a
  | none, some b => some b
  | none, none => none

/-- The stored life-cycle state (R408): 0 MANUFACTURE to 3 RETIRED, OWNED where counter 0x000 is unusable. -/
def State.lcStored (s : State) : Nat :=
  match cntRead s 0 with
  | some v => min v 3
  | none => 2

/-- The life-cycle state in force (R408). -/
def State.lc (s : State) : Nat := if (cntRead s 0).isSome then s.pav.lcInForce else 2

/-! ## Sector clears (R122–R127) -/

/-- A clear completes or a sector is retired: event of line 18 (R542). -/
def mramEvent (s : State) : State := s.wrb Reg.ERR_EVT 2 true

/-- Starts the clear of a sector: its status becomes CLEARING. -/
def startClear (s : State) (sec : Nat) (m : Master) : State :=
  (setSectorStatus s sec 1).modMram fun x =>
    { x with clear := some { sector := sec, suspended := false, suspendRq := false, done := 0, master := m } }

/-- Why an MRAM_CLR command for a sector is refused before the state of the current clear is looked at (R125, R406, R580). -/
def clearDenied (s : State) (m : Master) (sec : Nat) : Option Half :=
  let st := mramStore sec
  if (st = 5 ∨ st = 6) ∧ m ≠ .en then some Err.MRAM_CLR_DENIED
  else if st = 6 ∧ s.lc ≠ 0 then some Err.PAV_CNT_CLEAR
  else none

/-- The effect of an MRAM_CLR command the gate has permitted, with its response. -/
def clearCommand (s : State) (m : Master) (cmd sec : Nat) : State :=
  match cmd, s.mram.clear with
  | 1, some _ => s.resp m [] ((clearDenied s m sec).getD Err.MRAM_BUSY)
  | 1, none =>
    match clearDenied s m sec with
    | some c => s.resp m [] c
    | none =>
      if s.mram.clearWait.isSome then s.resp m [] Err.MRAM_BUSY
      else if s.mram.retiring.head? = some sec then
        (s.modMram fun x => { x with clearWait := some (sec, m) }).resp m []
      else (startClear s sec m).resp m []
  | 2, some c =>
    match clearDenied s m c.sector with
    | some e => s.resp m [] e
    | none =>
      if c.suspended then s.resp m [] Err.MRAM_BUSY
      else (s.modMram fun x => { x with clear := some { c with suspendRq := true } }).resp m []
  | 3, some c =>
    match clearDenied s m c.sector with
    | some e => s.resp m [] e
    | none =>
      if c.suspended then
        ((setSectorStatus s c.sector 1).modMram fun x =>
          { x with clear := some { c with suspended := false, suspendRq := false } }).resp m []
      else s.resp m [] Err.MRAM_BUSY
  | 0, _ => s.resp m []
  | _, _ => s.resp m [] Err.MRAM_BUSY

/-- A write to MRAM_CLR by a master, through the gate (R124, R152). -/
def mramClrWrite (s : State) (m : Master) (v : Word) : State :=
  gated (flushPairs s m Reg.MRAM_CLR) { master := m, write := true, addr := Reg.MRAM_CLR, len := 4 } fun s =>
    clearCommand s m (fld v 31 30) (fld v 10 0)

/-- MRAM_CLR_START (R122, R124, R125, R580). -/
def execMramClrStart (m : Master) (sector : BitVec 11) (s : State) : Host.Outcome State Fault Refusal :=
  .next <| whenLive s fun s => mramClrWrite s m (BitVec.ofNat 32 (2 ^ 30 + sector.toNat))

/-- MRAM_CLR_SUSPEND (R123, R124). -/
def execMramClrSuspend (m : Master) (s : State) : Host.Outcome State Fault Refusal :=
  .next <| whenLive s fun s => mramClrWrite s m 0x80000000

/-- MRAM_CLR_RESUME (R123, R124). -/
def execMramClrResume (m : Master) (s : State) : Host.Outcome State Fault Refusal :=
  .next <| whenLive s fun s => mramClrWrite s m 0xC0000000

/-- CLEAR_STEP_DONE (R122, R123): eight more words are zero; the last step makes the sector VALID, a requested suspension
takes effect after any other. -/
def execClearStepDone (s : State) : Host.Outcome State Fault Refusal :=
  .next <| whenLive s fun s =>
    match s.mram.clear with
    | none => s
    | some c =>
      if c.suspended then s
      else
        let lo := sectorAddr c.sector + 8 * c.done
        let s1 := (s.zeroRange lo (lo + 64)).modMram fun m =>
          { m with bad := m.bad.filter fun w => !(decide (lo ≤ w) && decide (w < lo + 64)) }
        if 512 ≤ c.done + 8 then
          mramEvent ((setSectorStatus s1 c.sector 0).modMram fun m => { m with clear := none })
        else if c.suspendRq then
          (setSectorStatus s1 c.sector 2).modMram fun m =>
            { m with clear := some { c with done := c.done + 8, suspended := true, suspendRq := false } }
        else s1.modMram fun m => { m with clear := some { c with done := c.done + 8 } }

/-- A whole sector cleared as part of a larger command of ROM or the enclave: zero and VALID. -/
def clearSectorWhole (s : State) (sec : Nat) : State :=
  let lo := sectorAddr sec
  (setSectorStatus (s.zeroRange lo (lo + 0x1000)) sec 0).modMram fun m =>
    { m with bad := m.bad.filter fun w => !(decide (lo ≤ w) && decide (w < lo + 0x1000)) }

/-! ## Patrol and retirement -/

/-- Firmware's check of the spares, at a start and after a retirement: 8 or fewer raise 0xE020, once per start (R555). -/
def sparesCheck (s : State) : State :=
  let left := s.rdf Reg.MRAM_STAT 31 24
  if s.fwRuns && !s.core.sparesWarned && decide (left ≤ 8) then
    (raise s Err.SVC_SPARES_LOW 0x16 (BitVec.ofNat 64 left)).modCore fun c => { c with sparesWarned := true }
  else s

/-- PATROL_READ (R130): the next word in address order is read and counts toward wear. -/
def execPatrolRead (bits : Nat) (s : State) : Host.Outcome State Fault Refusal :=
  .next <| whenLive s fun s =>
    let i := s.mram.patrol
    let w := 0x20000000 + 8 * i
    let s1 := s.modMram fun m => { m with patrol := (i + 1) % 1048576 }
    if sectorValid s1 (mramSector w) then (mramCheck s1 w bits).2 else s1

/-- RETIREMENT_DONE (R131): the copy of the retiring sector completes; `lost` names words that read uncorrectable in it. -/
def execRetirementDone (lost : List (BitVec 9)) (s : State) : Host.Outcome State Fault Refusal :=
  .next <| whenLive s fun s =>
    match s.mram.retiring with
    | [] => s
    | sec :: rest =>
      let left := s.rdf Reg.MRAM_STAT 31 24 - 1
      let s1 := s.modMram fun m => mramAdvance
        { m with retiring := if left = 0 then [] else rest,
                 remapped := nsAdd m.remapped sec,
                 bad := lost.foldl (fun b i => nsAdd b (sectorAddr sec + 8 * i.toNat)) m.bad }
      let s2 := raise (mramEvent (s1.wrf Reg.MRAM_STAT 31 24 left)) Err.MRAM_RETIRED 0x04 (BitVec.ofNat 64 sec)
      let s3 := match s2.mram.clearWait with
        | some (c, m) => startClear (s2.modMram fun x => { x with clearWait := none }) c m
        | none => s2
      let s4 := if left = 0 then rest.foldl retireSector s3 else s3
      sparesCheck s4

end Sys2Proof.Machine
end

