-- ==== Sys2Proof/Machine/Queues.lean ====
section
/-! DEFINITION. The 24 crossing queues (R133–R137): writing, stalling, dropping, reading and Q_DROP. -/

namespace Sys2Proof.Machine

/-- Entries of a queue (R133). -/
def queueDepth (q : Nat) : Nat :=
  match q with
  | 0 => 2048
  | 1 | 2 => 512
  | 3 | 4 | 5 | 6 | 7 | 8 => 64
  | 11 | 16 | 17 => 512
  | 14 | 18 | 19 => 256
  | _ => 1024

/-- Whether the writer of a full queue waits; otherwise it drops its packet (R133, R135). -/
def queueStalls (q : Nat) : Bool := q ∈ [12, 13, 14, 15, 17, 18, 21, 23]

/-- Three cycles of CLK_CORE, CLK_SEC, CLK_PER, CLK_ADC, CLK_LINK and CLK_NET in whole ticks. For an external receive clock
the manual gives no bound in ticks; a wide one is taken (DESIGN CHOICE, log 8). -/
def writerLag (q : Nat) : Nat :=
  match q with
  | 0 | 1 | 2 | 3 | 4 | 5 | 6 | 7 | 8 => 1000
  | 9 | 10 | 11 => 7
  | 12 | 22 => 4
  | 17 | 18 => 3
  | 19 | 20 => 2
  | _ => 1

/-- Three cycles of the reader's clock in whole ticks. -/
def readerLag (q : Nat) : Nat :=
  match q with
  | 1 | 2 | 15 | 18 | 21 => 2
  | 3 | 4 | 23 => 4
  | 5 | 6 | 7 | 8 | 16 | 17 => 6
  | 13 | 14 | 19 => 3
  | _ => 1

/-- One queue of the state. -/
def State.queue (s : State) (q : Fin 24) : Queue := s.queues[q.val]

/-- Changes one queue. -/
def State.modQueue (s : State) (q : Fin 24) (f : Queue → Queue) : State :=
  s.modQueues fun v => v.set q.val (f v[q.val])

/-- Whether the queue is full. -/
def queueFull (s : State) (q : Fin 24) : Bool := decide (queueDepth q.val ≤ (s.queue q).slots.length)

/-- Whether the writer sees the queue full: always when it is, and by a free choice for up to 3 writer clocks after space
was freed in a full queue (R134). -/
def seesFull (s : State) (q : Fin 24) : Bool × State :=
  if queueFull s q then (true, s)
  else match (s.queue q).freedAt with
    | none => (false, s)
    | some t =>
      if s.ct.toNat - t.toNat ≤ writerLag q.val then
        let (n, s1) := s.drawNat
        (n % 2 == 1, s1)
      else (false, s)

/-- The number of entries the reader sees: all but a free number of those written within 3 reader clocks (R134). -/
def visibleCount (s : State) (q : Fin 24) : Nat × State :=
  let l := (s.queue q).slots
  let young := (l.reverse.takeWhile fun e => decide (s.ct.toNat - e.time.toNat ≤ readerLag q.val)).length
  if young = 0 then (l.length, s)
  else
    let (n, s1) := s.drawNat
    (l.length - n % (young + 1), s1)

/-- Appends an entry. -/
def pushSlot (s : State) (q : Fin 24) (e : QEntry) : State :=
  s.modQueue q fun x => { x with slots := x.slots ++ [{ entry := e, time := s.ct }] }

/-- Writes the end-of-packet entry that marks a truncated packet; its data is open (R135). -/
def pushAbort (s : State) (q : Fin 24) : State :=
  let (w, s1) := s.drawWord
  (pushSlot s1 q { data := w, eop := true, abort := true }).modQueue q fun x => { x with owesAbort := false }

/-- A packet is dropped: DROPS advances and 0x1020 is raised (R135). -/
def countDrop (s : State) (q : Fin 24) : State :=
  raise (s.bump (Reg.Q_STAT q.val) 31 20) Err.Q_DROPPED 0x05 (BitVec.ofNat 64 q.val)

/-- A writer of a "Stall" queue presents an entry. -/
def writeStall (s : State) (q : Fin 24) (e : QEntry) : State :=
  let (full, s1) := seesFull s q
  if full || !(s1.queue q).stalled.isEmpty then s1.modQueue q fun x => { x with stalled := x.stalled ++ [e] }
  else pushSlot s1 q e

/-- A writer of a "Drop packet" queue presents an entry. -/
def writeDrop (s : State) (q : Fin 24) (e : QEntry) : State :=
  if (s.queue q).discard then s.modQueue q fun x => { x with discard := !e.eop }
  else
    let (full, s1) := seesFull s q
    let s2 := if (s1.queue q).owesAbort && !full then pushAbort s1 q else s1
    if full || queueFull s2 q then
      countDrop (s2.modQueue q fun x =>
        { x with discard := !e.eop, owesAbort := x.owesAbort || x.midPacket, midPacket := false }) q
    else (pushSlot s2 q e).modQueue q fun x => { x with midPacket := !e.eop }

/-- A writer presents an entry to a crossing queue (R135). While Q_DROP discards, arriving entries before the awaited
end-of-packet entry are discarded by the queue (R136). -/
def queueWrite (s : State) (q : Fin 24) (e : QEntry) : State :=
  if (s.queue q).dropping && !e.eop && !((s.queue q).slots.any fun x => x.entry.eop) then s
  else if queueStalls q.val then writeStall s q e
  else writeDrop s q e

/-- Writes a whole packet. -/
def queueWriteAll (s : State) (q : Fin 24) (l : List QEntry) : State := l.foldl (fun t e => queueWrite t q e) s

/-- The reader takes the next entry. -/
def queuePop (s : State) (q : Fin 24) : Option QEntry × State :=
  match (s.queue q).dropping, (s.queue q).slots with
  | false, e :: r =>
    let full := queueFull s q
    (some e.entry, s.modQueue q fun x =>
      { x with slots := r, begun := !e.entry.eop, freedAt := if full then some s.ct else x.freedAt })
  | _, _ => (none, s)

/-- Takes the first whole packet of a queue: entries up to and including an end-of-packet entry. -/
def takePacket : List QSlot → Option (List QEntry × List QSlot)
  | [] => none
  | e :: r => if e.entry.eop then some ([e.entry], r) else (takePacket r).map fun (p, t) => (e.entry :: p, t)

/-- The reader takes the next whole packet; none where no whole packet waits. -/
def queuePacket (s : State) (q : Fin 24) : Option (List QEntry) × State :=
  if (s.queue q).dropping then (none, s)
  else match takePacket (s.queue q).slots with
    | none => (none, s)
    | some (p, r) =>
      let full := queueFull s q
      (some p, s.modQueue q fun x =>
        { x with slots := r, begun := false, freedAt := if full then some s.ct else x.freedAt })

/-- Stalled entries that fit enter the queue, in order. -/
def releaseStalled (s : State) (q : Fin 24) : List QEntry → State
  | [] => s
  | e :: r =>
    if queueFull s q then s
    else releaseStalled ((pushSlot s q e).modQueue q fun x => { x with stalled := x.stalled.drop 1 }) q r

/-- Empties a queue (R137). -/
def queueEmpty (s : State) (q : Fin 24) : State := s.modQueue q fun _ => {}

/-! ## The meanings of the queue commands -/

/-- QUEUE_STALL_RELEASE (R135): the reader has freed space; a stalled writer resumes, and a dropping writer writes the abort
entry it owes. -/
def execQueueStallRelease (q : Fin 24) (s : State) : Host.Outcome State Fault Refusal :=
  .next <| whenLive s fun s =>
    if queueFull s q then s
    else if queueStalls q.val then releaseStalled s q (s.queue q).stalled
    else if (s.queue q).owesAbort then pushAbort s q
    else s

/-- The effect of a queue number written to Q_DROP (R136). -/
def qDropEffect (s : State) (v : Word) : State :=
  let n := fld v 4 0
  if h : n < 24 then
    let q : Fin 24 := ⟨n, h⟩
    if !(s.queue q).begun || (s.queue q).dropping then s
    else
      let (vis, s1) := visibleCount s q
      let l := (s1.queue q).slots
      match (List.range vis).find? fun i => ((l[i]?).map fun e => e.entry.eop).getD false with
      | some i => s1.modQueue q fun x => { x with slots := l.drop (i + 1), begun := false }
      | none => s1.modQueue q fun x => { x with slots := l.dropWhile fun e => !e.entry.eop, dropping := true }
  else s

/-- Q_DROP_COMPLETE (R136): the awaited end-of-packet entry has arrived and is discarded. -/
def execQDropComplete (q : Fin 24) (s : State) : Host.Outcome State Fault Refusal :=
  .next <| whenLive s fun s =>
    if (s.queue q).dropping then
      match (s.queue q).slots.dropWhile fun e => !e.entry.eop with
      | [] => s
      | _ :: r => s.modQueue q fun x => { x with slots := r, dropping := false, begun := false }
    else s

/-- The value Q_STATq reads (R134): the flags err only toward full and empty. -/
def qStatView (s : State) (q : Fin 24) : Word × State :=
  let (full, s1) := seesFull s q
  let (vis, s2) := visibleCount s1 q
  let x := s2.queue q
  let level := if x.dropping then 0 else vis
  (BitVec.ofNat 32 (s2.rdf (Reg.Q_STAT q.val) 31 20 * 2 ^ 20 + b2n full * 2 ^ 19 + b2n (level == 0) * 2 ^ 18 +
    b2n x.dropping * 2 ^ 17 + level), s2)

end Sys2Proof.Machine
end

