-- ==== Sys2Proof/Machine/Ports.lean ====
section
/-! DEFINITION. The fabric's stream ports and the input slots of its cells (R251, R252, R273, R294, R296, R298). -/

namespace Sys2Proof.Machine

/-! ## The loaded choreography -/

/-- A choreography is loaded (FAB_STAT.LOADED). -/
def State.fabLoaded (s : State) : Bool := s.rdb Reg.FAB_STAT 31

/-- The input ports are open (FAB_STAT.PORTS_OPEN). -/
def State.portsOpen (s : State) : Bool := s.rdb Reg.FAB_STAT 30

/-- The slots of a stream port in the loaded choreography. -/
def portSlots (s : State) (p : Nat) : List (Nat × Nat) :=
  if s.fabLoaded then ((s.fab.conf.ports.find? fun e => e.port == p).map (·.slots)).getD [] else []

/-- The port that an output slot feeds, with no route in between. -/
def slotPorts (s : State) (c k : Nat) : List Nat :=
  if s.fabLoaded then
    (s.fab.conf.ports.filter fun e => decide (8 ≤ e.port) && e.slots.contains (c, k)).map (·.port)
  else []

/-- The routes that leave an output slot. -/
def slotRoutes (s : State) (c k : Nat) : List Route :=
  if s.fabLoaded then s.fab.conf.routes.filter fun r => r.srcCell == c && r.srcSlot == k else []

/-- An input slot is fed by a route or a port. -/
def slotFed (s : State) (c k : Nat) : Bool :=
  s.fabLoaded && ((s.fab.conf.routes.any fun r => r.dstCell == c && r.dstSlot == k) ||
    (s.fab.conf.ports.any fun e => decide (e.port < 8) && e.slots.contains (c, k)))

/-! ## Cells and their input slots -/

/-- A cell. -/
def State.cell (s : State) (c : Nat) : CellSt := if h : c < 32 then s.fab.cells[c] else {}

/-- Changes a cell. -/
def State.modCell (s : State) (c : Nat) (f : CellSt → CellSt) : State :=
  s.modFab fun x => { x with cells := if h : c < 32 then x.cells.set c (f x.cells[c]) else x.cells }

/-- An input slot of a cell. -/
def CellSt.slot (x : CellSt) (k : Nat) : InSlot := if h : k < 4 then x.ins[k] else {}

/-- Changes an input slot of a cell. -/
def CellSt.modSlot (x : CellSt) (k : Nat) (f : InSlot → InSlot) : CellSt :=
  { x with ins := if h : k < 4 then x.ins.set k (f x.ins[k]) else x.ins }

/-- The free entries of an input slot (R294). -/
def slotSpace (s : State) (c k : Nat) : Nat := 16 - ((s.cell c).slot k).entries.length

/-- An entry arrives at an input slot; one that is discarding takes it in vain (R297). -/
def slotPut (e : SlotEntry) (x : InSlot) : InSlot :=
  if x.dropping then (if e.entry.eop then { x with dropping := false, begun := false } else x)
  else { x with entries := x.entries ++ [e] }

/-- An entry reaches every slot of a list. -/
def deliver (s : State) (slots : List (Nat × Nat)) (e : SlotEntry) : State :=
  slots.foldl (fun t k => t.modCell k.1 fun x => x.modSlot k.2 (slotPut e)) s

/-! ## Input ports -/

/-- The entry time of a thermal packet is recorded, for the last 64 of each port (R273). -/
def recordEntry (s : State) (p : Nat) (stamp : Word) : State :=
  match p with
  | 0 => s.modFab fun x => { x with seen0 := ((stamp.toNat, s.ct) :: x.seen0).take 64 }
  | 1 => s.modFab fun x => { x with seen1 := ((stamp.toNat, s.ct) :: x.seen1).take 64 }
  | _ => s

/-- Sets whether an input port passes its packet. -/
def setPortMode (s : State) (p : Nat) (m : Option Bool) : State :=
  s.modFab fun x => { x with portMode := if h : p < 6 then x.portMode.set p m else x.portMode }

/-- Whether an input port passes its packet; none between packets. -/
def portMode (s : State) (p : Nat) : Option Bool := if h : p < 6 then s.fab.portMode[p] else none

/-- The first entry of a packet reaches an input port: it passes where the port is open and feeds a slot; at a closed port
the packet is discarded and counted, at an unused one it is discarded (R27, R252, R270). -/
def beginPacket (s : State) (p : Nat) (e : QEntry) : State :=
  if (portSlots s p).isEmpty then setPortMode s p (some false)
  else if s.portsOpen then setPortMode (recordEntry s p e.data) p (some true)
  else setPortMode (s.bump Reg.FAB_BLIND_DROP 31 0) p (some false)

/-- One entry passes an input port, or is discarded there. Answers whether it went. -/
def portTake (s : State) (p : Nat) (e : QEntry) : Bool × State :=
  let s1 := if (portMode s p).isNone then beginPacket s p e else s
  let after := fun (t : State) => if e.eop then setPortMode t p none else t
  match portMode s1 p with
  | some true =>
    let slots := portSlots s1 p
    if slots.all fun k => decide (0 < slotSpace s1 k.1 k.2) then
      (true, after (deliver s1 slots { entry := e, time := s1.ct, lag := 3 }))
    else (false, s1)
  | _ => (true, after s1)

/-- The queue that feeds an input port other than a visible one. -/
def portQueue (p : Nat) : Option (Fin 24) :=
  match p with
  | 0 => some 9 | 1 => some 10 | 4 => some 11 | 5 => some 12 | _ => none

/-- Entries of a queue that its input port takes. -/
def pumpQueue (q : Fin 24) (p : Nat) : Nat → State → State
  | 0, s => s
  | n + 1, s =>
    if (s.queue q).dropping then s
    else match (s.queue q).slots with
      | [] => s
      | e :: _ => match portTake s p e.entry with
        | (true, s1) => pumpQueue q p n (releaseStalled (queuePop s1 q).2 q ((queuePop s1 q).2.queue q).stalled)
        | (false, s1) => s1

/-- The entries that visible port v holds. -/
def visHeld (s : State) (v : Nat) : List QEntry := if h : v < 2 then s.fab.visBuf[v] else []

/-- Sets the entries that visible port v holds. -/
def setVisHeld (s : State) (v : Nat) (l : List QEntry) : State :=
  s.modFab fun x => { x with visBuf := if h : v < 2 then x.visBuf.set v l else x.visBuf }

/-- Entries of a visible port that reach the cells. -/
def pumpVis (v : Nat) : List QEntry → State → State
  | [], s => setVisHeld s v []
  | e :: r, s => match portTake s (2 + v) e with
    | (true, s1) => pumpVis v r s1
    | (false, s1) => setVisHeld s1 v (e :: r)

/-- Every input port takes what its slots have room for. -/
def pumpPorts (s : State) : State :=
  let one := fun (q : Fin 24) (p : Nat) (t : State) => pumpQueue q p ((t.queue q).slots.length + (t.queue q).stalled.length) t
  let s1 := one 12 5 (one 11 4 (one 10 1 (one 9 0 s)))
  pumpVis 1 (visHeld s1 1) (pumpVis 0 (visHeld s1 0) s1)

/-- A writer of the fabric's side presents an entry to a queue, and the queue's input port takes what it can. -/
def fabricWrite (s : State) (q : Fin 24) (e : QEntry) : State :=
  let s1 := queueWrite s q e
  match q.val with
  | 9 => pumpQueue 9 0 (s1.queue 9).slots.length s1
  | 10 => pumpQueue 10 1 (s1.queue 10).slots.length s1
  | 11 => pumpQueue 11 4 (s1.queue 11).slots.length s1
  | 12 => pumpQueue 12 5 (s1.queue 12).slots.length s1
  | _ => s1

/-- Writes a whole packet. -/
def fabricWriteAll (s : State) (q : Fin 24) (l : List QEntry) : State := l.foldl (fun t e => fabricWrite t q e) s

/-- The fabric stops passing packets: what a port still has to take of a packet is discarded, and the slots are emptied. -/
def flushPorts (s : State) : State :=
  s.modFab fun x => { x with portMode := x.portMode.map fun m => m.map fun _ => false }

/-- QUEUE_WRITE (R133–R135): a writer presents an entry to a crossing queue. -/
def execQueueWrite (q : Fin 24) (e : QEntry) (s : State) : Host.Outcome State Fault Refusal :=
  .next <| whenLive s fun s => fabricWrite s q e

/-- The effect of a write to Q_DROP, after which the input port of the queue may go on. -/
def qDropPort (s : State) (v : Word) : State := pumpPorts (qDropEffect s v)

end Sys2Proof.Machine
end

