-- ==== Sys2Proof/Machine/RegIo.lean ====
section
/-! DEFINITION. Writing one register through its gate, the field types of R6, and the rule writes of the gate block. -/

namespace Sys2Proof.Machine

/-- Whether the lock bit of a register is set (R6, R7). -/
def regLocked (s : State) (d : RegDesc) (a : Nat) : Bool := s.rdb (a + d.lockOff) d.lockBit

/-- A register after a write by the field types of R6; a reserved bit stays 0 whatever is written to it (R8). -/
def applyFields (d : RegDesc) (locked : Bool) (old v : Word) : Word :=
  let set := if locked then d.rw else d.rw ||| d.rwl
  (((old &&& ~~~set) ||| (v &&& set)) &&& ~~~(v &&& d.w1c)) ||| (v &&& d.w1s)

/-- A write to a register by its field types alone; an offset no table names ignores it (R578). -/
def fieldWrite (s : State) (a : Nat) (v : Word) : State :=
  match regDesc a with
  | none => s
  | some d => s.wr a (applyFields d (regLocked s d a) (s.rd a) v)

/-- The register effect of one write that the gate has permitted, with the write's response. A posted write completes
without an error, and a non-posted one too once its effect is made. -/
def completeWrite (s : State) (m : Master) : State := s.resp m []

/-- One 4-byte write to a register by a master: through the pair buffer's flush, the gate and the register's own effect. -/
def regWrite (s : State) (m : Master) (a : Nat) (v : Word) (effect : State → Word → State) : State :=
  if !canAccess s m then s
  else gated (flushPairs s m a) { master := m, write := true, addr := a, len := 4 } fun s => completeWrite (effect s v) m

/-- A write of one register as the meaning of a command of its own. -/
def writeRow (m : Master) (a : Nat) (v : Word) (effect : State → Word → State) (s : State) :
    Host.Outcome State Fault Refusal :=
  .next (whenLive s fun s => regWrite s m a v effect)

/-! ## Gate rules (R142–R145, R157, R161) -/

/-- Whether an address is a rule register of the gate block. -/
def isRuleReg (a : Nat) : Bool :=
  a / 0x10000 == 0x4006 && (regDesc a).isSome &&
    (decide (0x40060010 ≤ a) && decide (a < 0x40060800))

/-- The permission register of the carve-out a rule register belongs to; none for a fixed slot. -/
def carvePermOf (a : Nat) : Option Nat := if 0x40060200 ≤ a then some (a / 16 * 16 + 8) else none

/-- Whether a rule write is ignored: its entry is locked (R143), or claimed by a choreography and the writer is CC or DBG
(R144). -/
def ruleIgnored (s : State) (m : Master) (a : Nat) : Bool :=
  match carvePermOf a with
  | none => s.rdb a 31
  | some p => s.rdb p 31 || (s.rdb p 29 && (match m with | .cc => true | .dbg => true | _ => false))

/-- A rule write takes effect: GEN advances, and every access accepted so far completes under the old rules (R157, R159). -/
def ruleTaken (s : State) : State :=
  (s.wr Reg.GATE_SYNC (BitVec.ofNat 32 ((s.rdf Reg.GATE_SYNC 15 0 + 1) % 65536))).modGate fun g => { g with mark := s.mram.nextId }

/-- A write to a gate slot or carve-out, serialised by the gate block. -/
def ruleWrite (m : Master) (a : Nat) (s : State) (v : Word) : State :=
  if !isRuleReg a || ruleIgnored s m a then s else ruleTaken (fieldWrite s a v)

/-- The device itself writes a carve-out for a claim (R144). -/
def claimCarve (s : State) (g e base limit : Nat) (perm : Word) : State :=
  match carveRegs g e with
  | none => s
  | some (b, l, p) => ruleTaken (ruleTaken (ruleTaken (((s.wr b (BitVec.ofNat 32 base)).wr l (BitVec.ofNat 32 limit)).wr p perm)))

/-- GATE_RULE_WRITE (R142, R143, R157, R161). -/
def execGateRuleWrite (m : Master) (addr : Word) (v : Word) (s : State) : Host.Outcome State Fault Refusal :=
  .next <| whenLive s fun s =>
    if isRuleReg addr.toNat then regWrite s m addr.toNat v (ruleWrite m addr.toNat) else s

/-- The writes in flight that a GATE_SYNC read with this mark waits for (R159). -/
def syncBlocked (s : State) (mark : Nat) : Bool :=
  (s.mram.engine.toList ++ s.mram.buffer ++ s.mram.waiting).any fun w => decide (w.id < mark)

/-- The bytes of the current GEN. -/
def genBytes (s : State) : List Byte := bytesLE 4 (s.rdf Reg.GATE_SYNC 15 0)

end Sys2Proof.Machine
end

