-- ==== Sys2Proof/Machine/FrontEnd.lean ====
section
/-! DEFINITION. The bolometer front end (R163–R177): geometry and timing, RUN, outputs, bias DACs and the focal-plane
temperature. -/

namespace Sys2Proof.Machine

/-! ## Arithmetic shared with the pipeline -/

/-- n ÷ d rounded to nearest with ties away from zero (R12, R190). -/
def roundDiv (n : Int) (d : Nat) : Int :=
  if 0 ≤ n then (2 * n + d) / (2 * (d : Int)) else -((2 * (-n) + d) / (2 * (d : Int)))

/-- A value in units of 2^−16 as R12 stores it, with the saturation flag. -/
def storeQ16 (y : Int) : Nat × Bool :=
  if y < 0 then (0, true) else if (2 ^ 32 - 1 : Int) < y then (2 ^ 32 - 1, true) else (y.toNat, false)

/-- ⌈a ÷ b⌉. -/
def ceilDiv (a b : Nat) : Nat := (a + b - 1) / b

/-! ## Geometry and timing -/

def feCols (s : State) : Nat := s.rdf Reg.BFE_GEOM 10 0
def feRows (s : State) : Nat := s.rdf Reg.BFE_GEOM 22 16
def feChannels (s : State) : Nat := s.rdf Reg.BFE_GEOM 27 24
def feRowPeriod (s : State) : Nat := s.rdf Reg.BFE_ROWPER 19 0

/-- The frame period in CLK_ADC cycles (R200). -/
def framePeriod (s : State) : Nat := feRows s * feRowPeriod s

/-- The front end is timing rows. -/
def State.feRunning (s : State) : Bool := s.rdb Reg.BFE_STAT 0

/-- The geometry is valid (R163). -/
def geomValid (s : State) : Bool :=
  let ch := feChannels s
  let spc := feCols s / ch
  (ch == 1 || ch == 2 || ch == 4 || ch == 8) && feCols s % ch == 0 && decide (16 ≤ spc) && decide (spc ≤ 128) &&
    decide (1 ≤ feRows s) && decide (feRows s ≤ 96)

/-- The row timing is valid (R164). -/
def timingValid (s : State) : Bool :=
  let div := s.rdf Reg.BFE_RDCFG 15 8
  let spc := feCols s / feChannels s
  let ie := s.rdf Reg.BFE_INT_END 19 0
  decide (2000 ≤ feRowPeriod s) && decide (8 ≤ div) && decide (s.rdf Reg.BFE_RDCFG 7 0 < div) &&
    decide (s.rdf Reg.BFE_RDCFG 31 16 + spc * div + 64 ≤ feRowPeriod s) &&
    decide (s.rdf Reg.BFE_INT_START 19 0 < ie) && decide (ie < feRowPeriod s) && decide (1 ≤ s.rdf Reg.BFE_OUT 7 4)

/-- The channel that samples a column (R169). -/
def channelOf (s : State) (col : Nat) : Nat :=
  let c := if s.rdb Reg.BFE_GEOM 30 then feCols s - 1 - col else col
  if s.rdb Reg.BFE_GEOM 29 then c / (feCols s / feChannels s) else c % feChannels s

/-! ## RUN (R166, R200) -/

/-- Setting RUN with valid settings: row timing starts before row 0 of frame 0, pending settings take effect, and the
pipeline's and integrator's run state starts anew (R191, R200, R208). -/
def startRun (s : State) : State :=
  let s1 := ((s.wrb Reg.BFE_CTRL 0 true).wrb Reg.BFE_STAT 0 true).wr Reg.BFE_FRAME 0
  let s2 := (s1.wrb Reg.NUC_STAT 3 false).wrb Reg.NUC_STAT 2
    (decide (framePeriod s ≠ s.rdf Reg.NUC_TAU_FP 26 0))
  let s3 := s2.modFe fun f =>
    { f with row := none, buf := [], rows := 0, outNow := s.rd Reg.BFE_OUT,
             bias := f.bias, stuck := Vector.replicate 8 {} }
  (s3.modNuc fun n => { n with cur := {} }).modTdi fun t => { t with lines := [], hist := [], count := 0 }

/-- The effect of a value written to BFE_CTRL (R163, R166): setting RUN while it is 0 starts or is refused; clearing it
takes effect at the next frame boundary. -/
def feCtrlEffect (s : State) (v : Word) : State :=
  if bitOf v 0 then
    if s.rdb Reg.BFE_CTRL 0 then s
    else if !(geomValid s && timingValid s) then raise s Err.FE_TIMING 0x07
    else if s.feRunning then s.wrb Reg.BFE_CTRL 0 true
    else startRun s
  else s.wrb Reg.BFE_CTRL 0 false


/-! ## Configuration writes -/

/-- The registers that a running front end refuses (R166). -/
def feConfigRegs : List Nat := [Reg.BFE_GEOM, Reg.BFE_ROWPER, Reg.BFE_RDCFG, Reg.BFE_INT_START, Reg.BFE_INT_END]

/-- The effect of a write to one of them. -/
def feConfigEffect (a : Nat) (s : State) (v : Word) : State :=
  if s.feRunning then raise s Err.FE_BUSY 0x07 else fieldWrite s a v

/-- The effect of a write to BFE_OUT (R165, R166): while stopped it takes effect at once; while running CTL and LINE_W wait
for the frame boundary and POL is kept unless it equals the one in force. -/
def feOutEffect (s : State) (v : Word) : State :=
  if s.feRunning then
    let pol := fld s.fe.outNow 15 8
    let s1 := s.wr Reg.BFE_OUT (setFld (setFld (s.rd Reg.BFE_OUT) 7 0 v.toNat) 15 8 pol)
    if fld v 15 8 = pol then s1 else raise s1 Err.FE_BUSY 0x07
  else
    let s1 := fieldWrite s Reg.BFE_OUT v
    s1.modFe fun f => { f with outNow := s1.rd Reg.BFE_OUT }

/-- BFE_OUT_WRITE (R165, R166). -/
def execBfeOutWrite (m : Master) (v : Word) (s : State) : Host.Outcome State Fault Refusal :=
  writeRow m Reg.BFE_OUT v feOutEffect s

/-! ## Bias DACs (R172–R175) -/

/-- The limit register of a DAC. -/
def biasLim (n : Nat) : Nat := 0x40070060 + 4 * n

/-- The effect of a write to BFE_BIASn (R173, R174). -/
def biasEffect (n : Fin 6) (s : State) (v : Word) : State :=
  let code := fld v 15 0
  if code < s.rdf (biasLim n.val) 15 0 ∨ s.rdf (biasLim n.val) 31 16 < code then
    raise (s.wrb Reg.BFE_BIAS_STAT n.val true) Err.BIAS_RANGE 0x07 (BitVec.ofNat 64 n.val)
  else
    let s1 := fieldWrite s (Reg.BFE_BIAS n.val) v
    if s.feRunning then s1 else s1.modFe fun f => { f with bias := f.bias.set n.val (s1.rd (Reg.BFE_BIAS n.val)) }

/-- BIAS_WRITE (R172–R174). -/
def execBiasWrite (m : Master) (n : Fin 6) (v : Word) (s : State) : Host.Outcome State Fault Refusal :=
  writeRow m (Reg.BFE_BIAS n.val) v (biasEffect n) s

/-- BIAS_LIMIT (R71, R175): a DAC enters its current limit. -/
def execBiasLimit (n : Fin 6) (s : State) : Host.Outcome State Fault Refusal :=
  .next <| whenLive s fun s =>
    if s.rdb Reg.BFE_BIAS_STAT (8 + n.val) then s
    else raise (s.wrb Reg.BFE_BIAS_STAT (8 + n.val) true) Err.BIAS_LIMIT 0x07 (BitVec.ofNat 64 n.val)

/-- BIAS_LIMIT_END (R175): a DAC leaves its current limit. -/
def execBiasLimitEnd (n : Fin 6) (s : State) : Host.Outcome State Fault Refusal :=
  .next <| whenLive s fun s => s.wrb Reg.BFE_BIAS_STAT (8 + n.val) false

/-! ## Focal-plane temperature (R176, R177) -/

/-- Entry j of the conversion table: RAW and kelvin. -/
def fptEntry (s : State) (j : Nat) : Nat × Nat :=
  ((s.rd (Reg.BFE_FPT_TAB_RAW j)).toNat, (s.rd (Reg.BFE_FPT_TAB_K j)).toNat)

/-- The table's RAW values ascend strictly, as the rule demands of them. -/
def fptAscending (s : State) : Bool :=
  (List.range 15).all fun j => decide ((fptEntry s j).1 < (fptEntry s (j + 1)).1)

/-- The segment of the table a RAW value is converted in: the one that holds it, or the nearest one. -/
def fptSegment (s : State) (raw : Nat) : Nat :=
  ((List.range 15).filter fun j => decide (j = 0 ∨ (fptEntry s j).1 ≤ raw)).foldl max 0

/-- RAW converted by linear interpolation or extrapolation, with OUT_OF_TABLE. A table that does not ascend gives a free
value (log 9). -/
def fptConvert (s : State) (raw : Nat) : Nat × Bool × State :=
  let out := decide (raw < (fptEntry s 0).1) || decide ((fptEntry s 15).1 < raw)
  if fptAscending s then
    let j := fptSegment s raw
    let (r0, k0) := fptEntry s j
    let (r1, k1) := fptEntry s (j + 1)
    let y := (k0 : Int) + roundDiv (((raw : Int) - r0) * ((k1 : Int) - k0)) (r1 - r0)
    ((storeQ16 y).1, out, s)
  else
    let (w, s1) := s.drawWord
    (w.toNat, out, s1)

/-- A measurement finds an open or a short: the status bit is set, and raised once per entry (R177). -/
def fptFault (s : State) (bit : Nat) (already : Bool) (code : Half) : State :=
  if already then s else raise (s.wrb Reg.BFE_FPT_STAT bit true) code 0x07

/-- FPT_MEASURE (R176, R177): the sensor's RAW value and the voltage at FPT_SNS in microvolts. -/
def execFptMeasure (raw : Word) (snsUv : Nat) (s : State) : Host.Outcome State Fault Refusal :=
  .next <| whenLive s fun s =>
    let mode := s.rdf Reg.BFE_FPT_CFG 1 0
    if mode = 0 then s
    else
      let isOpen := decide (2000000 < snsUv)
      let isShort := !isOpen && (if mode = 2 then decide (snsUv < 5000) else decide (raw.toNat < 20))
      let s0 := s.wr Reg.BFE_FPT_RAW raw
      let s1 := s0.modFe fun f => { f with fptOpen := isOpen, fptShort := isShort }
      if isOpen then fptFault (s1.wrb Reg.BFE_FPT_STAT 1 false) 0 s.fe.fptOpen Err.FPT_OPEN
      else if isShort then fptFault (s1.wrb Reg.BFE_FPT_STAT 0 false) 1 s.fe.fptShort Err.FPT_SHORT
      else
        let (k, out, s2) := fptConvert s1 raw.toNat
        (s2.wr Reg.BFE_FPT_K (BitVec.ofNat 32 k)).wr Reg.BFE_FPT_STAT (BitVec.ofNat 32 (8 * b2n out))

/-- FPT_STALE (R177): no good measurement has arrived for HOLD × 10 ms. -/
def execFptStale (s : State) : Host.Outcome State Fault Refusal :=
  .next <| whenLive s fun s => if s.rdf Reg.BFE_FPT_CFG 1 0 = 0 then s else s.wrb Reg.BFE_FPT_STAT 2 true

/-- The effect of a write to BFE_FPT_CFG: MODE 0 leaves BFE_FPT_K at 0 (R176). -/
def fptCfgEffect (s : State) (v : Word) : State :=
  let s1 := fieldWrite s Reg.BFE_FPT_CFG v
  if fld v 1 0 = 0 then s1.wr Reg.BFE_FPT_K 0 else s1

end Sys2Proof.Machine
end

