-- ==== Sys2Proof/Machine/Shutter.lean ====
section
/-! DEFINITION. The shutter flag (R68–R70, R178–R188): position, pulses, the sequencer of a shutter event and its faults. -/

namespace Sys2Proof.Machine

/-- SHT_CFG.PRESENT. -/
def shtPresent (s : State) : Bool := s.rdb Reg.SHT_CFG 31

/-- Bank 1 is enabled. -/
def State.bank1On (s : State) : Bool := decide (s.power.bank1 ≠ .disabled)

/-- The position as the device decodes it: OPEN without a shutter, FAULT while bank 1 is disabled (R178). -/
def shtPos (s : State) : ShtPos :=
  if !shtPresent s then .opened else if !s.bank1On then .fault else s.sht.pos

/-- The position's code in SHT_STAT.POS. -/
def shtPosCode : ShtPos → Nat
  | .opened => 0 | .closed => 1 | .between => 2 | .fault => 3

/-- The code of SHT_STAT.SEQ. -/
def shtSeqCode : ShtSeq → Nat
  | .idle => 0 | .closing => 1 | .dwell => 1 | .waitOpen => 2 | .opening => 2 | .recovering => 3

/-- A pulse or a sequence is in progress (R180). -/
def shtBusy (s : State) : Bool := s.sht.pulse.isSome || decide (s.sht.seq ≠ .idle)

/-- The value SHT_STAT reads. -/
def shtStatView (s : State) : Word :=
  BitVec.ofNat 32 (s.sht.volts.toNat * 2 ^ 24 + b2n s.power.resReady * 2 ^ 8 + shtPosCode (shtPos s) * 2 ^ 6 +
    shtSeqCode s.sht.seq * 2 ^ 4 + b2n (shtBusy s))

/-- The levels of SHT_A and SHT_B (R179). -/
def shtOutputs (s : State) : Bool × Bool :=
  match s.sht.pulse with
  | none => (false, false)
  | some closing => let a := closing != s.rdb Reg.SHT_CFG 30; (a, !a)

/-- The SHUT code of a row header (R171). -/
def shutCode : Shut → Nat
  | .opened => 0 | .moving => 1 | .closed => 2 | .recovering => 3

/-- A pulse starts: it draws on stored energy only, so the reservoir is no longer ready (R68, R69). -/
def startPulse (s : State) (closing : Bool) : State :=
  (s.modSht fun x => { x with pulse := some closing, commanded := true, recovered := false }).modPower fun p =>
    { p with resReady := false }

/-- The position reads OPEN after an open pulse, or the flag returns to OPEN: rows carry RECOVERING (R182). -/
def flagOpened (s : State) : State :=
  (s.modSht fun x =>
    { x with shut := .recovering, recovered := false, noClose := false, watch := none,
             seq := if x.seq = .opening then .recovering else x.seq }).modNuc fun n =>
    { n with openWin := { armed := s.sht.event } }

/-- Number of frames an offset window holds (R201). -/
def ofsFrames (s : State) : Nat := max 1 (min 32 (s.rdf Reg.NUC_TAUCFG 31 24))

/-- An open pulse starts: rows carry MOVING until OPEN; the offset window of an event is what has been recorded since the
close window ended (R181, R201). -/
def startOpenPulse (s : State) : State :=
  let s1 := startPulse s false
  let s2 := s1.modNuc fun n =>
    { n with ofsWin := if ofsFrames s ≤ n.frames.length then some (n.frames.take (ofsFrames s)) else none }
  let s3 := s2.modSht fun x => { x with shut := .moving }
  if shtPos s3 = .opened then flagOpened s3 else s3

/-- The sequencer issues the open pulse that is due as soon as the reservoir is ready and no pulse runs (R181, R184). -/
def seqTryOpen (s : State) : State :=
  if s.sht.seq = .waitOpen ∧ s.sht.pulse = none ∧ s.power.resReady = true ∧ s.bank1On = true then
    startOpenPulse (s.modSht fun x => { x with seq := .opening })
  else s

/-- A shutter event has ended: its event line and count (R184, R542). -/
def eventEnded (s : State) (ok : Bool) : State :=
  (if ok then (s.bump Reg.SHT_EVCNT 15 0).modSvc fun v => { v with shutters := v.shutters + 1 } else s.bump Reg.SHT_EVCNT 31 16).wrb Reg.ERR_EVT 3 true

/-- The requests of R180. -/
inductive ShtRequest where
  | event | close | opened
  deriving DecidableEq, Repr

/-- Why a request is refused, in the order of R180. -/
def shtRefusal (s : State) : Option Half :=
  if !shtPresent s then some Err.SHT_ABSENT
  else if !s.bank1On || s.rdb Reg.ERR_STAT 31 then some Err.SHT_INHIBITED
  else if shtBusy s then some Err.SHT_BUSY
  else if !s.power.resReady then some Err.SHT_NOT_READY
  else none

/-- An accepted request starts its pulse (R179, R181, R182). -/
def shtStart (s : State) (r : ShtRequest) : State :=
  match r with
  | .opened => startOpenPulse (s.modSht fun x => { x with watch := some false, retried := false, event := false, noClose := false })
  | .close => (startPulse s true).modSht fun x =>
      { x with watch := some true, shut := .moving, retried := false, event := false, noClose := false }
  | .event => ((startPulse s true).modSht fun x =>
      { x with seq := .closing, event := true, failed := false, noClose := false, retried := false, shut := .moving,
               watch := none }).modNuc fun n =>
      { n with closeWin := {}, openWin := {}, frames := [], ofsWin := none, apply := false }

/-- A shutter request: refused with the error that R180 puts first, or started. -/
def shtRequest (s : State) (r : ShtRequest) : Half × State :=
  match shtRefusal s with
  | some c => (c, raise s c 0x08)
  | none => (0, shtStart s r)

/-- The effect of a value written to SHT_CMD. -/
def shtCmdEffect (s : State) (v : Word) : State :=
  match fld v 1 0 with
  | 1 => (shtRequest s .event).2
  | 2 => (shtRequest s .close).2
  | 3 => (shtRequest s .opened).2
  | _ => s

/-- SHT_CLOSE (R179, R180). -/
def execShtClose (m : Master) (s : State) : Host.Outcome State Fault Refusal := writeRow m Reg.SHT_CMD 2 shtCmdEffect s

/-- SHT_OPEN (R179, R180, R185). -/
def execShtOpen (m : Master) (s : State) : Host.Outcome State Fault Refusal := writeRow m Reg.SHT_CMD 3 shtCmdEffect s

/-- SHT_EVENT (R180, R181). -/
def execShtEvent (m : Master) (s : State) : Host.Outcome State Fault Refusal := writeRow m Reg.SHT_CMD 1 shtCmdEffect s

/-- SHT_PULSE_END (R69, R179): a pulse has run its full width; the reservoir is left at this voltage, in 20 mV units. -/
def execShtPulseEnd (volts : BitVec 8) (s : State) : Host.Outcome State Fault Refusal :=
  .next <| whenLive s fun s =>
    match s.sht.pulse with
    | none => s
    | some _ =>
      seqTryOpen ((s.modSht fun x => { x with pulse := none, volts := volts }).modPower fun p =>
        { p with resReady := decide (190 ≤ volts.toNat) })

/-- RESERVOIR_READY (R69, R104): the reservoir reaches 3.8 V; a sequencer pulse that waits for it starts. It happens in reset too. -/
def execReservoirReady (s : State) : Host.Outcome State Fault Refusal :=
  .next <|
    if s.sht.pulse.isSome || !s.rdb Reg.SYS_SUPPLY 4 then s
    else
      let s1 := (s.modPower fun p => { p with resReady := true }).modSht fun x => { x with volts := 190 }
      whenLive s1 seqTryOpen

/-- The device does not know how the flag left OPEN (R184): 0x3046, and one open pulse when the reservoir is ready. -/
def flagUncommanded (s : State) : State :=
  let s1 := raise s Err.SHT_UNCOMMANDED 0x08
  seqTryOpen (s1.modSht fun x =>
    { x with seq := .waitOpen, retried := false, event := x.event && x.seq == .recovering, commanded := false, recovered := false })

/-- The effect of a newly accepted position (R181, R182, R184). -/
def positionChanged (s : State) (old new : ShtPos) : State :=
  match new with
  | .closed =>
    if s.sht.noClose then s
    else if s.sht.seq = .closing then
      (s.modSht fun x => { x with shut := .closed, seq := .dwell }).modNuc fun n => { n with closeWin := { armed := true } }
    else if s.sht.watch = some true then s.modSht fun x => { x with shut := .closed, watch := none }
    else if old = .opened ∧ (s.sht.seq = .idle ∨ s.sht.seq = .recovering) ∧ s.sht.pulse = none then
      flagUncommanded (s.modSht fun x => { x with shut := .closed })
    else if s.sht.pulse = none ∧ s.sht.seq ≠ .opening ∧ s.sht.watch = none then s.modSht fun x => { x with shut := .closed }
    else s
  | .opened =>
    if s.sht.seq = .closing ∨ s.sht.seq = .dwell ∨ s.sht.watch = some true ∨ s.sht.noClose = true ∧ s.sht.seq = .waitOpen then s
    else if s.sht.seq = .waitOpen ∧ s.sht.event = true then s
    else flagOpened s
  | _ =>
    if old = .opened ∧ s.sht.pulse = none ∧ s.sht.watch = none ∧ (s.sht.seq = .idle ∨ s.sht.seq = .recovering) then
      flagUncommanded (s.modSht fun x => { x with shut := .moving })
    else if (s.sht.shut = .closed ∨ !s.sht.posRead) ∧ !s.sht.commanded ∧ s.sht.pulse = none then s.modSht fun x => { x with shut := .moving }
    else s

/-- The position that the levels of SHT_POS1 and SHT_POS0 decode to (R178). -/
def decodePos (pos1 pos0 : Bool) : ShtPos :=
  match pos1, pos0 with
  | true, false => .opened
  | false, true => .closed
  | true, true => .between
  | false, false => .fault

/-- SHT_POS_CHANGE (R178, R181, R182, R184): the levels have been equal for 10 samples. A position that firmware has not yet read
(R185) has not left OPEN uncommanded. -/
def execShtPosChange (pos1 pos0 : Bool) (s : State) : Host.Outcome State Fault Refusal :=
  .next <| whenLive s fun s =>
    if !shtPresent s || !s.bank1On then s
    else
      let new := decodePos pos1 pos0
      if new = s.sht.pos then s
      else positionChanged (s.modSht fun x => { x with pos := new }) (if s.sht.posRead then s.sht.pos else .fault) new

/-- SHT_POS_FAULT (R178): a FAULT position has lasted 10 ms. -/
def execShtPosFault (s : State) : Host.Outcome State Fault Refusal :=
  .next <| whenLive s fun s =>
    if shtPresent s && s.bank1On && decide (s.sht.pos = .fault) then raise s Err.SHT_POS_FAULT 0x08 else s

/-- The flag has not reached CLOSED within SETTLE (R184). -/
def settleNoClose (s : State) : State :=
  seqTryOpen (raise (s.modSht fun x => { x with failed := x.event, noClose := true, seq := .waitOpen, watch := none })
    Err.SHT_NO_CLOSE 0x08)

/-- The flag has not reached OPEN within SETTLE (R184): one more open pulse, then the sequencer stops. -/
def settleNoOpen (s : State) : State :=
  let s1 := raise s Err.SHT_NO_OPEN 0x08
  if s.sht.retried then
    let s2 := s1.modSht fun x => { x with seq := .idle, event := false, watch := none }
    let s3 := if s.sht.event then eventEnded s2 false else s2
    ownLaneFault s3 Err.SHT_NO_OPEN fun f => { f with flag := true }
  else seqTryOpen (s1.modSht fun x => { x with seq := .waitOpen, retried := true, watch := none })

/-- SHT_SETTLE_TIMEOUT (R184): the flag has not reached the commanded position within SETTLE. -/
def execShtSettleTimeout (s : State) : Host.Outcome State Fault Refusal :=
  .next <| whenLive s fun s =>
    if s.sht.seq = .closing ∨ s.sht.watch = some true then settleNoClose s
    else if s.sht.seq = .opening ∨ s.sht.watch = some false then settleNoOpen s
    else s

/-- SHT_DWELL_END (R181): DWELL has passed since CLOSED; the open pulse starts once the reservoir is ready. -/
def execShtDwellEnd (s : State) : Host.Outcome State Fault Refusal :=
  .next <| whenLive s fun s =>
    if s.sht.seq = .dwell then seqTryOpen (s.modSht fun x => { x with seq := .waitOpen }) else s

/-- SHT_RECOVER_END (R30, R181, R182): RECOVER milliseconds of OPEN have passed; the sequence completes, and rows return to
OPEN at the next frame boundary. -/
def execShtRecoverEnd (s : State) : Host.Outcome State Fault Refusal :=
  .next <| whenLive s fun s =>
    if s.sht.shut ≠ .recovering ∨ s.sht.recovered = true then s
    else
      let s1 := s.modSht fun x => { x with recovered := true, seq := if x.seq = .recovering then .idle else x.seq, event := false, commanded := false, retried := false }
      if s.sht.seq = .recovering ∧ s.sht.event = true then
        let s2 := (eventEnded s1 (!s.sht.failed)).modNuc fun n => { n with apply := !s.sht.failed }
        if s.sht.failed then s2
        else s2.modLane s2.ownLane fun l =>
          { l with faults := { l.faults with flag := false, bank := l.faults.bank && !(s.bank1On && s.feRunning) } }
      else s1

/-- Bank 1 is lost: a sequence ends at once, an event counts as failed (R187, R203). -/
def shtBankLost (s : State) : State :=
  let s1 := s.modSht fun x =>
    { x with pos := .fault, seq := .idle, event := false, watch := none, noClose := false, retried := false,
             shut := if shtPresent s then .moving else .opened, recovered := false, posRead := false }
  let s2 := s1.modNuc fun n => { n with apply := false, closeWin := {}, openWin := {}, frames := [], ofsWin := none }
  if s.sht.event && decide (s.sht.seq ≠ .idle) then eventEnded s2 false else s2

/-- When the front end is first configured after a device reset or a loss of bank 1, firmware reads the position and drives a flag
that is not OPEN open (R185). -/
def readFlag (s : State) : State :=
  if s.sht.posRead || !s.fwRuns || !s.feRunning then s
  else
    let s1 := s.modSht fun x => { x with posRead := true }
    if !shtPresent s || decide (s.sht.pos = .opened) then s1
    else if (shtRefusal s).isSome then s
    else shtStart s1 .opened

end Sys2Proof.Machine
end

