-- ==== Sys2Proof/Machine/Pipeline.lean ====
section
/-! DEFINITION. The radiometric pipeline and the trajectory integrator (R190–R213). -/

namespace Sys2Proof.Machine

/-! ## Coefficient memory (R193–R196) -/

/-- The key of a coefficient record. -/
def coefKey (table p : Nat) : Nat := table * 2 ^ 17 + p

/-- Pixel indices with a record. -/
def pixelCount : Nat := 98304

/-- The record of a table. A selection of bank 3 names no set bank, so its record is a free value (log 9). -/
def setRecord (s : State) (bank p : Nat) : DWord :=
  if bank = 3 then Config.freeDWord p else sget (fun _ => 0) s.nuc.coef (coefKey bank p)

/-- The live record of a pixel. -/
def liveRecord (s : State) (p : Nat) : DWord := sget (fun _ => 0) s.nuc.coef (coefKey 3 p)

/-- Changes a coefficient record. -/
def putCoef (n : NucSt) (key : Nat) (v : DWord) : NucSt :=
  { n with coef := sset (fun _ => 0) n.coef key v, bad := nsDel n.bad key }

/-- A field of a record, signed. -/
def sfld (w : DWord) (hi lo : Nat) : Int :=
  let v := fld w hi lo
  let n := hi + 1 - lo
  if v < 2 ^ (n - 1) then v else (v : Int) - 2 ^ n

/-- X_LO + w × (X_HI − X_LO), rounded to the format of the field, with w in Q1.16 (R198). -/
def interp (w : Nat) (lo hi : Int) : Int := lo + roundDiv ((w : Int) * (hi - lo)) 65536

/-- An error that the code of a coefficient record finds: the table, and whether it is uncorrectable. -/
def coefError (s : State) (p : Nat) (e : Fin 4 × Bool) : State :=
  let key := coefKey e.1.val p
  if e.2 then
    if key ∈ s.nuc.bad then s
    else
      raise ((s.modNuc fun n => { n with bad := nsAdd n.bad key }).wr Reg.NUC_ECC_PIX
        (BitVec.ofNat 32 (e.1.val * 2 ^ 30 + p))) Err.NUC_COEF_ECC 0x09 (BitVec.ofNat 64 key)
  else s.bump Reg.NUC_ECC_CNT 15 0

/-- A table is in use while the current or the pending selection names it (R195). -/
def bankInUse (s : State) (t : Nat) : Bool :=
  s.nuc.selLo == t || s.nuc.selHi == t ||
    (match s.nuc.pendSel with | some (l, h) => l == t || h == t | none => false)

/-- NUC_CADDR with the pixel index advanced. -/
def nextCaddr (s : State) : State := s.wrf Reg.NUC_CADDR 16 0 (s.rdf Reg.NUC_CADDR 16 0 + 1)

/-- The effect of a write to NUC_CDATA_LO: the record is committed and the index advances (R194, R195). -/
def coefWriteEffect (s : State) (v : Word) : State :=
  let t := s.rdf Reg.NUC_CADDR 31 30
  let p := s.rdf Reg.NUC_CADDR 16 0
  let s0 := s.wr Reg.NUC_CDATA_LO v
  let rec64 : DWord := BitVec.ofNat 64 (v.toNat + 2 ^ 32 * (s.rd Reg.NUC_CDATA_HI).toNat)
  if pixelCount ≤ p then nextCaddr s0
  else if t = 3 then
    let dead := bitOf rec64 33
    let s1 := s0.modNuc fun n => { n with userDead := if dead then nsAdd n.userDead p else nsDel n.userDead p }
    if s.feRunning then nextCaddr (s1.modNuc fun n => { n with pendDead := n.pendDead ++ [(p, dead)] })
    else nextCaddr (s1.modNuc fun n => putCoef n (coefKey 3 p) rec64)
  else if bankInUse s t then raise s Err.NUC_BANK_BUSY 0x09 (BitVec.ofNat 64 (coefKey t p))
  else nextCaddr (s0.modNuc fun n => putCoef n (coefKey t p) rec64)

/-- NUC_COEF_WRITE (R194, R195). -/
def execNucCoefWrite (m : Master) (v : Word) (s : State) : Host.Outcome State Fault Refusal :=
  writeRow m Reg.NUC_CDATA_LO v coefWriteEffect s

/-- What a read of NUC_CDATA_LO returns and changes (R194). -/
def coefReadEffect (s : State) : Word × State :=
  let t := s.rdf Reg.NUC_CADDR 31 30
  let p := s.rdf Reg.NUC_CADDR 16 0
  let r := sget (fun _ => 0) s.nuc.coef (coefKey t p)
  let lo := BitVec.ofNat 32 r.toNat
  (lo, nextCaddr ((s.wr Reg.NUC_CDATA_LO lo).wr Reg.NUC_CDATA_HI (BitVec.ofNat 32 (r.toNat / 2 ^ 32))))

/-- NUC_COEF_READ (R194). -/
def execNucCoefRead (m : Master) (s : State) : Host.Outcome State Fault Refusal :=
  .next <| whenLive s fun s =>
    if !canAccess s m then s
    else gated (flushPairs s m Reg.NUC_CDATA_LO) { master := m, write := false, addr := Reg.NUC_CDATA_LO, len := 4 } fun s =>
      let (v, s1) := coefReadEffect s
      s1.resp m (bytesLE 4 v.toNat)

/-! ## Selection (R197) -/

/-- The LO and HI banks of a selection with the present NUC_TLO and NUC_THI are consistent. -/
def selConsistent (s : State) (lo hi : Nat) : Bool :=
  let tlo := (s.rd Reg.NUC_TLO).toNat
  let thi := (s.rd Reg.NUC_THI).toNat
  decide (tlo ≤ thi) && !(decide (lo = hi) && decide (tlo ≠ thi))

/-- The effect of a write to NUC_SETSEL. -/
def setselEffect (s : State) (v : Word) : State :=
  let lo := fld v 1 0
  let hi := fld v 3 2
  if selConsistent s lo hi then (fieldWrite s Reg.NUC_SETSEL v).modNuc fun n => { n with pendSel := some (lo, hi) }
  else raise s Err.NUC_SETSEL_BAD 0x09

/-- NUC_SETSEL (R197). -/
def execNucSetsel (m : Master) (v : Word) (s : State) : Host.Outcome State Fault Refusal :=
  writeRow m Reg.NUC_SETSEL v setselEffect s

/-- The pending selection takes effect at a frame boundary with the NUC_TLO and NUC_THI of that moment (R197). -/
def applySelection (s : State) : State :=
  match s.nuc.pendSel with
  | none => s
  | some (lo, hi) =>
    let s1 := s.modNuc fun n => { n with pendSel := none }
    if selConsistent s lo hi then
      s1.modNuc fun n =>
        { n with selLo := lo, selHi := hi, tlo := (s.rd Reg.NUC_TLO).toNat, thi := (s.rd Reg.NUC_THI).toNat }
    else raise s1 Err.NUC_SETSEL_BAD 0x09

/-! ## One sample (R190–R192, R198–R200) -/

/-- The weight of a row with temperature t, before clamping (R198). -/
def rawWeight (n : NucSt) (t : Nat) : Int :=
  if n.thi = n.tlo then 0 else roundDiv (((t : Int) - n.tlo) * 65536) (n.thi - n.tlo)

/-- The start of a row in the pipeline: its weight, EXTRAP, and whether tau-inverse is off for all of it (R198, R200). -/
def startRow (s : State) : State :=
  let t := s.fe.hdr.t
  let w := rawWeight s.nuc t
  let off := decide (s.fe.rows ≤ feRows s) || s.rdb Reg.NUC_STAT 2
  let s1 := s.modNuc fun n => { n with w := (max 0 (min 65536 w)).toNat, tauOff := off }
  if w < 0 ∨ 65536 < w then
    if s.rdb Reg.NUC_STAT 1 then s1 else raise (s1.wrb Reg.NUC_STAT 1 true) Err.NUC_EXTRAP 0x09
  else if s.nuc.tlo ≤ t ∧ t ≤ s.nuc.thi then s1.wrb Reg.NUC_STAT 1 false
  else s1

/-- Whether shutter offsets are in use (R191). -/
def shutterOffsets (s : State) : Bool := !s.rdb Reg.NUC_CFG 0 && s.rdb Reg.NUC_STAT 3

/-- The signed Q15.16 value of a register. -/
def sreg (s : State) (a : Nat) : Int := (s.rd a).toInt

/-- K_eff of a pixel (R200). -/
def kEff (s : State) (live : DWord) : Nat :=
  if s.nuc.tauOff || !bitOf live 32 then 0 else min (fld live 45 34) (s.rdf Reg.NUC_TAU 11 0)

/-- Stages 1 and 2: u of a code (R190, R191). -/
def stageU (s : State) (p code : Nat) : Int :=
  let lo := setRecord s s.nuc.selLo p
  let hi := setRecord s s.nuc.selHi p
  let live := liveRecord s p
  let g := interp s.nuc.w (fld lo 45 30) (fld hi 45 30)
  let o := if shutterOffsets s then (fld live 63 46 : Int) else interp s.nuc.w (fld lo 63 46) (fld hi 63 46)
  let tref := if shutterOffsets s then ((s.rd Reg.NUC_TSHUT).toNat : Int) + sreg s Reg.NUC_FLAG_DT
    else (s.rd Reg.NUC_TREF_SET).toNat
  tref + roundDiv (g * ((code : Int) * 16 - o)) 4

/-- Stages 3 and 4: y of u (R190, R191). -/
def stageY (s : State) (p : Nat) (u : Int) : Int :=
  let live := liveRecord s p
  let k := kEff s live
  let sIn := u + roundDiv ((k : Int) * (u - sget (fun _ => 0) s.nuc.uPrev p)) 256
  if shutterOffsets s then
    let d := interp s.nuc.w (sfld (setRecord s s.nuc.selLo p) 29 14) (sfld (setRecord s s.nuc.selHi p) 29 14)
    sIn - roundDiv (d * ((s.fe.hdr.t : Int) - (s.rd Reg.NUC_TSHUT).toNat)) 4096
  else sIn

/-- A pixel's record is used with DEAD = 1 (R196). -/
def recordDead (s : State) (p : Nat) : Bool :=
  bitOf (liveRecord s p) 33 || coefKey 3 p ∈ s.nuc.bad || coefKey s.nuc.selLo p ∈ s.nuc.bad ||
    coefKey s.nuc.selHi p ∈ s.nuc.bad

/-- The channel's record of codes takes a sample (R170). -/
def stuckSample (c : ChStuck) (code : Nat) : ChStuck :=
  match c.code with
  | none => { c with code := some code }
  | some k => if k = code then c else { c with varied := true }

/-- Changes a channel's record of codes. -/
def modStuck (s : State) (ch : Nat) (f : ChStuck → ChStuck) : State :=
  if h : ch < 8 then s.modFe fun x => { x with stuck := x.stuck.set ch (f x.stuck[ch]) } else s

/-! ## A complete row: substitution, packets (R205, R206, R210, R211) -/

/-- The nearest pixel of a row that is not dead, within 4 columns, on one side. -/
def nearPix (l : List Pix) : Option Pix := (l.take 4).find? fun x => !x.dead

/-- The stored value and QUAL of each pixel of a row, with whether it counts as saturated: `left` holds the pixels before
it, nearest first. -/
def substitute : List Pix → List Pix → List (Nat × Nat)
  | _, [] => []
  | left, x :: r =>
    let v : Nat × Nat :=
      if x.dead then
        match nearPix left, nearPix r with
        | some a, some b => ((storeQ16 (roundDiv (a.y + b.y) 2)).1, if a.sat || b.sat then 2 else 1)
        | some a, none => ((storeQ16 a.y).1, if a.sat then 2 else 1)
        | none, some b => ((storeQ16 b.y).1, if b.sat then 2 else 1)
        | none, none => (0, 3)
      else ((storeQ16 x.y).1, if x.sat then 2 else 0)
    v :: substitute (x :: left) r

/-- Words two to five of a header after the curtain time. -/
def timeWords (t : CTime) : List Nat := [t.toNat % 2 ^ 32, t.toNat / 2 ^ 32]

/-- Word 2 of a row header (R171). -/
def rowWord (s : State) (h : RowHdr) : Nat := h.frame % 2 ^ 24 * 2 ^ 8 + b2n (s.rdb Reg.BFE_GEOM 31) * 2 ^ 7 + h.row

/-- The entries of a packet: header words with QUAL 0b00, then values, the last with the end-of-packet mark (R210). -/
def packetEntries (hdr : List Nat) (vals : List (Nat × Nat)) : List QEntry :=
  let all := hdr.map (fun w => (w, 0)) ++ vals
  (List.range all.length).map fun i =>
    let (d, q) := all.getD i (0, 0)
    { data := BitVec.ofNat 32 d, eop := i + 1 == all.length, qual := BitVec.ofNat 2 q }

/-- Samples of 16 bits packed two to a word, the lower column in the low half (R171). -/
def packSamples : List Nat → List Nat
  | [] => []
  | [a] => [a]
  | a :: b :: r => (a + b * 2 ^ 16) :: packSamples r

/-- The 16-bit sample of R171. -/
def rawSample (x : Pix) : Nat := b2n x.clip * 2 ^ 15 + b2n x.stuck * 2 ^ 14 + x.code

/-- The packets of a complete row for THERM1 and CALIB (R192, R210, R211). -/
def emitRow (s : State) (vals : List (Nat × Nat)) : State :=
  let h := s.fe.hdr
  let hdr := timeWords h.stamp ++ [rowWord s h, h.t,
    b2n s.nuc.tauOff * 16 + b2n (s.rdb Reg.NUC_STAT 1) * 8 + b2n h.stale * 4 + shutCode h.shut]
  let s1 := if h.shut = .opened ∧ s.rdb Reg.NUC_OUT 1 = true then fabricWriteAll s 10 (packetEntries hdr vals) else s
  if s.rdb Reg.NUC_OUT 2 then
    if s.rdb Reg.NUC_OUT 3 then
      fabricWriteAll s1 11 (packetEntries (timeWords h.stamp ++ [rowWord s h, h.t, b2n h.stale * 4 + shutCode h.shut])
        ((packSamples (s.fe.buf.map rawSample)).map fun w => (w, 0)))
    else if h.shut = .opened then s1
    else fabricWriteAll s1 11 (packetEntries hdr vals)
  else s1

/-! ## The integrator (R207–R209) -/

/-- The index of a row on the path in force. -/
def pathIndex (t : TdiSt) (row : Nat) : Option Nat :=
  let k := if t.up then row - t.first else t.first - row
  if (if t.up then decide (t.first ≤ row) else decide (row ≤ t.first)) && decide (k < t.n) then some k else none

/-- A row boundary lies in the window of path row k of a line: F in CLK_ADC cycles, stamps in ticks (R208). -/
def inWindow (tl tau f stamp : Nat) : Bool :=
  decide (4 * (tl + 200 * tau) ≤ 4 * stamp + 5 * f) && decide (4 * stamp < 4 * (tl + 200 * tau) + 5 * f)

/-- A row contributes to a line. -/
def contribute (t : TdiSt) (f : Nat) (r : TdiRow) (l : TdiLine) : TdiLine :=
  match pathIndex t r.row with
  | none => l
  | some k =>
    if k ∉ l.got ∧ inWindow l.tl.toNat (t.dly.getD k 0) f r.stamp.toNat = true then
      { l with got := nsAdd l.got k, rows := l.rows ++ [r] }
    else l

/-- The value and QUAL of one column of a line (R208); without any usable value the value is free (log 9). -/
def lineValue (n draw : Nat) (c : List (Nat × Nat)) : Nat × Nat :=
  let use := c.filter fun v => v.2 < 2
  let mean := if use.isEmpty then (Config.freeWord draw).toNat
    else (roundDiv (use.foldl (fun a v => a + (v.1 : Int)) 0) use.length).toNat
  let q := if c.any fun v => v.2 == 2 then 2
    else if use.length < ceilDiv n 2 then 3
    else if c.any fun v => v.2 != 0 then 1
    else 0
  (mean, q)

/-- The packet of a line (R211). -/
def linePacket (s : State) (l : TdiLine) : List QEntry :=
  let cols := feCols s
  let vals := (List.range cols).map fun j => lineValue s.tdi.n (s.free + j) (l.rows.map fun r => r.vals.getD j (0, 3))
  let hdr := timeWords l.tl ++ [l.num % 2 ^ 24 * 2 ^ 8 + s.tdi.n, l.t,
    b2n (l.rows.any (·.tauOff)) * 16 + b2n (l.rows.any (·.extrap)) * 8 + b2n (l.rows.any (·.stale)) * 4]
  packetEntries hdr vals

/-- A line whose last path row has contributed is emitted, or discarded when a row was not OPEN or never arrived (R209). -/
def finishLine (s : State) (l : TdiLine) : State :=
  if l.got.length = s.tdi.n ∧ (l.rows.all (·.opened)) = true then
    if s.rdb Reg.NUC_OUT 0 then
      (fabricWriteAll s 9 (linePacket s l)).modFree (· + feCols s)
    else s
  else s.bump Reg.TDI_DISCARD 31 0

/-- A complete row reaches the integrator. -/
def tdiRow (s : State) (vals : List (Nat × Nat)) : State :=
  let h := s.fe.hdr
  let r : TdiRow := { stamp := h.stamp, row := h.row, opened := decide (h.shut = .opened), tauOff := s.nuc.tauOff,
                      extrap := s.rdb Reg.NUC_STAT 1, stale := h.stale, vals := vals }
  let f := framePeriod s
  let lines := s.tdi.lines.map (contribute s.tdi f r)
  let isDone := fun (l : TdiLine) => decide (s.tdi.n - 1 ∈ l.got)
  let s1 := s.modTdi fun t =>
    { t with lines := lines.filter fun l => !isDone l, hist := (r :: t.hist).take (feRows s) }
  (lines.filter isDone).foldl finishLine s1

/-- A line opens at a row boundary; rows of the last half frame whose stamp lies in its window contribute (R208). -/
def tdiOpen (s : State) : State :=
  if s.tdi.n = 0 ∨ s.fe.rows % s.tdi.step ≠ 0 then s
  else
    let l0 : TdiLine := { tl := s.fe.hdr.stamp, t := s.fe.hdr.t, num := s.tdi.count }
    let l := s.tdi.hist.reverse.foldl (fun l r => contribute s.tdi (framePeriod s) r l) l0
    let s1 := s.modTdi fun t => { t with count := t.count + 1 }
    if s.tdi.n - 1 ∈ l.got then finishLine s1 l else s1.modTdi fun t => { t with lines := t.lines ++ [l] }

/-- Every open line is discarded: a row of it never arrives (R209). -/
def tdiStop (s : State) : State :=
  (s.bump Reg.TDI_DISCARD 31 0 s.tdi.lines.length).modTdi fun t => { t with lines := [], hist := [] }

/-! ## PIPELINE_SAMPLE -/

/-- A row with all its samples: substitution, counts, packets and the integrator. -/
def finishRow (s : State) : State :=
  let vals := substitute [] s.fe.buf
  let sat := (s.fe.buf.filter fun x => x.sat && !x.dead).length
  let s1 := emitRow (s.bump Reg.NUC_SAT_CNT 31 0 sat) vals
  (tdiRow s1 vals).modNuc fun n =>
    { n with cur := { n.cur with
        tSum := n.cur.tSum + s.fe.hdr.t, rows := n.cur.rows + 1, stale := n.cur.stale || s.fe.hdr.stale,
        tMin := min n.cur.tMin s.fe.hdr.t, tMax := max n.cur.tMax s.fe.hdr.t,
        closed := n.cur.closed && decide (s.fe.hdr.shut = .closed),
        opened := n.cur.opened && decide (s.fe.hdr.shut = .opened) } }

/-- The next sample of the row in progress passes stages 1 to 4 and is stored; the row's last one completes it. -/
def pipelineSample (s : State) (row code : Nat) (clip : Bool) (ecc : List (Fin 4 × Bool)) : State :=
  let col := s.fe.buf.length
  let s0 := if col = 0 then startRow s else s
  let p := row * 1024 + col
  let ch := channelOf s col
  let s1 := ecc.foldl (fun t e => coefError t p e) s0
  let s2 := modStuck (if clip then s1.bump (Reg.BFE_CLIP ch) 31 0 else s1) ch fun c => stuckSample c code
  let stuck := s.rdb Reg.BFE_STAT (8 + ch)
  let u := stageU s2 p code
  let y := stageY s2 p u
  let px : Pix := { code := code, clip := clip, stuck := stuck, y := y, sat := clip || (storeQ16 y).2,
                    dead := stuck || recordDead s2 p }
  let cur := { s2.nuc.cur with codes := sset (fun _ => 0) s2.nuc.cur.codes p code,
                               clips := if clip then nsAdd s2.nuc.cur.clips p else s2.nuc.cur.clips }
  let s3 := (s2.modNuc fun n => { n with uPrev := sset (fun _ => 0) n.uPrev p u, cur := cur }).modFe fun f =>
    { f with buf := f.buf ++ [px] }
  if s3.fe.buf.length = feCols s then finishRow s3 else s3

/-- PIPELINE_SAMPLE (R168–R171, R190–R211): the next sample of the row in progress, in column order. A clipped sample has
code 0 or 16383; `ecc` names what the codes of the pixel's coefficient records find. -/
def execPipelineSample (code : BitVec 14) (clip : Bool) (ecc : List (Fin 4 × Bool)) (s : State) :
    Host.Outcome State Fault Refusal :=
  .next <| whenLive s fun s =>
    match s.fe.row with
    | none => s
    | some row =>
      if s.feRunning && decide (s.fe.buf.length < feCols s) then pipelineSample s row code.toNat clip ecc else s

/-! ## TDI_APPLY (R207) -/

/-- ⌊√n⌋ for n below 2^128. -/
def isqrt (n : Nat) : Nat := rootBits n 64 0

/-- τ_k in microseconds: (√(V0² + 2 G d_k) − V0) ÷ G with d_k = k × PITCH, rounded to nearest. -/
def fallDelay (v0 g pitch k : Nat) : Nat :=
  let n := 4000000000000 * v0 * v0 + 8000000000 * g * k * pitch
  (isqrt n - 2000000 * v0 + g) / (2 * g)

/-- APPLY: the delays and the path, or the refusal of R207. -/
def tdiApply (s : State) : State :=
  let n := s.rdf Reg.TDI_PATH 30 24
  let first := s.rdf Reg.TDI_PATH 22 16
  let step := max 1 (s.rdf Reg.TDI_PATH 7 0)
  let v0 := s.rdf Reg.TDI_V0 15 0
  let g := s.rdf Reg.TDI_G 15 0
  let pitch := s.rdf Reg.TDI_PITCH 15 0
  let up := !s.rdb Reg.BFE_GEOM 31
  let dly := (List.range n).map fun k =>
    let d := fallDelay v0 g pitch k
    if d < 65536 then d else Config.freeNat (s.free + k) % 65536
  let inRange := if up then decide (first + n ≤ feRows s) else decide (first < feRows s) && decide (n ≤ first + 1)
  if s.feRunning || n == 0 || v0 == 0 || g == 0 || pitch == 0 || !inRange ||
      decide (64 < ceilDiv (80 * fallDelay v0 g pitch (n - 1) + framePeriod s) (step * feRowPeriod s)) then
    raise s Err.TDI_CONFIG 0x0A
  else
    let s1 := (s.modFree (· + n)).modTdi fun t => { t with first := first, n := n, step := step, up := up, dly := dly }
    (List.range n).foldl (fun t k => t.wr (Reg.TDI_DLY k) (BitVec.ofNat 32 (dly.getD k 0))) s1

/-- The effect of a write to TDI_CTRL. -/
def tdiCtrlEffect (s : State) (v : Word) : State := if bitOf v 0 then tdiApply s else s

/-- TDI_APPLY (R207). -/
def execTdiApply (m : Master) (s : State) : Host.Outcome State Fault Refusal := writeRow m Reg.TDI_CTRL 1 tdiCtrlEffect s

end Sys2Proof.Machine
end

