-- ==== Sys2Proof/Machine/Sha.lean ====
section
/-! DEFINITION. The digests that the device computes (FIPS 180-4, R449): SHA-256, SHA-384 and SHA-512, and HMAC (FIPS 198-1). -/

namespace Sys2Proof.Machine

/-- The eight working words of a digest. -/
structure ShaWords (n : Nat) where
  a : BitVec n
  b : BitVec n
  c : BitVec n
  d : BitVec n
  e : BitVec n
  f : BitVec n
  g : BitVec n
  h : BitVec n
  deriving DecidableEq, Repr

/-- The rotations and shifts that tell the two word sizes apart. -/
structure ShaRot where
  big0 : Nat × Nat × Nat
  big1 : Nat × Nat × Nat
  /-- Two rotations and a shift. -/
  small0 : Nat × Nat × Nat
  small1 : Nat × Nat × Nat
  deriving DecidableEq, Repr

def sha256Rot : ShaRot := { big0 := (2, 13, 22), big1 := (6, 11, 25), small0 := (7, 18, 3), small1 := (17, 19, 10) }
def sha512Rot : ShaRot := { big0 := (28, 34, 39), big1 := (14, 18, 41), small0 := (1, 8, 7), small1 := (19, 61, 6) }

/-- The round constants of SHA-256. -/
def sha256K : List Word :=
  [0x428A2F98, 0x71374491, 0xB5C0FBCF, 0xE9B5DBA5, 0x3956C25B, 0x59F111F1, 0x923F82A4, 0xAB1C5ED5] ++
  [0xD807AA98, 0x12835B01, 0x243185BE, 0x550C7DC3, 0x72BE5D74, 0x80DEB1FE, 0x9BDC06A7, 0xC19BF174] ++
  [0xE49B69C1, 0xEFBE4786, 0x0FC19DC6, 0x240CA1CC, 0x2DE92C6F, 0x4A7484AA, 0x5CB0A9DC, 0x76F988DA] ++
  [0x983E5152, 0xA831C66D, 0xB00327C8, 0xBF597FC7, 0xC6E00BF3, 0xD5A79147, 0x06CA6351, 0x14292967] ++
  [0x27B70A85, 0x2E1B2138, 0x4D2C6DFC, 0x53380D13, 0x650A7354, 0x766A0ABB, 0x81C2C92E, 0x92722C85] ++
  [0xA2BFE8A1, 0xA81A664B, 0xC24B8B70, 0xC76C51A3, 0xD192E819, 0xD6990624, 0xF40E3585, 0x106AA070] ++
  [0x19A4C116, 0x1E376C08, 0x2748774C, 0x34B0BCB5, 0x391C0CB3, 0x4ED8AA4A, 0x5B9CCA4F, 0x682E6FF3] ++
  [0x748F82EE, 0x78A5636F, 0x84C87814, 0x8CC70208, 0x90BEFFFA, 0xA4506CEB, 0xBEF9A3F7, 0xC67178F2]

/-- The round constants of SHA-384 and SHA-512. -/
def sha512K : List DWord :=
  [0x428A2F98D728AE22, 0x7137449123EF65CD, 0xB5C0FBCFEC4D3B2F, 0xE9B5DBA58189DBBC] ++
  [0x3956C25BF348B538, 0x59F111F1B605D019, 0x923F82A4AF194F9B, 0xAB1C5ED5DA6D8118] ++
  [0xD807AA98A3030242, 0x12835B0145706FBE, 0x243185BE4EE4B28C, 0x550C7DC3D5FFB4E2] ++
  [0x72BE5D74F27B896F, 0x80DEB1FE3B1696B1, 0x9BDC06A725C71235, 0xC19BF174CF692694] ++
  [0xE49B69C19EF14AD2, 0xEFBE4786384F25E3, 0x0FC19DC68B8CD5B5, 0x240CA1CC77AC9C65] ++
  [0x2DE92C6F592B0275, 0x4A7484AA6EA6E483, 0x5CB0A9DCBD41FBD4, 0x76F988DA831153B5] ++
  [0x983E5152EE66DFAB, 0xA831C66D2DB43210, 0xB00327C898FB213F, 0xBF597FC7BEEF0EE4] ++
  [0xC6E00BF33DA88FC2, 0xD5A79147930AA725, 0x06CA6351E003826F, 0x142929670A0E6E70] ++
  [0x27B70A8546D22FFC, 0x2E1B21385C26C926, 0x4D2C6DFC5AC42AED, 0x53380D139D95B3DF] ++
  [0x650A73548BAF63DE, 0x766A0ABB3C77B2A8, 0x81C2C92E47EDAEE6, 0x92722C851482353B] ++
  [0xA2BFE8A14CF10364, 0xA81A664BBC423001, 0xC24B8B70D0F89791, 0xC76C51A30654BE30] ++
  [0xD192E819D6EF5218, 0xD69906245565A910, 0xF40E35855771202A, 0x106AA07032BBD1B8] ++
  [0x19A4C116B8D2D0C8, 0x1E376C085141AB53, 0x2748774CDF8EEB99, 0x34B0BCB5E19B48A8] ++
  [0x391C0CB3C5C95A63, 0x4ED8AA4AE3418ACB, 0x5B9CCA4F7763E373, 0x682E6FF3D6B2B8A3] ++
  [0x748F82EE5DEFB2FC, 0x78A5636F43172F60, 0x84C87814A1F0AB72, 0x8CC702081A6439EC] ++
  [0x90BEFFFA23631E28, 0xA4506CEBDE82BDE9, 0xBEF9A3F7B2C67915, 0xC67178F2E372532B] ++
  [0xCA273ECEEA26619C, 0xD186B8C721C0C207, 0xEADA7DD6CDE0EB1E, 0xF57D4F7FEE6ED178] ++
  [0x06F067AA72176FBA, 0x0A637DC5A2C898A6, 0x113F9804BEF90DAE, 0x1B710B35131C471B] ++
  [0x28DB77F523047D84, 0x32CAAB7B40C72493, 0x3C9EBE0A15C9BEBC, 0x431D67C49C100D4C] ++
  [0x4CC5D4BECB3E42B6, 0x597F299CFC657E2A, 0x5FCB6FAB3AD6FAEC, 0x6C44198C4A475817]

def sha256Init : ShaWords 32 :=
  { a := 0x6A09E667, b := 0xBB67AE85, c := 0x3C6EF372, d := 0xA54FF53A, e := 0x510E527F, f := 0x9B05688C, g := 0x1F83D9AB, h := 0x5BE0CD19 }

def sha384Init : ShaWords 64 :=
  { a := 0xCBBB9D5DC1059ED8, b := 0x629A292A367CD507, c := 0x9159015A3070DD17, d := 0x152FECD8F70E5939, e := 0x67332667FFC00B31, f := 0x8EB44A8768581511, g := 0xDB0C2E0D64F98FA7, h := 0x47B5481DBEFA4FA4 }

def sha512Init : ShaWords 64 :=
  { a := 0x6A09E667F3BCC908, b := 0xBB67AE8584CAA73B, c := 0x3C6EF372FE94F82B, d := 0xA54FF53A5F1D36F1, e := 0x510E527FADE682D1, f := 0x9B05688C2B3E6C1F, g := 0x1F83D9ABFB41BD6B, h := 0x5BE0CD19137E2179 }

/-- The exclusive or of three rotations. -/
def rot3 {n : Nat} (r : Nat × Nat × Nat) (x : BitVec n) : BitVec n :=
  x.rotateRight r.1 ^^^ x.rotateRight r.2.1 ^^^ x.rotateRight r.2.2

/-- The exclusive or of two rotations and a shift. -/
def rotShift {n : Nat} (r : Nat × Nat × Nat) (x : BitVec n) : BitVec n :=
  x.rotateRight r.1 ^^^ x.rotateRight r.2.1 ^^^ (x >>> r.2.2)

/-- The message schedule, newest word first: `ws` grows by one word for each step. -/
def shaSchedule {n : Nat} (r : ShaRot) : Nat → List (BitVec n) → List (BitVec n)
  | 0, ws => ws
  | k + 1, ws =>
    shaSchedule r k
      ((rotShift r.small1 (ws.getD 1 0) + ws.getD 6 0 + rotShift r.small0 (ws.getD 14 0) + ws.getD 15 0) :: ws)

/-- One round. -/
def shaRound {n : Nat} (r : ShaRot) (s : ShaWords n) (kw : BitVec n × BitVec n) : ShaWords n :=
  let t1 := s.h + rot3 r.big1 s.e + ((s.e &&& s.f) ^^^ (~~~s.e &&& s.g)) + kw.1 + kw.2
  let t2 := rot3 r.big0 s.a + ((s.a &&& s.b) ^^^ (s.a &&& s.c) ^^^ (s.b &&& s.c))
  { a := t1 + t2, b := s.a, c := s.b, d := s.c, e := s.d + t1, f := s.e, g := s.f, h := s.g }

/-- The digest state after one block of sixteen words. -/
def shaBlock {n : Nat} (r : ShaRot) (ks : List (BitVec n)) (s : ShaWords n) (block : List (BitVec n)) : ShaWords n :=
  let t := (ks.zip (shaSchedule r (ks.length - 16) block.reverse).reverse).foldl (shaRound r) s
  { a := s.a + t.a, b := s.b + t.b, c := s.c + t.c, d := s.d + t.d, e := s.e + t.e, f := s.f + t.f, g := s.g + t.g, h := s.h + t.h }

/-- The words of a byte string, most significant byte first, `w` bytes each. -/
def wordsBE (n w : Nat) : Nat → List Byte → List (BitVec n)
  | 0, _ => []
  | k + 1, l => BitVec.ofNat n (natBE (l.take w)) :: wordsBE n w k (l.drop w)

/-- The digest state after `k` blocks of `16 × w` bytes. -/
def shaBlocks {n : Nat} (r : ShaRot) (ks : List (BitVec n)) (w : Nat) : Nat → ShaWords n → List Byte → ShaWords n
  | 0, s, _ => s
  | k + 1, s, l => shaBlocks r ks w k (shaBlock r ks s (wordsBE n w 16 l)) (l.drop (16 * w))

/-- A message with its padding: a one bit, zeros, and the bit length in the last `2 × w` bytes of a block. -/
def shaPad (w : Nat) (m : List Byte) : List Byte :=
  let b := 16 * w
  let zeros := (2 * b - (m.length + 1 + 2 * w) % b) % b
  m ++ [0x80] ++ List.replicate zeros 0 ++ bytesBE (2 * w) (8 * m.length)

/-- The bytes of a digest state. -/
def shaBytes {n : Nat} (w : Nat) (s : ShaWords n) : List Byte :=
  [s.a, s.b, s.c, s.d, s.e, s.f, s.g, s.h].flatMap fun x => bytesBE w x.toNat

def sha256 (m : List Byte) : List Byte :=
  let p := shaPad 4 m
  shaBytes 4 (shaBlocks sha256Rot sha256K 4 (p.length / 64) sha256Init p)

def sha384 (m : List Byte) : List Byte :=
  let p := shaPad 8 m
  (shaBytes 8 (shaBlocks sha512Rot sha512K 8 (p.length / 128) sha384Init p)).take 48

def sha512 (m : List Byte) : List Byte :=
  let p := shaPad 8 m
  shaBytes 8 (shaBlocks sha512Rot sha512K 8 (p.length / 128) sha512Init p)

/-- The hash functions of the digest engine. -/
inductive HashAlg where
  | sha256 | sha384 | sha512
  deriving DecidableEq, Repr

def hashOf : HashAlg → List Byte → List Byte
  | .sha256 => sha256 | .sha384 => sha384 | .sha512 => sha512

/-- The block length of a hash function, in bytes. -/
def hashBlock : HashAlg → Nat
  | .sha256 => 64 | .sha384 => 128 | .sha512 => 128

/-- HMAC. -/
def hmac (alg : HashAlg) (key m : List Byte) : List Byte :=
  let b := hashBlock alg
  let k0 := if b < key.length then hashOf alg key else key
  let k := k0 ++ List.replicate (b - k0.length) 0
  hashOf alg (k.map (· ^^^ 0x5C) ++ hashOf alg (k.map (· ^^^ 0x36) ++ m))

end Sys2Proof.Machine
end

