-- ==== Sys2Proof/Machine/Calibration.lean ====
section
/-! DEFINITION. Calibration (R215–R233): the dialogue and its captures, the computed coefficients, the stored sets and the
choice of sets for the pipeline. -/

namespace Sys2Proof.Machine

/-- The source block of calibration errors. -/
def calSrc : Byte := 0x0B

/-- Sets bits of CAL_STATE; a change of STATE sets the bit of line 21 and is an event (R388, R542). -/
def State.setCal (s : State) (hi lo v : Nat) : State :=
  let t := s.wrf Reg.CAL_STATE hi lo v
  if t.rdf Reg.CAL_STATE 3 0 = s.rdf Reg.CAL_STATE 3 0 then t
  else postEvent (t.wrb Reg.ERR_EVT 5 true) 0x0105 t.ownLane (bytesLE 4 (t.rd Reg.CAL_STATE).toNat)

/-- CAL_STATE.STATE (R218). -/
def calState (s : State) : Nat := s.rdf Reg.CAL_STATE 3 0

/-- The dialogue enters a state. -/
def calEnter (s : State) (st : Nat) : State := s.setCal 3 0 st

/-- Pixels of the array. -/
def calPixels (s : State) : Nat := feRows s * feCols s

/-- CAPT_FRAMES, clamped. -/
def captFrames (s : State) : Nat := max 16 (min 256 (s.rdf Reg.CAL_CAPT 24 16))

/-- STAB_FRAMES. -/
def stabFrames (s : State) : Nat := max 8 (s.rdf Reg.CAL_STAB 31 24)

/-- Whether a difference of Q16.16 temperatures is at most a number of mK. -/
def withinMk (d mk : Nat) : Bool := decide (d * 1000 ≤ mk * 65536)

/-- The difference of two numbers, without its sign. -/
def absDiff (a b : Nat) : Nat := (a - b) + (b - a)

/-! ## Ends of the dialogue -/

/-- The dialogue ends without a set and its working data are dropped. -/
def calEnd (s : State) : State :=
  (s.setCal 9 0 0).modCal fun c => { loaded := c.loaded }

/-- The dialogue aborts with a cause (R223). -/
def calAbort (s : State) (cause : Nat) : State :=
  if calState s = 0 then s
  else raise (calEnd (s.wrf Reg.CAL_STATE 23 16 cause)) Err.CAL_ABORTED calSrc (BitVec.ofNat 64 cause)

/-- RUN is cleared or bank 1 is lost: cause FRONT_END (R223). -/
def calFrontEndLost (s : State) : State := calAbort s 0x07

/-! ## SETTLE and CAPTURE (R219) -/

/-- A capture fails: back to its SETTLE state, or the dialogue aborts at the fourth failure. -/
def captureFailed (s : State) : State :=
  let n := s.rdf Reg.CAL_STATE 9 8
  if n = 3 then calAbort s 0x03
  else ((s.setCal 9 8 (n + 1)).setCal 3 0 (calState s - 1)).modCal fun c =>
    { c with cap := {}, win := [], skip := true }

/-- A complete row in a dialogue: one that is not OPEN or is stale restarts a SETTLE window and fails a capture. -/
def calRow (s : State) : State :=
  if s.fe.hdr.shut = .opened ∧ s.fe.hdr.stale = false then s
  else match calState s with
    | 2 | 5 => s.modCal fun c => { c with win := [], skip := true }
    | 3 | 6 => captureFailed s
    | 7 => s.modCal fun c => { c with cap := {}, skip := true }
    | _ => s

/-- The window's record of a frame. -/
def calFrameOf (f : FrameRec) : CalFrame :=
  { sum := f.codes.foldl (fun a e => a + e.2) 0, tMin := f.tMin, tMax := f.tMax, tSum := f.tSum, rows := f.rows }

/-- The lowest and the highest frame sum of a window. -/
def winBand (w : List CalFrame) : Nat × Nat :=
  match w with
  | [] => (0, 0)
  | x :: r => (r.foldl (fun a f => min a f.sum) x.sum, r.foldl (fun a f => max a f.sum) x.sum)

/-- The frames of a window are stable: means within STAB_COUNTS (Q4.4) and temperatures within FPT_TOL. -/
def winStable (s : State) (w : List CalFrame) : Bool :=
  let (lo, hi) := winBand w
  let tMin := w.foldl (fun a f => min a f.tMin) 0xFFFFFFFF
  let tMax := w.foldl (fun a f => max a f.tMax) 0
  decide (w.length = stabFrames s) && decide ((hi - lo) * 16 ≤ s.rdf Reg.CAL_STAB 23 16 * calPixels s) &&
    withinMk (tMax - tMin) (s.rdf Reg.CAL_STAB 15 0)

/-- The mean of row temperatures, Q16.16. -/
def meanT (tSum rows : Nat) : Nat := (roundDiv tSum (max 1 rows)).toNat

/-- A complete frame in a SETTLE state; stability moves on to the CAPTURE state. -/
def settleFrame (s : State) (f : CalFrame) : State :=
  let w := (f :: s.cal.win).take (stabFrames s)
  if winStable s w then
    let t := meanT (w.foldl (fun a f => a + f.tSum) 0) (w.foldl (fun a f => a + f.rows) 0)
    (calEnter s (calState s + 1)).modCal fun c =>
      { c with win := [], band := winBand w, anchor := some (c.anchor.getD t), cap := {} }
  else s.modCal fun c => { c with win := w }

/-- A capture with one more frame. -/
def addFrame (c : Capture) (f : FrameRec) : Capture :=
  let z : Nat → Nat := fun _ => 0
  { frames := c.frames + 1,
    sum := f.codes.foldl (fun m e => sset z m e.1 (sget z m e.1 + e.2)) c.sum,
    sq := f.codes.foldl (fun m e => sset z m e.1 (sget z m e.1 + e.2 * e.2)) c.sq,
    clips := f.clips.foldl nsAdd c.clips, tSum := c.tSum + f.tSum, rows := c.rows + f.rows }

/-- A frame stays in the band of the last stable window and near T_ANCHOR. -/
def frameHolds (s : State) (f : CalFrame) : Bool :=
  let a := s.cal.anchor.getD 0
  let tol := s.rdf Reg.CAL_STAB 15 0
  decide (s.cal.band.1 ≤ f.sum) && decide (f.sum ≤ s.cal.band.2) &&
    withinMk (f.tMax - a) tol && withinMk (a - f.tMin) tol

/-- A capture has all its frames: the point is done. -/
def captureDone (s : State) (c : Capture) : State :=
  if calState s = 3 then
    ((s.setCal 9 8 0).setCal 3 0 4).modCal fun x => { x with lo := c, cap := {} }
  else
    ((s.setCal 9 8 0).setCal 3 0 (if s.cal.args.drift then 7 else 8)).modCal fun x =>
      { x with hi := c, cap := {}, phase := .first }

/-- A complete frame in a CAPTURE state. -/
def captureFrame (s : State) (f : FrameRec) : State :=
  if !frameHolds s (calFrameOf f) then captureFailed s
  else
    let c := addFrame s.cal.cap f
    if c.frames = captFrames s then captureDone s c else s.modCal fun x => { x with cap := c }

/-- A complete frame in DRIFT (R222). -/
def driftFrame (s : State) (f : FrameRec) : State :=
  match s.cal.phase with
  | .waiting =>
    let t1 := meanT s.cal.d1.tSum s.cal.d1.rows
    let t := meanT f.tSum f.rows
    if s.rdf Reg.CAL_DRIFT 15 0 * 65536 ≤ absDiff t t1 * 1000 then
      s.modCal fun c => { c with phase := .second, cap := {} }
    else s
  | p =>
    let c := addFrame s.cal.cap f
    if c.frames < captFrames s then s.modCal fun x => { x with cap := c }
    else if p = .first then s.modCal fun x => { x with d1 := c, cap := {}, phase := .waiting }
    else (calEnter s 8).modCal fun x => { x with d2 := c, cap := {}, driftOk := true }

/-- A complete frame reaches the dialogue. -/
def calFrame (s : State) (f : FrameRec) : State :=
  if s.cal.skip then s.modCal fun c => { c with skip := false }
  else match calState s with
    | 2 | 5 => settleFrame s (calFrameOf f)
    | 3 | 6 => captureFrame s f
    | 7 => driftFrame s f
    | _ => s

/-! ## COMPUTE (R220–R222) -/

/-- T_REF of every set. -/
def setTRef : Nat := 0x01112666

/-- A quotient with a signed divisor, rounded to nearest with ties away from zero. -/
def roundDivInt (n d : Int) : Int := if d < 0 then roundDiv (-n) (-d).toNat else roundDiv n d.toNat

/-- A capture's mean code of a pixel, Q14.4. -/
def captMean (c : Capture) (p : Nat) : Nat := (roundDiv (sget (fun _ => 0) c.sum p * 16) (max 1 c.frames)).toNat

/-- The temporal standard deviation of a pixel in a capture exceeds a number of counts. -/
def captNoisy (c : Capture) (p limit : Nat) : Bool :=
  let sum := sget (fun _ => 0) c.sum p
  decide ((limit * c.frames) * (limit * c.frames) < c.frames * sget (fun _ => 0) c.sq p - sum * sum)

/-- D of a pixel (R222): 0 without a completed drift step; free where both captures have one temperature (log 9). -/
def driftCoef (s : State) (g p : Nat) : Int :=
  let c := s.cal
  if !c.driftOk then 0
  else
    let dt : Int := (meanT c.d2.tSum c.d2.rows : Int) - meanT c.d1.tSum c.d1.rows
    if dt = 0 then (Config.freeNat p : Int)
    else roundDivInt ((g : Int) * ((captMean c.d2 p : Int) - captMean c.d1 p) * 1024) dt

/-- The coefficients of a pixel, none where it is unfit (R220, R221). -/
def pixelCoefs (s : State) (p : Nat) : Option Coefs :=
  let c := s.cal
  let cLo : Int := captMean c.lo p
  let dc : Int := (captMean c.hi p : Int) - cLo
  let noise := s.rdf Reg.CAL_NOISE 13 0
  if dc ≤ 0 ∨ p ∈ c.lo.clips ∨ p ∈ c.hi.clips ∨ p ∈ c.d1.clips ∨ p ∈ c.d2.clips ∨
      captNoisy c.lo p noise = true ∨ captNoisy c.hi p noise = true then none
  else
    let g := roundDivInt (((c.args.tHi : Int) - c.args.tLo) * 4) dc
    if g ≤ 0 ∨ g < s.rdf Reg.CAL_GLIM 15 0 ∨ (s.rdf Reg.CAL_GLIM 31 16 : Int) < g then none
    else
      let o := roundDivInt (cLo * g - ((c.args.tLo : Int) - setTRef) * 4) g
      if o < 0 ∨ 262143 < o then none else some { o := o, g := g.toNat, d := driftCoef s g.toNat p }

/-- Pixel indices of the array in the order of the set index (R225). -/
def setPixels (s : State) : List Nat :=
  (List.range (feRows s)).flatMap fun r => (List.range (feCols s)).map fun c => r * 1024 + c

/-- The coefficients are computed: REVIEW, or an abort with cause UNFIT. -/
def calCompute (s : State) : State :=
  let res := (setPixels s).map (pixelCoefs s)
  let unfit := (res.filter Option.isNone).length
  let s1 := s.wr Reg.CAL_UNFIT (BitVec.ofNat 32 unfit)
  if s.rdf Reg.CAL_NOISE 31 24 * calPixels s < unfit * 1000 then calAbort s1 0x06
  else (calEnter s1 9).modCal fun c => { c with result := res }

/-! ## The stored form (R224–R226) -/

/-- The first address of a slot. -/
def slotBase (slot : Nat) : Nat := 0x203D0000 + slot * 0x60000

/-- The base and step of the three coefficients of a set. -/
structure SetScale where
  oBase : Int
  oStep : Nat
  gBase : Int
  gStep : Nat
  dBase : Int
  dStep : Nat
  deriving DecidableEq, Repr

/-- The index of the step nearest to a value. -/
def stepIndex (base : Int) (step : Nat) (v : Int) : Int := roundDiv (v - base) step

/-- Every fit pixel has an entry under a scale. -/
def scaleFits (k : SetScale) (l : List Coefs) : Bool :=
  l.all fun c =>
    let o := stepIndex k.oBase k.oStep c.o
    let g := stepIndex k.gBase k.gStep c.g
    let d := stepIndex k.dBase k.dStep c.d
    decide (0 ≤ o) && decide (o ≤ 16382) && decide (-256 ≤ g) && decide (g ≤ 255) && decide (-64 ≤ d) && decide (d ≤ 63)

/-- The least and the greatest of a list of numbers. -/
def spanOf (l : List Int) : Int × Int :=
  match l with
  | [] => (0, 0)
  | x :: r => (r.foldl min x, r.foldl max x)

/-- The finest scale that starts at the least value. -/
def tightScale (l : List Coefs) : SetScale :=
  let (o0, o1) := spanOf (l.map (·.o))
  let (g0, g1) := spanOf (l.map fun c => (c.g : Int))
  let (d0, d1) := spanOf (l.map (·.d))
  let os := max 1 (ceilDiv (o1 - o0).toNat 16382)
  let gs := max 1 (ceilDiv (g1 - g0).toNat 511)
  let ds := max 1 (ceilDiv (d1 - d0).toNat 127)
  { oBase := o0, oStep := os, gBase := min 65535 (g0 + 256 * gs), gStep := gs, dBase := d0 + 64 * ds, dStep := ds }

/-- The scale firmware takes: the manual names none, so any that holds every fit pixel (log 12). -/
def chooseScale (k : Nat) (l : List Coefs) : SetScale :=
  let f : SetScale :=
    { oBase := (Config.freeNat k % 262144 : Nat), oStep := 1 + Config.freeNat (k + 1) % 65535,
      gBase := (Config.freeNat (k + 2) % 65536 : Nat), gStep := 1 + Config.freeNat (k + 3) % 65535,
      dBase := (Config.freeNat (k + 4) % 65536 : Nat) - 32768, dStep := 1 + Config.freeNat (k + 5) % 65535 }
  if scaleFits f l then f else tightScale l

/-- An integer held within bounds. -/
def clampInt (lo hi v : Int) : Int := max lo (min hi v)

/-- The 30-bit entry of a pixel (R225). -/
def setEntry (k : SetScale) : Option Coefs → Nat
  | none => 0x3FFFFFFF
  | some c =>
    (clampInt 0 16382 (stepIndex k.oBase k.oStep c.o)).toNat * 2 ^ 16 +
      (clampInt (-256) 255 (stepIndex k.gBase k.gStep c.g) % 512).toNat * 2 ^ 7 +
      (clampInt (-64) 63 (stepIndex k.dBase k.dStep c.d) % 128).toNat

/-- One block of up to 32 entries as a little-endian number. -/
def packEntries : List Nat → Nat
  | [] => 0
  | e :: r => e + 2 ^ 30 * packEntries r

/-- The data bytes of a set, block by block. -/
def packBlocks : Nat → List Nat → List Byte
  | 0, _ => []
  | n + 1, l => bytesLE 120 (packEntries (l.take 32)) ++ packBlocks n (l.drop 32)

/-- The number of data bytes of a set. -/
def dataLength (rows cols : Nat) : Nat := 120 * ceilDiv (rows * cols) 32

/-- Header bytes 0x000 to 0x0DF (R224). -/
def setHeader (s : State) (k : SetScale) (seq : Nat) : List Byte :=
  let c := s.cal
  let tFpa := meanT (c.lo.tSum + c.hi.tSum) (c.lo.rows + c.hi.rows)
  let flags := b2n c.driftOk + 2 * b2n (c.args.calTime == 0)
  slice (bytesLE 4 0xCA15E701 ++ bytesLE 2 1 ++ bytesLE 2 flags ++ bytesLE 4 seq ++ bytesLE 2 (feRows s) ++
    bytesLE 2 (feCols s) ++ bytesLE 4 tFpa ++ bytesLE 4 c.args.tLo ++ bytesLE 4 c.args.tHi ++ bytesLE 4 setTRef ++
    bytesLE 4 k.oBase.toNat ++ bytesLE 2 k.oStep ++ bytesLE 2 (k.gBase % 65536).toNat ++ bytesLE 2 k.gStep ++
    bytesLE 2 (k.dBase % 65536).toNat ++ bytesLE 2 k.dStep ++ bytesLE 2 c.args.tauNom ++
    bytesLE 4 (c.result.filter Option.isNone).length ++ bytesLE 2 c.args.validDays ++ bytesLE 2 0 ++
    bytesLE 8 c.args.calTime ++ slice c.args.refId 0 16) 0 0xE0

/-- The header of a slot where it reads without an error: bytes 0x000 to 0x107. -/
def slotHeader (s : State) (slot : Nat) : Option (List Byte) := mramBytes s (slotBase slot) 0x108

/-- A header has the right MAGIC. -/
def headerMagic (h : List Byte) : Bool := numAt h 0 4 == 0xCA15E701

/-- One more than the highest SEQ of any readable header in the store. -/
def nextSetSeq (s : State) : Nat :=
  (List.range 8).foldl (fun m slot => match slotHeader s slot with
    | some h => if headerMagic h then max m (numAt h 8 4) else m
    | none => m) 0 + 1

/-- Step 1 of R226: the COMMIT word is programmed with 0. -/
def openSlot (s : State) (slot : Nat) : State := (mramStoreBytes s (slotBase slot + 0x100) (bytesLE 8 0)).2

/-- Sectors of a slot that are not VALID. -/
def slotDirty (s : State) (slot : Nat) : List Nat :=
  ((List.range 96).map fun i => 976 + 96 * slot + i).filter fun x => !sectorValid s x

/-- Steps 2 to 6 of R226 for a header of 0xE0 bytes and its data; none where a sector cannot be cleared because another
clear holds the controller (R124). -/
def fillSlot (s : State) (slot : Nat) (hdr data : List Byte) : Option State :=
  if !(slotDirty s slot).isEmpty && s.mram.clear.isSome then none
  else
    let s1 := (slotDirty s slot).foldl clearSectorWhole s
    let b := slotBase slot
    let s2 := (mramStoreBytes s1 (b + 0x1000) data).2
    let s3 := (mramStoreBytes s2 b hdr).2
    let s4 := (mramStoreBytes s3 (b + 0xE0) (sha256 (hdr ++ data))).2
    some ((mramStoreBytes s4 (b + 0x100) (bytesLE 8 1)).2.modCal fun c =>
      { c with loaded := c.loaded.map fun x => if x = some slot then none else x })

/-! ## Slot status (R227) -/

/-- UTC seconds now, from the time the manager provides. -/
def utcNow (s : State) : Option Nat := s.host.utc.map fun (u, c) => u + (s.ct.toNat - c.toNat) / ticksPerSecond

/-- When a set expires; none where it never does. -/
def setExpiry (h : List Byte) : Option Nat :=
  if numAt h 0x34 2 = 0 ∨ numAt h 0x38 8 = 0 then none else some (numAt h 0x38 8 + numAt h 0x34 2 * 86400)

/-- The checks of a set's header and data, as found in a slot or in an import: 0, or the status they give. -/
def setCheck (s : State) (h : List Byte) (data : Option (List Byte)) : Nat :=
  if numAt h 4 2 ≠ 1 ∨ numAt h 0xC 1 ≠ feRows s ∨ numAt h 0xE 2 ≠ feCols s then 3
  else match data with
    | none => 4
    | some d => if sha256 (h.take 0xE0 ++ d) = slice h 0xE0 32 then 0 else 4

/-- The status of a slot before shadowing. -/
def slotJudge (s : State) (slot : Nat) : Nat :=
  match slotHeader s slot with
  | none =>
    match mramWord s (slotBase slot), mramWord s (slotBase slot + 0x100) with
    | some w, some c => if w % 2 ^ 32 = 0xCA15E701 ∧ c = 1 then 4 else 0
    | _, _ => 0
  | some h =>
    if !headerMagic h || numAt h 0x100 8 ≠ 1 then 0
    else match setCheck s h (mramBytes s (slotBase slot + 0x1000) (dataLength (feRows s) (feCols s))) with
      | 0 => match setExpiry h, utcNow s with
        | some e, some t => if e < t then 2 else 1
        | _, _ => 1
      | c => c

/-- T_FPA of a slot's header. -/
def slotT (s : State) (slot : Nat) : Nat := ((slotHeader s slot).map fun h => numAt h 0x10 4).getD 0

/-- SEQ of a slot's header. -/
def slotSeq (s : State) (slot : Nat) : Nat := ((slotHeader s slot).map fun h => numAt h 8 4).getD 0

/-- The eight statuses, with shadowing by usable sets. -/
def slotStatuses (s : State) : List Nat :=
  let l := (List.range 8).map (slotJudge s)
  let good := (List.range 8).filter fun i => l.getD i 0 == 1 || l.getD i 0 == 2
  (List.range 8).map fun i =>
    if i ∈ good ∧ (good.any fun j => decide (absDiff (slotT s i) (slotT s j) ≤ 32768) && decide (slotSeq s i < slotSeq s j))
    then 5 else l.getD i 0

/-- The error that a status raises. -/
def statusError (code : Nat) : Option Half :=
  match code with
  | 2 => some Err.CAL_EXPIRED | 3 => some Err.CAL_MISMATCH | 4 => some Err.CAL_CORRUPT | 5 => some Err.CAL_SHADOWED
  | _ => none

/-- Whether a usable set will expire within seven days (R556). -/
def slotDue (s : State) (slot : Nat) : Bool :=
  match slotHeader s slot, utcNow s with
  | some h, some t => match setExpiry h with
    | some e => decide (e ≤ t + 7 * 86400)
    | none => false
  | _, _ => false

/-- One slot's errors of an evaluation (R227, R556). -/
def reportSlot (s : State) (slot code : Nat) : State :=
  let s1 := match statusError code with
    | some c => raise s c calSrc (BitVec.ofNat 64 slot)
    | none => s
  if code = 1 ∧ slotDue s slot = true then raise s1 Err.SVC_CAL_DUE 0x16 (BitVec.ofNat 64 slot) else s1

/-- The evaluation of every slot. -/
def evaluateSlots (s : State) : State :=
  let l := slotStatuses s
  let s1 := s.wr Reg.CAL_SLOTSTAT (BitVec.ofNat 32 ((List.range 8).foldl (fun a i => a + l.getD i 0 * 8 ^ i) 0))
  (List.range 8).foldl (fun t i => reportSlot t i (l.getD i 0)) s1

/-- The status CAL_SLOTSTAT holds for a slot. -/
def slotStat (s : State) (slot : Nat) : Nat := s.rdf Reg.CAL_SLOTSTAT (3 * slot + 2) (3 * slot)

/-- The first 8 bytes of a slot's DIGEST (R545). -/
def digestPrefix (s : State) (slot : Nat) : List Byte := slice ((mramBytes s (slotBase slot + 0xE0) 8).getD []) 0 8

/-- The calibration record of the lane admits a slot: an empty record admits every one (R545). -/
def slotAllowed (s : State) (slot : Nat) : Bool :=
  match s.svc.allow with
  | some (p :: l) => (p :: l).contains (digestPrefix s slot)
  | _ => true

/-- The slots whose status is USABLE or EXPIRED. -/
def goodSlots (s : State) : List Nat := (List.range 8).filter fun i => slotStat s i == 1 || slotStat s i == 2

/-- The digest prefixes that a calibration record of this lane lists (R545). -/
def ownRecord (s : State) : List (List Byte) := (goodSlots s).map (digestPrefix s)

/-- The usable slots that may be selected (R227, R545). -/
def usableSlots (s : State) : List Nat := (goodSlots s).filter (slotAllowed s)

/-! ## Choosing and loading (R228–R230) -/

/-- The coefficient record of an entry, none for an unfit pixel or coefficients that do not fit a record. -/
def entryRecord (h : List Byte) (e : Nat) : Option DWord :=
  let sg := fun (v n : Nat) => if v < 2 ^ (n - 1) then (v : Int) else (v : Int) - 2 ^ n
  let o : Int := (numAt h 0x20 4 % 262144 : Nat) + (e / 2 ^ 16 % 16384 * numAt h 0x24 2 : Nat)
  let g : Int := (numAt h 0x26 2 : Int) + sg (e / 2 ^ 7 % 512) 9 * numAt h 0x28 2
  let d : Int := sg (numAt h 0x2A 2) 16 + sg (e % 128) 7 * numAt h 0x2C 2
  if e = 0x3FFFFFFF ∨ o < 0 ∨ 262143 < o ∨ g < 0 ∨ 65535 < g ∨ d < -32768 ∨ 32767 < d then none
  else some (BitVec.ofNat 64 (o.toNat * 2 ^ 46 + g.toNat * 2 ^ 30 + (d % 65536).toNat * 2 ^ 14))

/-- Entry q of a set's data. -/
def dataEntry (data : List Byte) (q : Nat) : Nat := numAt data (120 * (q / 32)) 120 / 2 ^ (30 * (q % 32)) % 2 ^ 30

/-- The records of a slot by pixel index, none where a read fails (R229). -/
def slotRecords (s : State) (slot : Nat) : Option (List (Nat × Option DWord)) :=
  match slotHeader s slot, mramBytes s (slotBase slot + 0x1000) (dataLength (feRows s) (feCols s)) with
  | some h, some d =>
    some (((List.range (calPixels s)).zip (setPixels s)).map fun (q, p) => (p, entryRecord h (dataEntry d q)))
  | _, _ => none

/-- The bank that holds a slot's set. -/
def bankOf (s : State) (slot : Nat) : Option Nat :=
  (List.range 3).find? fun b => decide (s.cal.loaded.toList.getD b none = some slot)

/-- A slot reads with an error while it is loaded: it is CORRUPT (R229). -/
def markCorrupt (s : State) (slot : Nat) : State :=
  raise (s.wrf Reg.CAL_SLOTSTAT (3 * slot + 2) (3 * slot) 4) Err.CAL_CORRUPT calSrc (BitVec.ofNat 64 slot)

/-- What loading a slot into a set bank came to. -/
inductive LoadResult where
  /-- The bank holds the set. -/
  | done (bank : Nat)
  /-- A read of the set failed. -/
  | corrupt
  /-- Every bank is in use. -/
  | noBank
  deriving DecidableEq, Repr

/-- Loads a slot into a set bank that no selection names, unless a bank holds it already. -/
def loadSlot (s : State) (slot : Nat) (keep : List Nat) : LoadResult × State :=
  match bankOf s slot with
  | some b => (.done b, s)
  | none =>
    match (List.range 3).find? fun b => !bankInUse s b && !(b ∈ keep) with
    | none => (.noBank, s)
    | some b =>
      match slotRecords s slot with
      | none => (.corrupt, markCorrupt s slot)
      | some l =>
        let s1 := s.modNuc fun n => l.foldl (fun n e => putCoef n (coefKey b e.1) (e.2.getD 0)) n
        (.done b, s1.modCal fun c =>
          { c with loaded := if h : b < 3 then c.loaded.set b (some slot) else c.loaded })

/-- DEAD in the live table: unfit in a loaded set or marked by the user (R195, R228). -/
def setDead (s : State) (unfit : List Nat) : State :=
  let want := fun p => p ∈ unfit || p ∈ s.nuc.userDead
  let l := (setPixels s).map fun p => (p, decide (want p = true))
  if s.feRunning then s.modNuc fun n => { n with pendDead := n.pendDead ++ l }
  else s.modNuc fun n => l.foldl (fun n e =>
    let r := sget (fun _ => 0) n.coef (coefKey 3 e.1)
    let m : DWord := BitVec.ofNat 64 (2 ^ 33)
    putCoef n (coefKey 3 e.1) (if e.2 then r ||| m else r &&& ~~~m)) n

/-- Unfit pixels of a slot. -/
def slotUnfit (s : State) (slot : Nat) : List Nat :=
  ((slotRecords s slot).getD []).filterMap fun e => if e.2.isNone then some e.1 else none

/-- e^x − 1 in units of 2^−96, for x in those units: the terms from the k-th on. -/
def expTerms (x : Nat) : Nat → Nat → Nat → Nat
  | 0, _, _ => 0
  | n + 1, k, t => let t' := t * x / (2 ^ 96 * k); t' + expTerms x n (k + 1) t'

/-- K = round(a ÷ (1 − a) × 256) with a = exp(−F ÷ TAU), for F in CLK_ADC cycles (80 per microsecond) and TAU in
microseconds (R230); held to the field's 12 bits. -/
def nominalK (f tau : Nat) : Nat :=
  if 8 * 80 * tau < f then 0
  else
    let e := expTerms (f * 2 ^ 96 / (80 * tau)) 100 1 (2 ^ 96)
    if e = 0 then 4095 else min 4095 ((512 * 2 ^ 96 + e) / (2 * e))

/-- TAU_NOM of the selection: that of the LO set, or of the HI set where the LO set gives none. -/
def selTau (s : State) : Nat :=
  let t := fun slot => ((slotHeader s slot).map fun h => numAt h 0x2E 2).getD 0
  let lo := t (s.rdf Reg.CAL_SEL 2 0)
  if lo = 0 then t (s.rdf Reg.CAL_SEL 6 4) else lo

/-- A set has been loaded. -/
def anyLoaded (s : State) : Bool := s.cal.loaded.toList.any Option.isSome

/-- Nominal time constants without a shutter (R230). -/
def nominalTau (s : State) : State :=
  let tau := selTau s
  if !s.fwRuns || shtPresent s || s.feRunning || !anyLoaded s || tau == 0 then s
  else
    let k := nominalK (framePeriod s) tau
    let s1 := s.modNuc fun n => (setPixels s).foldl (fun n p =>
      let r := (sget (fun _ => 0) n.coef (coefKey 3 p)).toNat
      let r1 := r / 2 ^ 46 * 2 ^ 46 + k * 2 ^ 34 + r / 2 ^ 33 % 2 * 2 ^ 33 + 2 ^ 32
      putCoef n (coefKey 3 p) (BitVec.ofNat 64 r1)) n
    s1.wr Reg.NUC_TAU_FP (BitVec.ofNat 32 (framePeriod s))

/-- Selects a loaded pair: NUC_TLO, NUC_THI, NUC_TREF_SET, NUC_SETSEL, DEAD and CAL_SEL. -/
def selectPair (s : State) (lo hi bLo bHi : Nat) : State :=
  let s1 := ((s.wr Reg.NUC_TLO (BitVec.ofNat 32 (slotT s lo))).wr Reg.NUC_THI (BitVec.ofNat 32 (slotT s hi))).wr
    Reg.NUC_TREF_SET (BitVec.ofNat 32 setTRef)
  let s2 := setselEffect s1 (BitVec.ofNat 32 (bLo + 4 * bHi))
  let s3 := setDead s2 (slotUnfit s lo ++ slotUnfit s hi)
  nominalTau (s3.wr Reg.CAL_SEL (BitVec.ofNat 32 (hi * 16 + lo)))

/-- Loads a pair and selects it. Answers whether the choice must be made again (R229). -/
def installPair (s : State) (lo hi : Nat) : Bool × State :=
  let keep := (bankOf s lo).toList ++ (bankOf s hi).toList
  match loadSlot s lo keep with
  | (.corrupt, s1) => (true, s1)
  | (.noBank, s1) => (false, s1)
  | (.done bLo, s1) =>
    match loadSlot s1 hi (bLo :: keep) with
    | (.corrupt, s2) => (true, s2)
    | (.noBank, s2) => (false, s2)
    | (.done bHi, s2) => (false, selectPair s2 lo hi bLo bHi)

/-- The slot of a list with the least key. -/
def leastBy (key : Nat → Nat) (l : List Nat) : Option Nat :=
  l.foldl (fun m i => match m with
    | none => some i
    | some j => if key i < key j then some i else some j) none

/-- The slot of a list with the greatest key. -/
def greatestBy (key : Nat → Nat) (l : List Nat) : Option Nat :=
  l.foldl (fun m i => match m with
    | none => some i
    | some j => if key j < key i then some i else some j) none

/-- The pair for a focal-plane temperature (R228). -/
def choosePair (s : State) (t : Nat) : Option (Nat × Nat) :=
  let u := usableSlots s
  let below := u.filter fun i => decide (slotT s i ≤ t)
  let above := u.filter fun i => decide (t < slotT s i)
  match greatestBy (slotT s) below, leastBy (slotT s) above with
  | some a, some b => some (a, b)
  | some b, none =>
    match greatestBy (slotT s) (u.filter (· ≠ b)) with
    | some a => some (a, b)
    | none => some (b, b)
  | none, some a =>
    match leastBy (slotT s) (u.filter (· ≠ a)) with
    | some b => some (a, b)
    | none => some (a, a)
  | none, none => none

/-- Chooses and loads sets; after a read error it chooses again from the remaining ones. -/
def loadSets : Nat → State → State
  | 0, s => s
  | n + 1, s =>
    match choosePair s (s.rd Reg.BFE_FPT_K).toNat with
    | none => s
    | some (lo, hi) => match installPair s lo hi with
      | (true, s1) => loadSets n s1
      | (false, s1) => s1

/-- Firmware evaluates the slots and chooses sets, at a start and after a commit or import. -/
def calStart (s : State) : State := loadSets 8 (evaluateSlots s)

/-- After a commit or an import in the lane its calibration record lists what the lane now holds (R227, R545). -/
def calRenewed (s : State) : State :=
  let s1 := evaluateSlots s
  loadSets 8 ((s1.modSvc fun v => { v with allow := some (ownRecord s1) }).wrb Reg.SVC_STAT 0 true)

/-- The set next to the loaded bracket on one side (R228). -/
def nextSet (s : State) (up : Bool) : Option Nat :=
  let lo := s.rdf Reg.CAL_SEL 2 0
  let hi := s.rdf Reg.CAL_SEL 6 4
  if up then leastBy (slotT s) ((usableSlots s).filter fun i => decide (slotT s hi < slotT s i))
  else greatestBy (slotT s) ((usableSlots s).filter fun i => decide (slotT s i < slotT s lo))

/-- The next set is loaded into the bank not in use. -/
def reselect (s : State) : State :=
  let lo := s.rdf Reg.CAL_SEL 2 0
  let hi := s.rdf Reg.CAL_SEL 6 4
  let t := (s.rd Reg.BFE_FPT_K).toNat
  if slotT s hi + 16384 < t then
    match nextSet s true with
    | some n => match installPair s hi n with
      | (true, s1) => loadSets 8 s1
      | (false, s1) => s1
    | none => s
  else if t + 16384 < slotT s lo then
    match nextSet s false with
    | some n => match installPair s n lo with
      | (true, s1) => loadSets 8 s1
      | (false, s1) => s1
    | none => s
  else s

/-! ## The dialogue's commands, as the control core of the lane's device executes them -/

/-- A command that its own checks refuse: the error is raised and is the response's STATUS. -/
def refuse (s : State) (code : Half) (src : Byte) : Half × List Byte × State := (code, [], raise s code src)

/-- BEGIN (R216, R217), from the body of R383. -/
def calBeginCmd (b : List Byte) (s : State) : Half × List Byte × State :=
  if !(decide (s.lanes.own.state = .idle) && s.feRunning && calState s == 0) then refuse s Err.CAL_NOT_IDLE calSrc
  else
    let tLo := numAt b 4 4
    let tHi := numAt b 8 4
    if tLo * 20 < 4663 * 65536 ∨ 15463 * 65536 < tHi * 20 ∨ tHi < tLo + 655360 then refuse s Err.CAL_BAD_ARGS calSrc
    else
      let args : CalArgs := { slot := numAt b 0 1, drift := numAt b 1 1 ≠ 0, tLo := tLo, tHi := tHi, refId := slice b 12 16,
                              calTime := numAt b 28 8, validDays := numAt b 36 2, tauNom := numAt b 38 2 }
      let s1 := (s.setCal 9 0 1).modCal fun c => { loaded := c.loaded, args := args }
      let s2 := if numAt b 2 1 = 0 then s1 else
        (List.range 5).foldl (fun t i => fieldWrite t (Reg.CAL_STAB + 4 * i) (wordLE (slice b (40 + 4 * i) 4))) s1
      (0, [], s2)

/-- POINT_READY (R218). -/
def calPointReadyCmd (s : State) : Half × List Byte × State :=
  if calState s = 1 ∨ calState s = 4 then
    (0, [], ((calEnter s (calState s + 1)).setCal 9 8 0).modCal fun c => { c with win := [], cap := {}, skip := true })
  else refuse s Err.CAL_WRONG_STATE calSrc

/-- COMMIT (R226): WRITING begins with the COMMIT word at 0. -/
def calCommitCmd (s : State) : Half × List Byte × State :=
  if calState s = 9 then (0, [], openSlot (calEnter s 0xA) s.cal.args.slot) else refuse s Err.CAL_WRONG_STATE calSrc

/-- DISCARD (R218). -/
def calDiscardCmd (s : State) : Half × List Byte × State :=
  if calState s = 9 then (0, [], calEnd s) else refuse s Err.CAL_WRONG_STATE calSrc

/-- ABORT (R218, R223). -/
def calAbortCmd (s : State) : Half × List Byte × State :=
  if calState s = 0 ∨ calState s = 0xA then refuse s Err.CAL_WRONG_STATE calSrc else (0, [], calAbort s 0x01)

/-- CAL_STATUS (R383). -/
def calStatusCmd (s : State) : Half × List Byte × State :=
  (0, [Reg.CAL_STATE, Reg.CAL_SLOTSTAT, Reg.CAL_SEL, Reg.CAL_UNFIT].flatMap fun a => bytesLE 4 (s.rd a).toNat, s)

/-- The bytes of an exported slot (R232): its header sector and its data; none where the slot is neither USABLE nor EXPIRED
or a read fails. -/
def exportBytes (s : State) (slot : Nat) : Option (List Byte) :=
  if slotStat s slot = 1 ∨ slotStat s slot = 2 then
    mramBytes s (slotBase slot) (0x1000 + dataLength (feRows s) (feCols s))
  else none

/-- CAL_IMPORT of bytes into a slot (R232): checked, then committed with a new SEQ. -/
def calImportCmd (slot : Nat) (l : List Byte) (s : State) : Half × List Byte × State :=
  if calState s ≠ 0 then refuse s Err.CAL_ACTIVE calSrc
  else
    let h := slice l 0 0x108
    let n := dataLength (feRows s) (feCols s)
    if !headerMagic h || numAt h 0x100 8 ≠ 1 then refuse s Err.CAL_CORRUPT calSrc
    else match setCheck s h (if 0x1000 + n ≤ l.length then some (slice l 0x1000 n) else none) with
      | 0 =>
        let hdr := slice (h.take 8 ++ bytesLE 4 (nextSetSeq s) ++ h.drop 12) 0 0xE0
        match fillSlot (openSlot s slot) slot hdr (slice l 0x1000 n) with
        | some s1 => (0, [], calRenewed s1)
        | none => (Err.MRAM_BUSY, [], s)
      | 3 => refuse s Err.CAL_MISMATCH calSrc
      | _ => refuse s Err.CAL_CORRUPT calSrc

/-- The set of the dialogue is written and the dialogue ends (R226); a sector that cannot be cleared aborts with STORE. True: the
set is in its slot. -/
def calWriteDone (s : State) : Bool × State :=
  let k := chooseScale s.free (s.cal.result.filterMap id)
  let data := packBlocks (ceilDiv (calPixels s) 32) (s.cal.result.map (setEntry k))
  match fillSlot (s.modFree (· + 6)) s.cal.args.slot (setHeader s k (nextSetSeq s)) data with
  | none => (false, calAbort s 0x08)
  | some s1 => (true, calRenewed (calEnd s1))

/-! ## Reports of the dialogue -/

/-- CAL_COMPUTE_DONE (R220, R221). -/
def execCalComputeDone (s : State) : Host.Outcome State Fault Refusal :=
  .next <| whenLive s fun s => if calState s = 8 then calCompute s else s

/-- CAL_SETTLE_TIMEOUT (R223). -/
def execCalSettleTimeout (s : State) : Host.Outcome State Fault Refusal :=
  .next <| whenLive s fun s => if calState s = 2 ∨ calState s = 5 then calAbort s 0x04 else s

/-- CAL_WAIT_TIMEOUT (R223). -/
def execCalWaitTimeout (s : State) : Host.Outcome State Fault Refusal :=
  .next <| whenLive s fun s => if calState s = 1 ∨ calState s = 4 ∨ calState s = 9 then calAbort s 0x05 else s

/-- CAL_DRIFT_TIMEOUT (R222): D is 0 for every pixel and the dialogue goes on to COMPUTE. -/
def execCalDriftTimeout (s : State) : Host.Outcome State Fault Refusal :=
  .next <| whenLive s fun s =>
    if calState s = 7 then (calEnter s 8).modCal fun c => { c with driftOk := false, cap := {}, d1 := {}, d2 := {} } else s

/-- CAL_RESELECT (R228, R229). -/
def execCalReselect (s : State) : Host.Outcome State Fault Refusal :=
  .next <| whenLive s fun s => if s.fwRuns && anyLoaded s then reselect s else s

/-- CAL_EXPIRY_CHECK (R227, R556). -/
def execCalExpiryCheck (s : State) : Host.Outcome State Fault Refusal :=
  .next <| whenLive s fun s => if s.fwRuns then evaluateSlots s else s

/-! ## The front end's configuration and its nominal time constants -/

/-- The effect of a write to a geometry or timing register: firmware repeats the writes of R230 when the frame period has
changed. -/
def feConfigTau (a : Nat) (s : State) (v : Word) : State :=
  let s1 := feConfigEffect a s v
  if framePeriod s1 = framePeriod s then s1 else nominalTau s1

/-- FE_CONFIG_WRITE (R166, R230). -/
def execFeConfigWrite (m : Master) (addr v : Word) (s : State) : Host.Outcome State Fault Refusal :=
  if addr.toNat ∈ feConfigRegs then writeRow m addr.toNat v (feConfigTau addr.toNat) s else .next s

/-- The effect of BFE_CTRL with the dialogue's abort when RUN is cleared (R223). -/
def feCtrlFull (s : State) (v : Word) : State :=
  let s1 := feCtrlEffect s v
  if s.rdb Reg.BFE_CTRL 0 && !bitOf v 0 then calFrontEndLost s1 else readFlag s1

/-- FE_RUN (R163, R164, R166, R185): a write that sets BFE_CTRL.RUN. -/
def execFeRun (m : Master) (s : State) : Host.Outcome State Fault Refusal := writeRow m Reg.BFE_CTRL 1 feCtrlFull s

/-- FE_STOP (R166, R223): a write that clears BFE_CTRL.RUN. -/
def execFeStop (m : Master) (s : State) : Host.Outcome State Fault Refusal := writeRow m Reg.BFE_CTRL 0 feCtrlFull s

end Sys2Proof.Machine
end

