-- ==== Sys2Proof/Machine/Gpio.lean ====
section
/-! DEFINITION. Claims on pins, timers, partitions and queues (R262–R266), and the level of each GPIO ball (R58, R299). -/

namespace Sys2Proof.Machine

/-- A claim of a kind and ID in a list. -/
def findClaim (l : List Claim) (kind id : Nat) : Option Claim := l.find? fun c => c.kind == kind && c.id == id

/-- A fixed function holds a resource: the camera trigger its pin, the scheduler its service partitions (R264, R312). -/
def fixedHolds (s : State) (kind id : Nat) : Bool :=
  (kind == 1 && s.rdb Reg.VIS_TRIG 31 && s.rdf Reg.VIS_TRIG 19 16 == id) ||
    (kind == 3 && s.rdb Reg.EJ_CTRL 0 && s.rdb Reg.EJ_CTRL (8 + id))

/-- The holder code of R266. -/
def claimCode (s : State) (kind id : Nat) : Nat :=
  if fixedHolds s kind id then 1
  else if (findClaim s.fab.held kind id).isSome then 2
  else if (findClaim s.fab.reserved kind id).isSome then 3
  else 0

/-- A resource is held by somebody. -/
def claimed (s : State) (kind id : Nat) : Bool := claimCode s kind id != 0

/-- Two-bit codes packed from the lowest field up. -/
def packCodes : List Nat → Nat
  | [] => 0
  | c :: r => c + 4 * packCodes r

def claimGpioView (s : State) : Word := BitVec.ofNat 32 (packCodes ((List.range 16).map (claimCode s 1)))
def claimMiscView (s : State) : Word :=
  BitVec.ofNat 32 (packCodes ((List.range 8).map (claimCode s 2) ++ (List.range 8).map (claimCode s 3)))
def claimQView (s : State) : Word := BitVec.ofNat 32 (packCodes ([0, 12, 15, 16].map (claimCode s 4)))

/-- The bank of a GPIO pin is enabled: GPIO0 to 7 are on bank 1, GPIO8 to 15 on bank 2. -/
def pinBankOn (s : State) (n : Nat) : Bool :=
  if n < 8 then decide (s.power.bank1 ≠ .disabled) else decide (s.power.bank2 ≠ .disabled)

/-- What the device drives on a pin; none where it is an input. -/
def pinDrive (s : State) (n : Nat) : Option Bool :=
  if fixedHolds s 1 n then some s.vis.trigHigh
  else match findClaim s.fab.held 1 n with
    | some c => if c.flags % 2 = 1 then some (bitOf s.fab.pins n) else none
    | none => if s.rdb Reg.SYS_GPIO_DIR n then some (s.rdb Reg.SYS_GPIO_OUT n) else none

/-- The level of a pin as the device reads it: 0 while its bank is disabled (R43). -/
def pinLevel (s : State) (n : Nat) : Bool := pinBankOn s n && (pinDrive s n).getD (bitOf s.power.gpioIn n)

/-- The value SYS_GPIO_IN reads. -/
def gpioInView (s : State) : Word :=
  BitVec.ofNat 32 ((List.range 16).foldl (fun a n => a + b2n (pinLevel s n) * 2 ^ n) 0)

/-- Claims are taken: pins driven as outputs start low, and pending edges of the pins are cleared (R58, R299). -/
def takeClaims (s : State) (l : List Claim) : State :=
  let pins := (l.filter fun c => c.kind == 1).map (·.id)
  let s1 := s.modFab fun f =>
    { f with pins := pins.foldl (fun v n => v &&& ~~~(BitVec.ofNat 16 (2 ^ n))) f.pins,
             timers := (l.filter fun c => c.kind == 2).foldl
               (fun v c => if h : c.id < 8 then v.set c.id (none, false) else v) f.timers }
  pins.foldl (fun t n => t.wrb Reg.SYS_GPIO_IRQ_STAT n false) s1

/-- A write to the bits of a GPIO register: bits of claimed pins are ignored (R58); `width` bits belong to each pin. -/
def gpioWrite (a width : Nat) (s : State) (v : Word) : State :=
  let keep := (List.range 16).foldl (fun m n => if claimed s 1 n then m + (2 ^ width - 1) * 2 ^ (width * n) else m) 0
  let k : Word := BitVec.ofNat 32 keep
  let t := fieldWrite s a v
  t.wr a ((s.rd a &&& k) ||| (t.rd a &&& ~~~k))

end Sys2Proof.Machine
end

