-- ==== Sys2Proof/Machine/Cells.lean ====
section
/-! DEFINITION. The stage cells (R276–R305): how an instruction issues, stalls, faults and squashes, and what each one does. -/

namespace Sys2Proof.Machine

/-! ## Issue -/

/-- A cell runs (CELL_STATc.RUN). -/
def cellRuns (s : State) (c : Nat) : Bool := s.rdb (Reg.CELL_STAT c) 31

/-- A word of a cell's code memory. -/
def codeAt (s : State) (c : Nat) (pc : BitVec 11) : Word := sget (fun _ => 0) s.fab.code (c * 2048 + pc.toNat)

/-- The first address of a cell's data memory (R108). -/
def cellBase (c : Nat) : Nat := 0x60000000 + c * 0x8000

/-- An exception (R303): nothing of the instruction is done, the fabric stops, 0x5140 is raised and a sorting lane leaves
SORTING. -/
def cellFault (s : State) (c cause : Nat) : State :=
  let pc := (s.cell c).pc.toNat
  let s1 := (cellsStop s).wr (Reg.CELL_STAT c) (BitVec.ofNat 32 (2 ^ 29 + cause * 2 ^ 25 + pc))
  let s2 := if s1.rdb Reg.CELL_EXC_FIRST 31 then s1 else s1.wr Reg.CELL_EXC_FIRST (BitVec.ofNat 32 (2 ^ 31 + c))
  let s3 := raise s2 Err.CELL_EXCEPTION 0x0E (BitVec.ofNat 64 (c + cause * 2 ^ 8 + pc * 2 ^ 16))
  ownLaneFault (s3.wrb Reg.ERR_EVT 7 true) Err.CELL_EXCEPTION fun f => { f with cell := true }

/-- A corrected word of a cell's code or data memory (R278). -/
def cellCorrected (s : State) (c : Nat) : State := raise (s.bump Reg.CELL_CE 15 0) Err.CELL_MEM_CE 0x0E (BitVec.ofNat 64 c)

/-- What an instruction reads and writes, as the interlocks of R292 see it. -/
structure Uses where
  regs  : List Nat := []
  /-- It reads or writes a flag. -/
  flags : Bool := false
  /-- It needs the DSU. -/
  dsu   : Bool := false
  /-- The register it writes at the end of W (R288). -/
  late  : Option Nat := none
  deriving DecidableEq, Repr

/-- An instruction stalls in D because of the DSU (R292). -/
def dsuBlocks (x : CellSt) (u : Uses) : Bool :=
  match x.dsu with
  | none => false
  | some op => u.dsu || u.flags || (!op.squashed && u.regs.contains op.d)

/-- The registers a DSU word reads. -/
def dsuReads (w : Word) : List Nat := if 4 ≤ fld w 12 8 then [fld w 21 18] else [fld w 21 18, fld w 17 14]

/-- The instruction in D behind a taken branch or a HALT is squashed: a DSU operation that has started leaves its occupancy
(R289, R293, R304). One that waits for an operand of a preceding load, multiplication or pop may not have started; one that
waits for the link `link` of a JAL has not. -/
def squashNext (s : State) (c : Nat) (link : Option Nat) : State :=
  let x := s.cell c
  let w := codeAt s c (x.pc + 1)
  if fld w 31 26 ≠ 0x0C ∨ legalDsu w = false ∨ x.dsu.isSome = true then s
  else
    let reads := dsuReads w
    let linkRead := match link with | some d => reads.contains d | none => false
    let lateRead := match x.lateReg with | some d => reads.contains d | none => false
    let (k, s1) := if lateRead then s.drawNat else (0, s)
    if linkRead || k % 2 == 1 then s1
    else
      let op : DsuOp := { fn := fld w 12 8, d := fld w 25 22, s := 0, t := 0, squashed := true }
      (s1.modCell c fun y => { y with dsu := some op }).bump (Reg.CELL_DSU c) 31 16

/-- What an instruction in E comes to. -/
inductive CellOut where
  /-- It is done, and PC goes on to the next word. -/
  | done (s : State)
  /-- It is done, and PC goes to a target. -/
  | jump (s : State) (target : BitVec 11)
  /-- It stalls on POP or TWAIT. -/
  | stallPop
  /-- It stalls on PUSH. -/
  | stallPush
  /-- It raises an exception. -/
  | fault (cause : Nat)

/-- The word at PC has been fetched and its instruction goes through D and E: interlocks, then its own effect. -/
def cellRun (i : Issue) (u : Uses) (f : State → CellOut) (s : State) : State :=
  let c := i.cell.val
  let s0 := s.modCell c fun x => { x with cyc := x.cyc + BitVec.ofNat 32 i.cycles }
  if 2 ≤ i.fetchBits then cellFault s0 c 5
  else
    let s1 := if i.fetchBits = 1 then cellCorrected s0 c else s0
    if dsuBlocks (s1.cell c) u then
      let n := (s1.cell c).dsuRest + i.cycles
      (s1.modCell c fun x => { x with dsuRest := n % 16 }).bump (Reg.CELL_DSU c) 15 0 (n / 16)
    else match f s1 with
      | .done t => t.modCell c fun x => { x with pc := x.pc + 1, lateReg := u.late }
      | .jump t target => t.modCell c fun x => { x with pc := target, lateReg := none }
      | .stallPop => s1.bump (Reg.CELL_POPSTALL c) 31 0 i.cycles
      | .stallPush => s1.bump (Reg.CELL_PUSHSTALL c) 31 0 i.cycles
      | .fault cause => cellFault s1 c cause

/-- A cell instruction: it runs where the cell runs and its code memory holds this word at PC. -/
def cellIssue (i : Issue) (w : Word) (u : Uses) (f : State → CellOut) (s : State) : Host.Outcome State Fault Refusal :=
  .next <| whenLive s fun s =>
    if cellRuns s i.cell.val && codeAt s i.cell.val (s.cell i.cell.val).pc == w then cellRun i u f s else s

/-! ## Registers and flags -/

/-- A general register of a cell. -/
def CellSt.greg (x : CellSt) (r : Fin 16) : Word := x.g[r.val]

/-- Writes a general register. -/
def CellSt.setG (x : CellSt) (r : Fin 16) (v : Word) : CellSt := { x with g := x.g.set r.val v }

/-- The flags of a result (R284). -/
def CellSt.setFlags (x : CellSt) (r : Word) (c v : Bool) : CellSt := { x with z := r == 0, n := bitOf r 31, c := c, v := v }

/-- The flags as RDS 2 and WRF order them: DZ, V, C, N, Z in [4:0]. -/
def CellSt.flagWord (x : CellSt) : Nat := b2n x.dz * 16 + b2n x.v * 8 + b2n x.c * 4 + b2n x.n * 2 + b2n x.z

/-- A register result with its flags when F is 1. -/
def writeAlu (c : Nat) (d : Fin 16) (f : Bool) (r : Arith 32) (s : State) : CellOut :=
  .done (s.modCell c fun x => let y := x.setG d r.r; if f then y.setFlags r.r r.c r.v else y)

/-- A register operation of OP 0x01 or, on lanes, of OP 0x02 (R282). -/
def aluRow (i : Issue) (fn : Nat) (lanes : Bool) (d a b : Fin 16) (f late : Bool)
    (op32 : Word → Word → Arith 32) (op16 : BitVec 16 → BitVec 16 → Arith 16) (s : State) :
    Host.Outcome State Fault Refusal :=
  cellIssue i (encR (if lanes then 2 else 1) d.val a.val b.val f fn)
    { regs := [d.val, a.val, b.val], flags := f, late := if late then some d.val else none }
    (fun s =>
      let x := s.cell i.cell.val
      writeAlu i.cell.val d f (if lanes then onLanes op16 (x.greg a) (x.greg b) else op32 (x.greg a) (x.greg b)) s) s

/-- A register operation without a lane form. -/
def aluRow32 (i : Issue) (fn : Nat) (d a b : Fin 16) (f late : Bool) (op : Word → Word → Arith 32) (s : State) :
    Host.Outcome State Fault Refusal :=
  cellIssue i (encR 1 d.val a.val b.val f fn)
    { regs := [d.val, a.val, b.val], flags := f, late := if late then some d.val else none }
    (fun s =>
      let x := s.cell i.cell.val
      writeAlu i.cell.val d f (op (x.greg a) (x.greg b)) s) s

/-- A multiply-accumulate, which also reads D. -/
def macRow (i : Issue) (fn : Nat) (d a b : Fin 16) (f : Bool) (op : Word → Word → Word → Arith 32) (s : State) :
    Host.Outcome State Fault Refusal :=
  cellIssue i (encR 1 d.val a.val b.val f fn)
    { regs := [d.val, a.val, b.val], flags := f, late := some d.val }
    (fun s =>
      let x := s.cell i.cell.val
      writeAlu i.cell.val d f (op (x.greg d) (x.greg a) (x.greg b)) s) s

/-- A comparison, which writes flags alone. -/
def flagRow (i : Issue) (w : Word) (regs : List Nat) (op : CellSt → Arith 32) (s : State) :
    Host.Outcome State Fault Refusal :=
  cellIssue i w { regs := regs, flags := true }
    (fun s => .done (s.modCell i.cell.val fun x => let r := op x; x.setFlags r.r r.c r.v)) s

/-- An immediate instruction (R282). -/
def immRow (i : Issue) (op : Nat) (d a : Fin 16) (f : Bool) (imm : Half) (g : Word → Arith 32) (s : State) :
    Host.Outcome State Fault Refusal :=
  cellIssue i (encI op d.val a.val f imm.toNat) { regs := [d.val, a.val], flags := f }
    (fun s => writeAlu i.cell.val d f (g ((s.cell i.cell.val).greg a)) s) s

/-! ## Register arithmetic (OP 0x01 and 0x02) -/

/-- ADD (R282). -/
def execCellAdd (i : Issue) (lanes : Bool) (d a b : Fin 16) (f : Bool) (s : State) : Host.Outcome State Fault Refusal :=
  aluRow i 0x00 lanes d a b f false aluAdd aluAdd s

/-- ADDS (R282). -/
def execCellAdds (i : Issue) (lanes : Bool) (d a b : Fin 16) (f : Bool) (s : State) : Host.Outcome State Fault Refusal :=
  aluRow i 0x01 lanes d a b f false aluAdds aluAdds s

/-- SUB (R282). -/
def execCellSub (i : Issue) (lanes : Bool) (d a b : Fin 16) (f : Bool) (s : State) : Host.Outcome State Fault Refusal :=
  aluRow i 0x02 lanes d a b f false aluSub aluSub s

/-- SUBS (R282). -/
def execCellSubs (i : Issue) (lanes : Bool) (d a b : Fin 16) (f : Bool) (s : State) : Host.Outcome State Fault Refusal :=
  aluRow i 0x03 lanes d a b f false aluSubs aluSubs s

/-- AND (R282). -/
def execCellAnd (i : Issue) (lanes : Bool) (d a b : Fin 16) (f : Bool) (s : State) : Host.Outcome State Fault Refusal :=
  aluRow i 0x04 lanes d a b f false aluAnd aluAnd s

/-- OR (R282). -/
def execCellOr (i : Issue) (lanes : Bool) (d a b : Fin 16) (f : Bool) (s : State) : Host.Outcome State Fault Refusal :=
  aluRow i 0x05 lanes d a b f false aluOr aluOr s

/-- XOR (R282). -/
def execCellXor (i : Issue) (lanes : Bool) (d a b : Fin 16) (f : Bool) (s : State) : Host.Outcome State Fault Refusal :=
  aluRow i 0x06 lanes d a b f false aluXor aluXor s

/-- ANDN (R282). -/
def execCellAndn (i : Issue) (lanes : Bool) (d a b : Fin 16) (f : Bool) (s : State) : Host.Outcome State Fault Refusal :=
  aluRow i 0x07 lanes d a b f false aluAndn aluAndn s

/-- MUL (R282). -/
def execCellMul (i : Issue) (lanes : Bool) (d a b : Fin 16) (f : Bool) (s : State) : Host.Outcome State Fault Refusal :=
  aluRow i 0x08 lanes d a b f true aluMul aluMul s

/-- MULS (R282). -/
def execCellMuls (i : Issue) (lanes : Bool) (d a b : Fin 16) (f : Bool) (s : State) : Host.Outcome State Fault Refusal :=
  aluRow i 0x09 lanes d a b f true aluMuls aluMuls s

/-- MIN (R282). -/
def execCellMin (i : Issue) (lanes : Bool) (d a b : Fin 16) (f : Bool) (s : State) : Host.Outcome State Fault Refusal :=
  aluRow i 0x0C lanes d a b f false aluMin aluMin s

/-- MAX (R282). -/
def execCellMax (i : Issue) (lanes : Bool) (d a b : Fin 16) (f : Bool) (s : State) : Host.Outcome State Fault Refusal :=
  aluRow i 0x0D lanes d a b f false aluMax aluMax s

/-- MINU (R282). -/
def execCellMinu (i : Issue) (lanes : Bool) (d a b : Fin 16) (f : Bool) (s : State) : Host.Outcome State Fault Refusal :=
  aluRow i 0x0E lanes d a b f false aluMinu aluMinu s

/-- MAXU (R282). -/
def execCellMaxu (i : Issue) (lanes : Bool) (d a b : Fin 16) (f : Bool) (s : State) : Host.Outcome State Fault Refusal :=
  aluRow i 0x0F lanes d a b f false aluMaxu aluMaxu s

/-- SHL (R282). -/
def execCellShl (i : Issue) (lanes : Bool) (d a b : Fin 16) (f : Bool) (s : State) : Host.Outcome State Fault Refusal :=
  aluRow i 0x10 lanes d a b f false aluShl aluShl s

/-- SHR (R282). -/
def execCellShr (i : Issue) (lanes : Bool) (d a b : Fin 16) (f : Bool) (s : State) : Host.Outcome State Fault Refusal :=
  aluRow i 0x11 lanes d a b f false aluShr aluShr s

/-- SAR (R282). -/
def execCellSar (i : Issue) (lanes : Bool) (d a b : Fin 16) (f : Bool) (s : State) : Host.Outcome State Fault Refusal :=
  aluRow i 0x12 lanes d a b f false aluSar aluSar s

/-- ROR (R282). -/
def execCellRor (i : Issue) (lanes : Bool) (d a b : Fin 16) (f : Bool) (s : State) : Host.Outcome State Fault Refusal :=
  aluRow i 0x13 lanes d a b f false aluRor aluRor s

/-- MULH (R282). -/
def execCellMulh (i : Issue) (d a b : Fin 16) (f : Bool) (s : State) : Host.Outcome State Fault Refusal :=
  aluRow32 i 0x0A d a b f true aluMulh s

/-- MULHU (R282). -/
def execCellMulhu (i : Issue) (d a b : Fin 16) (f : Bool) (s : State) : Host.Outcome State Fault Refusal :=
  aluRow32 i 0x0B d a b f true aluMulhu s

/-- MAC (R282). -/
def execCellMac (i : Issue) (d a b : Fin 16) (f : Bool) (s : State) : Host.Outcome State Fault Refusal :=
  macRow i 0x14 d a b f aluMac s

/-- MACS (R282). -/
def execCellMacs (i : Issue) (d a b : Fin 16) (f : Bool) (s : State) : Host.Outcome State Fault Refusal :=
  macRow i 0x15 d a b f aluMacs s

/-- CMP (R282): flags alone. -/
def execCellCmp (i : Issue) (a b : Fin 16) (s : State) : Host.Outcome State Fault Refusal :=
  flagRow i (encR 1 0 a.val b.val true 0x16) [a.val, b.val] (fun x => aluSub (x.greg a) (x.greg b)) s

/-- TST (R282): flags alone. -/
def execCellTst (i : Issue) (a b : Fin 16) (s : State) : Host.Outcome State Fault Refusal :=
  flagRow i (encR 1 0 a.val b.val true 0x17) [a.val, b.val] (fun x => aluAnd (x.greg a) (x.greg b)) s

/-- NEG (R282). -/
def execCellNeg (i : Issue) (lanes : Bool) (d a : Fin 16) (f : Bool) (s : State) : Host.Outcome State Fault Refusal :=
  aluRow i 0x18 lanes d a 0 f false aluNeg aluNeg s

/-- NEGS (R282). -/
def execCellNegs (i : Issue) (lanes : Bool) (d a : Fin 16) (f : Bool) (s : State) : Host.Outcome State Fault Refusal :=
  aluRow i 0x19 lanes d a 0 f false aluNegs aluNegs s

/-- ABS (R282). -/
def execCellAbs (i : Issue) (lanes : Bool) (d a : Fin 16) (f : Bool) (s : State) : Host.Outcome State Fault Refusal :=
  aluRow i 0x1A lanes d a 0 f false aluAbs aluAbs s

/-- ABSS (R282). -/
def execCellAbss (i : Issue) (lanes : Bool) (d a : Fin 16) (f : Bool) (s : State) : Host.Outcome State Fault Refusal :=
  aluRow i 0x1B lanes d a 0 f false aluAbss aluAbss s

/-- CLZ (R282). -/
def execCellClz (i : Issue) (d a : Fin 16) (f : Bool) (s : State) : Host.Outcome State Fault Refusal :=
  aluRow32 i 0x1C d a 0 f false aluClz s

/-- MOV (R282). -/
def execCellMov (i : Issue) (d a : Fin 16) (f : Bool) (s : State) : Host.Outcome State Fault Refusal :=
  aluRow32 i 0x1D d a 0 f false aluMov s

/-! ## Immediates and addresses -/

/-- ADDI (R282). -/
def execCellAddi (i : Issue) (d a : Fin 16) (f : Bool) (imm : Half) (s : State) : Host.Outcome State Fault Refusal :=
  immRow i 0x03 d a f imm (fun s => aluAdd s (imm.signExtend 32)) s

/-- ADDIS (R282). -/
def execCellAddis (i : Issue) (d a : Fin 16) (f : Bool) (imm : Half) (s : State) : Host.Outcome State Fault Refusal :=
  immRow i 0x04 d a f imm (fun s => aluAdds s (imm.signExtend 32)) s

/-- ANDI (R282). -/
def execCellAndi (i : Issue) (d a : Fin 16) (f : Bool) (imm : Half) (s : State) : Host.Outcome State Fault Refusal :=
  immRow i 0x05 d a f imm (fun s => aluAnd s (imm.zeroExtend 32)) s

/-- ORI (R282). -/
def execCellOri (i : Issue) (d a : Fin 16) (f : Bool) (imm : Half) (s : State) : Host.Outcome State Fault Refusal :=
  immRow i 0x06 d a f imm (fun s => aluOr s (imm.zeroExtend 32)) s

/-- XORI (R282). -/
def execCellXori (i : Issue) (d a : Fin 16) (f : Bool) (imm : Half) (s : State) : Host.Outcome State Fault Refusal :=
  immRow i 0x07 d a f imm (fun s => aluXor s (imm.zeroExtend 32)) s

/-- CMPI (R282): flags alone. -/
def execCellCmpi (i : Issue) (a : Fin 16) (imm : Half) (s : State) : Host.Outcome State Fault Refusal :=
  flagRow i (encI 0x08 0 a.val true imm.toNat) [a.val] (fun x => aluSub (x.greg a) (imm.signExtend 32)) s

/-- The shift that SHI selects by IMM[9:8]. -/
def shiOp (kind : Fin 4) (amount : BitVec 6) (s : Word) : Arith 32 :=
  let t : Word := amount.zeroExtend 32
  match kind with
  | 0 => aluShl s t
  | 1 => aluShr s t
  | 2 => aluSar s t
  | 3 => aluRor s t

/-- SHI (R282). -/
def execCellShi (i : Issue) (d a : Fin 16) (f : Bool) (kind : Fin 4) (amount : BitVec 6) (s : State) : Host.Outcome State Fault Refusal :=
  immRow i 0x09 d a f (BitVec.ofNat 16 (kind.val * 256 + amount.toNat)) (shiOp kind amount) s

/-- MOVL (R282). -/
def execCellMovl (i : Issue) (d : Fin 16) (f : Bool) (imm : Half) (s : State) : Host.Outcome State Fault Refusal :=
  immRow i 0x0A d 0 f imm (fun _ => aluMov (imm.zeroExtend 32) 0) s

/-- MOVH (R282): the low half of D is kept. -/
def execCellMovh (i : Issue) (d : Fin 16) (f : Bool) (imm : Half) (s : State) : Host.Outcome State Fault Refusal :=
  cellIssue i (encI 0x0B d.val 0 f imm.toNat) { regs := [d.val], flags := f }
    (fun s => writeAlu i.cell.val d f (aluMov (imm ++ ((s.cell i.cell.val).greg d).extractLsb' 0 16) 0) s) s

/-- MOVA (R282): an address register takes s[14:0]. -/
def execCellMova (i : Issue) (a : Fin 4) (b : Fin 16) (s : State) : Host.Outcome State Fault Refusal :=
  cellIssue i (encI 0x18 a.val b.val false 0) { regs := [b.val] }
    (fun s => .done (s.modCell i.cell.val fun x => { x with a := x.a.set a.val ((x.greg b).truncate 15) })) s

/-- RDA (R282): D is a zero-extended address register. -/
def execCellRda (i : Issue) (d : Fin 16) (a : Fin 4) (s : State) : Host.Outcome State Fault Refusal :=
  cellIssue i (encI 0x19 d.val a.val false 0) { regs := [d.val] }
    (fun s => .done (s.modCell i.cell.val fun x => x.setG d (x.a[a.val].zeroExtend 32))) s

/-- ADDA (R282). -/
def execCellAdda (i : Issue) (a : Fin 4) (imm : Half) (s : State) : Host.Outcome State Fault Refusal :=
  cellIssue i (encI 0x1A a.val 0 false imm.toNat) {}
    (fun s => .done (s.modCell i.cell.val fun x => { x with a := x.a.set a.val (addOff x.a[a.val] imm) })) s

/-! ## The DSU (R291–R293) -/

/-- A DSU instruction starts its operation. -/
def dsuRow (i : Issue) (fn : Nat) (d a b : Fin 16) (two : Bool) (s : State) : Host.Outcome State Fault Refusal :=
  cellIssue i (encR 0x0C d.val a.val b.val false fn)
    { regs := [d.val, a.val] ++ (if two then [b.val] else []), dsu := true }
    (fun s => .done (s.modCell i.cell.val fun x =>
      { x with dsu := some { fn := fn, d := d.val, s := x.greg a, t := x.greg b, squashed := false } })) s

/-- DIV (R282, R286, R291). -/
def execCellDiv (i : Issue) (d a b : Fin 16) (s : State) : Host.Outcome State Fault Refusal := dsuRow i 0 d a b true s

/-- DIVU (R282, R286, R291). -/
def execCellDivu (i : Issue) (d a b : Fin 16) (s : State) : Host.Outcome State Fault Refusal := dsuRow i 1 d a b true s

/-- REM (R282, R286, R291). -/
def execCellRem (i : Issue) (d a b : Fin 16) (s : State) : Host.Outcome State Fault Refusal := dsuRow i 2 d a b true s

/-- REMU (R282, R286, R291). -/
def execCellRemu (i : Issue) (d a b : Fin 16) (s : State) : Host.Outcome State Fault Refusal := dsuRow i 3 d a b true s

/-- RECIP (R282, R286, R291). -/
def execCellRecip (i : Issue) (d a : Fin 16) (s : State) : Host.Outcome State Fault Refusal := dsuRow i 4 d a 0 false s

/-- SQRT (R282, R286, R291). -/
def execCellSqrt (i : Issue) (d a : Fin 16) (s : State) : Host.Outcome State Fault Refusal := dsuRow i 5 d a 0 false s

/-- SQRTQ (R282, R286, R291). -/
def execCellSqrtq (i : Issue) (d a : Fin 16) (s : State) : Host.Outcome State Fault Refusal := dsuRow i 6 d a 0 false s

/-- The operation in a cell's DSU ends: its register, V and DZ, unless it was squashed (R286, R291, R293). -/
def dsuFinish (x : CellSt) : CellSt :=
  match x.dsu with
  | none => x
  | some op =>
    if op.squashed then { x with dsu := none }
    else
      let o := dsuOut op.fn op.s op.t
      let y := if h : op.d < 16 then x.setG ⟨op.d, h⟩ o.r else x
      { y with dsu := none, v := o.v, dz := x.dz || o.dz }

/-- DSU_RESULT (R291): the last cycle of the occupancy of a cell's DSU has passed. -/
def execDsuResult (c : Fin 32) (s : State) : Host.Outcome State Fault Refusal :=
  .next <| whenLive s fun s => s.modCell c.val dsuFinish

/-! ## Memory (R277, R278, R282) -/

/-- The bytes of a load from a cell's data memory. -/
def cellLoad (s : State) (c : Nat) (a : BitVec 15) (n : Nat) : Nat := natLE (s.bytesAt (cellBase c + a.toNat) n)

/-- A load of n bytes: `ecc` is the number of bits in error found in its word. -/
def loadRow (i : Issue) (op n : Nat) (signed : Bool) (d : Fin 16) (a : Fin 4) (p : Bool) (off : Half) (ecc : Nat)
    (s : State) : Host.Outcome State Fault Refusal :=
  cellIssue i (encM op d.val a.val p off) { regs := [d.val], late := some d.val }
    (fun s =>
      let c := i.cell.val
      let (ea, a') := effAddr (s.cell c).a[a.val] p off
      if ea.toNat % n ≠ 0 then .fault 2
      else if 2 ≤ ecc then .fault 5
      else
        let s1 := if ecc = 1 then cellCorrected s c else s
        let w := BitVec.ofNat (8 * n) (cellLoad s1 c ea n)
        .done (s1.modCell c fun x =>
          { x.setG d (if signed then w.signExtend 32 else w.zeroExtend 32) with a := x.a.set a.val a' })) s

/-- A store of n bytes; a store of part of a word reads it first. -/
def storeRow (i : Issue) (op n : Nat) (d : Fin 16) (a : Fin 4) (p : Bool) (off : Half) (ecc : Nat) (s : State) :
    Host.Outcome State Fault Refusal :=
  cellIssue i (encM op d.val a.val p off) { regs := [d.val] }
    (fun s =>
      let c := i.cell.val
      let (ea, a') := effAddr (s.cell c).a[a.val] p off
      if ea.toNat % n ≠ 0 then .fault 2
      else if n < 4 ∧ 2 ≤ ecc then .fault 5
      else
        let s1 := if n < 4 ∧ ecc = 1 then cellCorrected s c else s
        .done ((s1.setBytes (cellBase c + ea.toNat) (bytesLE n ((s1.cell c).greg d).toNat)).modCell c fun x =>
          { x with a := x.a.set a.val a' })) s

/-- LDW (R282). -/
def execCellLdw (i : Issue) (d : Fin 16) (a : Fin 4) (p : Bool) (off : Half) (ecc : Nat) (s : State) : Host.Outcome State Fault Refusal :=
  loadRow i 0x10 4 false d a p off ecc s

/-- LDH (R282). -/
def execCellLdh (i : Issue) (d : Fin 16) (a : Fin 4) (p : Bool) (off : Half) (ecc : Nat) (s : State) : Host.Outcome State Fault Refusal :=
  loadRow i 0x11 2 true d a p off ecc s

/-- LDHU (R282). -/
def execCellLdhu (i : Issue) (d : Fin 16) (a : Fin 4) (p : Bool) (off : Half) (ecc : Nat) (s : State) : Host.Outcome State Fault Refusal :=
  loadRow i 0x12 2 false d a p off ecc s

/-- LDB (R282). -/
def execCellLdb (i : Issue) (d : Fin 16) (a : Fin 4) (p : Bool) (off : Half) (ecc : Nat) (s : State) : Host.Outcome State Fault Refusal :=
  loadRow i 0x13 1 true d a p off ecc s

/-- LDBU (R282). -/
def execCellLdbu (i : Issue) (d : Fin 16) (a : Fin 4) (p : Bool) (off : Half) (ecc : Nat) (s : State) : Host.Outcome State Fault Refusal :=
  loadRow i 0x14 1 false d a p off ecc s

/-- STW (R278, R282): a full-word store reads nothing. -/
def execCellStw (i : Issue) (d : Fin 16) (a : Fin 4) (p : Bool) (off : Half) (s : State) : Host.Outcome State Fault Refusal :=
  storeRow i 0x15 4 d a p off 0 s

/-- STH (R278, R282). -/
def execCellSth (i : Issue) (d : Fin 16) (a : Fin 4) (p : Bool) (off : Half) (ecc : Nat) (s : State) : Host.Outcome State Fault Refusal :=
  storeRow i 0x16 2 d a p off ecc s

/-- STB (R278, R282). -/
def execCellStb (i : Issue) (d : Fin 16) (a : Fin 4) (p : Bool) (off : Half) (ecc : Nat) (s : State) : Host.Outcome State Fault Refusal :=
  storeRow i 0x17 1 d a p off ecc s

/-! ## Control (R283, R289, R304) -/

/-- A branch condition (R283). -/
def condHolds (x : CellSt) (cond : Nat) : Bool :=
  match cond with
  | 0x0 => true
  | 0x1 => x.z
  | 0x2 => !x.z
  | 0x3 => x.n != x.v
  | 0x4 => x.n == x.v
  | 0x5 => !x.c
  | 0x6 => x.c
  | 0x7 => x.n
  | 0x8 => !x.n
  | 0x9 => x.v
  | 0xA => !x.v
  | 0xB => !x.z && x.n == x.v
  | 0xC => x.z || x.n != x.v
  | 0xD => bitOf x.sb 3
  | 0xE => bitOf x.sb 2
  | _ => x.dz

/-- A condition reads the flags (R283). -/
def condFlags (cond : Nat) : Bool := cond != 0x0 && cond != 0xD && cond != 0xE

/-- B (R282, R283, R289). -/
def execCellB (i : Issue) (cond : Fin 16) (off : BitVec 12) (s : State) : Host.Outcome State Fault Refusal :=
  cellIssue i (encB 0x20 cond.val 0 off) { flags := condFlags cond.val }
    (fun s =>
      let x := s.cell i.cell.val
      if condHolds x cond.val then .jump (squashNext s i.cell.val none) (branchTarget x.pc off) else .done s) s

/-- JAL (R282, R289). -/
def execCellJal (i : Issue) (d : Fin 16) (off : BitVec 12) (s : State) : Host.Outcome State Fault Refusal :=
  cellIssue i (encB 0x21 d.val 0 off) { regs := [d.val] }
    (fun s =>
      let x := s.cell i.cell.val
      .jump ((squashNext s i.cell.val (some d.val)).modCell i.cell.val fun y => y.setG d ((x.pc + 1).zeroExtend 32))
        (branchTarget x.pc off)) s

/-- JR (R282, R289). -/
def execCellJr (i : Issue) (a : Fin 16) (s : State) : Host.Outcome State Fault Refusal :=
  cellIssue i (encB 0x22 0 a.val 0) { regs := [a.val] }
    (fun s => .jump (squashNext s i.cell.val none) (((s.cell i.cell.val).greg a).truncate 11)) s

/-- HALT (R304): this cell alone stops. -/
def execCellHalt (i : Issue) (s : State) : Host.Outcome State Fault Refusal :=
  cellIssue i (encB 0x23 0 0 0) {}
    (fun s =>
      let c := i.cell.val
      let pc := (s.cell c).pc
      .jump ((squashNext s c none).wr (Reg.CELL_STAT c) (BitVec.ofNat 32 (2 ^ 30 + pc.toNat))) pc) s

/-! ## Streams (R294–R297) -/

/-- POP (R282, R295). -/
def execCellPop (i : Issue) (d : Fin 16) (slot : Fin 4) (s : State) : Host.Outcome State Fault Refusal :=
  cellIssue i (encS 0x28 d.val slot.val false 0 false) { regs := [d.val], late := some d.val }
    (fun s =>
      let c := i.cell.val
      if !slotFed s c slot.val then .fault 3
      else
        let q := (s.cell c).slot slot.val
        match q.dropping, q.entries with
        | false, e :: r =>
          .done (pumpPorts (s.modCell c fun x =>
            { (x.modSlot slot.val fun y => { y with entries := r, begun := !e.entry.eop }).setG d e.entry.data with
              sb := BitVec.ofNat 4 (b2n e.entry.eop * 8 + b2n e.entry.abort * 4 + e.entry.qual.toNat) }))
        | _, _ => .stallPop) s

/-- The queue of an output port. -/
def outQueue (p : Nat) : Fin 24 :=
  match p with
  | 8 => 13 | 9 => 15 | 10 => 14 | _ => 16

/-- Every destination of an output slot has room for an entry; a queue that drops never lacks it (R296). -/
def pushReady (s : State) (c k : Nat) : Bool :=
  (slotRoutes s c k).all (fun r => decide (0 < slotSpace s r.dstCell r.dstSlot)) &&
    (slotPorts s c k).all fun p => !(queueStalls (outQueue p).val && queueFull s (outQueue p))

/-- The residence of a decision record that leaves the decision port: its last entry is REF (R34, R273). -/
def recordResidence (s : State) (ref : Word) : State :=
  match (s.fab.seen0 ++ s.fab.seen1).find? fun e => e.1 == ref.toNat with
  | none => s.bump Reg.FAB_LATE 31 0
  | some (_, t) =>
    let ns := (s.ct.toNat - t.toNat) * 5
    let s1 := s.wrf Reg.FAB_RES_MAX 13 0 (max (s.rdf Reg.FAB_RES_MAX 13 0) (min ns 16383))
    if s.rdf Reg.FAB_RES_LIMIT 13 0 < ns then s1.bump Reg.FAB_LATE 31 0 else s1

/-- An entry leaves by an output port. -/
def portPush (e : QEntry) (s : State) (p : Nat) : State :=
  let s1 := queueWrite s (outQueue p) e
  if p = 8 ∧ e.eop = true then recordResidence s1 e.data else s1

/-- PUSH (R282, R296). -/
def execCellPush (i : Issue) (a : Fin 16) (slot : Fin 4) (e : Bool) (q : BitVec 2) (x : Bool) (s : State) : Host.Outcome State Fault Refusal :=
  cellIssue i (encS 0x29 a.val slot.val e q x) { regs := [a.val] }
    (fun s =>
      let c := i.cell.val
      let routes := slotRoutes s c slot.val
      let ports := slotPorts s c slot.val
      if routes.isEmpty && ports.isEmpty then .fault 3
      else if !pushReady s c slot.val then .stallPush
      else
        let en : QEntry := { data := (s.cell c).greg a, eop := e, abort := x, qual := q }
        let s1 := routes.foldl (fun t r =>
          deliver t [(r.dstCell, r.dstSlot)] { entry := en, time := t.ct, lag := (2 + r.hops) / 2 + 1 }) s
        .done (ports.foldl (portPush en) s1)) s

/-- DROP on an input slot (R297). -/
def slotDrop (q : InSlot) : InSlot :=
  if !q.begun || q.dropping then q
  else match q.entries.dropWhile fun e => !e.entry.eop with
    | [] => { q with entries := [], dropping := true }
    | _ :: r => { q with entries := r, begun := false }

/-- DROP (R282, R297). -/
def execCellDrop (i : Issue) (slot : Fin 4) (s : State) : Host.Outcome State Fault Refusal :=
  cellIssue i (encS 0x2A 0 slot.val false 0 false) {}
    (fun s =>
      let c := i.cell.val
      if !slotFed s c slot.val then .fault 3
      else .done (pumpPorts (s.modCell c fun x => x.modSlot slot.val slotDrop))) s

/-- The entries that POP can take now: those not yet certain to have arrived count by a free choice (R294). -/
def availCount (s : State) (q : InSlot) : Nat × State :=
  if q.dropping then (0, s)
  else
    let young := (q.entries.reverse.takeWhile fun e => decide (s.ct.toNat - e.time.toNat ≤ e.lag)).length
    if young = 0 then (q.entries.length, s)
    else
      let (n, s1) := s.drawNat
      (q.entries.length - n % (young + 1), s1)

/-- AVAIL (R282, R297). -/
def execCellAvail (i : Issue) (d : Fin 16) (slot : Fin 4) (s : State) : Host.Outcome State Fault Refusal :=
  cellIssue i (encS 0x2B d.val slot.val false 0 false) { regs := [d.val] }
    (fun s =>
      let c := i.cell.val
      if !slotFed s c slot.val then .fault 3
      else
        let (n, s1) := availCount s ((s.cell c).slot slot.val)
        .done (s1.modCell c fun x => x.setG d (BitVec.ofNat 32 n))) s

/-- The free entries of an output slot: the least over its destinations (R282). -/
def outSpace (s : State) (c k : Nat) : Nat :=
  let l := (slotRoutes s c k).map (fun r => slotSpace s r.dstCell r.dstSlot) ++
    (slotPorts s c k).map fun p => queueDepth (outQueue p).val - (s.queue (outQueue p)).slots.length
  match l with
  | [] => 0
  | x :: r => r.foldl min x

/-- SPACE (R282). -/
def execCellSpace (i : Issue) (d : Fin 16) (slot : Fin 4) (s : State) : Host.Outcome State Fault Refusal :=
  cellIssue i (encS 0x2C d.val slot.val false 0 false) { regs := [d.val] }
    (fun s =>
      let c := i.cell.val
      if (slotRoutes s c slot.val).isEmpty && (slotPorts s c slot.val).isEmpty then .fault 3
      else .done (s.modCell c fun x => x.setG d (BitVec.ofNat 32 (outSpace s c slot.val)))) s

/-! ## Special values, pins and timers (R282, R299–R301) -/

/-- RDS (R282, R301); the values of selectors 6 and 7 are free (log 18). -/
def execCellRds (i : Issue) (d : Fin 16) (sel : BitVec 3) (s : State) : Host.Outcome State Fault Refusal :=
  cellIssue i (encI 0x30 d.val 0 false sel.toNat) { regs := [d.val], flags := sel == 1 || sel == 2 }
    (fun s =>
      let c := i.cell.val
      let x := s.cell c
      match sel.toNat with
      | 0 => .done (s.modCell c fun x => x.setG d (BitVec.ofNat 32 c))
      | 1 => .done (s.modCell c fun x => x.setG d (x.sb.zeroExtend 32))
      | 2 => .done (s.modCell c fun x => x.setG d (BitVec.ofNat 32 x.flagWord))
      | 3 => .done (s.modCell c fun x =>
          { x.setG d (s.ct.truncate 32) with shadow := BitVec.ofNat 32 (s.ct.toNat / 2 ^ 32) })
      | 4 => .done (s.modCell c fun x => x.setG d x.shadow)
      | 5 => .done (s.modCell c fun x => x.setG d x.cyc)
      | _ =>
        let (w, s1) := s.drawWord
        .done (s1.modCell c fun _ => x.setG d w)) s

/-- WRF (R282). -/
def execCellWrf (i : Issue) (a : Fin 16) (s : State) : Host.Outcome State Fault Refusal :=
  cellIssue i (encI 0x31 0 a.val false 0) { regs := [a.val], flags := true }
    (fun s => .done (s.modCell i.cell.val fun x =>
      let w := x.greg a
      { x with dz := bitOf w 4, v := bitOf w 3, c := bitOf w 2, n := bitOf w 1, z := bitOf w 0 })) s

/-- The choreography's claim on a resource. -/
def cellClaim (s : State) (kind id : Nat) : Option Claim := findClaim s.fab.held kind id

/-- GPW (R282, R299). -/
def execCellGpw (i : Issue) (a : Fin 16) (pin : Fin 16) (s : State) : Host.Outcome State Fault Refusal :=
  cellIssue i (encI 0x34 0 a.val false pin.val) { regs := [a.val] }
    (fun s =>
      match cellClaim s 1 pin.val with
      | some c =>
        if c.flags % 2 = 1 then
          let m : BitVec 16 := BitVec.ofNat 16 (2 ^ pin.val)
          let on := bitOf ((s.cell i.cell.val).greg a) 0
          .done (s.modFab fun f => { f with pins := if on then f.pins ||| m else f.pins &&& ~~~m })
        else .fault 4
      | none => .fault 4) s

/-- GPR (R282, R299). -/
def execCellGpr (i : Issue) (d : Fin 16) (pin : Fin 16) (s : State) : Host.Outcome State Fault Refusal :=
  cellIssue i (encI 0x35 d.val 0 false pin.val) { regs := [d.val] }
    (fun s =>
      if (cellClaim s 1 pin.val).isNone then .fault 4
      else .done (s.modCell i.cell.val fun x => x.setG d (BitVec.ofNat 32 (b2n (pinLevel s pin.val))))) s

/-- TARM (R282, R300). -/
def execCellTarm (i : Issue) (a : Fin 16) (k : Fin 8) (s : State) : Host.Outcome State Fault Refusal :=
  cellIssue i (encI 0x36 0 a.val false k.val) { regs := [a.val] }
    (fun s =>
      if (cellClaim s 2 k.val).isNone then .fault 4
      else
        let v := (s.cell i.cell.val).greg a
        .done (s.modFab fun f => { f with timers := f.timers.set k.val (some v, false) })) s

/-- TWAIT (R282, R300). -/
def execCellTwait (i : Issue) (k : Fin 8) (s : State) : Host.Outcome State Fault Refusal :=
  cellIssue i (encI 0x37 0 0 false k.val) {}
    (fun s =>
      if (cellClaim s 2 k.val).isNone then .fault 4
      else if s.fab.timers[k.val].2 then .done s
      else .stallPop) s

/-- TRD (R282, R300). -/
def execCellTrd (i : Issue) (d : Fin 16) (k : Fin 8) (s : State) : Host.Outcome State Fault Refusal :=
  cellIssue i (encI 0x38 d.val 0 false k.val) { regs := [d.val] }
    (fun s =>
      if (cellClaim s 2 k.val).isNone then .fault 4
      else .done (s.modCell i.cell.val fun x => x.setG d (BitVec.ofNat 32 (b2n s.fab.timers[k.val].2)))) s

/-- NOP (R282). -/
def execCellNop (i : Issue) (s : State) : Host.Outcome State Fault Refusal := cellIssue i (encI 0x3F 0 0 false 0) {} .done s

/-- ILLEGAL_INSTRUCTION (R281, R302): the word at PC is no instruction of R282. -/
def execIllegalInstruction (i : Issue) (s : State) : Host.Outcome State Fault Refusal :=
  .next <| whenLive s fun s =>
    let c := i.cell.val
    if cellRuns s c && !cellLegal (codeAt s c (s.cell c).pc) then cellRun i {} (fun _ => .fault 1) s else s

/-! ## FD access to cell memory (R253) -/

/-- The cell memory refuses a whole access. -/
def cellMemRefused (s : State) (wr : Bool) (a len : Nat) : Bool :=
  !s.fabLoaded || (List.range len).any fun i =>
    let o := a + i - 0x60000000
    let p := s.fab.conf.parts.getD (o / 0x8000) (32, false)
    decide (o % 0x8000 < p.1 * 1024) || (wr && !p.2)

/-- CELL_MEM_ACCESS (R253): a read of `len` bytes, or a write of `data`, through the gate of the cell memories. -/
def execCellMemAccess (m : Master) (wr : Bool) (addr : Word) (len : Nat) (data : List Byte) (s : State) : Host.Outcome State Fault Refusal :=
  .next <| whenLive s fun s =>
    let a := addr.toNat
    let n := if wr then data.length else len
    if !canAccess s m then s
    else gated (flushPairs s m a) { master := m, write := wr, addr := a, len := n } fun s =>
      if gateOf a ≠ 6 then s.resp m (if wr then [] else List.replicate n 0)
      else if cellMemRefused s wr a n then s.resp m (if wr then [] else List.replicate n 0) Err.FAB_PRIVATE
      else if wr then (s.setBytes a data).resp m []
      else s.resp m (s.bytesAt a n)

end Sys2Proof.Machine
end

