-- ==== Sys2Proof/Machine/Aes.lean ====
section
/-! DEFINITION. AES (FIPS 197) and its modes as the cipher engine runs them (R458): ECB, CBC, CTR, GCM, CMAC and the key wrap of
RFC 3394. The cipher itself works on a block as one number, its first
byte highest. -/

namespace Sys2Proof.Machine

/-- The substitution table, a row of 16 bytes a number. -/
def aesSbox : List Nat :=
  [0x637C777BF26B6FC53001672BFED7AB76,
   0xCA82C97DFA5947F0ADD4A2AF9CA472C0,
   0xB7FD9326363FF7CC34A5E5F171D83115,
   0x04C723C31896059A071280E2EB27B275,
   0x09832C1A1B6E5AA0523BD6B329E32F84,
   0x53D100ED20FCB15B6ACBBE394A4C58CF,
   0xD0EFAAFB434D338545F9027F503C9FA8,
   0x51A3408F929D38F5BCB6DA2110FFF3D2,
   0xCD0C13EC5F974417C4A77E3D645D1973,
   0x60814FDC222A908846EEB814DE5E0BDB,
   0xE0323A0A4906245CC2D3AC629195E479,
   0xE7C8376D8DD54EA96C56F4EA657AAE08,
   0xBA78252E1CA6B4C6E8DD741F4BBD8B8A,
   0x703EB5664803F60E613557B986C11D9E,
   0xE1F8981169D98E949B1E87E9CE5528DF,
   0x8CA1890DBFE6426841992D0FB054BB16]

/-- The inverse substitution table. -/
def aesInvSbox : List Nat :=
  [0x52096AD53036A538BF40A39E81F3D7FB,
   0x7CE339829B2FFF87348E4344C4DEE9CB,
   0x547B9432A6C2233DEE4C950B42FAC34E,
   0x082EA16628D924B2765BA2496D8BD125,
   0x72F8F66486689816D4A45CCC5D65B692,
   0x6C704850FDEDB9DA5E154657A78D9D84,
   0x90D8AB008CBCD30AF7E45805B8B34506,
   0xD02C1E8FCA3F0F02C1AFBD0301138A6B,
   0x3A9111414F67DCEA97F2CFCEF0B4E673,
   0x96AC7422E7AD3585E2F937E81C75DF6E,
   0x47F11A711D29C5896FB7620EAA18BE1B,
   0xFC563E4BC6D279209ADBC0FE78CD5AF4,
   0x1FDDA8338807C731B11210592780EC5F,
   0x60517FA919B54A0D2DE57A9F93C99CEF,
   0xA0E03B4DAE2AF5B0C8EBBB3C83539961,
   0x172B047EBA77D626E169146355210C7D]

/-- The exclusive or of two byte strings, as long as the shorter. -/
def xorBytes (a b : List Byte) : List Byte := a.zipWith (· ^^^ ·) b

/-- Byte i of a block. -/
def aesByte (x i : Nat) : Nat := x / 2 ^ (8 * (15 - i)) % 256

/-- The entry of a byte in a substitution table. -/
def aesSub (t : List Nat) (b : Nat) : Nat := aesByte (t.getD (b / 16) 0) (b % 16)

/-- The substitution of n bytes of a block, byte i of the result from byte `from' i` of the block. -/
def subBytes (t : List Nat) (n : Nat) (from' : Nat → Nat) (x : Nat) : Nat :=
  (List.range n).foldl (fun a i => a * 256 + aesSub t (aesByte x (from' i))) 0

/-- Bytes substituted and rows shifted left, or right with the inverse table. -/
def subShift (x : Nat) : Nat := subBytes aesSbox 16 (fun i => (i + 4 * (i % 4)) % 16) x
def invSubShift (x : Nat) : Nat := subBytes aesInvSbox 16 (fun i => (i + 16 - 4 * (i % 4)) % 16) x

/-- Four equal columns. -/
def aesColumns (w : Nat) : Nat := w * 0x00000001000000010000000100000001

/-- Every byte of a block multiplied by x in GF(2^8). -/
def aesDouble (x : Nat) : Nat := (x &&& aesColumns 0x7F7F7F7F) * 2 ^^^ (x / 128 &&& aesColumns 0x01010101) * 0x1B

/-- Every column of a block rotated: byte 1 takes the place of byte 0. -/
def aesRotate (x : Nat) : Nat := (x &&& aesColumns 0x00FFFFFF) * 256 + (x &&& aesColumns 0xFF000000) / 2 ^ 24

/-- Columns times the matrix of 2, 3, 1, 1. -/
def mixColumns (x : Nat) : Nat :=
  let d := aesDouble x
  d ^^^ aesRotate (d ^^^ x ^^^ aesRotate (x ^^^ aesRotate x))

/-- Columns times the matrix of 14, 11, 13, 9. -/
def invMixColumns (x : Nat) : Nat :=
  let d := aesDouble x
  let e := aesDouble d
  let f := aesDouble e
  f ^^^ e ^^^ d ^^^ aesRotate (f ^^^ d ^^^ x ^^^ aesRotate (f ^^^ e ^^^ x ^^^ aesRotate (f ^^^ x)))

/-- The next word of a key schedule of nk words; `ws` holds the words so far, newest first, and i is its number. -/
def keyWord (nk i rcon : Nat) (ws : List Nat) : Nat :=
  let t := ws.headD 0
  let t1 :=
    if i % nk = 0 then subBytes aesSbox 4 (fun j => 12 + (j + 1) % 4) t ^^^ rcon * 2 ^ 24
    else if 6 < nk ∧ i % nk = 4 then subBytes aesSbox 4 (fun j => 12 + j) t
    else t
  ws.getD (nk - 1) 0 ^^^ t1

/-- The key schedule, newest word first: n more words from number i on. -/
def keySchedule (nk : Nat) : Nat → Nat → Nat → List Nat → List Nat
  | 0, _, _, ws => ws
  | n + 1, i, rcon, ws => keySchedule nk n (i + 1) (if i % nk = 0 then aesDouble rcon else rcon) (keyWord nk i rcon ws :: ws)

/-- A string cut into pieces of n elements. -/
def chunks {α : Type} (n : Nat) : Nat → List α → List (List α)
  | 0, _ => []
  | k + 1, l => l.take n :: chunks n k (l.drop n)

/-- The round keys of an AES key of 16, 24 or 32 bytes, first round first. -/
def roundKeys (key : List Byte) : List Nat :=
  let nk := key.length / 4
  let ws := keySchedule nk (4 * (nk + 7) - nk) nk 1 ((chunks 4 nk key).map natBE).reverse
  (chunks 4 (nk + 7) ws.reverse).map fun k => k.foldl (fun a w => a * 2 ^ 32 + w) 0

/-- The rounds after the first key: each substitutes, shifts, mixes and adds a key, the last without mixing. -/
def aesEncRounds : List Nat → Nat → Nat
  | [], x => x
  | [k], x => subShift x ^^^ k
  | k :: r, x => aesEncRounds r (mixColumns (subShift x) ^^^ k)

/-- The rounds of the inverse cipher, last round key first. -/
def aesDecRounds : List Nat → Nat → Nat
  | [], x => x
  | [k], x => invSubShift x ^^^ k
  | k :: r, x => aesDecRounds r (invMixColumns (invSubShift x ^^^ k))

/-- A block under round keys: the first is added, the others drive the rounds. -/
def aesRun (rounds : List Nat → Nat → Nat) (keys : List Nat) (b : List Byte) : List Byte :=
  bytesBE 16 (rounds (keys.drop 1) (natBE b ^^^ keys.headD 0))

def aesEncrypt (key b : List Byte) : List Byte := aesRun aesEncRounds (roundKeys key) b

def aesDecrypt (key b : List Byte) : List Byte := aesRun aesDecRounds (roundKeys key).reverse b

/-! ## Modes -/

/-- The number of blocks that bytes fill. -/
def blockCount (l : List Byte) : Nat := (l.length + 15) / 16

def blocks16 (l : List Byte) : List (List Byte) := chunks 16 (blockCount l) l

def ecbEncrypt (key l : List Byte) : List Byte := (blocks16 l).flatMap (aesEncrypt key)
def ecbDecrypt (key l : List Byte) : List Byte := (blocks16 l).flatMap (aesDecrypt key)

/-- CBC: the output and the chaining block for the next segment. -/
def cbcEncBlocks (key : List Byte) : List (List Byte) → List Byte → List Byte × List Byte
  | [], iv => ([], iv)
  | b :: r, iv =>
    let c := aesEncrypt key (xorBytes b iv)
    let (o, e) := cbcEncBlocks key r c
    (c ++ o, e)

def cbcDecBlocks (key : List Byte) : List (List Byte) → List Byte → List Byte × List Byte
  | [], iv => ([], iv)
  | b :: r, iv =>
    let (o, e) := cbcDecBlocks key r b
    (xorBytes (aesDecrypt key b) iv ++ o, e)

/-- The counter block after n more blocks: the low 32 bits, big-endian, increment (R458). -/
def ctrAdd (c : List Byte) (n : Nat) : List Byte := c.take 12 ++ bytesBE 4 (natBE (c.drop 12) + n)

/-- CTR from a counter block. -/
def ctrBlocks (key : List Byte) : List (List Byte) → List Byte → List Byte
  | [], _ => []
  | b :: r, c => xorBytes b (aesEncrypt key c) ++ ctrBlocks key r (ctrAdd c 1)

def ctrCrypt (key c l : List Byte) : List Byte := ctrBlocks key (blocks16 l) c

/-- Zero bytes that fill the last block. -/
def pad16 (l : List Byte) : List Byte := l ++ List.replicate (16 * blockCount l - l.length) 0

/-- Multiplication in GF(2^128) as GCM numbers its bits: n bits of x are left, v is the shifted second factor. -/
def gfMul (x : Nat) : Nat → Nat → Nat → Nat
  | 0, z, _ => z
  | n + 1, z, v =>
    gfMul x n (if x / 2 ^ n % 2 = 1 then z ^^^ v else z) (if v % 2 = 1 then (v / 2) ^^^ (0xE1 * 2 ^ 120) else v / 2)

def ghash (h : Nat) (l : List Byte) : Nat := (blocks16 l).foldl (fun y b => gfMul (y ^^^ natBE b) 128 0 h) 0

/-- The GCM tag of additional data and ciphertext under a 12-byte IV. -/
def gcmTag (key iv aad ct : List Byte) : List Byte :=
  let h := natBE (aesEncrypt key (List.replicate 16 0))
  let g := ghash h (pad16 aad ++ pad16 ct ++ bytesBE 8 (8 * aad.length) ++ bytesBE 8 (8 * ct.length))
  xorBytes (bytesBE 16 g) (aesEncrypt key (iv ++ [0, 0, 0, 1]))

/-- GCM encryption: ciphertext and tag. -/
def gcmEncrypt (key iv aad p : List Byte) : List Byte × List Byte :=
  let c := ctrCrypt key (iv ++ [0, 0, 0, 2]) p
  (c, gcmTag key iv aad c)

/-- GCM decryption: the plaintext where the tag verifies. -/
def gcmDecrypt (key iv aad c tag : List Byte) : Option (List Byte) :=
  if gcmTag key iv aad c = tag then some (ctrCrypt key (iv ++ [0, 0, 0, 2]) c) else none

/-- Doubling in GF(2^128) for CMAC. -/
def cmacDouble (b : List Byte) : List Byte :=
  let n := natBE b
  bytesBE 16 ((2 * n % 2 ^ 128) ^^^ (if 2 ^ 127 ≤ n then 0x87 else 0))

/-- The chain of CMAC over all blocks but the last, then the last. -/
def cmacChain (key k1 k2 : List Byte) : List (List Byte) → List Byte → List Byte
  | [], x => aesEncrypt key (xorBytes (xorBytes (pad16 [0x80]) k2) x)
  | [b], x =>
    let m := if b.length = 16 then xorBytes b k1 else xorBytes (pad16 (b ++ [0x80])) k2
    aesEncrypt key (xorBytes m x)
  | b :: r, x => cmacChain key k1 k2 r (aesEncrypt key (xorBytes b x))

/-- AES-CMAC. -/
def cmac (key m : List Byte) : List Byte :=
  let k1 := cmacDouble (aesEncrypt key (List.replicate 16 0))
  cmacChain key k1 (cmacDouble k1) (blocks16 m) (List.replicate 16 0)

/-! ## Key wrap (RFC 3394) -/

/-- One pass over the registers of a wrap; t counts the steps. -/
def wrapPass (key : List Byte) : List (List Byte) → Nat → List Byte → List Byte × List (List Byte)
  | [], _, a => (a, [])
  | r :: rs, t, a =>
    let b := aesEncrypt key (a ++ r)
    let (a', l) := wrapPass key rs (t + 1) (xorBytes (b.take 8) (bytesBE 8 t))
    (a', b.drop 8 :: l)

def wrapPasses (key : List Byte) : Nat → Nat → List Byte → List (List Byte) → List Byte
  | 0, _, a, rs => a ++ rs.flatten
  | n + 1, t, a, rs =>
    let (a', rs') := wrapPass key rs t a
    wrapPasses key n (t + rs.length) a' rs'

def keyWrap (key m : List Byte) : List Byte :=
  wrapPasses key 6 1 (List.replicate 8 0xA6) (chunks 8 (m.length / 8) m)

/-- One pass of an unwrap, registers last first. -/
def unwrapPass (key : List Byte) : List (List Byte) → Nat → List Byte → List Byte × List (List Byte)
  | [], _, a => (a, [])
  | r :: rs, t, a =>
    let b := aesDecrypt key (xorBytes a (bytesBE 8 t) ++ r)
    let (a', l) := unwrapPass key rs (t - 1) (b.take 8)
    (a', b.drop 8 :: l)

def unwrapPasses (key : List Byte) : Nat → Nat → List Byte → List (List Byte) → List Byte × List (List Byte)
  | 0, _, a, rs => (a, rs)
  | n + 1, t, a, rs =>
    let (a', rs') := unwrapPass key rs t a
    unwrapPasses key n (t - rs.length) a' rs'

/-- The unwrapped key where the integrity check holds. -/
def keyUnwrap (key c : List Byte) : Option (List Byte) :=
  let n := c.length / 8 - 1
  let (a, rs) := unwrapPasses key 6 (6 * n) (c.take 8) (chunks 8 n (c.drop 8)).reverse
  if a = List.replicate 8 0xA6 then some rs.reverse.flatten else none

end Sys2Proof.Machine
end

