-- ==== Sys2Proof/Machine/Ejection.lean ====
section
/-! DEFINITION. The ejection scheduler and the ejector links (R307–R332): decision records, the timed command queue, exchanges,
the bank clocks, confirmations and port states. -/

namespace Sys2Proof.Machine

/-- EJ_ in the peripheral slots. -/
def ejSrc : Byte := 0x0F

/-! ## Port states (R327–R329) -/

/-- EJ_STAT.STATE. -/
def ejCode : EjState → Nat
  | .off => 0 | .probing => 1 | .up => 2 | .down => 3

/-- A port changes state: line 24 and the event EJ_PORT (R329, R388, R542). -/
def setEjState (s : State) (n : Nat) (st : EjState) : State :=
  let s1 := (s.modEjp n fun p => { p with state := st }).wrf Reg.EJ_STAT (2 * n + 1) (2 * n) (ejCode st)
  postEvent (s1.wrb Reg.ERR_EVT 8 true) 0x0104 s1.ownLane [BitVec.ofNat 8 n, BitVec.ofNat 8 (ejCode st), 0, 0]

/-- The commands of the exchange under way have an unknown fate (R320). -/
def ejUnknown (s : State) (n : Nat) : State :=
  match (s.ejp n).exch with
  | none => s
  | some x =>
    (s.bump (Reg.EJ_PUNKNOWN n) 31 0 x.cmds.length).modEjp n fun p =>
      { p with exch := none, unknown := x.cmds ++ p.unknown }

/-- Every enabled port is DOWN. -/
def ejAllDown (s : State) : Bool :=
  let l := (List.range 4).filter fun n => (s.ejp n).state != .off
  !l.isEmpty && l.all fun n => (s.ejp n).state == .down

/-- A port goes DOWN with its error (R327–R329). -/
def ejDown (s : State) (n : Nat) (code : Half) : State :=
  if (s.ejp n).state = .down ∨ (s.ejp n).state = .off then s
  else
    let s1 := raise s code ejSrc (BitVec.ofNat 64 n)
    let s2 := setEjState (ejDiscard (ejUnknown s1 n) n) n .down
    if ejAllDown s2 then ownLaneFault s2 code fun f => { f with ports := true } else s2

/-- What a port forgets when it enters PROBING: its bank's clock, its counts of faults and what CACK follows. -/
def ejFresh (p : EjPort) : EjPort :=
  { p with opened := none, openNext := false, good := 0, outliers := 0, pairs := [], fails := 0, viol := [], cackKnown := false }

/-- A port becomes UP (R315, R327). -/
def ejUp (s : State) (n nvalves : Nat) : State :=
  let nv := min 64 (max 1 nvalves)
  let s1 := (s.modEjp n fun p => { p with nvalves := nv, nextId := 0, fails := 0, viol := [] }).wrf (Reg.EJ_PSTAT n) 21 16 (nv - 1)
  let s2 := raise (setEjState s1 n .up) Err.EJ_PORT_UP ejSrc (BitVec.ofNat 64 n)
  s2.modLane s2.ownLane fun l => { l with faults := { l.faults with ports := false } }

/-- A port follows its enables: OFF while EJ_CTRL.EN or EJ_PnCFG.EN is 0, PROBING when both become 1 (R327). -/
def ejPortCfg (s : State) (n : Nat) : State :=
  let want := s.rdb Reg.EJ_CTRL 0 && s.rdb (Reg.EJ_PCFG n) 31
  match want, (s.ejp n).state with
  | true, .off => setEjState (s.modEjp n ejFresh) n .probing
  | false, .off => s
  | false, _ => setEjState (ejDiscard (ejUnknown s n) n) n .off
  | true, _ => s

/-- A violation of R328: eight within one second take the port DOWN. -/
def ejViolation (s : State) (n : Nat) : State :=
  let recent := (s.ct :: (s.ejp n).viol).filter fun t => decide (s.ct.toNat - t.toNat < ticksPerSecond)
  let s1 := (s.bump (Reg.EJ_PVIOL n) 31 0).modEjp n fun p => { p with viol := recent }
  if 8 ≤ recent.length then ejDown s1 n Err.EJ_BANK_PROTOCOL else s1

/-! ## The enables (R312, R330) -/

/-- The effect of a write to EJ_CTRL: EN claims the service partitions or stays 0; ARM drives EJ_PERMIT. -/
def ejCtrlEffect (s : State) (v : Word) : State :=
  let en0 := s.rdb Reg.EJ_CTRL 0
  let arm0 := s.rdb Reg.EJ_CTRL 1
  let svc := if en0 && bitOf v 0 then s.rdf Reg.EJ_CTRL 15 8 else fld v 15 8
  let clash := !en0 && (List.range 8).any fun k => svc / 2 ^ k % 2 == 1 && claimed s 3 k
  let en := bitOf v 0 && !clash
  let arm := bitOf v 1 && !s.rdb Reg.ERR_STAT 31
  let s1 := s.wr Reg.EJ_CTRL (BitVec.ofNat 32 (svc * 256 + b2n (arm || arm0) * 2 + b2n en))
  let s2 := if arm0 && !arm then ejDisarm s1 else setPermit s1
  (List.range 4).foldl ejPortCfg s2

/-- EJ_ENABLE (R312, R327, R330): a write of EJ_CTRL with its EN. -/
def execEjEnable (m : Master) (v : Word) (s : State) : Host.Outcome State Fault Refusal :=
  writeRow m Reg.EJ_CTRL v ejCtrlEffect s

/-- EJ_ARM (R330, R331): a write of EJ_CTRL with its ARM. -/
def execEjArm (m : Master) (v : Word) (s : State) : Host.Outcome State Fault Refusal :=
  writeRow m Reg.EJ_CTRL v ejCtrlEffect s

/-- The effect of a write to EJ_PnCFG. -/
def ejCfgEffect (n : Nat) (s : State) (v : Word) : State := ejPortCfg (fieldWrite s (Reg.EJ_PCFG n) v) n

/-! ## Decision records and the timed queue (R307–R313) -/

/-- An error of R309, at most once a second for each code and port; port 4 stands for none. -/
def ejRaise (s : State) (code : Half) (port : Nat) : State :=
  let key := (code.toNat, port)
  match s.ej.raised.find? fun e => e.1 == key with
  | some (_, t) =>
    if s.ct.toNat - t.toNat < ticksPerSecond then s
    else raise (s.modEj fun e => { e with raised := (key, s.ct) :: e.raised.filter fun x => x.1 != key }) code ejSrc (BitVec.ofNat 64 port)
  | none => raise (s.modEj fun e => { e with raised := (key, s.ct) :: e.raised }) code ejSrc (BitVec.ofNat 64 port)

/-- The commands that a partition holds: queued or on their way to a bank (R312, R313). -/
def partCount (s : State) (k : Nat) : Nat :=
  ((List.range 4).map fun n =>
    (((s.ejp n).queue ++ (((s.ejp n).exch.map (·.cmds)).getD [])).filter fun c => c.part == k).length).foldl (· + ·) 0

/-- EJ_PARTk. -/
def partView (s : State) (k : Nat) : Word := BitVec.ofNat 32 (partCount s k)

/-- Inserts a command by ascending T_ON, after those with the same (R313). -/
def fireInsert (c : FireCmd) : List FireCmd → List FireCmd
  | [] => [c]
  | x :: r => if c.tOn < x.tOn then c :: x :: r else x :: fireInsert c r

/-- An accepted command enters the timed queue under the port's next ID (R311, R315). -/
def firePlace (s : State) (n part width : Nat) (mask : DWord) (tOn : Nat) (cls : Option Nat) : State :=
  let w := if width = 0 then max 1 (s.rdf (Reg.EJ_PTIME n) 15 0) else width
  s.modEjp n fun p =>
    let c : FireCmd := { part := part, tOn := tOn, width := w, mask := mask, cls := cls, id := p.nextId }
    { p with queue := fireInsert c p.queue, nextId := (p.nextId + 1) % 65536,
             await := p.await.filter fun x => x.id != c.id, unknown := p.unknown.filter fun x => x.id != c.id }

/-- A count of the scheduler advances, with the error that goes with it. -/
def ejRefuse (s : State) (count : Nat) (code : Half) (port : Nat) : Half × State := (code, ejRaise (s.bump count 31 0) code port)

/-- Checks 5 to 7 of R309 and the placement, for a command of a partition that may be used. -/
def fireJudge (s : State) (n part width : Nat) (mask : DWord) (tOn : Int) (cls : Option Nat) : Half × State :=
  let lead := tOn - s.ct.toNat
  if mask = 0 then (Err.EJ_MASK, s.bump Reg.EJ_RECBAD 31 0)
  else if mask.toNat / 2 ^ (s.ejp n).nvalves ≠ 0 then ejRefuse s Reg.EJ_RECBAD Err.EJ_MASK n
  else if lead < 200 * (s.rdf (Reg.EJ_PLIM n) 15 0 : Int) then ejRefuse s (Reg.EJ_PLATE n) Err.EJ_LATE n
  else if 20000000 < lead then ejRefuse s (Reg.EJ_PDROPPED n) Err.EJ_FAR n
  else if 128 ≤ partCount s part then ejRefuse s (Reg.EJ_PDROPPED n) Err.EJ_PART_FULL n
  else (0, firePlace s n part width mask tOn.toNat cls)

/-- A partition is usable by records: the loaded choreography claims it, or it is a service partition (R309, R312). -/
def partUsable (s : State) (k : Nat) : Bool := claimCode s 3 k == 2 || fixedHolds s 3 k

/-- The checks of R309 on one record, in their order. It addresses the device's own four ports alone (R25). -/
def recordJudge (s : State) (l : List QEntry) : State :=
  if l.length ≠ 6 ∨ l.any (·.abort) then (ejRefuse s Reg.EJ_RECBAD Err.EJ_REC_BAD 4).2
  else if !s.rdb Reg.EJ_CTRL 1 then s.bump Reg.EJ_DISARMED 31 0
  else
    let w := fun (i : Nat) => ((l[i]?).map (·.data)).getD (0 : Word)
    let n := fld (w 0) 31 30
    let part := fld (w 0) 29 27
    let tArr := (w 3).toNat + 2 ^ 32 * (w 4).toNat
    if (s.ejp n).state ≠ .up then (ejRefuse s (Reg.EJ_PDROPPED n) Err.EJ_PORT_OFF n).2
    else if !partUsable s part then (ejRefuse s Reg.EJ_RECBAD Err.EJ_PART_UNCLAIMED n).2
    else
      (fireJudge s n part (fld (w 0) 15 0) (BitVec.ofNat 64 ((w 1).toNat + 2 ^ 32 * (w 2).toNat))
        (Int.ofNat tArr - 200 * (s.rdf (Reg.EJ_PTIME n) 31 16 : Int)) (some (fld (w 0) 19 16))).2

/-- DECISION_RECORD (R307–R312): the scheduler takes the next record of the DECISION queue. -/
def execDecisionRecord (s : State) : Host.Outcome State Fault Refusal :=
  .next <| whenLive s fun s =>
    match queuePacket s 13 with
    | (none, _) => s
    | (some l, s1) => recordJudge (releaseStalled s1 13 (s1.queue 13).stalled) l

/-! ## Frames (R316, R317) -/

/-- The CRC of R317, one bit at a time. -/
def crc16Bits : Nat → Nat → Nat
  | 0, c => c
  | n + 1, c => crc16Bits n (if 0x8000 ≤ c then ((2 * c) % 65536) ^^^ 0x1021 else 2 * c)

/-- The CRC of R317 over bytes. -/
def crc16 (l : List Byte) : Nat := l.foldl (fun c b => crc16Bits 8 (c ^^^ (b.toNat * 256))) 0xFFFF

/-- Rounds a quotient to the nearest whole number, halves away from zero. -/
def ejRound (x : Int) (d : Nat) : Int := if 0 ≤ x then (2 * x + d) / (2 * d) else -((2 * -x + d) / (2 * d))

/-- The rate of the bank clock as a fraction: from the newest pair to the 16th back or the first (R323). -/
def ejRate (p : EjPort) : Int × Nat :=
  match p.pairs, p.pairs.getLast? with
  | (c1, b1) :: _ :: _, some (c0, b0) => if c0 < c1 then (b1 - b0, c1 - c0) else (1, 20)
  | _, _ => (1, 20)

/-- The bank time predicted for a curtain time (R323). -/
def ejPredict (p : EjPort) (c : Int) : Int :=
  match p.pairs with
  | [] => 0
  | (cm, bm) :: _ => bm + ejRound ((c - cm) * (ejRate p).1) (ejRate p).2

/-- The 16 bytes of a command in a FIRE frame. -/
def fireBytes (p : EjPort) (c : FireCmd) : List Byte :=
  bytesLE 2 c.id ++ bytesLE 4 (ejPredict p c.tOn % 2 ^ 32).toNat ++ bytesLE 2 c.width ++ bytesLE 8 c.mask.toNat

/-- TYPE of a device frame. -/
def ejType : EjFrame → Nat
  | .fire => 1 | .sync => 2 | .statusReq => 3 | .linkOpen => 4

/-- A device frame (R317). -/
def ejBytes (s : State) (n : Nat) (x : EjExch) : List Byte :=
  let pay := x.cmds.flatMap (fireBytes (s.ejp n))
  let body := [BitVec.ofNat 8 (ejType x.kind), BitVec.ofNat 8 x.seq, BitVec.ofNat 8 (s.rdf (Reg.EJ_PSTAT n) 15 8),
    BitVec.ofNat 8 pay.length] ++ pay
  0x55 :: body ++ bytesLE 2 (crc16 body)

/-- A frame is sent, first or again; a thermally disabled driver drives nothing (R71, R329). -/
def ejSend (s : State) (n : Nat) (x : EjExch) : State :=
  let x1 := { x with sent := s.ct }
  let s1 := (s.wrf (Reg.EJ_PSTAT n) 7 0 x.seq).modEjp n fun p => { p with exch := some x1 }
  if s1.rdb (Reg.EJ_PSTAT n) 29 then s1 else s1.emit (.ejFrame n (ejBytes s1 n x1))

/-- A new exchange starts under the next SEQ (R321). -/
def ejStart (s : State) (n : Nat) (k : EjFrame) (cmds : List FireCmd := []) : State :=
  let q := (s.ejp n).nextSeq
  ejSend (s.modEjp n fun p => { p with nextSeq := (q + 1) % 256 }) n { kind := k, seq := q, cmds := cmds, sent := s.ct }

/-- EJ_PnCFG.ADVANCE in ticks, clamped (R313). -/
def ejAdvance (s : State) (n : Nat) : Nat := 200 * min 4000 (max 200 (s.rdf (Reg.EJ_PCFG n) 11 0))

/-- A command lies less than 100 µs ahead: it is left out (R313). -/
def tooLate (s : State) (c : FireCmd) : Bool := decide (c.tOn < s.ct.toNat + 20000)

/-- The first command of the port's queue is due. -/
def fireIsDue (s : State) (n : Nat) : Bool :=
  match (s.ejp n).queue with
  | c :: _ => decide (c.tOn ≤ s.ct.toNat + ejAdvance s n)
  | [] => false

/-- An UP port with no exchange under way starts one; LINK_OPEN goes first where it is the next exchange (R322, R331). -/
def ejTurn (s : State) (n : Nat) (f : State → State) : State :=
  let p := s.ejp n
  if p.exch.isSome then s
  else if p.openNext then ejStart (s.modEjp n fun p => { p with openNext := false }) n .linkOpen
  else f s

/-- FIRE_DUE (R313): up to four due commands go out in one frame; those too close to T_ON are left out and counted. -/
def execFireDue (port : Fin 4) (s : State) : Host.Outcome State Fault Refusal :=
  .next <| whenLive s fun s =>
    let n := port.val
    if (s.ejp n).state ≠ .up then s
    else ejTurn s n fun s =>
      let q := (s.ejp n).queue
      let late := q.filter (tooLate s)
      let rest := q.filter fun c => !tooLate s c
      let due := rest.filter fun c => decide (c.tOn ≤ s.ct.toNat + ejAdvance s n)
      let s1 := (s.bump (Reg.EJ_PLATE n) 31 0 late.length).modEjp n fun p => { p with queue := (due.drop 4) ++ rest.drop due.length }
      if due.isEmpty then s1 else ejStart s1 n .fire (due.take 4)

/-- SYNC_DUE (R322, R327): a SYNC goes out unless a FIRE is due; in PROBING once a STATUS has answered. -/
def execSyncDue (port : Fin 4) (s : State) : Host.Outcome State Fault Refusal :=
  .next <| whenLive s fun s =>
    let n := port.val
    let p := s.ejp n
    if p.state = .up ∨ (p.state = .probing ∧ p.opened.isSome) then
      ejTurn s n fun s => if p.state = .up && fireIsDue s n then s else ejStart s n .sync
    else s

/-- STATUS_POLL (R322): 1 ms has passed with no exchange. -/
def execStatusPoll (port : Fin 4) (s : State) : Host.Outcome State Fault Refusal :=
  .next <| whenLive s fun s =>
    let n := port.val
    if (s.ejp n).state ≠ .up then s
    else ejTurn s n fun s => if fireIsDue s n then s else ejStart s n .statusReq

/-- LINK_OPEN_PROBE (R327, R331): PROBING sends LINK_OPEN every 100 ms; an UP port sends it where it is its next exchange. -/
def execLinkOpenProbe (port : Fin 4) (s : State) : Host.Outcome State Fault Refusal :=
  .next <| whenLive s fun s =>
    let n := port.val
    match (s.ejp n).state with
    | .probing => ejTurn s n fun s => ejStart s n .linkOpen
    | .up => if (s.ejp n).openNext then ejTurn s n id else s
    | _ => s

/-- PORT_REPROBE (R327): a DOWN port returns to PROBING after 1 s. -/
def execPortReprobe (port : Fin 4) (s : State) : Host.Outcome State Fault Refusal :=
  .next <| whenLive s fun s =>
    if (s.ejp port.val).state = .down then setEjState (s.modEjp port.val ejFresh) port.val .probing else s

/-! ## Failed exchanges (R320, R328) -/

/-- An exchange has failed with its retries spent. -/
def ejExhausted (s : State) (n : Nat) : State :=
  let fails := (s.ejp n).fails + 1
  let s1 := (ejUnknown s n).modEjp n fun p => { p with fails := fails, good := 0 }
  if 3 ≤ fails then ejDown s1 n Err.EJ_BANK_SILENT else s1

/-- An exchange has failed: the identical frame is resent while retries last; commands too close to T_ON are left out. -/
def ejFail (s : State) (n : Nat) : State :=
  match (s.ejp n).exch with
  | none => s
  | some x =>
    if x.tries < s.rdf (Reg.EJ_PCFG n) 26 24 then
      let late := x.cmds.filter (tooLate s)
      let keep := x.cmds.filter fun c => !tooLate s c
      let s1 := (s.bump (Reg.EJ_PLATE n) 31 0 late.length).modEjp n fun p => { p with exch := none, unknown := late ++ p.unknown }
      if x.kind = .fire ∧ keep = [] then s1
      else ejSend (s1.bump (Reg.EJ_PRETRY n) 31 0) n { x with cmds := keep, tries := x.tries + 1 }
    else ejExhausted s n

/-- EXCHANGE_TIMEOUT (R319, R320): no start bit within 12 µs. -/
def execExchangeTimeout (port : Fin 4) (s : State) : Host.Outcome State Fault Refusal :=
  .next <| whenLive s fun s => ejFail s port.val

/-- BANK_RESPONSE_DISCARDED (R318, R319): the response of the exchange is discarded, or it is a good frame of a wrong TYPE or
SEQ, which is a violation; either way the exchange has failed. -/
def execBankResponseDiscarded (port : Fin 4) (wrong : Bool) (s : State) : Host.Outcome State Fault Refusal :=
  .next <| whenLive s fun s =>
    if (s.ejp port.val).exch.isNone then s
    else ejFail (if wrong then ejViolation s port.val else s) port.val

/-- A good response to the exchange under way: of the right TYPE and SEQ it ends it; of another it is a violation. -/
def ejAnswer (s : State) (n seq : Nat) (kinds : List EjFrame) (f : State → EjExch → State) : State :=
  match (s.ejp n).exch with
  | none => s
  | some x =>
    if kinds.contains x.kind && x.seq == seq then f (s.modEjp n fun p => { p with exch := none, fails := 0 }) x
    else ejFail (ejViolation s n) n

/-! ## Confirmations (R325, R328) -/

/-- The outcome of a command is counted, by port and by class (R308, R325). -/
def ejOutcome (s : State) (n : Nat) (c : FireCmd) (fired : Bool) : State :=
  let s1 := s.bump (if fired then Reg.EJ_PFIRED n else Reg.EJ_PNOTFIRED n) 31 0
  match c.cls with
  | some k => if fired then s1.bump (Reg.EJ_CLASS k) 31 16 else s1.bump (Reg.EJ_CLASS k) 15 0
  | none => s1

/-- A confirmation of a command that awaits one. -/
def confKnown (s : State) (n : Nat) (c : FireCmd) (e : EjConf) : State :=
  let s1 := s.modEjp n fun p => { p with await := p.await.filter (·.id != c.id), unknown := p.unknown.filter (·.id != c.id) }
  let d := e.delta.toInt
  match e.code.toNat with
  | 0 =>
    if 20 < d.natAbs then ejViolation s1 n
    else (ejOutcome s1 n c true).modEjp n fun p => { p with faulty := p.faulty.filter fun v => !bitOf c.mask v }
  | 1 => ejOutcome s1 n c true
  | 4 =>
    let v := e.delta.toNat
    let s2 := ejOutcome s1 n c false
    if v ∈ (s2.ejp n).faulty then s2
    else raise (s2.modEjp n fun p => { p with faulty := v :: p.faulty }) Err.EJ_VALVE_FAULT ejSrc (BitVec.ofNat 64 (n * 256 + v))
  | _ => ejOutcome s1 n c false

/-- One confirmation entry: taken in order of CSEQ; one for no known command is a violation. -/
def confOne (s : State) (n : Nat) (e : EjConf) : State :=
  let p := s.ejp n
  let cack := s.rdf (Reg.EJ_PSTAT n) 15 8
  if p.cackKnown && e.cseq.toNat != (cack + 1) % 256 then s
  else
    let s1 := (s.wrf (Reg.EJ_PSTAT n) 15 8 e.cseq.toNat).modEjp n fun p => { p with cackKnown := true }
    match (p.await ++ p.unknown).find? fun c => c.id == e.id.toNat with
    | some c => confKnown s1 n c e
    | none => ejViolation s1 n

/-- The result of one command of a FIRE: RES ARMED or DUPLICATE awaits confirmation (R317, R328). -/
def fireResult (s : State) (n : Nat) (x : EjExch) (c : FireCmd) (res : Option Byte) : State :=
  match res with
  | none => (s.bump (Reg.EJ_PUNKNOWN n) 31 0).modEjp n fun p => { p with unknown := c :: p.unknown }
  | some r =>
    if r.toNat ≤ 1 then s.modEjp n fun p => { p with await := c :: p.await }
    else
      let s1 := ejOutcome s n c false
      if (r.toNat = 2 ∨ r.toNat = 3) ∧ x.sent.toNat + 20000 ≤ c.tOn ∧ c.tOn ≤ x.sent.toNat + ejAdvance s n then ejViolation s1 n else s1

/-- The results of the commands of a FIRE, in frame order. -/
def fireResults (n : Nat) (x : EjExch) : List FireCmd → List Byte → State → State
  | [], _, s => s
  | c :: cs, res, s => fireResults n x cs (res.drop 1) (fireResult s n x c res.head?)

/-- FIRE_ACK (R317, R325, R328): RES bytes and confirmation entries. -/
def execFireAck (port : Fin 4) (seq : Byte) (res : List Byte) (conf : List EjConf) (s : State) : Host.Outcome State Fault Refusal :=
  .next <| whenLive s fun s =>
    ejAnswer s port.val seq.toNat [.fire] fun s x =>
      let s1 := if res.length = x.cmds.length then s else ejViolation s port.val
      conf.foldl (fun t e => confOne t port.val e) (fireResults port.val x x.cmds res s1)

/-- STATUS_FRAME (R317, R325, R327): NVALVES, FLAGS and confirmation entries. -/
def execStatusFrame (port : Fin 4) (seq nvalves flags : Byte) (conf : List EjConf) (s : State) : Host.Outcome State Fault Refusal :=
  .next <| whenLive s fun s =>
    let n := port.val
    ejAnswer s n seq.toNat [.statusReq, .linkOpen] fun s x =>
      let s1 := if x.kind = .linkOpen ∧ (s.ejp n).state = .probing then
          s.modEjp n fun p => { p with opened := some nvalves.toNat }
        else s
      let s2 := if bitOf flags 1 && !(s1.ejp n).overflow then s1.bump (Reg.EJ_PCONFLOST n) 31 0 else s1
      conf.foldl (fun t e => confOne t n e) (s2.modEjp n fun p => { p with overflow := bitOf flags 1 })

/-- EJ_NOCONF (R325): a command has no confirmation by T_ON + WIDTH + 5 ms. -/
def execEjNoconf (port : Fin 4) (id : Half) (s : State) : Host.Outcome State Fault Refusal :=
  .next <| whenLive s fun s =>
    let n := port.val
    match (s.ejp n).await.find? fun c => c.id == id.toNat with
    | none => s
    | some c =>
      if s.ct.toNat < c.tOn + 200 * c.width + 1000000 then s
      else
        let s1 := (s.bump (Reg.EJ_PNOCONF n) 31 0).modEjp n fun p =>
          { p with await := p.await.filter (·.id != c.id), unknown := c :: p.unknown }
        raise s1 Err.EJ_NOCONF ejSrc (BitVec.ofNat 64 (n * 65536 + id.toNat))

/-! ## The bank clock (R323, R324) -/

/-- A rate outside 0.05 × (1 ± 300 × 10⁻⁶). -/
def rateBad (r : Int × Nat) : Bool := decide (300 * r.2 < 1000000 * (20 * r.1 - r.2).natAbs)

/-- A pair is accepted: the estimate is updated, and in PROBING the third in a row makes the port UP. -/
def pairAccept (s : State) (n cm : Nat) (bm : Int) : State :=
  let s1 := s.modEjp n fun p => { p with outliers := 0, pairs := (cm, bm) :: p.pairs.take 16, good := p.good + 1 }
  let r := ejRate (s1.ejp n)
  if rateBad r then ejDown s1 n Err.EJ_CLOCK
  else
    let s2 := (s1.wr (Reg.EJ_PCLK_BM n) (BitVec.ofInt 32 bm)).wr (Reg.EJ_PCLK_RATE n)
      (BitVec.ofNat 32 ((BitVec.ofInt 16 (ejRound ((20 * r.1 - r.2) * 100000000) r.2)).toNat))
    let p := s2.ejp n
    if p.state = .probing ∧ 3 ≤ p.good then ejUp s2 n (p.opened.getD 1) else s2

/-- SYNC_RSP (R323, R324, R327): T2 and T3 of the bank, T4 of the device. -/
def execSyncRsp (port : Fin 4) (seq : Byte) (t2 t3 : Word) (t4 : CTime) (s : State) : Host.Outcome State Fault Refusal :=
  .next <| whenLive s fun s =>
    let n := port.val
    ejAnswer s n seq.toNat [.sync] fun s x =>
      let d := (t3 - t2).toInt
      if d < 80 ∨ 180 < d then ejViolation (s.modEjp n fun p => { p with good := 0 }) n
      else
        let cm := (x.sent.toNat + t4.toNat) / 2
        let raw : Word := t2 + BitVec.ofInt 32 (d / 2)
        let p := s.ejp n
        let ref := ejPredict p cm
        let bm : Int := if p.pairs.isEmpty then raw.toNat else ref + (raw - BitVec.ofInt 32 ref).toInt
        if !p.pairs.isEmpty && decide (20 < (bm - ref).natAbs) then
          let s1 := s.modEjp n fun p => { p with outliers := p.outliers + 1, good := 0 }
          if 3 ≤ (s1.ejp n).outliers then ejDown s1 n Err.EJ_CLOCK else s1
        else pairAccept s n cm bm

/-! ## Drivers (R71, R329) -/

/-- EJ_DRIVER_HOT (R71, R329): the driver of a port is thermally disabled. -/
def execEjDriverHot (port : Fin 4) (s : State) : Host.Outcome State Fault Refusal :=
  .next <| whenLive s fun s =>
    if s.rdb (Reg.EJ_PSTAT port.val) 29 then s
    else raise (s.wrb (Reg.EJ_PSTAT port.val) 29 true) Err.EJ_DRIVER_HOT ejSrc (BitVec.ofNat 64 port.val)

/-- DRIVER_COOL (R71): the driver is enabled again. -/
def execDriverCool (port : Fin 4) (s : State) : Host.Outcome State Fault Refusal :=
  .next <| whenLive s fun s => s.wrb (Reg.EJ_PSTAT port.val) 29 false

end Sys2Proof.Machine
end

