-- ==== Sys2Proof/Machine/Ecc.lean ====
section
/-! DEFINITION. The elliptic curves of the public-key engine (R461, FIPS 186-5): P-256 and P-384, ECDSA and ECDH. -/

namespace Sys2Proof.Machine

/-- A short Weierstrass curve y² = x³ − 3x + b of prime order n. -/
structure Curve where
  p  : Nat
  b  : Nat
  n  : Nat
  gx : Nat
  gy : Nat
  /-- Bytes of a coordinate. -/
  len : Nat
  deriving DecidableEq, Repr

def p256 : Curve :=
  { p := 0xFFFFFFFF00000001000000000000000000000000FFFFFFFFFFFFFFFFFFFFFFFF,
    b := 0x5AC635D8AA3A93E7B3EBBD55769886BC651D06B0CC53B0F63BCE3C3E27D2604B,
    n := 0xFFFFFFFF00000000FFFFFFFFFFFFFFFFBCE6FAADA7179E84F3B9CAC2FC632551,
    gx := 0x6B17D1F2E12C4247F8BCE6E563A440F277037D812DEB33A0F4A13945D898C296,
    gy := 0x4FE342E2FE1A7F9B8EE7EB4A7C0F9E162BCE33576B315ECECBB6406837BF51F5, len := 32 }

def p384 : Curve :=
  { p := 0xFFFFFFFFFFFFFFFFFFFFFFFFFFFFFFFFFFFFFFFFFFFFFFFFFFFFFFFFFFFFFFFEFFFFFFFF0000000000000000FFFFFFFF,
    b := 0xB3312FA7E23EE7E4988E056BE3F82D19181D9C6EFE8141120314088F5013875AC656398D8A2ED19D2A85C8EDD3EC2AEF,
    n := 0xFFFFFFFFFFFFFFFFFFFFFFFFFFFFFFFFFFFFFFFFFFFFFFFFC7634D81F4372DDF581A0DB248B0A77AECEC196ACCC52973,
    gx := 0xAA87CA22BE8B05378EB1C71EF320AD746E1D3B628BA79B9859F741E082542A385502F25DBF55296C3A545E3872760AB7,
    gy := 0x3617DE4A96262C6F5D9E98BF9292DC29F8F41DBD289A147CE9DA3113B5F0B8C00A60B1CE1D7E819D7A431D7C90EA0E5F,
    len := 48 }

/-- b^e modulo m over the low k bits of e. -/
def powModBits (m : Nat) : Nat → Nat → Nat → Nat
  | 0, _, _ => 1 % m
  | k + 1, b, e =>
    let r := powModBits m k (b * b % m) (e / 2)
    if e % 2 = 1 then b * r % m else r

/-- The inverse modulo a prime below 2^384. -/
def invMod (a m : Nat) : Nat := powModBits m 384 (a % m) (m - 2)

/-- a − b modulo m, for a and b below m. -/
def subMod (m a b : Nat) : Nat := (a + m - b % m) % m

/-- A point; none is the point at infinity. -/
abbrev EcPoint := Option (Nat × Nat)

/-- The third point of a line of slope l through (x1, y1) and a point with abscissa x2, mirrored. -/
def ecChord (c : Curve) (l x1 y1 x2 : Nat) : EcPoint :=
  let x := subMod c.p (subMod c.p (l * l % c.p) x1) x2
  some (x, subMod c.p (l * subMod c.p x1 x % c.p) y1)

def ecAdd (c : Curve) (a b : EcPoint) : EcPoint :=
  match a, b with
  | none, q => q
  | q, none => q
  | some (x1, y1), some (x2, y2) =>
    if x1 = x2 then
      if y1 = y2 ∧ y1 ≠ 0 then
        ecChord c (subMod c.p (3 * x1 * x1 % c.p) 3 * invMod (2 * y1) c.p % c.p) x1 y1 x2
      else none
    else ecChord c (subMod c.p y2 y1 * invMod (subMod c.p x2 x1) c.p % c.p) x1 y1 x2

/-- A scalar multiple over the low k bits of e. -/
def ecMulBits (c : Curve) : Nat → Nat → EcPoint → EcPoint
  | 0, _, _ => none
  | k + 1, e, q =>
    let r := ecMulBits c k (e / 2) (ecAdd c q q)
    if e % 2 = 1 then ecAdd c q r else r

def ecMul (c : Curve) (e : Nat) (q : EcPoint) : EcPoint := ecMulBits c (8 * c.len) e q

/-- The base point. -/
def ecBase (c : Curve) : EcPoint := some (c.gx, c.gy)

/-- A public key is valid: coordinates below p, on the curve (R463). -/
def ecValid (c : Curve) (x y : Nat) : Bool :=
  decide (x < c.p) && decide (y < c.p) && (y * y % c.p == (subMod c.p (x * x % c.p * x % c.p) (3 * x % c.p) + c.b) % c.p)

/-- A point as bytes x ‖ y (R447). -/
def ecBytes (c : Curve) (q : EcPoint) : List Byte :=
  match q with
  | some (x, y) => bytesBE c.len x ++ bytesBE c.len y
  | none => List.replicate (2 * c.len) 0

/-- A point from bytes x ‖ y. -/
def ecPoint (c : Curve) (l : List Byte) : Nat × Nat := (natBE (slice l 0 c.len), natBE (slice l c.len c.len))

/-- The hash as a number: its leftmost curve-size bits (R461). -/
def ecHash (c : Curve) (h : List Byte) : Nat := natBE (h.take c.len)

/-- An ECDSA signature with the secret number k; none where r or s is 0. -/
def ecdsaSign (c : Curve) (d k : Nat) (h : List Byte) : Option (Nat × Nat) :=
  match ecMul c k (ecBase c) with
  | none => none
  | some (x, _) =>
    let r := x % c.n
    let s := invMod k c.n * (ecHash c h + r * d) % c.n
    if r = 0 ∨ s = 0 then none else some (r, s)

/-- Whether an ECDSA signature verifies under a valid public key (R466). -/
def ecdsaVerify (c : Curve) (q : Nat × Nat) (h : List Byte) (r s : Nat) : Bool :=
  if r = 0 ∨ c.n ≤ r ∨ s = 0 ∨ c.n ≤ s then false
  else
    let w := invMod s c.n
    match ecAdd c (ecMul c (ecHash c h * w % c.n) (ecBase c)) (ecMul c (r * w % c.n) (some q)) with
    | none => false
    | some (x, _) => x % c.n == r

/-- A signature r ‖ s over a hash under a public key x ‖ y, both in bytes: valid key and valid signature. -/
def ecdsaCheck (c : Curve) (key h sig : List Byte) : Bool :=
  let q := ecPoint c key
  ecValid c q.1 q.2 && ecdsaVerify c q h (natBE (slice sig 0 c.len)) (natBE (slice sig c.len c.len))

end Sys2Proof.Machine
end

