-- ==== Sys2Proof/Machine/KeyStore.lean ====
section
/-! DEFINITION. The key store (R421–R433): slots and the checks on their use, destruction, session-key registers, the root
secret's derivations and the records of the keys store. -/

namespace Sys2Proof.Machine

/-- The source block of a Pavane block's errors: PAV_, KEY_, DIG_, CIP_, PKA_, ACS_ in order. -/
def pavSrc (k : Nat) : Byte := BitVec.ofNat 8 (0x80 + k)

/-! ## Slots -/

/-- A key slot. -/
def State.slot (s : State) (n : Nat) : KeySlot := sget (fun _ => {}) s.key.slots n

/-- Sets a key slot. -/
def State.putSlot (s : State) (n : Nat) (k : KeySlot) : State := s.modKey fun x => { x with slots := sset (fun _ => {}) x.slots n k }

def KeySlot.valid (k : KeySlot) : Bool := bitOf k.attr 31
def KeySlot.kind (k : KeySlot) : Nat := fld k.attr 19 16
def KeySlot.parent (k : KeySlot) : Nat := fld k.attr 8 0

/-- The tag of a slot (R427). -/
def slotTag (tagKey : List Byte) (n : Nat) (attr : Word) (key : List Byte) : List Byte :=
  (cmac tagKey (key ++ bytesLE 4 attr.toNat ++ bytesLE 2 n)).take 8

/-- The attribute word of a slot that is filled: VALID, ORIGIN and PARENT replace those given (R449). -/
def slotAttr (attr : Word) (origin : Bool) (parent : Nat) : Word :=
  setFld (setFld (setFld attr 31 31 1) 28 28 (b2n origin)) 8 0 parent

/-- Fills a slot and computes its tag. -/
def fillKey (s : State) (n : Nat) (attr : Word) (origin : Bool) (parent : Nat) (key : List Byte) : State :=
  let a := slotAttr attr origin parent
  s.putSlot n { attr := a, key := key, tag := slotTag s.key.tagKey n a key }

/-- One more generation of the slots whose PARENT is among `l`. -/
def chainStep (s : State) (l : List Nat) : List Nat :=
  s.key.slots.foldl (fun a e => if bitOf e.2.attr 31 && l.contains e.2.parent then nsAdd a e.1 else a) l

/-- The slots whose PARENT chain leads to one of `l`, through n generations. -/
def slotChain (s : State) : Nat → List Nat → List Nat
  | 0, l => l
  | n + 1, l => slotChain s n (chainStep s l)

/-- Invalidates a slot and its whole derivation chain, and overwrites their material (R430). -/
def invalidateKey (s : State) (n : Nat) : State :=
  (slotChain s 320 [n]).foldl (fun t k => t.putSlot k { attr := setFld (t.slot k).attr 31 31 0, key := [], tag := [] }) s

/-- The life-cycle state in force lies in a slot's LC (R425). -/
def slotLcOk (s : State) (k : KeySlot) : Bool := decide (s.lc < 3) && bitOf k.attr (24 + s.lc)

/-- The checks on every use of a slot, in the order of R426: `kinds` are the TYPEs that fit, `uses` the USE bits of which one
must be set (none asked where empty), `master` the bit of MASTERS. -/
def useSlot (s : State) (n : Nat) (kinds uses : List Nat) (master : Nat) (secure : Bool) : Half × State :=
  let k := s.slot n
  if !k.valid then (Err.KEY_SLOT_INVALID, s)
  else if slotTag s.key.tagKey n k.attr k.key ≠ k.tag then
    (Err.KEY_TAG_FAIL, invalidateKey (raise s Err.KEY_TAG_FAIL (pavSrc 1) (BitVec.ofNat 64 n)) n)
  else if !(kinds.contains k.kind) || !(uses.isEmpty || uses.any (bitOf k.attr ·)) then (Err.KEY_USE_DENIED, s)
  else if !bitOf k.attr master then (Err.KEY_USE_DENIED, s)
  else if bitOf k.attr 23 && !secure then (Err.KEY_USE_DENIED, s)
  else if !slotLcOk s k then (Err.KEY_USE_DENIED, s)
  else (0, s)

/-- Every slot, session-key register and engine state is zeroed (R414, R424). -/
def zeroKeys (s : State) : State :=
  let s1 := s.modKey fun k => { maskDraw := k.maskDraw, tagKey := k.tagKey }
  let s2 := s1.modEng fun e => { gen := e.gen }
  let s3 := (List.range 16).foldl (fun t i => t.wr (Reg.DIG_RESULT i) 0) s2
  [Reg.DIG_STAT, Reg.CIP_STAT, Reg.PKA_STAT].foldl (fun t a => t.wr a 0) (s3.wrf Reg.KEY_STAT 2 0 0)

/-! ## Commands of the KEY_ block (R428–R430, R441) -/

/-- A clear write (R428): the result code and the state. -/
def clearWrite (s : State) (n : Nat) : Half × State :=
  let a := s.rd Reg.KEY_CLR_ATTR
  let kind := fld a 19 16
  if (s.slot n).valid then (Err.KEY_SLOT_BUSY, raise s Err.KEY_SLOT_BUSY (pavSrc 1) (BitVec.ofNat 64 n))
  else if kind ≠ 7 ∧ kind ≠ 8 ∧ 2 ≤ s.lc then
    (Err.KEY_CLEAR_REFUSED, raise s Err.KEY_CLEAR_REFUSED (pavSrc 1) (BitVec.ofNat 64 n))
  else
    let len := max 1 (min 64 (s.rdf Reg.KEY_CLR_LEN 6 0))
    let key := ((List.range 16).flatMap fun i => bytesLE 4 (s.rd (Reg.KEY_CLR_DATA i)).toNat).take len
    let a1 := setFld (setFld (setFld a 12 11 0) 15 15 0) 29 29 0
    (0, fillKey s n a1 true (fld a 8 0) key)

/-- The words of KEY_CLR_DATA are zero after each command. -/
def wipeClearData (s : State) : State := (List.range 16).foldl (fun u i => u.wr (Reg.KEY_CLR_DATA i) 0) s

/-- Sets one of the session-key registers: 0 A, 1 B, 2 HOST. -/
def setSess (s : State) (r : Nat) (key : List Byte) : State :=
  let s1 := s.modKey fun k =>
    match r with
    | 0 => { k with sessA := key }
    | 1 => { k with sessB := key }
    | _ => { k with sessHost := key }
  s1.wrb Reg.KEY_STAT (min r 2) (!key.isEmpty)

/-- Loads a session-key register from a slot, which is then invalidated (R441). -/
def loadSess (s : State) (r n : Nat) : Half × State :=
  let (c, s1) := useSlot s n [3] [] (if r = 2 then 22 else 21) true
  if c = 0 then (0, invalidateKey (setSess s1 r (s1.slot n).key) n) else (c, s1)

/-- The effect of a value written to KEY_CMD. -/
def keyCmdEffect (s : State) (v : Word) : State :=
  let n := fld v 8 0
  let r := fld v 17 16
  let (c, s1) : Half × State :=
    if 320 ≤ n then (Err.KEY_SLOT_INVALID, s)
    else match fld v 31 28 with
      | 1 => clearWrite s n
      | 2 => (0, invalidateKey s n)
      | 3 => if r < 3 then loadSess s r n else (Err.KEY_USE_DENIED, s)
      | 4 => if r < 3 then (0, setSess s r []) else (Err.KEY_USE_DENIED, s)
      | _ => (0, s)
  (if 1 ≤ fld v 31 28 ∧ fld v 31 28 ≤ 4 then wipeClearData s1 else s1).wr Reg.KEY_CMD_STAT (c.zeroExtend 32)

/-- CLEAR_WRITE (R428). -/
def execClearWrite (m : Master) (slot : BitVec 9) (s : State) : Host.Outcome State Fault Refusal :=
  writeRow m Reg.KEY_CMD (BitVec.ofNat 32 (0x10000000 + slot.toNat)) keyCmdEffect s

/-- INVALIDATE (R430). -/
def execInvalidate (m : Master) (slot : BitVec 9) (s : State) : Host.Outcome State Fault Refusal :=
  writeRow m Reg.KEY_CMD (BitVec.ofNat 32 (0x20000000 + slot.toNat)) keyCmdEffect s

/-- LOAD_SESS (R441). -/
def execLoadSess (m : Master) (reg : Fin 3) (slot : BitVec 9) (s : State) : Host.Outcome State Fault Refusal :=
  writeRow m Reg.KEY_CMD (BitVec.ofNat 32 (0x30000000 + reg.val * 2 ^ 16 + slot.toNat)) keyCmdEffect s

/-- ZERO_SESS (R441). -/
def execZeroSess (m : Master) (reg : Fin 3) (s : State) : Host.Outcome State Fault Refusal :=
  writeRow m Reg.KEY_CMD (BitVec.ofNat 32 (0x40000000 + reg.val * 2 ^ 16)) keyCmdEffect s

/-- The attribute word of the selected slot, as KEY_SLOT_ATTR reads it. -/
def slotAttrView (s : State) : Word := (s.slot (s.rdf Reg.KEY_SLOT_IDX 8 0)).attr

/-- The public material that KEY_PUBi reads (R424). -/
def keyPubView (s : State) (i : Nat) : Word :=
  let k := s.slot (s.rdf Reg.KEY_SLOT_IDX 8 0)
  if k.valid && (k.kind == 7 || k.kind == 8) then wordLE (slice k.key (4 * i) 4) else 0

/-- The generator is ready (R417). -/
def rngReady (s : State) : Bool := s.rdf Reg.PAV_RNG_STAT 1 0 == 1

/-- KEY_REMASK (R429): fresh masks for every slot, or the masks are kept and 0xA031 is raised once. -/
def execKeyRemask (s : State) : Host.Outcome State Fault Refusal :=
  .next <| whenLive s fun s =>
    if rngReady s then (s.modKey fun k => { k with maskDraw := s.free }).modFree (· + 20480) |>.wrb Reg.KEY_STAT 4 false
    else if s.rdb Reg.KEY_STAT 4 then s
    else raise (s.wrb Reg.KEY_STAT 4 true) Err.KEY_REMASK_STALL (pavSrc 1)

/-! ## The root secret (R421, R423) -/

/-- n bytes of the root secret. -/
def rootBytes : Nat → Nat → List Byte
  | _, 0 => []
  | i, n + 1 => Config.rootByte i :: rootBytes (i + 1) n

def rootSecret : List Byte := rootBytes 0 32

/-- A label in ASCII. -/
def ascii (l : List Nat) : List Byte := l.map (BitVec.ofNat 8)

/-- The keys that ROM derives from the root secret: SK and the tag key, with an empty context (log 23). -/
def storageKey : List Byte := hmac .sha256 rootSecret (ascii [0x53, 0x54, 0x4F, 0x52] ++ [0])
def tagKey : List Byte := hmac .sha256 rootSecret (ascii [0x54, 0x41, 0x47, 0x4B] ++ [0])

/-- The device record's sector (R432); the places of its parts are the model's (log 23). -/
def deviceRecord : Nat := sectorAddr 1746
/-- The owner verifying key, its CMAC and the owner commit word. -/
def ownerKeyAt : Nat := deviceRecord + 0x40
def ownerMacAt : Nat := deviceRecord + 0x80
def ownerCommitAt : Nat := deviceRecord + 0x90

/-- SK is in slot 1. -/
def haveStorageKey (s : State) : Bool := (s.slot 1).valid

/-- The group key, where its record unwraps under SK. -/
def groupKeyRecord (s : State) : Option (List Byte) :=
  match mramBytes s deviceRecord 40 with
  | some w => keyUnwrap storageKey w
  | none => none

/-- The attribute words of slots 0 to 3 (log 23): secure, for EN, in MANUFACTURE to OWNED. -/
def rootAttr (kind uses : Nat) : Word := BitVec.ofNat 32 (0x07900000 + kind * 2 ^ 16 + uses)

/-- ROM fills slots 0 to 3 and the tag key's register after a verified regeneration (R423). -/
def installRoot (s : State) : State :=
  let s0 := s.modKey fun k => { k with tagKey := tagKey }
  let s1 := fillKey s0 0 (rootAttr 9 0x8000) false 0x1FF rootSecret
  let s2 := fillKey s1 1 (rootAttr 3 0x7E00) false 0 storageKey
  match groupKeyRecord s with
  | none => s2
  | some gk =>
    let s3 := fillKey s2 2 (rootAttr 4 0xE000) false 1 gk
    fillKey s3 3 (rootAttr 3 0x1E00) false 2 (hmac .sha256 gk (ascii [0x47, 0x54, 0x4B] ++ [0]))

/-- The device can take part in a membership exchange: GK is in slot 2 (R422, R438). -/
def haveGroupKey (s : State) : Bool := (s.slot 2).valid
def groupKey (s : State) : List Byte := (s.slot 2).key

/-! ## Records of the keys store (R433, R436) -/

/-- The address of a tenant record. -/
def tenantRecord (t : Nat) : Nat := 0x206F0000 + t * 0x200

/-- The COMMIT word of a tenant record: its SEQ where committed. -/
def tenantSeq (s : State) (t : Nat) : Option Nat :=
  match mramWord s (tenantRecord t) with
  | some w => if w / 2 ^ 32 = 0x54454E54 then some (w % 2 ^ 32) else none
  | none => none

/-- The key of an entry of ROLE r in a tenant record: unwrapped under SK, or in clear with its CMAC verified. -/
def entryKey (e : List Byte) : Option (List Byte) :=
  let len := numAt e 2 2
  let blob := e.drop 8
  if numAt e 0 1 = 2 then
    if cmac storageKey (slice blob 0 len) = slice blob len 16 then some (slice blob 0 len) else none
  else (keyUnwrap storageKey (slice blob 0 (len + 8))).map fun k => k.take len

/-- The key of a role in tenant t's record; none where the record or the key is absent. -/
def tenantKey (s : State) (t role : Nat) : Option (List Byte) :=
  if !haveStorageKey s then none
  else match tenantSeq s t, mramBytes s (tenantRecord t) 0x118 with
    | some _, some r =>
      let n := numAt r 8 1
      match (List.range (min n 3)).find? fun i => numAt r (0x10 + 88 * i) 1 == role with
      | some i => entryKey (slice r (0x10 + 88 * i) 88)
      | none => none
    | _, _ => none

/-- The owner verifying key, where it is committed and its CMAC verifies. -/
def ownerKey (s : State) : Option (List Byte) :=
  match mramBytes s deviceRecord 0x98 with
  | some r =>
    if haveStorageKey s && numAt r 0x90 8 != 0 && decide (cmac storageKey (slice r 0x40 64) = slice r 0x80 16) then
      some (slice r 0x40 64)
    else none
  | none => none

/-- An entry of a tenant record for a role, type and key (R433). -/
def makeEntry (role kind : Nat) (key : List Byte) : List Byte :=
  let blob := if role = 2 then key ++ cmac storageKey key
    else keyWrap storageKey (key ++ List.replicate ((8 - key.length % 8) % 8) 0)
  slice (bytesLE 1 role ++ bytesLE 1 kind ++ bytesLE 2 key.length ++ bytesLE 4 0 ++ blob) 0 88

/-- The slots of a tenant's keys are invalidated, so that the next use loads them again (R436). -/
def dropTenantSlots (s : State) (t : Nat) : State :=
  match s.key.tenants.find? fun e => e.1 == t with
  | none => s
  | some (_, (a, b)) =>
    (invalidateKey (invalidateKey s a) b).modKey fun k => { k with tenants := k.tenants.filter fun e => e.1 != t }

/-- The lowest general slot that is free: 4 to 191 hold no session key on any device (log 24). -/
def freeSlot (s : State) : Option Nat := (List.range 188).map (· + 4) |>.find? fun n => !(s.slot n).valid

/-- Puts a tenant's CHOREO_KEY and CHOREO_VK into slots (R256, R442). A key unwrapped from the tenant record, with PARENT 1, has
EXPORT set: the manager wraps it out under session keys. A worker's has EXPORT 0. -/
def installTenant (s : State) (t : Nat) (ck vk : List Byte) (parent : Nat) : Option State :=
  let s0 := dropTenantSlots s t
  match freeSlot s0 with
  | none => none
  | some a =>
    let s1 := fillKey s0 a (if parent = 1 then 0x67931000 else 0x47931000) false parent ck
    match freeSlot s1 with
    | none => none
    | some b =>
      let s2 := fillKey s1 b 0x47974000 false 0x1FF vk
      some (s2.modKey fun k => { k with tenants := sset (fun _ => (0, 0)) k.tenants t (a, b) })

/-- The tenant keys that the enclave holds for a choreography: from slots, or on the manager from the tenant record. -/
def tenantKeys (s : State) (t : Nat) : Option (List Byte × List Byte) :=
  match s.key.tenants.find? fun e => e.1 == t with
  | some (_, (a, b)) =>
    if (s.slot a).valid && (s.slot b).valid then some ((s.slot a).key, (s.slot b).key) else none
  | none =>
    match tenantKey s t 1, tenantKey s t 2 with
    | some ck, some vk => some (ck, vk)
    | _, _ => none

end Sys2Proof.Machine
end

