-- ==== Sys2Proof/Machine/Link.lean ====
section
/-! DEFINITION. The Farandole link layer (R333–R351): training, frames, reliable transfer on one link, forwarding and protected
traffic. -/

namespace Sys2Proof.Machine

/-- FRL_ in the peripheral slots. -/
def frlSrc : Byte := 0x10

/-! ## Ports (R335, R336) -/

/-- A port: 0 for A, 1 for B. -/
def State.frl (s : State) (p : Nat) : FrlPort := if h : p < 2 then s.ring.ports[p] else {}

/-- Changes a port. -/
def State.modFrl (s : State) (p : Nat) (f : FrlPort → FrlPort) : State :=
  s.modRing fun r => { r with ports := if h : p < 2 then r.ports.set p (f r.ports[p]) else r.ports }

/-- The state of a port in FRL_STAT: 0 DOWN, 1 TRAINING, 2 UP, 3 MISCABLED. -/
def frlState (s : State) (p : Nat) : Nat := s.rdf Reg.FRL_STAT (8 * p + 1) (8 * p)

/-- A port changes state: line 25 (R542). -/
def setFrlState (s : State) (p st : Nat) : State := (s.wrf Reg.FRL_STAT (8 * p + 1) (8 * p) st).wrb Reg.ERR_EVT 9 true

def frlUp (s : State) (p : Nat) : Bool := frlState s p == 2

/-- The crossing queue of a port's received frames. -/
def frlQueue (p : Nat) : Fin 24 := if p = 0 then 1 else 2

/-- The letter in a port's TRAIN groups (R334). -/
def frlLetter (p : Nat) : Byte := BitVec.ofNat 8 (p + 1)

/-! ## Frames on the wire (R337) -/

/-- CRC-32 of IEEE 802.3: eight steps of one byte. -/
def crc32Bits : Nat → Word → Word
  | 0, c => c
  | n + 1, c => crc32Bits n (if c.getLsbD 0 then (c >>> 1) ^^^ 0xEDB88320 else c >>> 1)

/-- CRC-32 of IEEE 802.3. -/
def crc32 (l : List Byte) : Word :=
  ~~~(l.foldl (fun c b => crc32Bits 8 (c ^^^ (b.truncate 32))) 0xFFFFFFFF)

/-- The 16-byte header of a frame under an LSEQ. -/
def frlHeader (f : Frame) (lseq : Nat) : List Byte :=
  let h := [BitVec.ofNat 8 f.typ, f.flags, BitVec.ofNat 8 f.src, BitVec.ofNat 8 f.dst] ++ bytesLE 2 (lseq % 4096) ++
    [BitVec.ofNat 8 f.hops, 0] ++ bytesLE 2 f.payload.length ++ bytesLE 4 f.txn.toNat
  h ++ bytesLE 2 (crc16 h)

/-- Whether a header's HCRC holds. -/
def hcrcOk (h : List Byte) : Bool := h.length == 16 && numAt h 14 2 == crc16 (h.take 14)

/-- The frame that a header begins. -/
def frlParse (h : List Byte) : Frame :=
  { typ := numAt h 0 1, flags := h.getD 1 0, src := numAt h 2 1, dst := numAt h 3 1, hops := numAt h 6 1,
    txn := BitVec.ofNat 32 (numAt h 10 4) }

/-- FLAGS of a frame (R337). -/
def Frame.prot (f : Frame) : Bool := bitOf f.flags 7
def Frame.bcast (f : Frame) : Bool := bitOf f.flags 6
def Frame.toEn (f : Frame) : Bool := bitOf f.flags 5
def Frame.rsp (f : Frame) : Bool := bitOf f.flags 4
def Frame.path (f : Frame) : Nat := b2n (bitOf f.flags 3)

/-- A FLAGS byte. -/
def frlFlags (prot bcast toEn rsp : Bool) (path : Nat) : Byte :=
  BitVec.ofNat 8 (128 * b2n prot + 64 * b2n bcast + 32 * b2n toEn + 16 * b2n rsp + 8 * path)

/-- Payload and FCS under a header. -/
def frlTailBytes (h payload : List Byte) : List Byte := payload ++ bytesLE 4 (crc32 (h ++ payload)).toNat

/-- A whole frame leaves a port. -/
def emitFrame (s : State) (p lseq : Nat) (f : Frame) : State :=
  let h := frlHeader f lseq
  (s.emit (.frlHead p h)).emit (.frlTail p (frlTailBytes h f.payload) true)

/-! ## Stamps (R364) -/

/-- The stamp of this moment: curtain ticks [47:0] and a fraction of a tick, which only the moment of transmission fixes. -/
def drawStamp (s : State) : DWord × State :=
  let (n, s1) := s.drawNat
  (BitVec.ofNat 64 (s.ct.toNat % 2 ^ 48 * 65536 + n % 65536), s1)

/-- Replaces the 8 bytes at an offset. -/
def putDword (l : List Byte) (off : Nat) (v : DWord) : List Byte := l.take off ++ bytesLE 8 v.toNat ++ l.drop (off + 8)

/-- The 8 bytes at an offset as a number of 64 bits. -/
def dwordIn (l : List Byte) (off : Nat) : DWord := BitVec.ofNat 64 (numAt l off 8)

/-- Fills in what a frame carries of its egress stamp. -/
def applyFix (stamp : DWord) (l : List Byte) : Fix → List Byte
  | .stamp off => putDword l off stamp
  | .add off v => putDword l off (dwordIn l off + stamp + v)

/-! ## Sending (R340, R348) -/

/-- A port can start a new frame: it is UP, its window has room, no BUSY wait runs and no other frame is being sent. -/
def frlReady (s : State) (p : Nat) : Bool :=
  let q := s.frl p
  frlUp s p && decide (q.unacked.length < 64) && !q.backoff && !q.cutting

/-- A new frame leaves a port and enters its replay buffer under the next LSEQ. -/
def emitNew (s : State) (p : Nat) (q : QFrame) : State :=
  let (stamp, s1) := if q.fix.isEmpty then (0, s) else drawStamp s
  let f := { q.frame with payload := q.fix.foldl (applyFix stamp) q.frame.payload }
  let seq := (s1.frl p).txSeq
  (emitFrame s1 p seq f).modFrl p fun x => { x with txSeq := (seq + 1) % 4096, unacked := x.unacked ++ [(seq, f)] }

/-- The next frame to send in the order of R348, and the port without it. -/
def frlNext (q : FrlPort) : Option (QFrame × FrlPort) :=
  match q.prio, q.fwd, q.loc with
  | x :: r, _, _ => some (x, { q with prio := r })
  | [], x :: r, l :: lr =>
    if 16 ≤ q.run then some (l, { q with loc := lr, run := 0 }) else some (x, { q with fwd := r, run := q.run + 1 })
  | [], x :: r, [] => some (x, { q with fwd := r, run := 0 })
  | [], [], l :: lr => some (l, { q with loc := lr, run := 0 })
  | [], [], [] => none

/-- Sends what waits while the port can send. -/
def frlPump (p : Nat) : Nat → State → State
  | 0, s => s
  | n + 1, s =>
    if frlReady s p then
      match frlNext (s.frl p) with
      | some (x, q) => frlPump p n (emitNew (s.modFrl p fun _ => q) p x)
      | none => s
    else s

/-- Sends what waits, at most a window of frames. -/
def pumpPort (s : State) (p : Nat) : State := frlPump p 64 s

/-- Classes of R348. -/
inductive FrlClass where
  | prio | fwd | loc
  deriving DecidableEq, Repr

/-- Hands a frame to an output port; a port that is not UP discards it. -/
def sendOn (s : State) (p : Nat) (c : FrlClass) (f : Frame) (fix : List Fix := []) : State :=
  if frlUp s p then
    let q : QFrame := { frame := f, fix := fix }
    pumpPort (s.modFrl p fun x => match c with
      | .prio => { x with prio := x.prio ++ [q] }
      | .fwd => { x with fwd := x.fwd ++ [q] }
      | .loc => { x with loc := x.loc ++ [q] }) p
  else s

/-- An ACK or NAK carrying EXP leaves a port (R334, R343). -/
def emitAck (s : State) (p : Nat) (nak busy : Bool) : State :=
  let e := (s.frl p).exp
  let s0 : Byte := BitVec.ofNat 8 e
  let s1 : Byte := BitVec.ofNat 8 (e / 256 + 128 * b2n busy)
  s.emit (.frlAck p nak s0 s1 (s0 ^^^ s1 ^^^ 0xA5))

/-- An ACK, which answers every good frame so far. -/
def sendAck (s : State) (p : Nat) : State := (emitAck s p false false).modFrl p fun q => { q with good := 0 }

/-- The NAK of R341's third case: once for each EXP. -/
def sendNak (s : State) (p : Nat) : State :=
  if (s.frl p).nakSent then s
  else ((emitAck s p true false).bump (Reg.FRL_PNAK p) 31 0).modFrl p fun q => { q with nakSent := true }

/-! ## Ports going up and down -/

/-- The other port. -/
def otherPort (p : Nat) : Nat := 1 - p

/-- The frame that an input port is passing to the other port is ended there with ABORT (R347). -/
def abortCut (s : State) (p : Nat) : State :=
  match (s.frl p).rx with
  | some r =>
    if r.cut then
      pumpPort ((s.emit (.frlTail (otherPort p) [] false)).modFrl (otherPort p) fun q => { q with cutting := false }) (otherPort p)
    else s
  | none => s

/-- The ring is open: 0x7010 once, and enumeration on both ports is due (R361). -/
def ringOpen (s : State) : State :=
  if s.isManager && s.ring.closed then
    (if s.ring.openErr then s else raise s Err.FRL_RING_OPEN frlSrc 0).modRing fun r =>
      { r with closed := false, openErr := true, due := true }
  else s

/-- An UP port goes DOWN (R336): its buffers are discarded, it retrains from the start, and LINK_DOWN is reported. -/
def portDown (s : State) (p : Nat) : State :=
  let s1 := (abortCut s p).modFrl p fun q => { rx := none, delays := q.delays }
  -- a frame that the other input is passing to this port is discarded
  let s2 := s1.modFrl (otherPort p) fun q => { q with rx := q.rx.map fun r => { r with cut := false, forward := false } }
  let s3 := (queueEmpty (setFrlState s2 p 0) (frlQueue p)).bump (Reg.FRL_PDOWN p) 31 0
  let s4 := if s3.position ≠ 0xFF then raise s3 Err.FRL_LINK_DOWN frlSrc (BitVec.ofNat 64 p) else s3
  ringOpen s4

/-- A port enters UP: both directions restart with LSEQ 0 and an empty replay buffer (R340); enumeration becomes due on the
manager, and a worker reports it (R362). -/
def portUp (s : State) (p : Nat) : State :=
  let s1 := setFrlState (s.modFrl p fun q => { delays := q.delays }) p 2
  s1.modRing fun r =>
    { r with due := r.due || s1.isManager
             notes := if s1.isManager || s1.position == 0xFF then r.notes else r.notes ++ [[0x02, 0x0E, 0, 0, BitVec.ofNat 8 p, 0, 0, 0]] }

/-- LINK_SIGNAL: the receiver of a DOWN port locks to a signal (R335). -/
def execLinkSignal (p : Fin 2) (s : State) : Host.Outcome State Fault Refusal :=
  .next (whenLive s fun s =>
    if frlState s p == 0 && s.rdb Reg.FRL_CTRL p then
      (setFrlState s p 1).emit (.frlTrain p (frlLetter p) 0)
    else s)

/-- SIGNAL_LOST: a TRAINING or MISCABLED port whose receiver loses the signal returns to DOWN (R335, R336). -/
def execSignalLost (p : Fin 2) (s : State) : Host.Outcome State Fault Refusal :=
  .next (whenLive s fun s =>
    if frlState s p == 1 || frlState s p == 3 then
      ((setFrlState s p 0).bump (Reg.FRL_PDOWN p) 31 0).modFrl p fun q => { delays := q.delays }
    else s)

/-- A TRAIN group of a TRAINING port's neighbour: STATE advances, and the port is UP after 16 ready groups each way (R335). -/
def trainStep (s : State) (p : Nat) (state : Byte) : State :=
  let q := s.frl p
  let t := if 1 ≤ state.toNat then 2 else max q.train 1
  let sent := if t = 2 then q.sent + 1 else q.sent
  let got := if state = 2 then q.got + 1 else q.got
  let s1 := (s.modFrl p fun x => { x with train := t, sent := sent, got := got }).emit (.frlTrain p (frlLetter p) (BitVec.ofNat 8 t))
  if 16 ≤ sent ∧ 16 ≤ got then portUp s1 p else s1

/-- TRAIN_RECEIVED: a TRAIN ordered set with its PORT and STATE (R335). -/
def execTrainReceived (p : Fin 2) (letter state : Byte) (s : State) : Host.Outcome State Fault Refusal :=
  .next (whenLive s fun s =>
    if frlState s p == 1 then
      if letter = frlLetter p then raise (setFrlState s p 3) Err.FRL_MISCABLED frlSrc (BitVec.ofNat 64 p.val)
      else trainStep s p state
    else s)

/-- LINK_DOWN: the receiver of an UP port loses lock (R336). -/
def execLinkDown (p : Fin 2) (s : State) : Host.Outcome State Fault Refusal :=
  .next (whenLive s fun s => if frlUp s p then portDown s p else s)

/-- LINK_IDLE_TIMEOUT: 10 µs without a valid ordered set or frame group (R336). -/
def execLinkIdleTimeout (p : Fin 2) (s : State) : Host.Outcome State Fault Refusal :=
  .next (whenLive s fun s => if frlUp s p then portDown s p else s)

/-! ## Acknowledgement and replay (R343, R344) -/

/-- How many frames before n await acknowledgement; none where n does not lie in the window. -/
def ackedCount (q : FrlPort) (n : Nat) : Option Nat :=
  let d := (n + 4096 + q.unacked.length - q.txSeq) % 4096
  if d ≤ q.unacked.length then some d else none

/-- The acknowledged point moves past the first frames of the replay buffer. -/
def ackFrames (s : State) (p n : Nat) : State :=
  match ackedCount (s.frl p) n with
  | some k => s.modFrl p fun q => { q with unacked := q.unacked.drop k, replays := if k = 0 then q.replays else 0 }
  | none => s

/-- Resends every frame of the replay buffer, in order, with its LSEQ and contents. -/
def resendAll (s : State) (p : Nat) : State :=
  pumpPort ((s.frl p).unacked.foldl (fun t e => emitFrame t p e.1 e.2) s) p

/-- A resend that counts as a replay; the eighth without movement takes the port DOWN with 0x7002 (R344). -/
def replay (s : State) (p : Nat) : State :=
  let n := (s.frl p).replays + 1
  let s1 := (s.bump (Reg.FRL_PREPLAY p) 31 0).modFrl p fun q => { q with replays := n }
  if 8 ≤ n then portDown (raise s1 Err.FRL_REPLAY_LIMIT frlSrc (BitVec.ofNat 64 p)) p else resendAll s1 p

/-- Whether the characters of a received ACK or NAK hold a right CHK (R334). -/
def chkOk (s0 s1 chk : Byte) : Bool := chk == (s0 ^^^ s1 ^^^ 0xA5)

/-- The sequence number of an ACK or NAK. -/
def ackSeq (s0 s1 : Byte) : Nat := s0.toNat + 256 * (s1.toNat % 16)

/-- ACK: a received ACK acknowledges every frame before its number (R343). -/
def execAck (p : Fin 2) (s0 s1 chk : Byte) (s : State) : Host.Outcome State Fault Refusal :=
  .next (whenLive s fun s =>
    if !frlUp s p then s
    else if !chkOk s0 s1 chk then s.bump (Reg.FRL_PBADOS p) 31 0
    else pumpPort (ackFrames s p (ackSeq s0 s1)) p)

/-- NAK: a received NAK acknowledges earlier frames and has the rest resent, after 5 µs with BUSY (R343). -/
def execNak (p : Fin 2) (s0 s1 chk : Byte) (s : State) : Host.Outcome State Fault Refusal :=
  .next (whenLive s fun s =>
    if !frlUp s p then s
    else if !chkOk s0 s1 chk then s.bump (Reg.FRL_PBADOS p) 31 0
    else
      let t := ackFrames s p (ackSeq s0 s1)
      if bitOf s1 7 then t.modFrl p fun q => { q with backoff := true }
      else if (t.frl p).unacked.isEmpty then pumpPort t p else replay t p)

/-- ACK_TIMER: 2 µs have passed since the oldest good frame that is not acknowledged (R343). -/
def execAckTimer (p : Fin 2) (s : State) : Host.Outcome State Fault Refusal :=
  .next (whenLive s fun s => if frlUp s p && decide (0 < (s.frl p).good) then sendAck s p else s)

/-- BUSY_BACKOFF: 5 µs have passed since a BUSY NAK (R343). -/
def execBusyBackoff (p : Fin 2) (s : State) : Host.Outcome State Fault Refusal :=
  .next (whenLive s fun s =>
    if frlUp s p && (s.frl p).backoff then resendAll (s.modFrl p fun q => { q with backoff := false }) p else s)

/-- REPLAY_TIMEOUT: 20 µs have passed on the replay timer with frames unacknowledged (R344). -/
def execReplayTimeout (p : Fin 2) (s : State) : Host.Outcome State Fault Refusal :=
  .next (whenLive s fun s => if frlUp s p && !(s.frl p).unacked.isEmpty then replay s p else s)

/-! ## Protected payloads (R349–R351) -/

/-- The session key that this node shares with a worker for a path: of position `pos` on the acting manager, its own on a
worker (R441). -/
def sessKey (s : State) (pos path : Nat) : List Byte :=
  if s.isManager then
    let k := s.slot (191 + 64 * path + pos)
    if k.valid then k.key else []
  else if path = 0 then s.key.sessB else s.key.sessA

/-- The node holds a session key. -/
def holdsKey (s : State) (pos : Nat) : Bool := !(sessKey s pos 0).isEmpty || !(sessKey s pos 1).isEmpty

/-- The initialisation vector of R349; direction 1 is from worker to manager. -/
def frlIv (pseq pos path dir : Nat) : List Byte :=
  bytesLE 6 pseq ++ [BitVec.ofNat 8 pos, BitVec.ofNat 8 path, BitVec.ofNat 8 dir, 0, 0, 0]

/-- The additional authenticated data of R349. -/
def frlAad (f : Frame) (pseq len : Nat) : List Byte :=
  [BitVec.ofNat 8 f.typ, f.flags, BitVec.ofNat 8 f.src, BitVec.ofNat 8 f.dst] ++ bytesLE 2 len ++ bytesLE 4 f.txn.toNat ++
    bytesLE 6 pseq ++ [0, 0]

/-- Pads to a multiple of 4 bytes with zeros. -/
def pad4 (l : List Byte) : List Byte := l ++ List.replicate ((4 - l.length % 4) % 4) 0

/-- A frame with its payload protected under the next PSEQ of a worker, path and direction (R349, R350). -/
def protectFrame (s : State) (f : Frame) (worker : Nat) : Frame × State :=
  let k := 2 * worker + f.path
  let pseq := sget (fun _ => 0) s.ring.pseqTx k + 1
  let dir := b2n (!s.isManager)
  let plain := pad4 f.payload
  let aad := frlAad f pseq (plain.length + 24)
  let c := gcmEncrypt (sessKey s worker f.path) (frlIv pseq worker f.path dir) aad plain
  ({ f with payload := bytesLE 6 pseq ++ [0, 0] ++ c.1 ++ c.2 },
    s.modRing fun r => { r with pseqTx := sset (fun _ => 0) r.pseqTx k pseq })

/-- The worker whose key protects a received frame: its sender on the acting manager, the node itself elsewhere. -/
def protPeer (s : State) (f : Frame) : Nat := if s.isManager then f.src else s.position

/-- A frame that a node may not accept is discarded, with the INFO error 0x7032 (R35, R339). -/
def unprotected (s : State) (f : Frame) : State := raise s Err.FRL_UNPROTECTED frlSrc (BitVec.ofNat 64 (f.src * 256 + f.typ))

/-- Checks a protected frame that has a good FCS: its plaintext, and the state with the PSEQ taken or the error (R350, R351).
`fault` says that the two computations of the link engine disagree (R467). -/
def openFrame (s : State) (f : Frame) (fault : Bool := false) : Option Frame × State :=
  let w := protPeer s f
  let key := sessKey s w f.path
  if key.isEmpty then (none, unprotected s f)
  else
    let n := f.payload.length
    let pseq := numAt f.payload 0 6
    let k := 2 * w + f.path
    let detail := BitVec.ofNat 64 (f.src * 256 + f.typ)
    let fail (code : Half) := (none, (raise s code frlSrc detail).bump Reg.FRL_AUTHFAIL 31 0)
    if n < 24 then fail Err.FRL_AUTH_FAIL
    else if fault then fail Err.ENG_FAULT
    else match gcmDecrypt key (frlIv pseq w f.path (b2n s.isManager)) (frlAad f pseq n) ((f.payload.drop 8).take (n - 24))
        (f.payload.drop (n - 16)) with
      | none => fail Err.FRL_AUTH_FAIL
      | some plain =>
        if pseq ≤ sget (fun _ => 0) s.ring.pseqRx k then fail Err.FRL_PSEQ_REPLAY
        else (some { f with payload := plain }, s.modRing fun r =>
          { r with pseqRx := sset (fun _ => 0) r.pseqRx k pseq, lastProt := if h : f.path < 2 then r.lastProt.set f.path (some s.ct) else r.lastProt })

/-! ## Delivery (R338, R339, R345) -/

/-- A received frame as its words enter FRLA_RX or FRLB_RX: the header with the number of payload bytes, then the payload. -/
def frameWords (f : Frame) : List QEntry :=
  let b := pad4 ((frlHeader f 0) ++ f.payload)
  let n := b.length / 4
  (List.range n).map fun i => { data := wordLE (b.drop (4 * i)), eop := decide (i + 1 = n) }

/-- The frame that a packet of FRLA_RX or FRLB_RX holds. -/
def wordsFrame (l : List QEntry) : Frame :=
  let b := l.flatMap fun e => bytesLE 4 e.data.toNat
  { frlParse b with payload := slice b 16 (numAt b 8 2) }

/-- A frame for this node: link-layer frames go to the link layer, the others to the port's queue once they are accepted. -/
def deliverFrame (s : State) (p : Nat) (f : Frame) (stamp : DWord) (fault : Bool := false) : State :=
  let toLink (f : Frame) (s : State) : State := s.modRing fun r => { r with inbox := r.inbox ++ [(p, f, stamp)] }
  let toQueue (f : Frame) (s : State) : State := queueWriteAll s (frlQueue p) (frameWords f)
  if f.typ = 0x02 ∧ f.prot = true then
    match openFrame s f fault with
    | (some g, t) => toLink g t
    | (none, t) => t
  else if f.typ ≤ 0x05 then toLink f s
  else if f.typ = 0x11 ∨ f.typ = 0x20 then toQueue f s
  else if !holdsKey s (protPeer s f) || !f.prot then unprotected s f
  else match openFrame s f fault with
    | (some g, t) => toQueue g t
    | (none, t) => t

/-! ## Forwarding (R345–R348) -/

/-- The device is the strapped manager at position 0 and closes the ring (R345); a duplicate manager forwards (R21). -/
def closesRing (s : State) : Bool := s.isManager && s.rdf Reg.SYS_ROLE 1 0 == 1 && s.position == 0 && !s.ring.duplicate

/-- What a node does with a frame in sequence: deliver it, forward it (R345). -/
def frlDecide (s : State) (f : Frame) : Bool × Bool :=
  if closesRing s then (decide (f.dst = 0 ∨ f.dst = 0xFE ∨ f.typ ≤ 0x03) || f.bcast, false)
  else if f.dst = 0xFE then (true, false)
  else if f.dst = 0 ∧ s.isManager = true ∧ s.rdf Reg.SYS_ROLE 1 0 ≠ 1 then (true, false)
  else if f.dst = s.position ∧ s.position ≠ 0xFF ∧ f.bcast = false then (true, false)
  else if f.typ = 0x01 ∨ f.typ = 0x02 ∨ f.typ = 0x03 then (true, false)
  else if f.bcast then (decide (f.txn ∉ s.ring.bcast), true)
  else (false, true)

def frlTypeKnown (t : Nat) : Bool := t ∈ [0x01, 0x02, 0x03, 0x04, 0x05, 0x10, 0x11, 0x20, 0x30]

/-- A frame in sequence: decision, and cut-through where the other port is free (R345, R346, R348). -/
def acceptHeader (s : State) (p : Nat) (hdr : List Byte) (stamp : DWord) : State :=
  let f := frlParse hdr
  let o := otherPort p
  let known := frlTypeKnown f.typ
  let s1 := if known then s else s.bump (Reg.FRL_PCRC p) 31 0
  let d := if known && decide (f.hops < 65) then frlDecide s1 f else (false, false)
  let fwd := d.2 && frlUp s1 o
  let q := s1.frl o
  let cut := fwd && frlReady s1 o && q.prio.isEmpty && q.fwd.isEmpty
  if fwd && !cut && decide (4 ≤ q.fwd.length) then (emitAck s1 p true true).bump (Reg.FRL_PNAK p) 31 0
  else
    let rx : RxFrame := { hdr := hdr, frame := { f with hops := f.hops + 1 }, len := numAt hdr 8 2, stamp := stamp,
                          deliver := d.1, forward := fwd, cut := cut }
    let s2 := s1.modFrl p fun x => { x with rx := some rx }
    if cut then
      (s2.emit (.frlHead o (frlHeader { rx.frame with payload := List.replicate rx.len 0 } q.txSeq))).modFrl o
        fun x => { x with cutting := true }
    else s2

/-- FRAME_HEADER: a header has arrived on a port, its SOF at the ingress stamp; it is judged by HCRC and LSEQ (R341, R346). -/
def execFrameHeader (p : Fin 2) (hdr : List Byte) (stamp : DWord) (s : State) : Host.Outcome State Fault Refusal :=
  .next (whenLive s fun s =>
    if !frlUp s p then s
    else
      let s := (abortCut s p).modFrl p fun q => { q with rx := none }
      if !hcrcOk hdr then sendNak (s.bump (Reg.FRL_PCRC p) 31 0) p
      else
        let d := (numAt hdr 4 2 % 4096 + 4096 - (s.frl p).exp) % 4096
        if d = 0 then acceptHeader s p hdr stamp
        else if 4096 - 64 ≤ d then sendAck s p
        else sendNak s p)

/-- The frame that a port is passing on has ended well: its copy takes its LSEQ and enters the replay buffer (R340, R347). -/
def finishCut (s : State) (o : Nat) (f : Frame) : State :=
  let seq := (s.frl o).txSeq
  let s1 := s.emit (.frlTail o (frlTailBytes (frlHeader f seq) f.payload) true)
  pumpPort (s1.modFrl o fun q =>
    { q with cutting := false, txSeq := (seq + 1) % 4096, unacked := q.unacked ++ [(seq, f)] }) o

/-- Remembers a broadcast identifier among the last 16 (R345). -/
def noteBcast (s : State) (f : Frame) : State :=
  if f.bcast then s.modRing fun r => { r with bcast := (f.txn :: r.bcast).take 16 } else s

/-- A good end of a frame in sequence: EXP advances, the frame is passed on and delivered (R341, R343, R345). -/
def acceptEnd (s : State) (p : Nat) (r : RxFrame) (payload : List Byte) (fault : Bool := false) : State :=
  let f := { r.frame with payload := payload }
  let s1 := s.modFrl p fun q => { q with rx := none, exp := (q.exp + 1) % 4096, nakSent := false, good := q.good + 1 }
  let s2 := if 8 ≤ (s1.frl p).good then sendAck s1 p else s1
  let s3 := if r.cut then finishCut s2 (otherPort p) f
            else if r.forward then sendOn s2 (otherPort p) .fwd f else s2
  if r.deliver then deliverFrame (noteBcast s3 f) p f r.stamp fault else s3

/-- FRAME_END: a frame ends with its payload and FCS in EOF, or in ABORT (R341, R347); `fault` says that the link engine finds a
mismatch (R467). -/
def execFrameEnd (p : Fin 2) (payload : List Byte) (fcs : Word) (eof fault : Bool) (s : State) : Host.Outcome State Fault Refusal :=
  .next (whenLive s fun s =>
    match (s.frl p).rx with
    | none => s
    | some r =>
      if eof ∧ payload.length = r.len ∧ fcs = crc32 (r.hdr ++ payload) then acceptEnd s p r payload fault
      else
        let s1 := s.bump (if eof then Reg.FRL_PCRC p else Reg.FRL_PABORT p) 31 0
        sendNak ((abortCut s1 p).modFrl p fun q => { q with rx := none }) p)

end Sys2Proof.Machine
end

