-- ==== Sys2Proof/Machine/Txn.lean ====
section
/-! DEFINITION. Routes on the ring and the shared operations of ring transactions (R352–R354, R360, R366). -/

namespace Sys2Proof.Machine

/-! ## Paths and ports -/

/-- The port by which this node sends on a path: the manager's port A begins the A-path, a worker's port B lies towards it;
an acting manager by takeover sends PATH 0 out of port A as well (R363). -/
def pathPort (s : State) (path : Nat) : Nat := if s.isManager then path else 1 - path

/-- The path of what this node sends by a port. -/
def portPath (s : State) (p : Nat) : Nat := if s.isManager then p else 1 - p

/-- N of the sticky map, or the largest position where there is none. -/
def ringN (s : State) : Nat :=
  match s.ring.sticky with
  | some (n, _) => n
  | none => 64

/-- The path by which the manager routes a position: on a closed ring the nearer one, or the other while only that one has a key
(R360, R362). -/
def routeTo (s : State) (pos : Nat) : Nat :=
  if s.ring.closed then
    let p := if pos ≤ ringN s + 1 - pos then 0 else 1
    if (sessKey s pos p).isEmpty && !(sessKey s pos (1 - p)).isEmpty then 1 - p else p
  else match s.ring.nodes.find? fun n => n.pos == pos with
    | some n => b2n n.pathB
    | none => 0

/-- The path by which a worker sends to position 0: that of its timing source, or the other where no key exists for it (R360). -/
def routeHome (s : State) : Nat :=
  let src := s.rdf Reg.FRL_STAT 17 16
  let p := if src = 2 then 1 else 0
  if (sessKey s s.position p).isEmpty then 1 - p else p

/-- The path to a position from this node. -/
def route (s : State) (pos : Nat) : Nat := if s.isManager then routeTo s pos else routeHome s

/-! ## Sending -/

/-- The sender's position in a frame. -/
def srcPos (s : State) : Nat := s.position

/-- Sends a frame of the node's own by a path; a path whose port is not UP loses it. -/
def sendPlain (s : State) (f : Frame) (path : Nat) (c : FrlClass := .loc) (fix : List Fix := []) : State :=
  sendOn s (pathPort s path) c f fix

/-- Sends a protected frame by a path, if a session key exists for it (R349, R360). -/
def sendProtected (s : State) (typ : Nat) (dst worker : Nat) (toEn rsp : Bool) (txn : Word) (plain : List Byte) (path : Nat) : State :=
  if (sessKey s worker path).isEmpty then s
  else
    let f : Frame := { typ := typ, flags := frlFlags true false toEn rsp path, src := srcPos s, dst := dst, txn := txn, payload := plain }
    let (g, t) := protectFrame s f worker
    sendOn t (pathPort s path) .loc g

/-- The worker whose key protects traffic between this node and a position. -/
def linkWorker (s : State) (pos : Nat) : Nat := if s.isManager then pos else s.position

/-- Sends the request of a pending transaction on the path of this moment (R353). -/
def sendTxnFrame (s : State) (t : TxnPend) : State :=
  sendProtected s 0x10 t.pos (linkWorker s t.pos) t.toEn false (BitVec.ofNat 32 t.txn) t.body (route s t.pos)

/-- Begins a transaction: the next TXN, with bit 31 set by a worker (R352). -/
def startTxn (s : State) (pos : Nat) (toEn : Bool) (body : List Byte) (use : TxnUse) : State :=
  let n := s.ring.nextTxn % 2 ^ 31 + (if s.isManager then 0 else 2 ^ 31)
  let t : TxnPend := { txn := n, pos := pos, toEn := toEn, body := body, use := use }
  sendTxnFrame (s.modRing fun r => { r with nextTxn := r.nextTxn + 1, pend := r.pend ++ [t] }) t

/-- The response to a transaction leaves by the port on which the request arrived, or by the other if that is DOWN (R354). -/
def sendTxnResponse (s : State) (r : TxnRec) (body : List Byte) : State :=
  let p := if frlUp s r.port then r.port else otherPort r.port
  sendProtected s 0x10 r.src (linkWorker s r.src) r.toEn true (BitVec.ofNat 32 r.txn) body (portPath s p)

/-- Keeps at most 32 completed records of each originator, newest first (R354). -/
def trimRecs (l : List TxnRec) (src : Nat) : List TxnRec :=
  let old := (l.filter fun r => r.src == src && r.resp.isSome).drop 32
  l.filter fun r => !(old.contains r)

/-- A transaction completes at the responder: it is recorded with its response, which is sent (R354). -/
def respondTxn (s : State) (src txn : Nat) (body : List Byte) : State :=
  match s.ring.done.find? fun r => r.src == src && r.txn == txn && r.resp.isNone with
  | none => s
  | some r =>
    let rec' := { r with resp := some body }
    sendTxnResponse (s.modRing fun g => { g with done := trimRecs (rec' :: g.done.filter (· ≠ r)) src }) rec' body

/-! ## Receiving -/

/-- The first packet of a port's queue, if its frame satisfies a test, is taken. -/
def takeFrame (s : State) (p : Nat) (test : Frame → Bool) : Option Frame × State :=
  match queuePacket s (frlQueue p) with
  | (some l, t) => if test (wordsFrame l) then (some (wordsFrame l), t) else (none, s)
  | (none, _) => (none, s)

/-- CODE of a transaction's request. -/
def Frame.code (f : Frame) : Nat := numAt f.payload 0 2

/-- A request is new, recorded or executing (R354): a new one is noted as executing, a recorded one is answered. -/
def admitTxn (s : State) (p : Nat) (f : Frame) : Bool × State :=
  match s.ring.done.find? fun r => r.src == f.src && r.txn == f.txn.toNat with
  | some r =>
    match r.resp with
    | some b => (false, sendTxnResponse s { r with port := p } b)
    | none => (false, s)
  | none => (true, s.modRing fun g => { g with done := { src := f.src, txn := f.txn.toNat, port := p, toEn := f.toEn } :: g.done })

/-- Takes the first request of a port's queue with one of some codes, where it is not recorded or executing. -/
def takeTxn (s : State) (p : Nat) (test : Nat → Bool) : Option Frame × State :=
  match takeFrame s p fun f => f.typ == 0x10 && !f.rsp && test f.code with
  | (some f, t) =>
    match admitTxn t p f with
    | (true, u) => (some f, u)
    | (false, u) => (none, u)
  | (none, _) => (none, s)

/-- A worker reports its handling of an error, or 0x0060 with the count of those it could not hold (R538). -/
def reportBody (r : ErrReport) : List Byte :=
  bytesLE 2 r.code.toNat ++ [BitVec.ofNat 8 r.cls, 0] ++ bytesLE 2 r.ovf ++ [0, 0] ++ bytesLE 8 r.detail.toNat ++ bytesLE 8 r.time.toNat

end Sys2Proof.Machine
end

