-- ==== Sys2Proof/Machine/HostBase.lean ====
section
/-! DEFINITION. Completion of a command (R378, R381, R382), bulk buffers (R384) and what a command may rely on. -/

namespace Sys2Proof.Machine

/-! ## Responses -/

/-- The machine link serves commands: the acting manager's port, or a standby's for STATUS (R19). -/
def State.hostLink (s : State) : Bool := s.rdb Reg.HOST_STAT 0

/-- A response leaves for the source of its command (R375, R376). -/
def emitResponse (s : State) (dst : BitVec 48) (code : Half) (txn : Word) (st : Half) (lane : Nat) (body : List Byte) : State :=
  if s.hostLink then s.emit (.response dst code txn s.host.epoch st lane body) else s

/-- Records an executed command; the last 64 are kept (R378). -/
def recordCommand (s : State) (txn : Word) (code st : Half) (body : List Byte) : State :=
  s.modHost fun h =>
    { h with records := ({ txn := txn, code := code, status := st, body := body } :: h.records).take 64
             jobs := h.jobs.filter fun j => j.txn ≠ txn }

/-- The response of a worker to a command that the manager carried to it: STATUS, two reserved bytes, body. -/
def ringReply (st : Half) (body : List Byte) : List Byte := bytesLE 2 st.toNat ++ [0, 0] ++ body

/-- A command has completed: its response is recorded and leaves. -/
def finishReply (s : State) (r : ReplyTo) (st : Half) (body : List Byte) : State :=
  match r with
  | .none => s
  | .host src code txn epoch lane =>
    if epoch = s.host.epoch then emitResponse (recordCommand s txn code st body) src code txn st lane body
    else emitResponse s src code txn 0x8005 lane []
  | .ring txn =>
    match s.ring.done.find? fun d => d.txn == txn && d.resp.isNone with
    | some d => respondTxn s d.src txn (ringReply st body)
    | none => s
  | .admission pos => s.modSvc fun v => { v with admits := v.admits.map fun a => if a.1 = pos then (a.1, a.2.1, some st) else a }
  | .provision => if st = 0 then s else raise s Err.SVC_STANDBY_KEYS 0x16 (BitVec.ofNat 64 st.toNat)

/-! ## Bulk buffers (R384) -/

/-- Buffer 0, 1 or 2; buffer 3 is a worker's staging buffer. -/
def State.buf (s : State) (b : Nat) : BulkBuf :=
  if h : b < 3 then s.host.bufs[b] else s.host.stage

/-- Replaces a buffer. -/
def State.setBuf (s : State) (b : Nat) (v : BulkBuf) : State :=
  s.modHost fun h => if hb : b < 3 then { h with bufs := h.bufs.set b v } else { h with stage := v }

/-- n bytes of a sparse byte list from an offset. -/
def sparseBytes (m : Sparse Byte) (off : Nat) : Nat → List Byte
  | 0 => []
  | n + 1 => sget memDefault m off :: sparseBytes m (off + 1) n

/-- The SIZE bytes of a buffer. -/
def BulkBuf.bytes (b : BulkBuf) : List Byte := sparseBytes b.data 0 b.size

/-- A closed buffer that holds some bytes. -/
def bufOf (l : List Byte) : BulkBuf := { phase := .closed, size := l.length, data := putBytes [] 0 l }

/-- The largest SIZE of an upload buffer. -/
def uploadMax : Nat := 1474560

end Sys2Proof.Machine
end

