-- ==== Sys2Proof/Machine/Setup.lean ====
section
/-! DEFINITION. Group membership and key agreement in SETUP frames (R438–R441). -/

namespace Sys2Proof.Machine

/-- KEY_ among the Pavane blocks. -/
def keySrc : Byte := pavSrc 1

/-- MAC of R438: HMAC-SHA-256 under GK over an ASCII label and the parts. -/
def groupMac (s : State) (label : List Nat) (m : List Byte) : List Byte := hmac .sha256 (groupKey s) (ascii label ++ m)

/-- MACW: "MEMB-W" ‖ NM ‖ NW ‖ QW ‖ POS ‖ PATH. -/
def macW (s : State) (x : Setup) (nw qw : List Byte) : List Byte :=
  groupMac s [0x4D, 0x45, 0x4D, 0x42, 0x2D, 0x57] (x.nm ++ nw ++ qw ++ [BitVec.ofNat 8 x.pos, BitVec.ofNat 8 (b2n x.pathB)])

/-- MACM: "MEMB-M" ‖ NW ‖ NM ‖ QM ‖ QW. -/
def macM (s : State) (x : Setup) (qm qw : List Byte) : List Byte :=
  groupMac s [0x4D, 0x45, 0x4D, 0x42, 0x2D, 0x4D] (x.nw ++ x.nm ++ qm ++ qw)

/-- K = HMAC-SHA-256(Z, "SESS" ‖ NM ‖ NW ‖ POS ‖ PATH), for an own private key and the other side's public key; none where the
public key is no point of the curve. -/
def sessionKey (x : Setup) (priv : Nat) (peer : List Byte) : Option (List Byte) :=
  let q := ecPoint p256 peer
  if ecValid p256 q.1 q.2 then
    let z := (ecBytes p256 (ecMul p256 priv (some q))).take 32
    some (hmac .sha256 z (ascii [0x53, 0x45, 0x53, 0x53] ++ x.nm ++ x.nw ++ [BitVec.ofNat 8 x.pos, BitVec.ofNat 8 (b2n x.pathB)]))
  else none

/-- KCV: the first 16 bytes of AES-CMAC(K, "DONE"). -/
def keyCheck (key : List Byte) : List Byte := cmac key (ascii [0x44, 0x4F, 0x4E, 0x45])

/-- A fresh ephemeral key pair: the private key is a free value from 1 to n − 1. -/
def ephemeral (s : State) : Nat × List Byte × State :=
  let (b, t) := s.drawBytes 32
  let d := natBE b % (p256.n - 1) + 1
  (d, ecBytes p256 (ecMul p256 d (ecBase p256)), t)

/-- The exchange of a position and path on this device. -/
def findSetup (s : State) (pos : Nat) (pathB : Bool) : Option Setup := s.key.setups.find? fun x => x.pos == pos && x.pathB == pathB

/-- Removes an exchange. -/
def dropSetup (s : State) (pos : Nat) (pathB : Bool) : State :=
  s.modKey fun k => { k with setups := k.setups.filter fun x => !(x.pos == pos && x.pathB == pathB) }

/-- Adds or replaces an exchange. -/
def putSetup (s : State) (x : Setup) : State :=
  (dropSetup s x.pos x.pathB).modKey fun k => { k with setups := k.setups ++ [x] }

/-- A SETUP frame leaves for a position by a path. -/
def sendSetup (s : State) (dst : Nat) (pathB : Bool) (body : List Byte) : State :=
  sendPlain s { typ := 0x11, flags := frlFlags false false true false (b2n pathB), src := srcPos s, dst := dst, payload := body } (b2n pathB)

/-- The slot of a position's key for a path on the manager (R441). -/
def keySlotOf (pos : Nat) (pathB : Bool) : Nat := 191 + 64 * b2n pathB + pos

/-- An exchange is abandoned; the manager restarts it after 1 s, at most 3 times for one appearance (R439). -/
def abandonSetup (s : State) (x : Setup) : State :=
  let s1 := dropSetup s x.pos x.pathB
  if s.isManager then
    let s2 := if x.key.isEmpty then s1 else invalidateKey s1 (keySlotOf x.pos x.pathB)
    if x.tries < 3 then s2.modKey fun k => { k with retries := k.retries ++ [(x.pos, x.pathB, x.tries + 1)] } else s2
  else s1

/-- A wrong MAC, KCV or public key: the exchange is abandoned with 0xA030 (R439). -/
def membershipFail (s : State) (x : Setup) : State := raise (abandonSetup s x) Err.KEY_MEMBERSHIP_FAIL keySrc (BitVec.ofNat 64 x.pos)

/-- The manager begins an exchange with a fresh NM (R438, R439). -/
def startSetup (s : State) (pos : Nat) (pathB : Bool) (tries : Nat) : State :=
  if s.ring.duplicate || !haveGroupKey s then s
  else
    let (nm, s1) := s.drawBytes 32
    let x : Setup := { pos := pos, pathB := pathB, nm := nm, tries := tries }
    if rngReady s1 then
      sendSetup (putSetup s1 x) pos pathB ([0x01, BitVec.ofNat 8 (b2n pathB), BitVec.ofNat 8 pos, 0] ++ nm)
    else abandonSetup s1 x

/-- At each key installation the PSEQ state of the key restarts in both directions (R440). -/
def restartPseq (s : State) (worker : Nat) (pathB : Bool) : State :=
  let k := 2 * worker + b2n pathB
  s.modRing fun r => { r with pseqTx := sset (fun _ => 0) r.pseqTx k 0, pseqRx := sset (fun _ => 0) r.pseqRx k 0 }

/-- A worker may take a CHALLENGE for a path: it holds no key for it, or no protected frame has verified on it for 1 s (R440). -/
def challengeAccepted (s : State) (path : Nat) : Bool :=
  (sessKey s s.position path).isEmpty ||
    (match s.ring.lastProt.toList.getD path none with
     | some t => decide (ticksPerSecond ≤ s.ct.toNat - t.toNat)
     | none => true)

/-- The next SETUP message of a port's queue, if it is this one. -/
def takeSetup (s : State) (p msg : Nat) : Option Frame × State := takeFrame s p fun f => f.typ == 0x11 && numAt f.payload 0 1 == msg

/-- CHALLENGE: a worker answers a membership challenge with RESPONSE, or ignores and counts it (R438, R440). -/
def execSetupChallenge (p : Fin 2) (s : State) : Host.Outcome State Fault Refusal :=
  .next (whenLive s fun s =>
    if s.isManager then s
    else match takeSetup s p 1 with
      | (none, _) => s
      | (some f, t) =>
        let pathB := decide (numAt f.payload 1 1 = 1)
        if !challengeAccepted t (b2n pathB) then t.bump Reg.KEY_SETUP_IGN 31 0
        else
          let reply (st : Nat) (body : List Byte) (u : State) : State :=
            sendSetup u f.src pathB ([0x02, BitVec.ofNat 8 st, 0, 0] ++ slice body 0 128)
          if t.core.rootFailed || !haveGroupKey t then reply 1 [] t
          else if !rngReady t then reply 2 [] t
          else
            let (nw, t1) := t.drawBytes 32
            let (d, q, t2) := ephemeral t1
            let x : Setup := { pos := numAt f.payload 2 1, pathB := pathB, nm := slice f.payload 4 32, nw := nw, priv := d, pub := q }
            reply 0 (nw ++ q ++ macW t2 x nw q) (putSetup t2 x))

/-- RESPONSE: the manager checks MACW, places K in the position's slot and answers with CONFIRM (R438). -/
def execSetupResponse (p : Fin 2) (s : State) : Host.Outcome State Fault Refusal :=
  .next (whenLive s fun s =>
    if !s.isManager then s
    else match takeSetup s p 2 with
      | (none, _) => s
      | (some f, t) =>
        let pathB := decide (f.path = 1)
        match findSetup t f.src pathB with
        | none => t
        | some x0 =>
          let nw := slice f.payload 4 32
          let qw := slice f.payload 36 64
          let x := { x0 with nw := nw, peer := qw }
          if numAt f.payload 1 1 ≠ 0 then abandonSetup t x
          else if macW t x nw qw ≠ slice f.payload 100 32 then membershipFail t x
          else if !rngReady t then abandonSetup t x
          else
            let (d, qm, t1) := ephemeral t
            match sessionKey x d qw with
            | none => membershipFail t1 x
            | some k =>
              -- TYPE AES-256, USE encrypt, decrypt, wrap, unwrap, MASTERS EN and link engine, EOA
              let t2 := fillKey t1 (keySlotOf x.pos pathB) (sessionAttr) false 0x1FF k
              sendSetup (restartPseq (putSetup t2 { x with key := k }) x.pos pathB) x.pos pathB ([0x03, 0, 0, 0] ++ qm ++ macM t2 x qm qw))
where
  /-- The attribute word of a session key's slot (R425, R441): TYPE 3, the four cipher uses, MASTERS EN and the link engine,
  every life-cycle state, EOA. -/
  sessionAttr : Word := 0x47331E00

/-- CONFIRM: the worker checks MACM, installs K for its path and answers with DONE (R438, R440, R441). -/
def execSetupConfirm (p : Fin 2) (s : State) : Host.Outcome State Fault Refusal :=
  .next (whenLive s fun s =>
    if s.isManager then s
    else match takeSetup s p 3 with
      | (none, _) => s
      | (some f, t) =>
        let pathB := decide (f.path = 1)
        match t.key.setups.find? fun x => x.pathB == pathB with
        | none => t
        | some x =>
          let qm := slice f.payload 4 64
          if macM t x qm x.pub ≠ slice f.payload 68 32 then membershipFail t x
          else match sessionKey x x.priv qm with
            | none => membershipFail t x
            | some k =>
              let t1 := restartPseq (setSess (dropSetup t x.pos pathB) (if pathB then 0 else 1) k) t.position pathB
              let t2 := t1.modMet fun m => { m with keyRseq := m.rseq }
              sendSetup t2 f.src pathB ([0x04, 0, 0, 0] ++ keyCheck k))

/-- DONE: the manager checks KCV; the path's session key is in use, the position's applied totals are dropped (R474), and a
lane in LISTEN goes ADMITTING; a device that is being admitted is to be loaded (R511, R546). -/
def execSetupDone (p : Fin 2) (s : State) : Host.Outcome State Fault Refusal :=
  .next (whenLive s fun s =>
    if !s.isManager then s
    else match takeSetup s p 4 with
      | (none, _) => s
      | (some f, t) =>
        let pathB := decide (f.path = 1)
        match findSetup t f.src pathB with
        | none => t
        | some x =>
          if x.key.isEmpty then t
          else if keyCheck x.key ≠ slice f.payload 4 16 then membershipFail t x
          else
            let t1 := (dropSetup t x.pos pathB).modMet fun m =>
              { m with applied := sset (fun _ => {}) m.applied x.pos {} }
            let t2 := if (t1.lane x.pos).state = .listen then setLane t1 x.pos .admitting else t1
            if (t2.lane x.pos).state = .admitting ∧ x.pos ∉ t2.fw.running ∧ (t2.fw.load.any fun l => l.targets.contains x.pos) = false then
              t2.modFw fun w => { w with want := nsAdd w.want x.pos }
            else t2)

/-- SETUP_TIMEOUT: an exchange has had no next message for 100 ms (R439). -/
def execSetupTimeout (pos : BitVec 8) (pathB : Bool) (s : State) : Host.Outcome State Fault Refusal :=
  .next (whenLive s fun s =>
    match findSetup s pos.toNat pathB with
    | some x => abandonSetup s x
    | none => s)

/-- SETUP_RETRY: 1 s after an abandoned exchange the manager restarts it with a fresh NM (R439). -/
def execSetupRetry (pos : BitVec 8) (pathB : Bool) (s : State) : Host.Outcome State Fault Refusal :=
  .next (whenLive s fun s =>
    if !s.isManager then s
    else match s.key.retries.find? fun r => r.1 == pos.toNat && r.2.1 == pathB with
      | some r => startSetup (s.modKey fun k => { k with retries := k.retries.erase r }) pos.toNat pathB r.2.2
      | none => s)

end Sys2Proof.Machine
end

