-- ==== Sys2Proof/Machine/Store.lean ====
section
/-! DEFINITION. Records that are kept in two copies (R482), and the records of the system store (R117): sticky map, plant
settings, role record and position records. -/

namespace Sys2Proof.Machine

/-! ## Records with two copies (R482) -/

/-- GEN of a copy that is valid: its COMMIT matches and every word reads. -/
def copyGen (s : State) (addr magic words : Nat) : Option Nat :=
  match mramBytes s addr (8 * words) with
  | some b => if numAt b 0 4 = magic then some (numAt b 4 4) else none
  | none => none

/-- The copy in force: the valid one with the higher GEN. -/
def copyInForce (s : State) (a b magic words : Nat) : Option Nat :=
  match copyGen s a magic words, copyGen s b magic words with
  | some x, some y => some (if x < y then b else a)
  | some _, none => some a
  | none, some _ => some b
  | none, none => none

/-- Writes a record into the copy with the lower GEN: COMMIT 0, the words, COMMIT with the higher GEN plus 1. -/
def writeCopy (s : State) (a b magic words : Nat) (body : List Byte) : State :=
  let ga := copyGen s a magic words
  let gb := copyGen s b magic words
  let tgt := match ga, gb with
    | none, _ => a
    | some _, none => b
    | some x, some y => if x < y then a else b
  let gen := max (ga.getD 0) (gb.getD 0) + 1
  let s1 := (mramStoreBytes s tgt (bytesLE 8 0)).2
  let s2 := (mramStoreBytes s1 (tgt + 8) (slice body 0 (8 * (words - 1)))).2
  (mramStoreBytes s2 tgt (bytesLE 4 magic ++ bytesLE 4 gen)).2

/-- The bytes of the copy in force. -/
def recordInForce (s : State) (a b magic words : Nat) : Option (List Byte) :=
  match copyInForce s a b magic words with
  | some x => mramBytes s x (8 * words)
  | none => none

/-! ## The sticky map (R117, R358) -/

/-- One bit for each position of a list: bit p − 1 for position p. -/
def positionBits (l : List Nat) : Nat := (l.foldl nsAdd []).foldl (fun a p => if 1 ≤ p ∧ p ≤ 64 then a + 2 ^ (p - 1) else a) 0

/-- The positions that 64 bits name. -/
def positionsOf (n : Nat) : List Nat := ((List.range 64).filter fun i => n / 2 ^ i % 2 == 1).map (· + 1)

def stickyMagic : Nat := 0x53544B59

/-- Words 1 to 3 of the sticky map: N, whether the ring is closed, occupancy, and the positions of third-party nodes. -/
def stickyWords (s : State) : List Byte :=
  let (n, occ) := s.ring.sticky.getD (0, [])
  bytesLE 8 (n + 256 * b2n s.ring.closed) ++ bytesLE 8 (positionBits occ) ++
    bytesLE 8 (positionBits ((s.ring.nodes.filter fun k => k.role == 3).map (·.pos)))

/-- A sticky map is stored. -/
def writeSticky (s : State) (b : List Byte) : State := writeCopy s 0x20000000 0x20000800 stickyMagic 4 b

/-- The manager's sticky map is stored. -/
def saveSticky (s : State) : State := writeSticky s (stickyWords s)

/-- The sticky map is read at a start. -/
def loadSticky (s : State) : State :=
  match recordInForce s 0x20000000 0x20000800 stickyMagic 4 with
  | some b => s.modRing fun r =>
      { r with sticky := if numAt b 8 1 = 0 then none else some (numAt b 8 1, positionsOf (numAt b 16 8)), closed := numAt b 9 1 % 2 == 1 }
  | none => s

/-! ## Plant settings (R117, R392) -/

def plantMagic : Nat := 0x504C4346

/-- Plant settings are stored. -/
def savePlant (s : State) (c : PlantCfg) : State :=
  writeCopy s 0x20001000 0x20001800 plantMagic 4 (bytesLE 4 c.ip.toNat ++ bytesLE 4 c.mask.toNat ++ bytesLE 4 c.gateway.toNat ++
    bytesLE 4 c.dst.toNat ++ bytesLE 2 c.srcPort.toNat ++ bytesLE 2 c.dstPort.toNat ++ bytesLE 2 c.interval ++ [0, 0])

/-- The stored plant settings. -/
def storedPlant (s : State) : Option PlantCfg :=
  (recordInForce s 0x20001000 0x20001800 plantMagic 4).map fun b =>
    { ip := wordLE (slice b 8 4), mask := wordLE (slice b 12 4), gateway := wordLE (slice b 16 4), dst := wordLE (slice b 20 4)
      srcPort := BitVec.ofNat 16 (numAt b 24 2), dstPort := BitVec.ofNat 16 (numAt b 26 2), interval := numAt b 28 2 }

/-! ## The role record (R117, R377) -/

def roleMagic : Nat := 0x524F4C45

/-- The last EPOCH drawn. -/
def lastEpoch (s : State) : Word :=
  match recordInForce s 0x20003000 0x20003800 roleMagic 2 with
  | some b => wordLE (slice b 8 4)
  | none => 0

/-- An EPOCH is drawn, never 0 and never the one before it, and stored with the acting role (R377). The tick's part of the
draw is a free value; the exclusions are the rule's. -/
def drawEpoch (s : State) : State :=
  let (w, s1) := s.drawWord
  let old := lastEpoch s
  let e : Word := if w ≠ 0 ∧ w ≠ old then w else if w + 1 ≠ 0 ∧ w + 1 ≠ old then w + 1 else w + 2
  (writeCopy s1 0x20003000 0x20003800 roleMagic 2 (bytesLE 4 e.toNat ++ bytesLE 4 s.acting)).modHost fun h => { h with epoch := e }

/-! ## Position records (R117, R394, R545) -/

def positionMagic : Nat := 0x504F5352
/-- The address of copy j of a position's record. -/
def positionAddr (p j : Nat) : Nat := 0x20004000 + 0x100 * p + 0x80 * j

/-- A loop's settings as a word of 64 bits. -/
def loopWord : Option LoopCfg → Nat
  | none => 0
  | some c => c.mode % 4 + 2 ^ 16 * b2n c.dark + 2 ^ 17 * b2n c.high + 2 ^ 32 * (c.value % 65536) + 2 ^ 63

/-- The settings of a word. -/
def loopOfWord (w : Nat) : Option LoopCfg :=
  if w / 2 ^ 63 % 2 = 1 then
    some { mode := w % 4, value := w / 2 ^ 32 % 65536, dark := w / 2 ^ 16 % 2 == 1, high := w / 2 ^ 17 % 2 == 1 }
  else none

/-- A lane's loop settings as the manager stores them. -/
def loopOf (s : State) (p n : Nat) : Option LoopCfg := sget (fun _ => none) s.host.loopStore (2 * p + n)

/-- The calibration record of a position. -/
def calRecord (s : State) (p : Nat) : List (List Byte) := sget (fun _ => []) s.svc.records p

/-- Words 1 to 11 of a position's record. -/
def positionBytes (s : State) (p : Nat) : List Byte :=
  let cal := (calRecord s p).take 8
  slice (bytesLE 8 (loopWord (loopOf s p 0)) ++ bytesLE 8 (loopWord (loopOf s p 1)) ++ bytesLE 8 cal.length ++
    cal.flatMap (slice · 0 8)) 0 120

/-- A position's record is stored. -/
def savePosition (s : State) (p : Nat) : State :=
  if 64 < p then s else writeCopy s (positionAddr p 0) (positionAddr p 1) positionMagic 16 (positionBytes s p)

/-- A position's record is read at a start. -/
def loadPosition (s : State) (p : Nat) : State :=
  match recordInForce s (positionAddr p 0) (positionAddr p 1) positionMagic 16 with
  | some b =>
    let put (m : Sparse (Option LoopCfg)) (n : Nat) := sset (fun _ => none) m (2 * p + n) (loopOfWord (numAt b (8 + 8 * n) 8))
    (s.modHost fun h => { h with loopStore := put (put h.loopStore 0) 1 }).modSvc fun v =>
      { v with records := sset (fun _ => []) v.records p ((List.range (min 8 (numAt b 24 1 % 16))).map fun i => slice b (32 + 8 * i) 8) }
  | none => s

/-- Every record of the system store is read (R117). -/
def loadStore (s : State) : State :=
  let s1 := (List.range 65).foldl loadPosition (loadSticky s)
  match storedPlant s1 with
  | some c => (s1.modHost fun h => { h with plant := some c }).wrb Reg.PLANT_STAT 1 false
  | none => s1

end Sys2Proof.Machine
end

