-- ==== Sys2Proof/Machine/Ring.lean ====
section
/-! DEFINITION. Enumeration and sticky positions, routing after a break, and time distribution (R357–R371). -/

namespace Sys2Proof.Machine

/-- The first link-layer frame of a type that a port has delivered, with its ingress stamp. -/
def takeLink (s : State) (p typ : Nat) : Option (Frame × DWord) × State :=
  match s.ring.inbox.find? fun e => e.1 == p && e.2.1.typ == typ with
  | some e => (some e.2, s.modRing fun r => { r with inbox := r.inbox.erase e })
  | none => (none, s)

/-- The delay of the link at a port, in 2^−16 tick, as FRL_PpDELAY reports it. -/
def linkDelay (s : State) (p : Nat) : DWord := (s.rd (Reg.FRL_PDELAY p)).truncate 64

/-- CLK_STAT.CT_VALID. -/
def ctValid (s : State) : Bool := s.rdb Reg.CLK_STAT 2

/-- EJ_CTRL.ARM. -/
def armed (s : State) : Bool := s.rdb Reg.EJ_CTRL 1

/-- The acting manager took the role over and keeps its position (R363). -/
def takenOver (s : State) : Bool := s.isManager && s.rdf Reg.SYS_ROLE 1 0 != 1

/-! ## Curtain time (R364–R369) -/

/-- Ten nanoseconds and one microsecond, in 2^−16 tick. -/
def tenNs : Nat := 2 * 65536
def oneUs : Nat := 200 * 65536

/-- CT_VALID changes: line 17 (R542). -/
def setCtValid (s : State) (b : Bool) : State := (s.wrb Reg.CLK_STAT 2 b).wrb Reg.ERR_EVT 1 true

/-- CT_VALID clears with 0x7020 (R367). -/
def loseTime (s : State) : State :=
  if ctValid s then raise (setCtValid s false) Err.FRL_TIME_LOST frlSrc 0 else s

/-- Whole ticks nearest to an offset in 2^−16 tick. -/
def wholeTicks (x : Int) : Int := (x + 32768) / 65536

/-- The correction of R367 for one TIME of the source path with offset θ. -/
def correctTime (s : State) (off : Int) : State :=
  let s1 := (s.wr Reg.FRL_TOFFS (BitVec.ofInt 32 (off / 256))).wrb Reg.FRL_STAT 31 false
  let mag := off.natAbs
  if ctValid s1 ∧ oneUs < mag then
    let s2 := (s1.bump Reg.FRL_TOUTLIER 31 0).modRing fun r => { r with outliers := r.outliers + 1, good := 0 }
    if 16 ≤ s2.ring.outliers then (loseTime s2).modRing fun r => { r with outliers := 0 } else s2
  else
    let s2 := s1.modRing fun r => { r with outliers := 0, good := if mag ≤ tenNs then r.good + 1 else 0 }
    if !ctValid s2 && !armed s2 && decide (tenNs < mag) then
      (s2.stepCt fun c => c - BitVec.ofInt 64 (wholeTicks off)).modRing fun r => { r with slew := 0 }
    else
      let s3 := s2.modRing fun r => { r with slew := -(Int.tdiv off 65536) }
      if !ctValid s3 && decide (8 ≤ s3.ring.good) then setCtValid s3 true else s3

/-- Which of two paths is the better source: the fewer HOPS, then the A-path (R366). -/
def betterPath (a b : Nat × Nat) : Nat := if b.2 < a.2 then 2 else 1

/-- The timing source after a TIME on a path: 1 the A-path, 2 the B-path (R366). -/
def chooseSource (a b : Option (Nat × Nat)) (src path : Nat) : Nat :=
  match a, b with
  | some a, some b => if a.1 = b.1 then betterPath a b else if src = 0 then path + 1 else src
  | _, _ => if src = 0 then path + 1 else src

/-- The last TIME noted of a source. -/
def seenOf (s : State) (src : Nat) : Option (Nat × Nat) := if src = 2 then s.ring.seen[1] else s.ring.seen[0]

/-- Takes note of a TIME's TSEQ and HOPS on its path, and chooses the timing source (R366). A standby's probing begins again only
after the next 1 s without TIME (R549). -/
def noteTime (s : State) (path tseq hops : Nat) : State :=
  let s1 := (s.modSvc fun v => { v with probes := 0 }).modRing fun r =>
    { r with pend := r.pend.filter fun t => t.use != .probe, seen := if h : path < 2 then r.seen.set path (some (tseq, hops)) else r.seen }
  let src := chooseSource s1.ring.seen[0] s1.ring.seen[1] (s1.rdf Reg.FRL_STAT 17 16) path
  (s1.wrf Reg.FRL_STAT 17 16 src).wrf Reg.FRL_STAT 30 24 (((seenOf s1 src).map (·.2)).getD 0)

/-- The estimate of manager time at the ingress stamp of a TIME (R364). -/
def timeEstimate (s : State) (p : Nat) (f : Frame) : DWord := dwordIn f.payload 0 + dwordIn f.payload 8 + linkDelay s p

/-- TIME: the first TIME that a port has delivered is passed on with CORR and corrects the node's counter, or returns to the
manager (R361, R364, R366, R367). -/
def execTime (p : Fin 2) (s : State) : Host.Outcome State Fault Refusal :=
  .next (whenLive s fun s =>
    match takeLink s p 0x03 with
    | (none, _) => s
    | (some (f, stamp), t) =>
      let tseq := numAt f.payload 16 4
      if t.isManager && f.src == t.position then
        t.modRing fun r =>
          { r with back := if h : f.path < 2 then r.back.set f.path (some tseq) else r.back
                   miss := if h : f.path < 2 then r.miss.set f.path 0 else r.miss }
      else
        let u := sendOn t (otherPort p) .prio f [.add 8 (linkDelay t p - stamp)]
        if t.isManager then u
        else
          let v := noteTime u f.path tseq f.hops
          if v.rdf Reg.FRL_STAT 17 16 = f.path + 1 then correctTime v (stamp - timeEstimate v p f).toInt else v)

/-- TIME_SOURCE_SWITCH: four periods have passed without TIME on the source path, and TIME arrives on the other (R366). -/
def execTimeSourceSwitch (s : State) : Host.Outcome State Fault Refusal :=
  .next (whenLive s fun s =>
    let src := s.rdf Reg.FRL_STAT 17 16
    if s.isManager || src == 0 then s
    else
      match seenOf s src, seenOf s (3 - src) with
      | some a, some b =>
        let ahead := (b.1 + 2 ^ 32 - a.1) % 2 ^ 32
        if 4 ≤ ahead ∧ ahead < 2 ^ 31 then (s.wrf Reg.FRL_STAT 17 16 (3 - src)).wrf Reg.FRL_STAT 30 24 b.2 else s
      | _, _ => s)

/-- TIME_LOST: 1 s has passed without any TIME (R367): the counter runs in holdover. -/
def execTimeLost (s : State) : Host.Outcome State Fault Refusal :=
  .next (whenLive s fun s => if s.isManager then s else loseTime (s.wrb Reg.FRL_STAT 31 true))

/-- The number of the next broadcast frame. -/
def takeBcast (s : State) : Word × State := (BitVec.ofNat 32 s.ring.nextBcast, s.modRing fun r => { r with nextBcast := r.nextBcast + 1 })

/-- Whether the TIME of the last period, sent out of a port of a closed ring, has returned on the other; the fourth in a row
that has not opens the ring (R361). -/
def checkReturn (s : State) (p : Nat) : State :=
  if h : p < 2 then
    if s.ring.closed && s.ring.timeSent && frlUp s p && decide (s.ring.back[p] ≠ some ((s.ring.tseq + 2 ^ 32 - 1) % 2 ^ 32)) then
      let n := s.ring.miss[p] + 1
      let s1 := s.modRing fun r => { r with miss := r.miss.set p n }
      if 4 ≤ n then ringOpen s1 else s1
    else s
  else s

/-- The manager's TIME leaves a port: ORIGIN is its egress stamp (R364). -/
def sendTime (s : State) (p : Nat) : State :=
  let (id, s1) := takeBcast s
  let f : Frame := { typ := 0x03, flags := frlFlags false true false false (portPath s p), src := srcPos s, dst := 0xFF, txn := id,
                     payload := List.replicate 16 0 ++ bytesLE 4 s.ring.tseq ++ List.replicate 12 0 }
  sendOn s1 p .prio f [.stamp 0]

/-- TIME_PERIOD: every 50 µs the manager sends TIME out of each UP port (R364) and checks the return of earlier ones. -/
def execTimePeriod (s : State) : Host.Outcome State Fault Refusal :=
  .next (whenLive s fun s =>
    if s.isManager && s.ring.known then
      let s1 := checkReturn (checkReturn s 0) 1
      let s2 := (List.range 2).foldl (fun t p => if frlUp t p then sendTime t p else t) s1
      s2.modRing fun r => { r with tseq := (r.tseq + 1) % 2 ^ 32, timeSent := true }
    else s)

/-! ## Link delay (R365) -/

/-- PDELAY_PERIOD: every 1 ms each UP port sends PDELAY_REQ with T1, its egress stamp. -/
def execPdelayPeriod (s : State) : Host.Outcome State Fault Refusal :=
  .next (whenLive s fun s =>
    (List.range 2).foldl (fun t p =>
      sendOn t p .prio { typ := 0x04, flags := frlFlags false false false false (portPath t p), src := srcPos t, dst := 0xFE,
                         payload := List.replicate 8 0 } [.stamp 0]) s)

/-- PDELAY_REQ: a request is answered with T1, T2 (its ingress stamp) and T3 (the egress stamp of the answer). -/
def execPdelayReq (p : Fin 2) (s : State) : Host.Outcome State Fault Refusal :=
  .next (whenLive s fun s =>
    match takeLink s p 0x04 with
    | (none, _) => s
    | (some (f, stamp), t) =>
      sendOn t p .prio { typ := 0x05, flags := frlFlags false false false false (portPath t p), src := srcPos t, dst := 0xFE,
                         payload := slice f.payload 0 8 ++ bytesLE 8 stamp.toNat ++ List.replicate 8 0 } [.stamp 16])

/-- The mean of the link delays of a port. -/
def meanDelay (l : List Int) : Int := if l.isEmpty then 0 else l.foldl (· + ·) 0 / l.length

/-- PDELAY_RSP: an answer yields ((T4 − T1) − (T3 − T2)) ÷ 2 into the mean of 16, unless T3 − T2 is above 10 µs. -/
def execPdelayRsp (p : Fin 2) (s : State) : Host.Outcome State Fault Refusal :=
  .next (whenLive s fun s =>
    match takeLink s p 0x05 with
    | (none, _) => s
    | (some (f, t4), t) =>
      let t1 := dwordIn f.payload 0
      let turn := dwordIn f.payload 16 - dwordIn f.payload 8
      if 10 * oneUs < turn.toNat then t
      else
        let l := ((((t4 - t1) - turn).toInt / 2) :: (t.frl p).delays).take 16
        (t.modFrl p fun q => { q with delays := l }).wr (Reg.FRL_PDELAY p) (BitVec.ofInt 32 (meanDelay l)))

/-! ## ENUM at a node (R357) -/

/-- The record a node appends: POSITION, strapped role, ROM listen, CT_VALID and ARM. -/
def enumRecord (s : State) : List Byte :=
  let strap := s.rdf Reg.SYS_ROLE 1 0
  let role := if strap = 3 then 0 else strap
  bytesLE 4 (s.position + 256 * role + 1024 * b2n (decide (s.core.mode = .listen)) + 2048 * b2n (ctValid s) + 4096 * b2n (armed s))

/-- Replaces the 4 bytes at an offset. -/
def putWord (l : List Byte) (off v : Nat) : List Byte := l.take off ++ bytesLE 4 v ++ l.drop (off + 4)

/-- What a node that is not the originator does with an ENUM: COUNT and its record, ADOPT for an armed node, and on by the
other port, or back with END where that is not UP; a returning ENUM passes without a record (R357, R369). -/
def enumNode (s : State) (p : Nat) (f : Frame) (stamp : DWord) : State :=
  let o := otherPort p
  let adopted := numAt f.payload 8 4 / 2 % 2 == 1
  let corr : List Fix := [.add 24 (linkDelay s p - stamp)]
  if f.rsp then sendOn s o .fwd f (if adopted then corr else [])
  else
    let count := (numAt f.payload 12 4 + 1) % 2 ^ 32
    let l1 := putWord f.payload 12 count
    let l2 := if l1.length < 32 + 4 * 64 then l1 ++ enumRecord s else l1
    let mark := armed s && !adopted
    let l3 := if mark then putDword (putWord l2 8 (numAt l2 8 4 ||| 2)) 24 0 else l2
    let fix : List Fix := if mark then [.stamp 16] else if adopted then corr else []
    if frlUp s o then sendOn s o .fwd { f with payload := l3 } fix
    else sendOn s p .fwd { f with payload := putWord l3 8 (numAt l3 8 4 ||| 1), flags := f.flags ||| 0x10, dst := 0 } fix

/-! ## ENUM at the manager (R358–R363) -/

/-- The manager sends ENUM out of a port; a port that is not UP finds nothing. -/
def sendEnum (s : State) (p : Nat) (nonce : List Byte) : State :=
  let path := portPath s p
  if frlUp s p then
    sendOn s p .fwd { typ := 0x01, flags := frlFlags false false false false path, src := srcPos s, dst := 0xFF,
                      payload := nonce ++ List.replicate 24 0 }
  else
    s.modRing fun r => { r with cur := if h : path < 2 then r.cur.set path (some { through := false, count := 0, records := [] }) else r.cur }

/-- Whether a round sends ENUM out of port B as well: the ring is open, or there is no sticky map (R357). -/
def enumBoth (s : State) : Bool := !s.ring.closed || s.ring.sticky.isNone

/-- One round of ENUM. -/
def sendRound (s : State) (nonce : List Byte) : State :=
  let s1 := sendEnum s 0 nonce
  if enumBoth s1 then sendEnum s1 1 nonce else s1

/-- What R358 compares of a round: COUNT, how it came back, positions and roles. -/
def sameFind (a b : Option EnumRes) : Bool :=
  match a, b with
  | some x, some y =>
    x.through == y.through && x.count == y.count &&
      (x.records.map fun w => fld w 9 0) == (y.records.map fun w => fld w 9 0)
  | none, none => true
  | _, _ => false

/-- The nodes of one returned ENUM, by hop; position 0xFF for none. -/
def nodesOf (pathB : Bool) (e : EnumRes) : List RingNode :=
  (List.range e.records.length).map fun i =>
    let w := e.records.getD i 0
    { pathB := pathB, hop := i + 1, pos := fld w 7 0, role := fld w 9 8, listen := bitOf w 10 }

/-- The highest position that R20 lets a ring hold: 63 workers, and a standby where one is strapped. -/
def ringLimit (all : List RingNode) : Nat := if all.any fun n => n.role == 2 then 64 else 63

/-- The position computed for a node, 0 for one below position 1 (R358, R359, R363). -/
def computedPos (s : State) (a : EnumRes) (n : RingNode) : Option Nat :=
  if takenOver s then
    some (if n.pathB then s.position - n.hop else s.position + n.hop)
  else if s.ring.renum.isSome then some n.hop
  else match a.through, s.ring.sticky with
    | true, none => some n.hop
    | true, some (k, _) => if a.count = k then some n.hop else none
    | false, some (k, _) => some (if n.pathB then k + 1 - n.hop else n.hop)
    | false, none => if n.pathB then none else some n.hop

/-- The largest position that may be assigned. -/
def posLimit (s : State) (a : EnumRes) (all : List RingNode) : Nat :=
  if s.ring.renum.isSome || (a.through && s.ring.sticky.isNone) then min (ringLimit all) a.count
  else match s.ring.sticky with
    | some (k, _) => min 64 k
    | none => ringLimit all

/-- Whether a node without a position takes the computed one: within the limit, held by no other, found on one path (R358). -/
def takesPos (s : State) (a : EnumRes) (all : List RingNode) (n : RingNode) (c : Nat) : Bool :=
  decide (1 ≤ c) && decide (c ≤ posLimit s a all) && !(all.any fun m => m.pos == c) &&
    !(all.any fun m => m.pos == 0xFF && m != n && computedPos s a m == some c)

/-- The position a node has after the decision; 0xFF for none. -/
def decidePos (s : State) (a : EnumRes) (all : List RingNode) (n : RingNode) : Nat :=
  match computedPos s a n with
  | none => n.pos
  | some c =>
    if s.ring.renum.isSome then (if c ≤ ringLimit all then c else 0xFF)
    else if n.pos ≠ 0xFF then n.pos
    else if takesPos s a all n c then c else 0xFF

/-- A node whose finding raises 0x7012: it holds another position than the computed one, or cannot be given it (R358). -/
def posConflict (s : State) (a : EnumRes) (all : List RingNode) (n : RingNode) : Bool :=
  match computedPos s a n with
  | none => false
  | some c => !s.ring.renum.isSome && decide (decidePos s a all n ≠ c)

/-- ASSIGN with PATH, target hop count and position (R358). -/
def assignBody (n : RingNode) (pos : Nat) : List Byte :=
  [BitVec.ofNat 8 (b2n n.pathB), BitVec.ofNat 8 n.hop, BitVec.ofNat 8 pos, 0]

/-- The ASSIGN of a node: unprotected to a node without a position, protected to one that holds another (R358, R359). -/
def sendAssign (s : State) (n : RingNode) (pos : Nat) : State :=
  if pos = 0xFF ∨ pos = n.pos then s
  else if n.pos = 0xFF then
    sendPlain s { typ := 0x02, flags := frlFlags false false false false (b2n n.pathB), src := srcPos s, dst := 0xFF,
                  payload := assignBody n pos } (b2n n.pathB) .fwd
  else sendProtected s 0x02 n.pos n.pos false false 0 (assignBody n pos) (routeTo s n.pos)

/-- A found position's lane as the manager tracks it: LISTEN in ROM listen; ADMITTING when it appears with firmware (R28). -/
def lanePresent (s : State) (n : RingNode) : State :=
  if n.role = 3 ∨ n.pos = 0xFF then s
  else if n.listen then setLane (s.modFw fun w => { w with running := nsDel w.running n.pos }) n.pos .listen Err.NODE_LOST
  else if (s.lane n.pos).state = .vacant then setLane s n.pos .admitting else s

/-- A position that held a device and is found on neither path is NODE_LOST, its lane VACANT (R361, R543). -/
def nodeLost (s : State) (pos : Nat) : State :=
  let s1 := raise (s.modFw fun w => { w with running := nsDel w.running pos }) Err.NODE_LOST frlSrc (BitVec.ofNat 64 pos)
  setLane (invalidateKey (invalidateKey s1 (keySlotOf pos false)) (keySlotOf pos true)) pos .vacant Err.NODE_LOST

/-- Keys are agreed with a found node on each path that reaches it and has none; a node in ROM listen holds none (R362, R438,
R546). -/
def agreeKeys (s : State) (n : RingNode) : State :=
  if n.role = 3 ∨ n.pos = 0xFF then s
  else
    let paths := if s.ring.closed then [false, true] else [n.pathB]
    paths.foldl (fun t b =>
      if (findSetup t n.pos b).isSome then t
      else if (t.slot (keySlotOf n.pos b)).valid && !n.listen then t
      else startSetup (invalidateKey t (keySlotOf n.pos b)) n.pos b 0) s

/-- Further standby-strapped devices than the first, from position 1 up, are named by 0x7015 (R22). -/
def extraStandbys (l : List RingNode) : List Nat :=
  (((l.filter fun n => n.role == 2 && n.pos != 0xFF).map (·.pos)).foldl nsAdd []).drop 1

/-- The standby's position: the lowest of the standby-strapped devices (R22). -/
def standbyPos (s : State) : Option Nat :=
  (((s.ring.nodes.filter fun n => n.role == 2 && n.pos != 0xFF).map (·.pos)).foldl nsAdd []).head?

/-- The manager copies the sticky map to an admitted standby when it changes (R548). -/
def provisionMap (s : State) : State :=
  match standbyPos s with
  | some p => if holdsKey s p then startTxn s p false ([0x04, 0x0E, 0, 0] ++ stickyWords s) .quiet else s
  | none => s

/-- The manager copies a position's calibration record to an admitted standby when it changes (R548). -/
def provisionRecord (s : State) (pos : Nat) : State :=
  match standbyPos s with
  | some p => if holdsKey s p then startTxn s p false ([0x05, 0x0E, BitVec.ofNat 8 pos, 0] ++ positionBytes s pos) .quiet else s
  | none => s

/-- Renumbering: what the manager keeps for a lane moves to its new number, and each moved lane's two LANE_STATE events are
sent (R554). -/
def moveLane (before : State) (s : State) (n : RingNode) (pos : Nat) : State :=
  if n.pos = 0xFF ∨ pos = n.pos ∨ pos = 0xFF then s
  else
    let l := before.lane n.pos
    let s1 := (s.modLanes fun x => { x with others := sset (fun _ => {}) x.others pos l, left := if n.pos ∈ before.lanes.left then nsAdd x.left pos else nsDel x.left pos }).modHost
      fun h => { h with loopStore := sset (fun _ => none) (sset (fun _ => none) h.loopStore (2 * pos)
        (sget (fun _ => none) before.host.loopStore (2 * n.pos))) (2 * pos + 1) (sget (fun _ => none) before.host.loopStore (2 * n.pos + 1)) }
    let s2 := s1.modSvc fun v => { v with records := sset (fun _ => []) v.records pos (sget (fun _ => []) before.svc.records n.pos) }
    let s3 := (invalidateKey (invalidateKey s2 (191 + n.pos)) (255 + n.pos))
    postEvent (postEvent s3 0x0101 n.pos [BitVec.ofNat 8 (laneCode l.state), 0, 0, 0]) 0x0101 pos
      [BitVec.ofNat 8 (laneCode l.state), BitVec.ofNat 8 (laneCode l.state), 0, 0]

/-- A lane number that no device has any more is VACANT (R554). -/
def dropLane (s : State) (olds news : List Nat) : State :=
  (olds.filter fun p => !(news.contains p)).foldl (fun t p =>
    t.modLanes fun l => { l with others := sset (fun _ => {}) l.others p {}, left := nsDel l.left p }) s

/-- A manager in its first enumeration adopts the ring's time, of two the one with the smaller HOPS (R369). -/
def adoptTime (s : State) (res : List EnumRes) : State :=
  if s.ring.adopted || s.ring.timeSent then s
  else
    let cand := res.filter fun e => e.adopt.isSome
    let best := cand.foldl (fun (b : Option EnumRes) e => match b with
      | none => some e
      | some x => if e.hops < x.hops then some e else some x) none
    let s1 := s.modRing fun r => { r with adopted := true }
    match best with
    | some e => match e.adopt with
      | some d => s1.stepCt fun c => c + BitVec.ofInt 64 (wholeTicks d.toInt)
      | none => s1
    | none => s1

/-- Two consecutive rounds agree: positions are decided and assigned, the sticky map is stored, lanes follow, and the ring's
state is known (R22–R24, R358–R363). -/
def enumDecide (s : State) (a : EnumRes) (b : Option EnumRes) : State :=
  let all := nodesOf false a ++ (if a.through then [] else match b with | some e => nodesOf true e | none => [])
  let final := all.map fun n => { n with pos := decidePos s a all n }
  let renum := s.ring.renum.isSome
  -- errors
  let mismatch := a.through && !renum && !takenOver s && (match s.ring.sticky with | some (k, _) => k != a.count | none => false)
  let s1 := if mismatch || (all.any fun n => posConflict s a all n) then raise s Err.FRL_RING_CHANGED frlSrc (BitVec.ofNat 64 a.count) else s
  let beyond := (all.find? fun n => match computedPos s a n with | some c => decide (ringLimit all < c) && n.pos == 0xFF | none => false).map (·.hop)
  let beyond := match beyond with | some h => some h | none => if 64 < a.count then some 65 else none
  let s2 := match beyond with | some h => raise s1 Err.RING_OVERSIZE frlSrc (BitVec.ofNat 64 h) | none => s1
  let openEmpty := !a.through && s.ring.sticky.isNone
  let s3 := if openEmpty && !s2.ring.openErr then (raise s2 Err.FRL_RING_OPEN frlSrc 0).modRing fun r => { r with openErr := true } else s2
  -- positions
  let s4 := (all.zip final).foldl (fun t e => sendAssign t e.1 e.2.pos) s3
  let s5 := if renum then
      let moved := (all.zip final).filter fun e => e.1.pos != 0xFF && e.2.pos != 0xFF && e.1.pos != e.2.pos
      let t := (all.zip final).foldl (fun t e => moveLane s4 t e.1 e.2.pos) s4
      raise (dropLane t (all.map (·.pos)) (final.map (·.pos))) Err.SVC_RENUMBERED 0x16 (BitVec.ofNat 64 moved.length)
    else s4
  -- the ring and the sticky map
  let found := (final.map (·.pos)).filter (· ≠ 0xFF)
  let occ := match s.ring.sticky with | some (_, o) => o | none => []
  let n' := if renum || (a.through && s.ring.sticky.isNone) then some a.count else s.ring.sticky.map (·.1)
  let s6 := s5.modRing fun r =>
    { r with sticky := n'.map fun n => (n, found.foldl nsAdd []), closed := a.through && !takenOver s, openErr := r.openErr && !a.through,
             nodes := final, nonce := none, oldNonce := r.nonce.getD [], cur := Vector.replicate 2 none, prev := Vector.replicate 2 none,
             known := true, renum := none, miss := Vector.replicate 2 0 }
  let s7 := s6.wr Reg.FRL_RING (BitVec.ofNat 32 (2 ^ 31 * b2n s6.ring.closed + 2 ^ 16 * (min 127 (nodesOf false a).length) +
    min 127 (match b with | some e => e.records.length | none => 0)))
  -- lanes
  let s8 := final.foldl lanePresent s7
  let s9 := if renum then s8 else (occ.filter fun p => !(found.contains p) && p != s.position).foldl nodeLost s8
  let known := extraStandbys s.ring.nodes
  let s10 := ((extraStandbys final).filter fun p => !(known.contains p)).foldl (fun t p => raise t Err.FRL_STANDBY_EXTRA frlSrc (BitVec.ofNat 64 p)) s9
  let s11 := adoptTime s10 (a :: b.toList)
  let s11 := if s11.ring.sticky = s.ring.sticky ∧ s11.ring.closed = s.ring.closed then s11 else saveSticky s11
  let s11 := if renum then ((all ++ final).map (·.pos)).foldl (fun t p => if p = 0xFF then t else provisionRecord (savePosition t p) p) s11 else s11
  let s12 := final.foldl agreeKeys (if s11.ring.sticky = s.ring.sticky then s11 else provisionMap s11)
  match s.ring.renum with
  | some r => finishReply s12 r 0 []
  | none => s12

/-- The round is complete and agrees with the one before: the manager decides. A re-enumeration of a ring that has opened is
refused with 0x7010 (R359). -/
def enumEvaluate (s : State) : State :=
  let done := s.ring.cur[0].isSome && (!enumBoth s || s.ring.cur[1].isSome)
  let agree := sameFind s.ring.cur[0] s.ring.prev[0] && (!enumBoth s || sameFind s.ring.cur[1] s.ring.prev[1])
  if s.ring.nonce.isSome && done && agree then
    match s.ring.cur[0] with
    | some a =>
      match s.ring.renum, a.through with
      | some r, false => enumDecide (finishReply (s.modRing fun x => { x with renum := none }) r 0x7010 []) a s.ring.cur[1]
      | _, _ => enumDecide s a s.ring.cur[1]
    | none => s
  else s

/-- A foreign ENUM, or another manager in the ring: enumeration stops and DUPLICATE_MANAGER is reported (R21, R552). -/
def duplicateManager (s : State) : State :=
  if s.ring.duplicate then s
  else
    let s1 := (raise s Err.DUPLICATE_MANAGER frlSrc 0).modRing fun r =>
      { r with duplicate := true, nonce := none, due := false }
    if s1.lanes.own.state = .sorting then setLane (ejDisarm s1) s1.ownLane .admitting Err.DUPLICATE_MANAGER else s1

/-- An ENUM that reaches the acting manager: its own brings a result, a foreign one shows a second manager. -/
def enumManager (s : State) (p : Nat) (f : Frame) (stamp : DWord) : State :=
  let nonce := f.payload.take 8
  if some nonce = s.ring.nonce then
    let words := (List.range ((f.payload.length - 32) / 4)).map fun i => wordLE (f.payload.drop (32 + 4 * i))
    if words.any fun w => fld w 9 8 == 1 then duplicateManager s
    else
      let flags := numAt f.payload 8 4
      let adopt := if flags / 2 % 2 = 1 then some (dwordIn f.payload 16 + dwordIn f.payload 24 + linkDelay s p - stamp) else none
      let e : EnumRes := { through := decide (p ≠ pathPort s f.path), count := numAt f.payload 12 4, records := words, hops := f.hops, adopt := adopt }
      enumEvaluate (s.modRing fun r => { r with cur := if h : f.path < 2 then r.cur.set f.path (some e) else r.cur })
  else if nonce = s.ring.oldNonce then s
  else sendOn (duplicateManager s) (otherPort p) .fwd f

/-- ENUM: the first ENUM that a port has delivered is processed (R357, R358). -/
def execEnum (p : Fin 2) (s : State) : Host.Outcome State Fault Refusal :=
  .next (whenLive s fun s =>
    match takeLink s p 0x01 with
    | (none, _) => s
    | (some (f, stamp), t) =>
      if t.rdf Reg.SYS_ROLE 1 0 == 1 || t.isManager then
        if t.ring.duplicate then sendOn t (otherPort p) .fwd f else enumManager t p f stamp
      else enumNode t p f stamp)

/-- A new enumeration begins under a NONCE of its own; a strapped manager takes position 0 (R18, R357). -/
def startEnum (s : State) : State :=
  let (nonce, s1) := s.drawBytes 8
  let s2 := if s1.position = 0xFF then s1.wrf Reg.SYS_ROLE 23 16 0 else s1
  sendRound (s2.modRing fun r =>
    { r with nonce := some nonce, due := false, cur := Vector.replicate 2 none, prev := Vector.replicate 2 none }) nonce

/-- ENUM_ROUND: every 1 ms the manager repeats ENUM until two consecutive rounds agree; one that is due begins (R358, R361,
R362). -/
def execEnumRound (s : State) : Host.Outcome State Fault Refusal :=
  .next (whenLive s fun s =>
    if !s.isManager || !s.fwRuns || s.ring.duplicate then s
    else match s.ring.nonce with
      | none => if s.ring.due || !s.ring.known then startEnum s else s
      | some nonce =>
        enumEvaluate (sendRound (s.modRing fun r => { r with prev := r.cur, cur := Vector.replicate 2 none }) nonce))

/-! ## ASSIGN (R358) -/

/-- A node takes a position; a node that changes its own discards both session keys (R554). -/
def takePosition (s : State) (pos : Nat) : State :=
  let old := s.position
  let s1 := s.wrf Reg.SYS_ROLE 23 16 pos
  if old ≠ 0xFF ∧ old ≠ pos then setSess (setSess s1 0 []) 1 [] else s1

/-- ASSIGN: the first ASSIGN that a port has delivered: by hop count to a node without a position, protected to a node that
holds one (R358). -/
def execAssign (p : Fin 2) (s : State) : Host.Outcome State Fault Refusal :=
  .next (whenLive s fun s =>
    match takeLink s p 0x02 with
    | (none, _) => s
    | (some (f, _), t) =>
      let target := numAt f.payload 1 1
      let pos := numAt f.payload 2 1
      if f.prot then takePosition t pos
      else if t.isManager then t
      else
        let u := sendOn t (otherPort p) .fwd f
        if t.position = 0xFF ∧ f.hops = target then takePosition u pos else u)

end Sys2Proof.Machine
end

