-- ==== Sys2Proof/Machine/Visible.lean ====
section
/-! DEFINITION. The visible channel (R234–R250): the receiver, line checks, registration, delivery and the camera trigger. -/

namespace Sys2Proof.Machine

def visSrc : Byte := 0x0C

/-- VIS_FMT.MODE. -/
def visMode (s : State) : Nat := s.rdf Reg.VIS_FMT 19 16

/-- Pixels per clock of a mode (R235). -/
def visPpc (mode : Nat) : Nat := if 5 ≤ mode ∧ mode ≤ 7 then 2 else 1

/-- Full-scale code of a mode (R235). -/
def visFull (mode : Nat) : Nat :=
  match mode with
  | 0 | 5 | 8 => 255 | 1 | 6 => 1023 | 2 | 7 => 4095 | 3 => 16383 | _ => 65535

/-- The receiver's settings are valid (R236). -/
def visValid (s : State) : Bool :=
  let len := s.rdf Reg.VIS_LINE 13 0
  decide (visMode s ≤ 8) && decide (16 ≤ len) && decide (len ≤ 8192) && len % visPpc (visMode s) == 0

/-- The effect of a write to VIS_CTRL (R236, R245). -/
def visCtrlEffect (s : State) (v : Word) : State :=
  let was := s.rdb Reg.VIS_CTRL 0
  let s1 := fieldWrite s Reg.VIS_CTRL v
  if bitOf v 0 then
    if was then s1
    else if visValid s then
      ((s1.wrb Reg.VIS_STAT 0 true).wr Reg.VIS_LINECNT 0).modVis fun x =>
        { x with line := none, gap0 := false, gap1 := false, lenErr := false }
    else raise (s1.wrb Reg.VIS_CTRL 0 false) Err.VIS_FORMAT visSrc
  else ((s1.wrb Reg.VIS_STAT 0 false).wrb Reg.VIS_STAT 1 false).modVis fun x => { x with line := none }

/-- VIS_ENABLE (R236): a write to VIS_CTRL. -/
def execVisEnable (m : Master) (v : Word) (s : State) : Host.Outcome State Fault Refusal :=
  writeRow m Reg.VIS_CTRL v visCtrlEffect s

/-- The effect of a write to VIS_FMT or VIS_LINE: ignored while the channel runs (R236). -/
def visFormatEffect (a : Nat) (s : State) (v : Word) : State :=
  if s.rdb Reg.VIS_STAT 0 then raise s Err.VIS_FORMAT visSrc else fieldWrite s a v

/-- VIS_LOCK (R234, R239): the pixel clock has stayed in band; its measured frequency in kHz. -/
def execVisLock (khz : BitVec 17) (s : State) : Host.Outcome State Fault Refusal :=
  .next <| whenLive s fun s =>
    if s.rdb Reg.VIS_STAT 0 && decide (19000 ≤ khz.toNat) && decide (khz.toNat ≤ 87000) then
      (s.wrb Reg.VIS_STAT 1 true).wr Reg.VIS_FREQ (khz.zeroExtend 32)
    else s

/-- A line that is not delivered: it is counted, and the next line delivered on either port carries GAP (R245). -/
def visLineLost (s : State) : State :=
  (s.wr Reg.VIS_LINECNT (BitVec.ofNat 32 ((s.rdf Reg.VIS_LINECNT 23 0 + 1) % 2 ^ 24))).modVis fun x =>
    { x with line := none, gap0 := true, gap1 := true }

/-- VIS_LOCK_LOST (R234, R239). -/
def execVisLockLost (s : State) : Host.Outcome State Fault Refusal :=
  .next <| whenLive s fun s =>
    if s.rdb Reg.VIS_STAT 1 then
      let s1 := if s.vis.line.isSome then visLineLost s else s.modVis fun x => { x with gap0 := true, gap1 := true }
      raise ((s1.wrb Reg.VIS_STAT 1 false).bump Reg.VIS_UNLOCK 31 0) Err.VIS_LOCK_LOST visSrc
    else s

/-- VIS_LINE_START (R239, R243, R244): LVAL, qualified by FVAL where FVAL_REQ is 1, rises, and the edge reaches CLK_SEC. -/
def execVisLineStart (s : State) : Host.Outcome State Fault Refusal :=
  .next <| whenLive s fun s =>
    if s.rdb Reg.VIS_STAT 0 && s.rdb Reg.VIS_STAT 1 && s.vis.line.isNone then
      let s1 := if s.vis.swap then s.wrb Reg.VIS_STAT 8 (!s.rdb Reg.VIS_STAT 8) else s
      s1.modVis fun x => { x with swap := false, line := some (s.ct + (s.rd Reg.VIS_STAMP_ADJ).signExtend 64) }
    else s

/-- The pixels of one clock, each a list of components, from the Base bit assignment (R235; PRESUMED, log 19). -/
def visPixels (mode : Nat) (d : BitVec 24) : List (List Nat) :=
  match mode with
  | 0 => [[fld d 7 0]]
  | 1 => [[fld d 9 0]]
  | 2 => [[fld d 11 0]]
  | 3 => [[fld d 13 0]]
  | 4 => [[fld d 15 0]]
  | 5 => [[fld d 7 0], [fld d 15 8]]
  | 6 => [[fld d 9 0], [fld d 13 12 * 256 + fld d 23 16]]
  | 7 => [[fld d 11 0], [fld d 15 12 * 256 + fld d 23 16]]
  | _ => [[fld d 7 0, fld d 15 8, fld d 23 16]]

/-- A pixel or one of its components is at full scale. -/
def visClipped (mode : Nat) (p : List Nat) : Bool := p.any fun v => v == visFull mode

/-- The registered value and QUAL of one column (R241, R242). -/
def visColumn (mode : Nat) (pixels : List (List Nat)) (entry : Word) : Nat × Nat :=
  let start := fld entry 28 16
  let count := fld entry 5 0
  if !bitOf entry 31 || count == 0 || decide (pixels.length < start + count) then (0, 3)
  else
    let use := (pixels.drop start).take count
    let mean := fun (k : Nat) => (roundDiv ((use.foldl (fun a p => a + p.getD k 0) 0 : Nat)) count).toNat
    let v := if mode = 8 then mean 0 * 2 ^ 16 + mean 1 * 2 ^ 8 + mean 2 else mean 0
    (v, if use.any (visClipped mode) then 2 else 0)

/-- The header of a visible packet (R245). -/
def visHeader (s : State) (stamp : CTime) (gap : Bool) : List Nat :=
  timeWords stamp ++ [s.rdf Reg.VIS_LINECNT 23 0 * 2 ^ 8 + b2n gap * 2 ^ 7 + visMode s, s.rdf Reg.VIS_LINE 13 0,
    b2n (s.rdb Reg.VIS_STAT 8)]

/-- A line reaches visible port v (R246, R252, R270): it is taken whole, or dropped where the port cannot take it whole;
whether a port that still holds an earlier line can is a free choice (log 20). -/
def visDeliver (s : State) (v : Nat) (l : List QEntry) : State :=
  let setGap := fun (g : Bool) (t : State) => t.modVis fun x => if v = 0 then { x with gap0 := g } else { x with gap1 := g }
  if (portSlots s (2 + v)).isEmpty then setGap false s
  else if !s.portsOpen then setGap true (s.bump Reg.FAB_BLIND_DROP 31 0)
  else
    let (k, s1) := if (visHeld s v).isEmpty then (0, s) else s.drawNat
    if k % 2 = 0 then pumpPorts (setGap false (setVisHeld s1 v (visHeld s1 v ++ l)))
    else setGap true (raise (s1.bump Reg.VIS_DROP 31 0) Err.VIS_DROPPED visSrc (BitVec.ofNat 64 v))

/-- An accepted line is registered and delivered. -/
def visAccept (s : State) (stamp : CTime) (clocks : List PixClock) : State :=
  let mode := visMode s
  let s1 := (s.wr Reg.VIS_LINECNT (BitVec.ofNat 32 ((s.rdf Reg.VIS_LINECNT 23 0 + 1) % 2 ^ 24))).modVis fun x =>
    { x with line := none, lenErr := false }
  let raw := clocks.map fun c => (c.data.toNat, if (visPixels mode c.data).any (visClipped mode) then 2 else 0)
  let pixels := clocks.flatMap fun c => visPixels mode c.data
  let base := if s.rdb Reg.VIS_STAT 8 then 0x400C2000 else 0x400C1000
  let cols := (List.range (feCols s)).map fun c => visColumn mode pixels (s.rd (base + 4 * c))
  let s2 := if s1.rdb Reg.VIS_CTRL 1 then visDeliver s1 0 (packetEntries (visHeader s1 stamp s1.vis.gap0) raw) else s1
  if s2.rdb Reg.VIS_CTRL 2 then visDeliver s2 1 (packetEntries (visHeader s2 stamp s2.vis.gap1) cols) else s2

/-- VIS_LINE_END (R237, R242, R245, R246): LVAL falls after these pixel clocks. -/
def execVisLineEnd (clocks : List PixClock) (s : State) : Host.Outcome State Fault Refusal :=
  .next <| whenLive s fun s =>
    match s.vis.line with
    | none => s
    | some stamp =>
      let use := if s.rdb Reg.VIS_FMT 9 then clocks.filter (·.dval) else clocks
      if use.length * visPpc (visMode s) = s.rdf Reg.VIS_LINE 13 0 then visAccept s stamp use
      else
        let s1 := (visLineLost s).bump Reg.VIS_LENERR 31 0
        if s.vis.lenErr then s1
        else raise (s1.modVis fun x => { x with lenErr := true }) Err.VIS_LINE_LEN visSrc

/-- The effect of a write to VIS_SWAP (R243). -/
def visSwapEffect (s : State) (v : Word) : State := if bitOf v 0 then s.modVis fun x => { x with swap := true } else s

/-- VIS_SWAP (R243). -/
def execVisSwap (m : Master) (v : Word) (s : State) : Host.Outcome State Fault Refusal :=
  writeRow m Reg.VIS_SWAP v visSwapEffect s

/-- An address is a registration entry. -/
def isVisReg (a : Nat) : Bool := (decide (0x400C1000 ≤ a) && decide (a < 0x400C3000)) && a % 4 == 0

/-- The effect of a write to a registration entry: ignored in the active bank (R243). -/
def visRegEffect (a : Nat) (s : State) (v : Word) : State :=
  if decide (0x400C2000 ≤ a) = s.rdb Reg.VIS_STAT 8 then raise s Err.VIS_REG_BUSY visSrc (BitVec.ofNat 64 a)
  else fieldWrite s a v

/-- VIS_REG_WRITE (R241, R243). -/
def execVisRegWrite (m : Master) (addr v : Word) (s : State) : Host.Outcome State Fault Refusal :=
  if isVisReg addr.toNat then writeRow m addr.toNat v (visRegEffect addr.toNat) s else .next s

/-- The effect of a write to VIS_TRIG (R248): setting EN claims the pin; clearing it releases the claim. -/
def visTrigEffect (s : State) (v : Word) : State :=
  let pin := fld v 19 16
  let was := s.rdb Reg.VIS_TRIG 31
  if !bitOf v 31 then (fieldWrite s Reg.VIS_TRIG v).modVis fun x => { x with trigHigh := false }
  else if was && s.rdf Reg.VIS_TRIG 19 16 == pin then fieldWrite s Reg.VIS_TRIG v
  else if claimed s 1 pin then
    let s1 := if was then s else (fieldWrite s Reg.VIS_TRIG v).wrb Reg.VIS_TRIG 31 false
    raise s1 Err.VIS_TRIG_CLAIM visSrc (BitVec.ofNat 64 pin)
  else
    ((fieldWrite s Reg.VIS_TRIG v).wrb Reg.SYS_GPIO_IRQ_STAT pin false).modVis fun x =>
      { x with trigHigh := false, trigRows := 0, trigAt := s.ct }

/-- VIS_TRIG_ENABLE (R248). -/
def execVisTrigEnable (m : Master) (v : Word) (s : State) : Host.Outcome State Fault Refusal :=
  writeRow m Reg.VIS_TRIG v visTrigEffect s

/-- A pulse of the trigger is due. -/
def visTrigDue (s : State) : Bool :=
  if s.rdb Reg.VIS_TRIG 24 then
    decide (s.vis.trigAt.toNat + max 200 (s.rd Reg.VIS_TRIG_PER).toNat ≤ s.ct.toNat)
  else decide (max 1 (s.rdf Reg.VIS_TRIG 15 8) ≤ s.vis.trigRows)

/-- VIS_TRIGGER (R248): the pin's rising edge where a pulse is due, or the falling edge after WIDTH. -/
def execVisTrigger (high : Bool) (s : State) : Host.Outcome State Fault Refusal :=
  .next <| whenLive s fun s =>
    if !s.rdb Reg.VIS_TRIG 31 then s
    else if !high then s.modVis fun x => { x with trigHigh := false }
    else if visTrigDue s then s.modVis fun x => { x with trigHigh := true, trigRows := 0, trigAt := s.ct }
    else s

end Sys2Proof.Machine
end

