-- ==== Sys2Proof/Machine/Choreo.lean ====
section
/-! DEFINITION. Choreographies (R254–R275): format, checks, claims, loading, replacement, unloading and tally entries. -/

namespace Sys2Proof.Machine

/-- FAB_ in the peripheral slots. -/
def fabSrc : Byte := 0x0D

/-! ## Body sections (R258) -/

/-- What a body sets up beyond the configuration: instruction words and constants by cell. -/
structure Body where
  conf   : Choreo
  code   : List (Nat × List Byte)
  consts : List (Nat × Nat × List Byte)
  deriving DecidableEq, Repr

/-- The sections of a body, up to and without END, after which only zeros may follow. -/
def splitSections : Nat → List Byte → Option (List (Nat × List Byte))
  | 0, _ => none
  | n + 1, l =>
    let typ := numAt l 0 2
    let len := numAt l 4 4
    if l.length < 8 ∨ numAt l 2 2 ≠ 0 ∨ len % 4 ≠ 0 ∨ l.length < 8 + len then none
    else if typ = 8 then (if len = 0 ∧ (l.drop 8).all (· == 0) then some [] else none)
    else if typ = 0 ∨ 8 < typ then none
    else (splitSections n (l.drop (8 + len))).map fun r => (typ, (l.drop 8).take len) :: r

/-- The sections stand in the order of the table. -/
def risingTypes : List Nat → Bool
  | a :: b :: r => decide (a ≤ b) && risingTypes (b :: r)
  | _ => true

/-- How often a type occurs. -/
def countType (l : List (Nat × List Byte)) (t : Nat) : Nat := (l.filter fun e => e.1 == t).length

/-- The payload of the first section of a type. -/
def payloadOf (l : List (Nat × List Byte)) (t : Nat) : List Byte := ((l.find? fun e => e.1 == t).map (·.2)).getD []

/-- The payload of a section has the length and the reserved bytes that its table gives. -/
def sectionShape (e : Nat × List Byte) : Bool :=
  let p := e.2
  match e.1 with
  | 1 => decide (8 ≤ p.length) && decide (numAt p 4 2 ≤ 128) && p.length == 8 + 8 * numAt p 4 2 && numAt p 6 2 == 0
  | 2 => p.length == 120 && (List.range 10).all fun i => numAt p (12 * i + 10) 2 == 0
  | 3 => p.length == 128 && (List.range 32).all fun i => numAt p (4 * i + 1) 1 < 2 && numAt p (4 * i + 2) 2 == 0
  | 4 => decide (4 ≤ p.length) && numAt p 1 3 == 0
  | 5 => decide (4 ≤ p.length) && numAt p 1 1 == 0 && numAt p 2 2 % 4 == 0
  | 6 => decide (4 ≤ p.length) && decide (numAt p 0 2 ≤ 32) && numAt p 2 2 == 0 && p.length == 4 + 8 * numAt p 0 2 &&
      (List.range (numAt p 0 2)).all fun i => numAt p (4 + 8 * i + 3) 1 == 0
  | 7 => decide (4 ≤ p.length) && decide (1 ≤ numAt p 0 1) && decide (numAt p 0 1 ≤ 16) && numAt p 1 3 == 0 &&
      p.length == 4 + 4 * numAt p 0 1 && (List.range (numAt p 0 1)).all fun i => numAt p (4 + 4 * i + 2) 1 ≤ 2 && numAt p (4 + 4 * i + 3) 1 == 0
  | _ => false

/-- A route entry. -/
def routeOf (p : List Byte) (i : Nat) : Route :=
  let o := 8 + 8 * i
  { srcCell := numAt p o 1, srcSlot := numAt p (o + 1) 1, dstCell := numAt p (o + 2) 1, dstSlot := numAt p (o + 3) 1,
    hops := numAt p (o + 4) 1, path := numAt p (o + 5) 3 }

/-- A port entry. -/
def portOf (p : List Byte) (i : Nat) : PortCfg × Nat :=
  let o := 12 * i
  let n := numAt p (o + 1) 1
  ({ port := numAt p o 1, slots := (List.range (min 4 n)).map fun k => (numAt p (o + 2 + 2 * k) 1, numAt p (o + 3 + 2 * k) 1) }, n)

/-- A claim entry. -/
def claimOf (p : List Byte) (i : Nat) : Claim :=
  let o := 4 + 8 * i
  { kind := numAt p o 1, id := numAt p (o + 1) 1, flags := numAt p (o + 2) 1, base := numAt p (o + 4) 2, limit := numAt p (o + 6) 2 }

/-- The sections as they are parsed, or 0x5105 (R258). -/
def parseBody (l : List Byte) : Option (Body × List Nat) :=
  match splitSections (l.length / 8 + 1) l with
  | none => none
  | some secs =>
    if risingTypes (secs.map (·.1)) && ([1, 2, 3, 6, 7].all fun t => countType secs t == 1) && decide (countType secs 4 ≤ 32) &&
        secs.all sectionShape then
      let t := payloadOf secs 1
      let pr := payloadOf secs 2
      let pa := payloadOf secs 3
      let cl := payloadOf secs 6
      let ta := payloadOf secs 7
      let conf : Choreo :=
        { cells := numAt t 0 4
          routes := (List.range (numAt t 4 2)).map (routeOf t)
          ports := (List.range 10).map fun i => (portOf pr i).1
          parts := (List.range 32).map fun i => (numAt pa (4 * i) 1, numAt pa (4 * i + 1) 1 == 1)
          claims := (List.range (numAt cl 0 2)).map (claimOf cl)
          tally := (List.range (numAt ta 0 1)).map fun i => (numAt ta (4 + 4 * i) 2, numAt ta (6 + 4 * i) 1) }
      some ({ conf := conf
              code := (secs.filter fun e => e.1 == 4).map fun e => (numAt e.2 0 1, e.2.drop 4)
              consts := (secs.filter fun e => e.1 == 5).map fun e => (numAt e.2 0 1, numAt e.2 2 2, e.2.drop 4) },
            (List.range 10).map fun i => (portOf pr i).2)
    else none

/-! ## Cells, routes, ports and claim entries (R259–R262) -/

/-- A cell is set in CELLS. -/
def cellSet (c : Choreo) (k : Nat) : Bool := decide (k < 32) && c.cells / 2 ^ k % 2 == 1

/-- R261. -/
def cellsOk (b : Body) : Bool :=
  ((List.range 32).all fun k => ((b.code.filter fun e => e.1 == k).length == b2n (cellSet b.conf k))) &&
    (b.code.all fun e => decide (e.1 < 32) && decide (e.2.length ≤ 8192)) &&
    (b.conf.parts.all fun e => decide (e.1 ≤ 32)) &&
    (b.consts.all fun e => cellSet b.conf e.1 && decide (e.2.1 + e.2.2.length ≤ 32768))

/-- The neighbour of a cell in a direction of R258, inside the mesh. -/
def meshStep (c d : Nat) : Option Nat :=
  match d with
  | 0 => if 8 ≤ c then some (c - 8) else none
  | 1 => if c % 8 < 7 then some (c + 1) else none
  | 2 => if c < 24 then some (c + 8) else none
  | _ => if 0 < c % 8 then some (c - 1) else none

/-- The directed links of a path from a cell, with its end; none where it leaves the mesh. -/
def pathLinks : Nat → Nat → Nat → Option (List (Nat × Nat) × Nat)
  | 0, _, c => some ([], c)
  | n + 1, p, c =>
    match meshStep c (p % 4) with
    | none => none
    | some c' => (pathLinks n (p / 4) c').map fun r => ((c, p % 4) :: r.1, r.2)

/-- R259. -/
def routesOk (c : Choreo) : Bool :=
  let links := c.routes.map fun r => pathLinks r.hops r.path r.srcCell
  (c.routes.all fun r =>
    cellSet c r.srcCell && cellSet c r.dstCell && decide (r.srcSlot < 4) && decide (r.dstSlot < 4) && decide (r.hops ≤ 10) &&
      decide (r.path < 4 ^ r.hops) && (r.hops != 0 || r.srcCell == r.dstCell) &&
      ((pathLinks r.hops r.path r.srcCell).map (·.2) == some r.dstCell)) &&
    let all := links.flatMap fun l => (l.map (·.1)).getD []
    all.all fun e => decide (all.count e ≤ 4)

/-- The queue claim that a port needs (R252). -/
def portClaim (p : Nat) : Option Nat :=
  match p with
  | 2 => some 0 | 3 => some 0 | 5 => some 12 | 9 => some 15 | 11 => some 16 | _ => none

/-- A port of the list is enabled. -/
def portEnabled (c : Choreo) (p : Nat) : Bool := c.ports.any fun e => e.port == p && !e.slots.isEmpty

/-- R260; `counts` are the COUNT bytes in the order of the entries. -/
def portsOk (c : Choreo) (counts : List Nat) : Bool :=
  let ids := c.ports.map (·.port)
  let ins := (c.routes.map fun r => (r.dstCell, r.dstSlot)) ++ (c.ports.filter fun e => decide (e.port < 8)).flatMap (·.slots)
  let outs := (c.routes.map fun r => (r.srcCell, r.srcSlot)) ++ (c.ports.filter fun e => decide (8 ≤ e.port)).flatMap (·.slots)
  ([0, 1, 2, 3, 4, 5, 8, 9, 10, 11].all fun p => ids.count p == 1) &&
    ((c.ports.zip counts).all fun e => decide (e.2 ≤ (if e.1.port < 8 then 4 else 1)) && (!(e.1.port == 8 || e.1.port == 10) || e.2 == 1)) &&
    (c.ports.all fun e => e.slots.all fun k => cellSet c k.1 && decide (k.2 < 4)) &&
    ([0, 12, 15, 16].all fun q =>
      (([2, 3, 5, 9, 11].any fun p => portClaim p == some q && portEnabled c p) == (c.claims.any fun k => k.kind == 4 && k.id == q))) &&
    (ins.all fun k => decide (ins.count k ≤ 1)) && (outs.all fun k => decide (outs.count k ≤ 4))

/-- A claim entry lies in the table of R262. -/
def claimOk (c : Claim) : Bool :=
  match c.kind with
  | 1 => decide (c.id < 16) && decide (c.flags < 2) && c.base == 0 && c.limit == 0
  | 2 => decide (c.id < 8) && c.flags == 0 && c.base == 0 && c.limit == 0
  | 3 => decide (c.id < 8) && c.flags == 0 && c.base == 0 && c.limit == 0
  | 4 => (c.id == 0 || c.id == 12 || c.id == 15 || c.id == 16) && c.flags == 0 && c.base == 0 && c.limit == 0
  | 5 => c.id == 0 && decide (c.flags < 4) && decide (c.base ≤ c.limit) && decide (c.limit ≤ 1023)
  | _ => false

/-- Every entry is valid and no resource is named twice. -/
def claimsOk (l : List Claim) : Bool :=
  l.all claimOk && (l.map fun c => (c.kind, c.id)).all fun k => (l.filter fun c => (c.kind, c.id) == k).length == 1

/-! ## Authenticity (R256) and the checks before the claims (R268) -/

/-- The plaintext body of a choreography that is authentic under a tenant's keys. -/
def openChoreo (l : List Byte) (keys : List Byte × List Byte) : Option (List Byte) :=
  let n := numAt l 0x14 4
  let h := slice l 0 0x100
  let ct := slice l 0x100 n
  if !ecdsaCheck p256 keys.2 (sha256 (h ++ ct)) (slice l (0x100 + n) 64) then none
  else match keyUnwrap keys.1 (slice h 0x20 40) with
    | none => none
    | some cek => gcmDecrypt cek (slice h 0x48 12) (h.take 0x60) ct (slice h 0x60 16)

/-- Bytes [a, b) of a list are zero. -/
def zeroSpan (l : List Byte) (a b : Nat) : Bool := ((l.drop a).take (b - a)).all (· == 0)

/-- Checks 1 to 6 of R268: the parsed body, or the first error. -/
def checkChoreo (s : State) (l : List Byte) : Half × Option Body :=
  let n := numAt l 0x14 4
  let tenant := numAt l 8 2
  if l.length < 320 ∨ l.length ≠ 320 + n ∨ numAt l 0 4 ≠ 0xC7E00A11 ∨ numAt l 4 2 ≠ 1 then (Err.FAB_FORMAT, none)
  else if numAt l 6 2 ≠ 0 ∨ 255 < tenant ∨ numAt l 0x10 4 = 0 ∨ 12000 < numAt l 0x10 4 ∨ n % 16 ≠ 0 ∨ n < 16 ∨ 0x160000 < n ∨
      !(zeroSpan l 0x1B 0x20 && zeroSpan l 0x54 0x60 && zeroSpan l 0x70 0x100) then (Err.FAB_HEADER, none)
  else if numAt l 0xC 4 < (cntRead s (0x200 + tenant)).getD 0 then (Err.FAB_ROLLBACK, none)
  else match tenantKeys s tenant with
    | none => (Err.FAB_NO_KEY, none)
    | some keys => match openChoreo l keys with
      | none => (Err.FAB_AUTH, none)
      | some body => match parseBody body with
        | none => (Err.FAB_SECTION, none)
        | some (b, counts) =>
          let conf := { b.conf with tenant := tenant, recipe := numAt l 0xA 2, version := numAt l 0xC 4, resLimit := numAt l 0x10 4, bodyLen := n }
          let b := { b with conf := conf }
          let cols := numAt l 0x18 2
          let vis := numAt l 0x1A 1
          if !cellsOk b then (Err.FAB_CELL, none)
          else if !routesOk conf then (Err.FAB_ROUTE, none)
          else if !portsOk conf counts then (Err.FAB_PORT, none)
          else if !claimsOk conf.claims then (Err.FAB_CLAIM_INVALID, none)
          else if (cols ≠ 0 ∧ cols ≠ feCols s) ∨ (vis ≠ 0xFF ∧ !(s.rdb Reg.VIS_CTRL 0 && visMode s == vis)) then
            (Err.FAB_GEOMETRY, none)
          else (0, some b)

/-! ## Claims (R264–R266) -/

/-- A carve-out of the SRAM gate is free: EN, LOCK and CLAIMED are clear. -/
def carveFree (s : State) (e : Nat) : Bool :=
  !(s.rdb (Reg.GATE_SCO_PERM e) 28 || s.rdb (Reg.GATE_SCO_PERM e) 29 || s.rdb (Reg.GATE_SCO_PERM e) 31)

/-- An enabled carve-out overlaps pages; those that a choreography has claimed can be left out. -/
def carveOverlap (s : State) (base limit : Nat) (skipClaimed : Bool) : Bool :=
  (List.range 8).any fun e =>
    s.rdb (Reg.GATE_SCO_PERM e) 28 && !(skipClaimed && s.rdb (Reg.GATE_SCO_PERM e) 29) &&
      decide (s.rdf (Reg.GATE_SCO_BASE e) 10 0 ≤ limit) && decide (base ≤ s.rdf (Reg.GATE_SCO_LIMIT e) 10 0)

/-- A claim collides with a holder; for a replacement the old choreography's claims count as free (R265, R271). -/
def claimCollides (s : State) (replace : Bool) (c : Claim) : Bool :=
  if c.kind = 5 then
    carveOverlap s c.base c.limit replace ||
      !((List.range 8).any fun e => carveFree s e || (replace && s.rdb (Reg.GATE_SCO_PERM e) 29))
  else
    let h := claimCode s c.kind c.id
    h != 0 && !(replace && h == 2)

/-- A window's permissions: FD read, FD write, CC read, with EN and CLAIMED (R265). -/
def windowPerm (c : Claim) : Word := BitVec.ofNat 32 (2 ^ 28 + 2 ^ 29 + 2 ^ 4 + 2 ^ 5 * (c.flags % 2) + c.flags / 2 % 2)

/-- Windows take the lowest free carve-out (R265). -/
def takeWindows (s : State) (l : List Claim) : State :=
  (l.filter fun c => c.kind == 5).foldl (fun t c =>
    match (List.range 8).find? (carveFree t) with
    | some e => claimCarve t 1 e c.base c.limit (windowPerm c)
    | none => t) s

/-- Claimed carve-outs return to their released state (R272). -/
def dropWindows (s : State) : State :=
  (List.range 8).foldl (fun t e => if t.rdb (Reg.GATE_SCO_PERM e) 29 then claimCarve t 1 e 0 0 0 else t) s

/-- Every claim of the lane is released. -/
def dropClaims (s : State) : State := (dropWindows s).modFab fun f => { f with held := [], reserved := [], pins := 0 }

/-! ## Tally counters (R263, R471) -/

/-- A tally counter of 48 bits. -/
def tallyCounter (s : State) (c : Nat) : Nat := s.rd64 (Reg.ACS_TALLY_LO c) (Reg.ACS_TALLY_HI c)

/-- Adds to a key's value; a device holds at most 128 keys, and usage of further keys folds into (TENANT, 0xFFFF, 3). -/
def foldKey (l : List (TallyKey × Nat)) (k : TallyKey) (n : Nat) : List (TallyKey × Nat) :=
  let add (k : TallyKey) : List (TallyKey × Nat) := l.map fun e => if e.1 = k then (k, (e.2 + n) % 2 ^ 64) else e
  if l.any fun e => e.1 == k then add k
  else if l.length < 128 then l ++ [(k, n)]
  else
    let k' : TallyKey := (k.1, 0xFFFF, 3)
    if l.any fun e => e.1 == k' then add k' else l ++ [(k', n)]

/-- The key of a tally class of the loaded choreography. -/
def classKey (s : State) (c : Nat) : TallyKey :=
  let e := s.fab.conf.tally.getD c (0xFFFF, 3)
  (s.fab.conf.tenant, e.1, e.2)

/-- Every counter is added to the folded value of its key and zeroed (R471). -/
def foldTally (s : State) : State :=
  (List.range s.fab.conf.tally.length).foldl (fun t c =>
    let n := tallyCounter t c
    (t.modMet fun m => { m with folded := foldKey m.folded (classKey s c) n }).wr64 (Reg.ACS_TALLY_LO c) (Reg.ACS_TALLY_HI c) 0) s

/-- TALLY_ENTRY: a packet of the tally port adds COUNT to its class (R263, R471). -/
def execTallyEntry (s : State) : Host.Outcome State Fault Refusal :=
  .next (whenLive s fun s =>
    match queuePacket s 14 with
    | (some (e :: _), t) =>
      let c := fld e.data 31 28
      if t.fabLoaded && decide (c < t.fab.conf.tally.length) then
        t.wr64 (Reg.ACS_TALLY_LO c) (Reg.ACS_TALLY_HI c) ((tallyCounter t c + fld e.data 15 0) % 2 ^ 48)
      else raise (t.bump Reg.FAB_TALLY_BAD 31 0) Err.FAB_TALLY_CLASS fabSrc (BitVec.ofNat 64 c)
    | (_, t) => t)

/-! ## Requests (R267, R272) -/

/-- A request of the enclave has its outcome: FAB_LAST_ERR, line 22, and the error in its class (R275, R542). -/
def fabOutcome (s : State) (code : Half) : State :=
  let s1 := (s.wr Reg.FAB_LAST_ERR (code.truncate 32)).wrb Reg.ERR_EVT 6 true
  if code = 0 then s1 else raise s1 code fabSrc

/-- A request is refused or has failed. -/
def fabFail (s : State) (r : ReplyTo) (code : Half) : State := finishReply (fabOutcome s code) r code []

/-- The preconditions of a load, in the order of R267: a lane runs at most one choreography at a time (R26). -/
def loadRefusal (s : State) (replace : Bool) (tenant : Nat) : Option Half :=
  let st := s.lanes.own.state
  if s.fab.load.isSome || s.fab.unload.isSome then some Err.FAB_BUSY
  else if (!replace && (s.fabLoaded || !(st = .admitting || st = .idle))) || (replace && !s.fabLoaded) ||
      (st = .vacant || st = .listen || st = .safe) then some Err.FAB_LANE_STATE
  else if calState s ≠ 0 then some Err.CAL_ACTIVE
  else if (usableSlots s).isEmpty then some Err.CAL_NONE
  else if (tenantKeys s tenant).isNone then some Err.FAB_NO_KEY
  else none

/-- TENANT of the choreography in a buffer. -/
def bufTenant (s : State) (buf : Nat) : Nat := natLE (sparseBytes (s.buf buf).data 8 2)

/-- A load request (R267): refused, or its check pass begins. -/
def loadRequest (s : State) (replace : Bool) (buf : Nat) (swapAt : CTime) (r : ReplyTo) : State :=
  match loadRefusal s replace (bufTenant s buf) with
  | some c => fabFail s r c
  | none =>
    (s.wrf Reg.FAB_STAT 29 28 1).modFab fun f =>
      { f with load := some { replace := replace, swapAt := swapAt, buf := buf, phase := .checking, reply := r } }

/-- A load has ended without effect: its reservations are released. -/
def loadEnd (s : State) (j : LoadJob) (code : Half) : State :=
  fabFail ((s.wrf Reg.FAB_STAT 29 28 0).modFab fun f => { f with load := none, reserved := [] }) j.reply code

/-- A load abandoned by the safe state returns 0x510F (R274). -/
def loadAbandoned (s : State) : State :=
  match s.fab.load with
  | some j => if j.phase = .abandoned then loadEnd s j Err.FAB_LANE_STATE else s
  | none => s

/-- The swap boundary: the ports close and the fabric drains for the old RES_LIMIT (R271). -/
def swapBoundary (s : State) (j : LoadJob) : State :=
  (s.wrb Reg.FAB_STAT 30 false).modFab fun f => { f with load := some { j with phase := .draining }, openDue := false }

/-- The apply pass begins: the cells halt (R269). -/
def applyBegins (s : State) (j : LoadJob) : State :=
  ((cellsStop s).wrf Reg.FAB_STAT 29 28 3).modFab fun f => { f with load := some { j with phase := .applying } }

/-- The check pass has passed: claims are taken or reserved (R265, R271). -/
def checkPassed (s : State) (j : LoadJob) (b : Body) : State :=
  let j := { j with choreo := b.conf, keys := (tenantKeys s b.conf.tenant).getD ([], []) }
  if b.conf.claims.any (claimCollides s j.replace) then loadEnd s j Err.FAB_CLAIM_CONFLICT
  else if j.replace then
    let s1 := (s.wrf Reg.FAB_STAT 29 28 2).modFab fun f => { f with reserved := b.conf.claims.filter fun c => !(f.held.contains c), load := some { j with phase := .waitSwap } }
    if s1.feRunning then s1 else swapBoundary s1 { j with phase := .waitSwap }
  else
    let s1 := takeWindows ((takeClaims s b.conf.claims).modFab fun f => { f with held := b.conf.claims }) b.conf.claims
    applyBegins s1 j

/-- CHECK_PASS_DONE: the check pass of a load ends (R268); `failed`: a read of the staging buffer has returned an error. -/
def execCheckPassDone (failed : Bool) (s : State) : Host.Outcome State Fault Refusal :=
  .next (whenLive s fun s =>
    match s.fab.load with
    | some j =>
      if j.phase = .abandoned then loadAbandoned s
      else if j.phase = .checking then
        if failed then loadEnd s j Err.FAB_STAGING
        else match checkChoreo s (s.buf j.buf).bytes with
          | (0, some b) => checkPassed s j b
          | (c, _) => loadEnd s j c
      else s
    | none => s)

/-! ## Applying and clearing (R269–R272) -/

/-- The registers of the CELL_ block are cleared, as at each apply pass and each unload. -/
def clearCellRegs (s : State) : State :=
  (List.range 32).foldl (fun t c => (((t.wr (Reg.CELL_POPSTALL c) 0).wr (Reg.CELL_PUSHSTALL c) 0).wr (Reg.CELL_DSU c) 0).wr
    (Reg.CELL_STAT c) 0) ((s.wr Reg.CELL_CE 0).wr Reg.CELL_EXC_FIRST 0)

/-- Every cell's code, data and registers are cleared, and no topology is left. -/
def clearFabric (s : State) : State :=
  let s1 := clearCellRegs (s.zeroRange 0x60000000 0x60100000)
  let s2 := s1.modFab fun f => { f with code := [], cells := Vector.replicate 32 {}, conf := {}, openDue := false, seen0 := [], seen1 := [] }
  ((s2.wr Reg.FAB_STAT 0).wr Reg.FAB_VERSION 0).wr Reg.FAB_RES_LIMIT 0

/-- The words of a CODE section in a cell's code memory. -/
def putCode (m : Sparse Word) (base : Nat) : Nat → List Byte → Sparse Word
  | 0, _ => m
  | n + 1, l => putCode (sset (fun _ => 0) m base (wordLE l)) (base + 1) n (l.drop 4)

/-- The body is written and its cells start, halted again in the safe state (R269, R274). -/
def writeFabric (s : State) (b : Body) : State :=
  let s1 := b.consts.foldl (fun t e => t.setBytes (cellBase e.1 + e.2.1) e.2.2) (clearFabric s)
  let s2 := s1.modFab fun f =>
    { f with conf := b.conf, code := b.code.foldl (fun m e => putCode m (e.1 * 2048) (e.2.length / 4) e.2) [] }
  let s3 := ((s2.wr Reg.FAB_STAT (BitVec.ofNat 32 (2 ^ 31 + 2 ^ 16 * b.conf.tenant + b.conf.recipe))).wr Reg.FAB_VERSION
    (BitVec.ofNat 32 b.conf.version)).wr Reg.FAB_RES_LIMIT (BitVec.ofNat 32 b.conf.resLimit)
  if s3.rdb Reg.ERR_STAT 31 then s3
  else (List.range 32).foldl (fun t c => if cellSet b.conf c then t.wrb (Reg.CELL_STAT c) 31 true else t) s3

/-- The apply pass has failed: no choreography, no claims, IDLE, 0x5120 (R269). -/
def applyFailed (s : State) (j : LoadJob) : State :=
  let s1 := (dropClaims (clearFabric s)).modFab fun f => { f with load := none }
  let s2 := if s1.lanes.own.state = .safe then s1 else setLane s1 s1.ownLane .idle
  fabFail s2 j.reply Err.FAB_APPLY_FAILED

/-- The apply pass has succeeded (R269–R271): claims pass to the new choreography, a lane's cell fault has cleared (R30), and in
a sorting lane the ports open at the next row boundary. -/
def applyPassed (s : State) (j : LoadJob) (b : Body) : State :=
  let s1 := writeFabric (foldTally s) b
  let s2 := if j.replace then
      let t := dropWindows s1
      let fresh := b.conf.claims.filter fun c => !(s.fab.held.contains c)
      takeWindows ((takeClaims t fresh).modFab fun f => { f with held := b.conf.claims, reserved := [] }) b.conf.claims
    else s1
  let s3 := s2.modFab fun f => { f with load := none, openDue := decide (s2.lanes.own.state = .sorting) }
  let s4 := s3.modLane s3.ownLane fun l => { l with faults := { l.faults with cell := false } }
  finishReply (fabOutcome s4 0) j.reply 0 []

/-- The body that the apply pass decrypts from the staging buffer as it is now, under the keys of the check pass; none where the
tag differs or the buffer holds something else (R269). -/
def reopenChoreo (s : State) (j : LoadJob) : Option Body :=
  match openChoreo (s.buf j.buf).bytes j.keys with
  | none => none
  | some body => match parseBody body with
    | none => none
    | some (b, _) =>
      let c := { b.conf with tenant := j.choreo.tenant, recipe := j.choreo.recipe, version := j.choreo.version,
                             resLimit := j.choreo.resLimit, bodyLen := j.choreo.bodyLen }
      if c = j.choreo then some { b with conf := c } else none

/-- APPLY_DONE: the apply pass of a load ends; `failed`: a staging read has failed. The tag is recomputed over the buffer as it
is now (R269). -/
def execApplyDone (failed : Bool) (s : State) : Host.Outcome State Fault Refusal :=
  .next (whenLive s fun s =>
    match s.fab.load with
    | some j =>
      if j.phase = .applying then
        if failed then applyFailed s j
        else match reopenChoreo s j with
          | some b => applyPassed s j b
          | none => applyFailed s j
      else s
    | none => s)

/-- The unload is done: cells, topology and claims are gone, and the lane is IDLE without LANE_DARK (R272). -/
def unloadDone (s : State) (u : UnloadJob) : State :=
  let s1 := (dropClaims (clearFabric (foldTally s))).modFab fun f => { f with unload := none }
  let s2 := if s1.lanes.own.state = .safe then s1 else setLane s1 s1.ownLane .idle
  finishReply (fabOutcome s2 0) u.reply 0 []

/-- DRAIN_END: RES_LIMIT has passed since the ports closed (R271, R272). -/
def execDrainEnd (s : State) : Host.Outcome State Fault Refusal :=
  .next (whenLive s fun s =>
    match s.fab.load, s.fab.unload with
    | some j, _ => if j.phase = .draining then applyBegins s j else s
    | none, some u => if u.draining then unloadDone s u else s
    | none, none => s)

/-- The ports close for an unload and the fabric drains. -/
def unloadDrains (s : State) (u : UnloadJob) : State :=
  (s.wrb Reg.FAB_STAT 30 false).modFab fun f => { f with unload := some { u with draining := true }, openDue := false }

/-- An unload request (R272). One that finds a replacement waiting for its swap cancels it first. -/
def unloadRequest (s : State) (r : ReplyTo) : State :=
  let st := s.lanes.own.state
  if !s.fabLoaded || st = .vacant || st = .listen || st = .safe then fabFail s r Err.FAB_LANE_STATE
  else
    let begin' (t : State) : State :=
      let u : UnloadJob := { draining := false, reply := r }
      let t1 := t.modFab fun f => { f with unload := some u }
      if t1.feRunning then t1 else unloadDrains t1 u
    match s.fab.load, s.fab.unload with
    | _, some _ => fabFail s r Err.FAB_BUSY
    | none, none => begin' s
    | some j, none =>
      if j.phase = .waitSwap then begin' (loadEnd s j Err.FAB_LANE_STATE) else fabFail s r Err.FAB_BUSY

/-- What a row boundary does to a waiting swap or unload (R271, R272). -/
def fabRowBoundary (s : State) : State :=
  match s.fab.load, s.fab.unload with
  | some j, _ => if j.phase = .waitSwap ∧ j.swapAt.toNat ≤ s.ct.toNat then swapBoundary s j else s
  | none, some u => if u.draining then s else unloadDrains s u
  | none, none => s

/-! ## Admission to SORTING (R30, R89, R270) -/

/-- The own lane may be admitted: a running choreography, CT_VALID, a usable calibration set, no fault of R30 left, and for
an IDLE lane a shutter event since the start where a shutter is present. -/
def admitReady (s : State) : Bool :=
  let l := s.lanes.own
  s.fabLoaded && s.fab.load.isNone && s.fab.unload.isNone && ctValid s && !(usableSlots s).isEmpty &&
    !(l.faults.cell || l.faults.ports || l.faults.flag || l.faults.bank) &&
    (decide (0 < s.svc.shutters) || !shtPresent s) && (l.state = .idle || l.state = .admitting) && !s.rdb Reg.ERR_STAT 31 &&
    !s.ring.duplicate

/-- ADMIT as the lane's device carries it out: EJ_CTRL.ARM is set, and SORTING begins at the next row boundary (R270, R330). -/
def admitOwn (s : State) : State :=
  if admitReady s then (setPermit (s.wrb Reg.EJ_CTRL 1 true)).modLanes fun l => { l with admitPending := true } else s

/-- The row boundary after ADMIT: the lane enters SORTING and the input ports open (R270). -/
def admitBoundary (s : State) : State :=
  if s.lanes.admitPending then
    let s1 := s.modLanes fun l => { l with admitPending := false }
    if s1.fabLoaded && s1.rdb Reg.EJ_CTRL 1 && (s1.lanes.own.state = .idle || s1.lanes.own.state = .admitting) then
      (setLane s1 s1.ownLane .sorting).wrb Reg.FAB_STAT 30 true
    else s1
  else s

/-- Ports that are to open do so at a row boundary (R271). -/
def openBoundary (s : State) : State :=
  if s.fab.openDue then (s.wrb Reg.FAB_STAT 30 true).modFab fun f => { f with openDue := false } else s

end Sys2Proof.Machine
end

