-- ==== Sys2Proof/Machine/Reset.lean ====
section
/-! DEFINITION. What a device reset and a power-on reset keep and clear (R90–R93, R126). -/

namespace Sys2Proof.Machine

/-- ROM's treatment of the sector statuses at a start: CLEARING and SUSPENDED become INDETERMINATE (R126). -/
def settleStatus (l : Sparse Nat) : Sparse Nat := l.map fun e => (e.1, if e.2 = 1 ∨ e.2 = 2 then 3 else e.2)

/-- Memory after a reset: MRAM alone is kept, and the word in the programming engine has been stored (R92, R93, R120). -/
def keptMemory (s : State) : Memory :=
  let m := match s.mram.engine with
    | some w => putBytes s.mem w.addr (bytesLE 8 w.data.toNat)
    | none => s.mem
  m.filter fun c => decide (0x20000000 ≤ c.1) && decide (c.1 < 0x20800000)

/-- The MRAM controller after a reset: sector statuses, unreadable words and remapped sectors are kept, its queues and
counts are not (R92, R119, R126, R129–R131). -/
def keptMram (m : MramSt) : MramSt :=
  { status := settleStatus m.status
    bad := match m.engine with
      | some w => nsDel m.bad w.addr
      | none => m.bad
    remapped := m.remapped
    nextId := m.nextId }

/-- Bits of SYS_STRAP that follow the IO banks (R56). -/
def bankCode : BankState → Nat
  | .disabled => 0 | .on18 => 1 | .on33 => 2

/-- The registers that outlive a device reset: spares, lock losses, the clock monitor's bits and the supply event
(R83, R92, R131). -/
def keptRegs (s t : State) : State :=
  let t1 := t.wrf Reg.MRAM_STAT 31 24 (s.rdf Reg.MRAM_STAT 31 24)
  let t2 := (t1.wrf Reg.CLK_STAT 31 16 (s.rdf Reg.CLK_STAT 31 16)).wrf Reg.CLK_STAT 1 0 (s.rdf Reg.CLK_STAT 1 0)
  let t3 := (t2.wr Reg.SYS_SUPPLY (s.rd Reg.SYS_SUPPLY))
  (t3.wrf Reg.SYS_STRAP 5 4 (bankCode s.power.bank2)).wrf Reg.SYS_STRAP 3 2 (bankCode s.power.bank1)

/-- Everything as a reset leaves it (R92): the reset value of every field but those that outlive it. -/
def afterReset (s : State) : State :=
  keptRegs s
    { mem := keptMemory s, free := s.free, out := s.out, pending := s.pending,
      power := { s.power with ejPermit := .highZ },
      rst := s.rst,
      core := { owesClockFail := s.core.owesClockFail, owesErase := s.core.owesErase },
      mram := keptMram s.mram,
      pav := { lcInForce := s.pav.lcInForce },
      sht := { pos := s.sht.pos } }

/-- DEV_CAUSE when a further source acts during a device reset (R91). -/
def furtherCause (old new : Nat) : Nat := if new = 4 then 4 else if new = 2 ∧ old ≠ 4 then 2 else old

/-- A device reset is asserted with its cause (R90–R92): 1 RESET_N, 2 clock failure, 3 software, 4 tamper. -/
def deviceReset (s : State) (cause : Nat) : State :=
  if s.rst.asserted then s.wrf Reg.RST_CAUSE 3 0 (furtherCause (s.rdf Reg.RST_CAUSE 3 0) cause)
  else ((afterReset s).wrf Reg.RST_CAUSE 3 0 cause).modRst fun r => { r with asserted := true, due := false }

/-- A power-on reset is asserted (R53–R55, R92): the lock-loss count is cleared and the test access port is reset. -/
def powerOnReset (s : State) (event : Nat) (phase : PowerPhase) : State :=
  let s1 := afterReset s
  let s2 := (s1.wrf Reg.CLK_STAT 31 16 0).wrf Reg.SYS_SUPPLY 2 0 event
  ((s2.modPower fun p => { p with phase := phase, tapReset := true }).modRst fun r => { r with asserted := false, clockBad := false }).modCore
    fun c => { c with owesClockFail := false }

end Sys2Proof.Machine
end

