-- ==== Sys2Proof/Machine/Pavane.lean ====
section
/-! DEFINITION. The Pavane enclave (R400–R420): mailbox, monotonic counters, life cycle, tamper responses, the random number
generator and debug access. -/

namespace Sys2Proof.Machine

/-! ## Mailbox and spread mode (R402, R403) -/

/-- The effect of a write to SYS_PAVMB_REQ. -/
def mailboxEffect (s : State) (v : Word) : State :=
  if s.rdb Reg.SYS_PAVMB_RSP 31 then s else (s.wr Reg.SYS_PAVMB_REQ v).wrb Reg.SYS_PAVMB_RSP 31 true

/-- MAILBOX_REQUEST (R403). -/
def execMailboxRequest (m : Master) (v : Word) (s : State) : Host.Outcome State Fault Refusal :=
  writeRow m Reg.SYS_PAVMB_REQ v mailboxEffect s

/-- MAILBOX_RESPONSE (R403): EN writes the response address and the status. -/
def execMailboxResponse (status : Half) (raddr : Word) (s : State) : Host.Outcome State Fault Refusal :=
  .next <| whenLive s fun s =>
    if s.rdb Reg.SYS_PAVMB_RSP 31 then
      (s.wr Reg.SYS_PAVMB_RADDR raddr).wr Reg.SYS_PAVMB_RSP (BitVec.ofNat 32 (2 ^ 30 + status.toNat))
    else s

/-- The effect of a write to PAV_CLKCFG: CLK_STAT.SPREAD follows SPREAD. -/
def spreadEffect (s : State) (v : Word) : State :=
  (fieldWrite s Reg.PAV_CLKCFG v).wrb Reg.CLK_STAT 3 (bitOf v 0)

/-- SPREAD_MODE (R79, R402). -/
def execSpreadMode (m : Master) (v : Word) (s : State) : Host.Outcome State Fault Refusal :=
  writeRow m Reg.PAV_CLKCFG v spreadEffect s

/-! ## Counters (R404, R405, R420) -/

/-- An increment of counter k by n: the larger readable copy plus n, saturating, programmed into both copies. -/
def cntInc (s : State) (k n : Nat) : Half × State :=
  match cntRead s k with
  | none => (Err.PAV_CNT_LOST, raise s Err.PAV_CNT_LOST (pavSrc 0) (BitVec.ofNat 64 k))
  | some v =>
    let w := bytesLE 8 (min (v + n) (2 ^ 64 - 1))
    let s1 := (mramStoreBytes (mramStoreBytes s (counterA k) w).2 (counterB k) w).2
    if 2 ^ 64 ≤ v + n then (Err.PAV_CNT_SATURATED, raise s1 Err.PAV_CNT_SATURATED (pavSrc 0) (BitVec.ofNat 64 k)) else (0, s1)

/-- The effect of a write to PAV_CNT_ADD. -/
def cntAddEffect (s : State) (v : Word) : State :=
  if v = 0 then s else (cntInc s (s.rdf Reg.PAV_CNT_IDX 9 0) v.toNat).2

/-- COUNTER_INCREMENT (R405): an increment of the counter that PAV_CNT_IDX selects. -/
def execCounterIncrement (m : Master) (n : Word) (s : State) : Host.Outcome State Fault Refusal :=
  writeRow m Reg.PAV_CNT_ADD n cntAddEffect s

/-- A read of PAV_CNT_LO: the low half, with the high half captured (R405). -/
def cntLoRead (s : State) : Word × State :=
  let k := s.rdf Reg.PAV_CNT_IDX 9 0
  match cntRead s k with
  | some v => (BitVec.ofNat 32 v, s.wr Reg.PAV_CNT_HI (BitVec.ofNat 32 (v / 2 ^ 32)))
  | none => (0, raise (s.wr Reg.PAV_CNT_HI 0) Err.PAV_CNT_LOST (pavSrc 0) (BitVec.ofNat 64 k))

/-! ## Life cycle (R408–R410) -/

/-- PAV_LC: the state in force and the stored state. -/
def lcView (s : State) : Word := BitVec.ofNat 32 (s.lcStored * 16 + s.lc)

/-- The sectors of the keys store (R116). -/
def keysSectors : List Nat := (List.range 64).map (· + 1744)

/-- Retirement (R410): the counter, then every keys-store sector, then the reset. -/
def retire (s : State) : State :=
  let (c, s1) := cntInc s 0 1
  if c = Err.PAV_CNT_LOST then s1 else deviceReset (keysSectors.foldl clearSectorWhole s1) 3

/-- A request for the life-cycle state `lc`; `met` says that what the state is entered by has happened (R409). -/
def lcRequest (s : State) (lc : Nat) (met : Bool) : Half × State :=
  if (cntRead s 0).isNone then (Err.PAV_CNT_LOST, raise s Err.PAV_CNT_LOST (pavSrc 0))
  else if lc = 0 ∨ 3 < lc ∨ s.lcStored + 1 ≠ lc ∨ !met then (Err.PAV_LC_REFUSED, raise s Err.PAV_LC_REFUSED (pavSrc 0) (BitVec.ofNat 64 lc))
  else if lc = 3 then (0, retire s)
  else cntInc s 0 1

/-- LC_TRANSITION (R408–R410). -/
def execLcTransition (lc : BitVec 2) (met : Bool) (s : State) : Host.Outcome State Fault Refusal :=
  .next <| whenLive s fun s => (lcRequest s lc.toNat met).2

/-! ## Tamper sensors (R411–R416) -/

/-- Enclave SRAM becomes zero, poison included. -/
def zeroEnclave (s : State) : State :=
  (s.zeroRange enclaveBase 0x500C0000).modMs fun m =>
    { m with poison := m.poison.filter fun w => !(decide (enclaveBase ≤ w) && decide (w < 0x500C0000)) }

/-- The ERASE response (R414): keys and engines, the request counters, and the reset with cause tamper. -/
def eraseResponse (s : State) (sensor : Fin 6) : State :=
  if s.rst.asserted && s.rdf Reg.RST_CAUSE 3 0 == 4 then s
  else
    let s1 := zeroEnclave (zeroKeys s)
    let s2 := (cntInc (cntInc s1 1 1).2 2 1).2
    deviceReset (s2.modCore fun c => { c with owesErase := some sensor }) 4

/-- The ALERT response (R413). -/
def alertResponse (s : State) (sensor : Fin 6) : State :=
  if s.rst.asserted then s
  else raise (s.wrb Reg.PAV_TAMPER_STAT sensor.val true) Err.PAV_TAMPER_ALERT (pavSrc 0) (BitVec.ofNat 64 sensor.val)

/-- Whether a sensor's response is ERASE: as PAV_TAMPER_CFG says, but ALERT alone in MANUFACTURE (R409, R412). -/
def erases (s : State) (sensor : Fin 6) : Bool := s.lc != 0 && s.rdb Reg.PAV_TAMPER_CFG sensor.val

/-- TAMPER_SENSOR (R411–R416): a sensor fires, SUPPLY, CLOCK, LIGHT, TEMP, MESH or SEC_FLOOD; SEC_FLOOD only at its
threshold. A RETIRED device has no response. -/
def execTamperSensor (sensor : Fin 6) (s : State) : Host.Outcome State Fault Refusal :=
  .next <|
    if s.power.phase ≠ .running ∨ s.lc = 3 then s
    else if sensor = 5 ∧ !s.pav.flood then s
    else
      let s1 := if sensor = 5 then s.modPav fun p => { p with flood := false, secTimes := [] } else s
      if erases s1 sensor then eraseResponse (s1.wrb Reg.PAV_TAMPER_STAT sensor.val true) sensor
      else alertResponse s1 sensor

/-! ## Random number generator (R417) -/

/-- RNG_WINDOW (R417): a window of raw bits passes or fails its tests; three consecutive failures make the generator FAILED. -/
def execRngWindow (pass : Bool) (s : State) : Host.Outcome State Fault Refusal :=
  .next <| whenLive s fun s =>
    if s.rdf Reg.PAV_RNG_STAT 1 0 = 2 then s
    else if pass then (s.modPav fun p => { p with rngFails := 0 }).wrf Reg.PAV_RNG_STAT 1 0 1
    else
      let n := s.pav.rngFails + 1
      let s1 := (s.modPav fun p => { p with rngFails := n }).bump Reg.PAV_RNG_STAT 15 8
      if 3 ≤ n then raise (s1.wrf Reg.PAV_RNG_STAT 1 0 2) Err.PAV_RNG_FAIL (pavSrc 0) else s1

/-- The generator is FAILED. -/
def rngFailed (s : State) : Bool := s.rdf Reg.PAV_RNG_STAT 1 0 == 2

/-! ## Debug access (R418, R419) -/

/-- A public key of Lulomus's: 0 ownership, 1 debug, 2 firmware (log 25). -/
def lulomusKey (kind : Nat) : List Byte := (List.range 64).map (Config.lulomusByte kind)

/-- An ECDSA P-256 signature with SHA-256 of a message verifies under a public key. -/
def p256Verify (key msg sig : List Byte) : Bool := ecdsaCheck p256 key (sha256 msg) sig

end Sys2Proof.Machine
end

