-- ==== Sys2Proof/Machine/Plant.lean ====
section
/-! DEFINITION. The plant port (R390–R393): address resolution, echo, datagrams and their sets. -/

namespace Sys2Proof.Machine

/-- PLANT_ in the peripheral slots. -/
def plantSrc : Byte := 0x12

def plantUp (s : State) : Bool := s.rdb Reg.PLANT_STAT 0
def arpOk (s : State) : Bool := s.rdb Reg.PLANT_STAT 2

/-- The plant port runs on the acting manager only (R19). -/
def plantOn (s : State) : Bool := s.isManager

/-! ## What the machine looks like from outside (R383, R393) -/

/-- RING of STATUS: closed, duplicate manager. -/
def ringByte (s : State) : Byte := BitVec.ofNat 8 (b2n s.ring.closed + 2 * b2n s.ring.duplicate)

/-- A position that the manager knows: its own, one of the sticky map, or one that holds a node. -/
def knownPos (s : State) (p : Nat) : Bool :=
  decide (p = s.ownLane) || (match s.ring.sticky with | some (n, _) => decide (1 ≤ p) && decide (p ≤ n) | none => false) ||
    (s.ring.nodes.any fun n => n.pos == p)

/-- The 65 lane-state bytes of STATUS. -/
def laneBytes (s : State) : List Byte :=
  (List.range 65).map fun p => if knownPos s p then BitVec.ofNat 8 (laneCode (s.lane p).state) else 0xFF

/-- The next hop of the configured destination: the destination, or the gateway outside the subnet (R391). -/
def nextHop (c : PlantCfg) : Word := if c.dst &&& c.mask = c.ip &&& c.mask then c.dst else c.gateway

/-! ## Datagrams -/

/-- A datagram is on its way: sent, or waiting for the resolution of its next hop (R391). -/
def sendDatagram (s : State) (bytes : List Byte) : State :=
  match s.host.plant with
  | none => s
  | some c =>
    if plantUp s && arpOk s then (s.emit (.datagram c.dst bytes)).bump Reg.PLANT_TX 31 0
    else
      let s1 := s.modHost fun h => { h with plantWait := h.plantWait ++ [bytes] }
      if plantUp s1 then s1.emit (.arp false (nextHop c)) else s1

/-- The 36-byte header of R393 with its body. -/
def datagram (s : State) (kind part parts dseq : Nat) (body : List Byte) : List Byte :=
  bytesLE 4 0x504C4E54 ++ [0x01, BitVec.ofNat 8 kind, BitVec.ofNat 8 part, BitVec.ofNat 8 parts] ++ bytesLE 4 s.host.epoch.toNat ++
    bytesLE 4 dseq ++ bytesLE 8 s.ct.toNat ++ bytesLE 8 ((utcNow s).getD 0) ++ bytesLE 2 body.length ++ [0, 0] ++ body

/-- Every part of a set, of at most 1400 body bytes each. -/
def sendSet (s : State) (kind dseq : Nat) (body : List Byte) : State :=
  let parts := max 1 ((body.length + 1399) / 1400)
  (List.range parts).foldl (fun t i => sendDatagram t (datagram t kind i parts dseq ((body.drop (1400 * i)).take 1400))) s

/-- A new set under the next DSEQ. -/
def newSet (s : State) (kind : Nat) (body : List Byte) : State :=
  (sendSet s kind s.host.dseq body).modHost fun h => { h with dseq := h.dseq + 1 }

/-- A statement is issued: its set is sent now and twice more (R393). -/
def issueStatement (s : State) (body : List Byte) : State :=
  let d := s.host.dseq
  (newSet s 2 body).modHost fun h => { h with repeats := h.repeats ++ [{ dseq := d, body := body, left := 2 }] }

/-- PLANT_STATUS_DATAGRAM: every INTERVAL, while the control core runs (R393, R398). -/
def execPlantStatusDatagram (s : State) : Host.Outcome State Fault Refusal :=
  .next (whenLive s fun s =>
    if plantOn s && s.fwRuns && s.host.plant.isSome then
      newSet s 1 (ringByte s :: laneBytes s ++ ([2, 3, 4].flatMap fun k => bytesLE 4 (s.rd (Reg.ERR_COUNT k)).toNat))
    else s)

/-- STATEMENT_RESEND: a statement set is sent again, 1 s after its last sending, three times in all (R393). -/
def execStatementResend (s : State) : Host.Outcome State Fault Refusal :=
  .next (whenLive s fun s =>
    match s.host.repeats with
    | [] => s
    | r :: rest =>
      let more := if 1 < r.left then rest ++ [{ r with left := r.left - 1 }] else rest
      (sendSet s 2 r.dseq r.body).modHost fun h => { h with repeats := more })

/-! ## Address resolution and echo (R391) -/

/-- ARP_REQUEST: a request for the port's own address is answered. -/
def execArpRequest (ip : Word) (s : State) : Host.Outcome State Fault Refusal :=
  .next (whenLive s fun s =>
    match s.host.plant with
    | some c => if plantOn s && plantUp s && c.ip == ip then s.emit (.arp true ip) else s
    | none => s)

/-- ARP_REFRESH: every 60 s the destination or the gateway is resolved again. -/
def execArpRefresh (s : State) : Host.Outcome State Fault Refusal :=
  .next (whenLive s fun s =>
    match s.host.plant with
    | some c => if plantOn s && plantUp s then s.emit (.arp false (nextHop c)) else s
    | none => s)

/-- ARP_REPLY: the next hop is resolved: ARP_OK, and waiting datagrams leave. -/
def execArpReply (ip : Word) (s : State) : Host.Outcome State Fault Refusal :=
  .next (whenLive s fun s =>
    match s.host.plant with
    | some c =>
      if plantOn s && plantUp s && nextHop c == ip then
        s.host.plantWait.foldl sendDatagram ((s.wrb Reg.PLANT_STAT 2 true).modHost fun h => { h with plantWait := [] })
      else s
    | none => s)

/-- PLANT_NOARP: a datagram has found no resolution within 1 s: discarded, counted, 0x8031. -/
def execPlantNoarp (s : State) : Host.Outcome State Fault Refusal :=
  .next (whenLive s fun s =>
    match s.host.plantWait with
    | [] => s
    | _ :: r => raise ((s.modHost fun h => { h with plantWait := r }).bump Reg.PLANT_NOARP 31 0) Err.PLANT_NOARP plantSrc)

/-- ICMP_ECHO: an echo request is answered, at most 10 a second; others are discarded. -/
def execIcmpEcho (data : List Byte) (s : State) : Host.Outcome State Fault Refusal :=
  .next (whenLive s fun s =>
    let recent := s.host.echoes.filter fun t => decide (s.ct.toNat - t.toNat < ticksPerSecond)
    if plantOn s && plantUp s && s.host.plant.isSome then
      if recent.length < 10 then (s.modHost fun h => { h with echoes := s.ct :: recent }).emit (.echo data)
      else s.bump Reg.PLANT_RXDROP 31 0
    else s)

/-- PLANT_RX_DISCARD: any other received frame is discarded and counted. -/
def execPlantRxDiscard (s : State) : Host.Outcome State Fault Refusal :=
  .next (whenLive s fun s => if plantOn s && plantUp s then s.bump Reg.PLANT_RXDROP 31 0 else s)

/-! ## The link (R390) -/

/-- PLANT_LINK_UP: line 28, and one gratuitous ARP. -/
def execPlantLinkUp (s : State) : Host.Outcome State Fault Refusal :=
  .next (whenLive s fun s =>
    if plantOn s && !plantUp s then
      let s1 := (s.wrb Reg.PLANT_STAT 0 true).wrb Reg.ERR_EVT 12 true
      match s1.host.plant with
      | some c => s1.emit (.arp true c.ip)
      | none => s1
    else s)

/-- PLANT_LINK_DOWN: line 28 and 0x8030. -/
def execPlantLinkDown (s : State) : Host.Outcome State Fault Refusal :=
  .next (whenLive s fun s =>
    if plantUp s then raise ((s.wrb Reg.PLANT_STAT 0 false).wrb Reg.ERR_EVT 12 true) Err.PLANT_LINK_DOWN plantSrc else s)

/-! ## Settings (R392) -/

/-- A mask of leading ones. -/
def maskOk (m : Word) : Bool := (List.range 33).any fun n => m.toNat == (2 ^ 32 - 2 ^ n)

/-- An address that is 0, a broadcast or a multicast address. -/
def badAddr (c : PlantCfg) (a : Word) : Bool :=
  a == 0 || a == 0xFFFFFFFF || a.toNat / 2 ^ 28 == 0xE ||
    (c.mask != 0xFFFFFFFF && a &&& c.mask == c.ip &&& c.mask && (a ||| c.mask) == 0xFFFFFFFF)

/-- An IP address of a body: a multi-byte field, little-endian (R11). -/
def ipAt (b : List Byte) (off : Nat) : Word := wordLE (slice b off 4)

/-- The settings of a PLANT_CONFIG body. -/
def plantOf (b : List Byte) : PlantCfg :=
  { ip := ipAt b 0, mask := ipAt b 4, gateway := ipAt b 8, dst := ipAt b 12, srcPort := BitVec.ofNat 16 (numAt b 16 2),
    dstPort := BitVec.ofNat 16 (numAt b 18 2), interval := numAt b 20 2 }

/-- PLANT_CONFIG (R392): refused with 0x8032, or in force and stored with PERSIST. -/
def plantConfig (s : State) (b : List Byte) : Half × State :=
  let c := plantOf b
  if badAddr c c.ip || badAddr c c.dst || !maskOk c.mask || (c.gateway != 0 && c.gateway &&& c.mask != c.ip &&& c.mask) then
    (Err.PLANT_CONFIG, raise s Err.PLANT_CONFIG plantSrc)
  else
    let s1 := if numAt b 22 1 = 1 then savePlant s c else s
    (0, ((s1.modHost fun h => { h with plant := some c }).wrb Reg.PLANT_STAT 1 false).wrb Reg.PLANT_STAT 2 false)

end Sys2Proof.Machine
end

