-- ==== Sys2Proof/Machine/Metering.lean ====
section
/-! DEFINITION. Metering (R470–R489): enclave time, delta reports, accumulators, persistence, billing periods and statements. -/

namespace Sys2Proof.Machine

/-- The tenants of a machine (R470). -/
def tenantNumbers : List Nat := List.range 256

/-- The slots of the statement log (R488). -/
def logSlots : List Nat := List.range 1024

/-- ACS_ among the Pavane blocks. -/
def acsSrc : Byte := pavSrc 5

/-! ## Enclave time (R477–R480) -/

/-- Enclave time E: the larger of the clock reading and H, or H alone while untimed. -/
def enclaveTime (s : State) : Nat := max ((utcNow s).getD 0) s.met.high

/-- No SET_UTC since the device reset. -/
def untimed (s : State) : Bool := !s.met.timed

/-- Raises a counter to a value that lies above it. -/
def raiseCounter (s : State) (k v : Nat) : State :=
  match cntRead s k with
  | some c => if c < v then (cntInc s k (v - c)).2 else s
  | none => s

/-- H follows E, and counter 0x006 follows H (R478). -/
def raiseHigh (s : State) : State :=
  let e := enclaveTime s
  raiseCounter (s.modMet fun m => { m with high := e }) 6 e

/-- HIGH_WATER_UPDATE: every 60 s of curtain time (R478). -/
def execHighWaterUpdate (s : State) : Host.Outcome State Fault Refusal :=
  .next (whenLive s fun s => if s.isManager && haveStorageKey s then raiseHigh s else s)

/-- A tenant's open accumulator. -/
def accOf (s : State) (t : Nat) : Option Accum := sget (fun _ => none) s.met.acc t

/-- Replaces a tenant's accumulator. -/
def setAcc (s : State) (t : Nat) (a : Option Accum) : State :=
  s.modMet fun m => { m with acc := sset (fun _ => none) m.acc t a }

/-- SET_UTC (R477, R479): the pair is replaced; a regression is counted in every open record. -/
def setUtc (s : State) (u : Nat) : State :=
  let e := enclaveTime s
  let s1 := if u < e then
      let t := s.modMet fun m => { m with acc := m.acc.map fun x => (x.1, x.2.map fun a => { a with regress := satAdd 16 a.regress 1, dirty := true }) }
      raise (t.bump Reg.ACS_REGRESS 31 0) Err.MET_CLOCK_REGRESSION acsSrc
    else s
  (s1.modMet fun m => { m with high := e, timed := true }).modHost fun h => { h with utc := some (u, s.ct) }

/-! ## Accumulator records (R481) -/

def accMagic : Nat := 0x41434352
/-- The address of copy j of tenant t's record. -/
def accAddr (t j : Nat) : Nat := 0x206E0000 + t * 0x100 + j * 0x80

/-- The eight bytes of an entry. -/
def accEntry (e : (Nat × Nat) × Nat) : List Byte := bytesLE 8 (e.1.1 * 2 ^ 48 + e.1.2 * 2 ^ 46 + e.2)

/-- FLAGS of a record or a statement's period. -/
def accFlags (a : Accum) : Nat := b2n a.untimed + 16 * b2n a.restarted

/-- Words 1 to 15 of a record. -/
def accBytes (a : Accum) : List Byte :=
  slice (bytesLE 8 (a.regress * 2 ^ 48 + a.entries.length * 2 ^ 40 + accFlags a * 2 ^ 32 + a.period) ++ bytesLE 8 a.start ++
    bytesLE 8 a.overflow ++ bytesLE 8 a.carry ++ a.entries.flatMap accEntry) 0 120

/-- The accumulator that a record holds. -/
def accRead (s : State) (t : Nat) : Option Accum :=
  match copyInForce s (accAddr t 0) (accAddr t 1) accMagic 16 with
  | none => none
  | some a => match mramBytes s a 128 with
    | none => none
    | some b =>
      let w := numAt b 8 8
      let n := min 11 (w / 2 ^ 40 % 256)
      some { period := w % 2 ^ 32, start := numAt b 16 8, untimed := w / 2 ^ 32 % 2 == 1, restarted := w / 2 ^ 36 % 2 == 1,
             regress := w / 2 ^ 48, overflow := numAt b 24 8, carry := numAt b 32 8, dirty := false
             entries := (List.range n).map fun i =>
               let e := numAt b (40 + 8 * i) 8
               ((e / 2 ^ 48, e / 2 ^ 46 % 4), e % 2 ^ 46) }

/-- Writes a tenant's record. -/
def accWrite (s : State) (t : Nat) (a : Accum) : State :=
  setAcc (writeCopy s (accAddr t 0) (accAddr t 1) accMagic 16 (accBytes a)) t (some { a with dirty := false })

/-- The number of a tenant's last closed period (R483). -/
def lastClosed (s : State) (t : Nat) : Nat := (cntRead s (0x300 + t)).getD 0

/-- A period opens with START E (R480, R483). -/
def openPeriod (s : State) (period : Nat) (restarted : Bool) : Accum :=
  { period := period, start := enclaveTime s, untimed := untimed s, restarted := restarted }

/-! ## Usage (R474, R481) -/

/-- Inserts an entry in ascending order of CLASS_ID and KIND. -/
def insertEntry (e : (Nat × Nat) × Nat) : List ((Nat × Nat) × Nat) → List ((Nat × Nat) × Nat)
  | [] => [e]
  | x :: r => if e.1.1 < x.1.1 ∨ (e.1.1 = x.1.1 ∧ e.1.2 < x.1.2) then e :: x :: r else x :: insertEntry e r

/-- Adds usage of a class to an accumulator; a twelfth key adds to OVERFLOW. True: 0xC025 is due. -/
def accAdd (a : Accum) (cls kind n : Nat) : Bool × Accum :=
  if cls = 0xFFFF ∧ kind = 3 then (false, { a with overflow := satAdd 64 a.overflow n, dirty := true })
  else if a.entries.any fun e => e.1 == (cls, kind) then
    (false, { a with dirty := true, entries := a.entries.map fun e => if e.1 = (cls, kind) then (e.1, satAdd 46 e.2 n) else e })
  else if a.entries.length < 11 then
    (false, { a with dirty := true, entries := insertEntry ((cls, kind), min n (2 ^ 46 - 1)) a.entries })
  else (!a.warned, { a with overflow := satAdd 64 a.overflow n, dirty := true, warned := true })

/-- Usage of a key is added to its tenant's open period, which opens at first usage; only committed tenants are metered (R470,
R474, R483). -/
def addUsage (s : State) (k : TallyKey) (n : Nat) (carry : Bool) : State :=
  if n = 0 ∨ (tenantSeq s k.1).isNone = true then s
  else
    let a := (accOf s k.1).getD (openPeriod s (lastClosed s k.1 + 1) false)
    let (warn, b) := accAdd a k.2.1 k.2.2 n
    let b := if carry then { b with carry := satAdd 64 b.carry n } else b
    let s1 := setAcc s k.1 (some b)
    if warn then raise s1 Err.MET_ENTRY_OVERFLOW acsSrc (BitVec.ofNat 64 k.1) else s1

/-! ## Delta reports (R472–R474) -/

/-- The total of every key (R471): its folded value plus the counters of the loaded choreography. -/
def keyTotals (s : State) : List (TallyKey × Nat) :=
  (List.range s.fab.conf.tally.length).foldl (fun l c => foldKey l (classKey s c) (tallyCounter s c)) s.met.folded

/-- A value in a list by key, or 0. -/
def keyValue (l : List (TallyKey × Nat)) (k : TallyKey) : Nat := ((l.find? fun e => e.1 == k).map (·.2)).getD 0

/-- Ascending order of keys. -/
def keyBefore (a b : TallyKey) : Bool :=
  decide (a.1 < b.1) || (a.1 == b.1 && (decide (a.2.1 < b.2.1) || (a.2.1 == b.2.1 && decide (a.2.2 < b.2.2))))

/-- Inserts by key. -/
def insertKey (e : TallyKey × Nat) : List (TallyKey × Nat) → List (TallyKey × Nat)
  | [] => [e]
  | x :: r => if keyBefore e.1 x.1 then e :: x :: r else x :: insertKey e r

/-- The keys that a report lists: those whose total differs from AT_BASE, ascending, at most 24. -/
def reportKeys (s : State) : List (TallyKey × Nat) :=
  (((keyTotals s).filter fun e => decide (e.2 ≠ keyValue s.met.atBase e.1)).foldl (fun l e => insertKey e l) []).take 24

/-- The payload of a delta report with RSEQ r. -/
def deltaBody (s : State) (r : Nat) (l : List (TallyKey × Nat)) : List Byte :=
  let carry := decide (s.met.base < s.met.keyRseq)
  bytesLE 8 r ++ bytesLE 8 s.met.base ++ [BitVec.ofNat 8 (b2n carry), BitVec.ofNat 8 l.length, 0, 0] ++
    l.flatMap fun e => bytesLE 2 e.1.1 ++ bytesLE 2 e.1.2.1 ++ [BitVec.ofNat 8 e.1.2.2, 0, 0, 0] ++
      bytesLE 6 (keyValue s.met.atBase e.1) ++ bytesLE 6 e.2

/-- ACKED r: a kept snapshot becomes the new AT_BASE values and r the new BASE (R473). -/
def takeAck (s : State) (r : Nat) : State :=
  if s.met.base < r then
    match s.met.snaps.find? fun e => e.1 == r with
    | some (_, snap) =>
      (s.modMet fun m =>
        { m with base := r, snaps := m.snaps.filter fun e => decide (r < e.1),
                 atBase := snap ++ m.atBase.filter fun e => !(snap.any fun x => x.1 == e.1) }).wr Reg.ACS_BASE (BitVec.ofNat 32 r)
    | none => s
  else s

/-- The manager's record of a position. -/
def appliedOf (s : State) (pos : Nat) : Applied := sget (fun _ => {}) s.met.applied pos

/-- Replaces the record of a position. -/
def setApplied (s : State) (pos : Nat) (a : Applied) : State :=
  s.modMet fun m => { m with applied := sset (fun _ => {}) m.applied pos a }

/-- One entry of a report: key, AT_BASE and NOW. -/
def deltaEntry (b : List Byte) (i : Nat) : TallyKey × Nat × Nat :=
  let o := 20 + 20 * i
  ((numAt b o 2, numAt b (o + 2) 2, numAt b (o + 4) 1), numAt b (o + 8) 6, numAt b (o + 14) 6)

/-- Applies one entry: with A held, NOW − A where NOW is above it; without, NOW − AT_BASE (R474). -/
def applyEntry (pos r : Nat) (carry : Bool) (s : State) (e : TallyKey × Nat × Nat) : State :=
  let a := appliedOf s pos
  let k := e.1
  let now := e.2.2
  let put (t : State) : State :=
    setApplied t pos { appliedOf t pos with totals := (k, now, r) :: (appliedOf t pos).totals.filter fun x => x.1 != k }
  match a.totals.find? fun x => x.1 == k with
  | some (_, old, _) => put (if old < now then addUsage s k (now - old) false else s)
  | none => put (addUsage s k (now - e.2.1) carry)

/-- A delta report of a position is applied, unless it is no newer or would need more than 256 applied totals (R474). -/
def applyReport (s : State) (pos : Nat) (b : List Byte) : State :=
  let r := numAt b 0 8
  let base := numAt b 8 8
  let n := min 24 (numAt b 17 1)
  let es := (List.range n).map (deltaEntry b)
  let a := appliedOf s pos
  let fresh := es.filter fun e => !(a.totals.any fun x => x.1 == e.1)
  if r ≤ a.last ∨ 256 < a.totals.length + fresh.length then s
  else
    let s1 := es.foldl (applyEntry pos r (numAt b 16 1 % 2 == 1)) s
    let a1 := appliedOf s1 pos
    setApplied s1 pos { a1 with last := r, totals := a1.totals.filter fun x => decide (base < x.2.2) }

/-- DELTA_REPORT: every 250 ms each enclave sends its report to position 0; the manager applies its own (R36, R472, R473). -/
def execDeltaReport (s : State) : Host.Outcome State Fault Refusal :=
  .next (whenLive s fun s =>
    if !haveStorageKey s then s
    else
      let r := s.met.rseq + 1
      let l := reportKeys s
      let body := deltaBody s r l
      let s1 := (s.modMet fun m => { m with rseq := r, snaps := ((r, l) :: m.snaps).take 8 }).wr Reg.ACS_RSEQ (BitVec.ofNat 32 r)
      if s.isManager then
        let s2 := applyReport s1 s1.ownLane body
        takeAck s2 (appliedOf s2 s2.ownLane).acked
      else startTxn s1 0 true body .delta)

/-- DELTA_REPORT_APPLY: a report that a port has delivered to the manager's enclave is applied; the response carries ACKED (R474,
R475). -/
def execDeltaReportApply (p : Fin 2) (s : State) : Host.Outcome State Fault Refusal :=
  .next (whenLive s fun s =>
    if !s.isManager then s
    else match takeFrame s p fun f => f.typ == 0x10 && !f.rsp && f.toEn with
      | (none, _) => s
      | (some f, t) =>
        match admitTxn t p f with
        | (false, u) => u
        | (true, u) =>
          let v := applyReport u f.src f.payload
          respondTxn v f.src f.txn.toNat (bytesLE 8 (appliedOf v f.src).acked))

/-- DELTA_ACK: a response to a report that a port has delivered may make it the new BASE (R473). -/
def execDeltaAck (p : Fin 2) (s : State) : Host.Outcome State Fault Refusal :=
  .next (whenLive s fun s =>
    match takeFrame s p fun f =>
        f.typ == 0x10 && f.rsp && f.toEn && s.ring.pend.any fun t => t.txn == f.txn.toNat && t.use == .delta with
    | (none, _) => s
    | (some f, t) =>
      takeAck (t.modRing fun r => { r with pend := r.pend.filter fun x => x.txn != f.txn.toNat }) (numAt f.payload 0 8))

/-- PERSISTENCE_ROUND: every second each changed record is written, and ACKED becomes what had been applied (R475). -/
def execPersistenceRound (s : State) : Host.Outcome State Fault Refusal :=
  .next (whenLive s fun s =>
    if !s.isManager || !haveStorageKey s then s
    else
      let s1 := tenantNumbers.foldl (fun t k =>
        match accOf t k with
        | some a => if a.dirty && !(match t.met.closing with | some c => c.tenant == k | none => false) then accWrite t k a else t
        | none => t) s
      s1.modMet fun m => { m with applied := m.applied.map fun e => (e.1, { e.2 with acked := e.2.last }) })

/-! ## Statements (R487, R488) -/

/-- The slot of the statement log for statement n. -/
def logSlot (n : Nat) : Nat := 0x207C0000 + (n % 1024) * 0x100

/-- A committed statement of the log's slot i. -/
def logStatement (s : State) (i : Nat) : Option (List Byte) :=
  match mramBytes s (logSlot i) 256 with
  | some b => if numAt b 0 8 = 1 then some (slice b 8 (96 + 8 * numAt b 18 1 + numAt b 19 1)) else none
  | none => none

/-- The bytes of a statement before its MAC. -/
def statementBody (s : State) (c : Closing) (out : List Byte) (fault : Bool) : List Byte :=
  let a := c.snap
  let flags := b2n (a.untimed || c.untimed) + 2 * b2n (decide (0 < a.regress)) + 4 * b2n (decide (0 < a.carry)) +
    8 * b2n (decide (0 < a.overflow)) + 16 * b2n a.restarted + 32 * b2n fault
  bytesLE 4 0x53544D54 ++ bytesLE 2 1 ++ bytesLE 2 flags ++ bytesLE 2 c.tenant ++
    [BitVec.ofNat 8 a.entries.length, BitVec.ofNat 8 out.length] ++ bytesLE 4 a.period ++ bytesLE 8 a.start ++ bytesLE 8 c.endAt ++
    bytesLE 4 a.regress ++ bytesLE 4 s.host.epoch.toNat ++ bytesLE 8 a.overflow ++ bytesLE 8 a.carry ++ bytesLE 8 s.met.logSeq ++
    a.entries.flatMap accEntry ++ out

/-- METER_KEY of a tenant. -/
def meterKey (s : State) (t : Nat) : Option (List Byte) := tenantKey s t 3

/-- A statement with its MAC. -/
def statement (s : State) (c : Closing) (out : List Byte) (fault : Bool) : List Byte :=
  let b := statementBody s c out fault
  b ++ hmac .sha256 ((meterKey s c.tenant).getD []) (ascii [0x53, 0x54, 0x4D, 0x54] ++ b)

/-- Writes a statement under the next LOG_SEQ: COMMIT 0, the statement, COMMIT 1. -/
def logWrite (s : State) (st : List Byte) : State :=
  let a := logSlot s.met.logSeq
  let s1 := (mramStoreBytes s a (bytesLE 8 0)).2
  let s2 := (mramStoreBytes s1 (a + 8) (slice st 0 248)).2
  (mramStoreBytes s2 a (bytesLE 8 1)).2.modMet fun m => { m with logSeq := m.logSeq + 1 }

/-- STATEMENT_READ (R489): the statement of a period, or the tenant's latest for period 0. -/
def findStatement (s : State) (tenant period : Nat) : Option (List Byte) :=
  let all := logSlots.filterMap fun i => logStatement s i
  let mine := all.filter fun b => numAt b 8 2 == tenant && (period == 0 || numAt b 12 4 == period)
  mine.foldl (fun (best : Option (List Byte)) b => match best with
    | some x => if numAt x 0x38 8 < numAt b 0x38 8 then some b else some x
    | none => some b) none

/-! ## Closing (R484, R485) -/

/-- The address of applet slot i + 1. -/
def appletAt (i : Nat) : Nat := 0x207A0000 + i * 0x4000

/-- SEQ of a committed applet slot. -/
def appletSeq (s : State) (i : Nat) : Option Nat :=
  match mramWord s (appletAt i) with
  | some w => if w % 2 ^ 32 = 0x4150504C then some (w / 2 ^ 32) else none
  | none => none

/-- TENANT of the image in a slot. -/
def slotTenant (s : State) (i : Nat) : Option Nat := (mramBytes s (appletAt i + 16) 2).map natLE

/-- The COMMIT word of a slot is programmed with 0. -/
def dropApplet (s : State) (i : Nat) : State :=
  ((mramStoreBytes s (appletAt i) (bytesLE 8 0)).2).modMet fun m => { m with applets := if h : i < 8 then m.applets.set i none else m.applets }

/-- The committed slots of a tenant. -/
def tenantSlots (s : State) (t : Nat) : List Nat := (List.range 8).filter fun i => (appletSeq s i).isSome && slotTenant s i == some t

/-- Every worker that holds keys is told to invalidate its slots for a tenant (R442). -/
def tellWorkers (s : State) (t : Nat) : State :=
  (s.ring.nodes.filter fun n => n.pos != 0xFF && holdsKey s n.pos).foldl (fun u n =>
    startTxn u n.pos true ([0x09, 0x0E, 0, 0] ++ bytesLE 2 t ++ [0, 0]) .quiet) s

/-- A revocation: COMMIT and entries are zeroed, the floor rises, the tenant's slots are invalidated, its applet's COMMIT word is
zeroed, and every worker is told (R436, R442, R497). -/
def revokeTenant (s : State) (t seq : Nat) : State :=
  let s1 := (mramStoreBytes s (tenantRecord t) (List.replicate 0x118 0)).2
  let s2 := dropTenantSlots (raiseCounter s1 (0x100 + t) seq) t
  tellWorkers ((tenantSlots s2 t).foldl dropApplet s2) t

/-- What follows a close of a revocation package: the record goes, and the command is answered. -/
def afterClose (s : State) (t : Nat) (revoke : Option Nat) (r : ReplyTo) (code : Half) : State :=
  match revoke with
  | some seq => finishReply (revokeTenant s t seq) r 0 []
  | none => finishReply s r code []

/-- Steps 4 to 8 of R485. -/
def finishClose (s : State) (c : Closing) (out : List Byte) (fault : Bool) : State :=
  let st := statement s c out fault
  let s1 := raiseCounter (logWrite s st) (0x300 + c.tenant) c.snap.period
  let s2 := match accOf s1 c.tenant with | some a => accWrite s1 c.tenant a | none => s1
  afterClose (issueStatement (s2.modMet fun m => { m with closing := none }) st) c.tenant c.revoke c.reply 0

/-- The slot (0 to 7 for slots 1 to 8) of a tenant's applet. -/
def appletOf (s : State) (t : Nat) : Option Nat :=
  (List.range 8).find? fun i => match s.met.applets.toList.getD i none with | some a => a.tenant == t | none => false

/-- Steps 1 to 3 of R485: E, the snapshot, and the CLOSE hook where an applet has one. -/
def beginClose (s : State) (t : Nat) (a : Accum) (r : ReplyTo) (revoke : Option Nat) : State :=
  let s1 := raiseHigh s
  let c : Closing := { tenant := t, snap := a, endAt := enclaveTime s1, untimed := untimed s1, reply := r, revoke := revoke }
  let s2 := (setAcc s1 t (some (openPeriod s1 (a.period + 1) false))).modMet fun m => { m with closing := some c }
  match appletOf s t with
  | some i => match s.met.applets.toList.getD i none with
    | some ap =>
      if ap.faulted then finishClose s2 c [] true
      else if ap.entry[2] = 0xFFFF then finishClose s2 c [] false
      else s2.modMet fun m => { m with hooks := m.hooks ++ [(.close, i)] }
    | none => finishClose s2 c [] false
  | none => finishClose s2 c [] false

/-- A close is asked for (R484): refused without an open period or without METER_KEY; a revocation goes ahead after a refusal. -/
def closePeriod (s : State) (t : Nat) (r : ReplyTo) (revoke : Option Nat) : State :=
  if s.met.closing.isSome then s.modMet fun m => { m with closeQ := m.closeQ ++ [(t, r, revoke)] }
  else match accOf s t with
    | none => afterClose s t revoke r 0xC022
    | some a =>
      if (meterKey s t).isNone then afterClose (raise s Err.MET_NO_KEY acsSrc (BitVec.ofNat 64 t)) t revoke r Err.MET_NO_KEY
      else beginClose s t a r revoke

/-- The next close that waits. -/
def nextClose (s : State) : State :=
  match s.met.closing, s.met.closeQ with
  | none, (t, r, v) :: rest => closePeriod (s.modMet fun m => { m with closeQ := rest }) t r v
  | _, _ => s

/-! ## A manager's start (R478, R486, R488) -/

/-- One tenant at a start: a close cut off is completed, a record of the open period is kept, an old one is replaced. True: a
period opened here because its record was missing. -/
def startTenant (erased : Bool) (e : Bool × State) (t : Nat) : Bool × State :=
  let s := e.2
  let c := lastClosed s t
  let s1 := if (logSlots.any fun i => match logStatement s i with
      | some b => numAt b 8 2 == t && numAt b 12 4 == c + 1
      | none => false) then raiseCounter s (0x300 + t) (c + 1) else s
  let c1 := lastClosed s1 t
  match accRead s1 t with
  | some a =>
    if a.period = c1 + 1 then (e.1, setAcc s1 t (some a))
    else if a.period ≤ c1 then (e.1, accWrite s1 t (openPeriod s1 (c1 + 1) erased))
    else (e.1, s1)
  | none => if 0 < c1 then (true, accWrite s1 t (openPeriod s1 (c1 + 1) true)) else (e.1, s1)

/-- What a manager's start does for metering. `erased`: the erasure of R415 ran at this start. -/
def meterStart (s : State) (erased : Bool) : State :=
  let top := logSlots.foldl (fun m i => match logStatement s i with | some b => max m (numAt b 0x38 8) | none => m) 0
  let s1 := s.modMet fun m => { m with high := max m.high ((cntRead s 6).getD 0), logSeq := top + 1 }
  let r := tenantNumbers.foldl (startTenant erased) (false, s1)
  if r.1 || erased then raise r.2 Err.MET_RECORD_LOST acsSrc else r.2

end Sys2Proof.Machine
end

