-- ==== Sys2Proof/Machine/Carry.lean ====
section
/-! DEFINITION. Commands for another lane: how the manager carries them over the ring (R382, R384, R442). -/

namespace Sys2Proof.Machine

/-- Bytes of staging data in one transaction. -/
def stageChunk : Nat := 480

/-- A carry by its number. -/
def State.carry (s : State) (id : Nat) : Option Carry := s.host.carries.find? fun c => c.id == id

/-- Replaces a carry. -/
def putCarry (s : State) (c : Carry) : State :=
  s.modHost fun h => { h with carries := h.carries.map fun x => if x.id = c.id then c else x }

/-- A load of a choreography is carried. -/
def Carry.isLoad (c : Carry) : Bool := c.code == 0x0201

/-- TENANT of the choreography that a carried load stages. -/
def Carry.tenant (c : Carry) : Nat := numAt c.data 8 2

/-- The tenant's CHOREO_KEY, in a slot of the manager (R442). -/
def ensureTenant (s : State) (t : Nat) : State :=
  match tenantKey s t 1, tenantKey s t 2 with
  | some ck, some vk =>
    if (s.key.tenants.any fun e => e.1 == t) then s else (installTenant s t ck vk 1).getD s
  | _, _ => s

/-- What delivers a tenant's keys to a worker: TENANT, the CHOREO_KEY wrapped under the session key of the route, and CHOREO_VK
(R442). -/
def tenantDelivery (s : State) (pos t : Nat) : Option (List Byte) :=
  match tenantKeys s t with
  | some (ck, vk) => some ([0x08, 0x0E, 0, 0] ++ bytesLE 2 t ++ [0, 0] ++ keyWrap (sessKey s pos (route s pos)) ck ++ vk)
  | none => none

/-- The transaction of a carry's present phase. -/
def carrySend (s : State) (c : Carry) : State :=
  match c.phase with
  | .staging =>
    startTxn s c.pos false ([0x20, 0x0E, 0, 0] ++ bytesLE 4 c.sent ++ bytesLE 4 c.data.length ++ (c.data.drop c.sent).take stageChunk) (.carry c.id)
  | .keys =>
    let s1 := ensureTenant s c.tenant
    match tenantDelivery s1 c.pos c.tenant with
    | some b => startTxn s1 c.pos true b (.carry c.id)
    | none => startTxn (putCarry s1 { c with phase := .command }) c.pos false (bytesLE 2 c.code.toNat ++ [0, 0] ++ c.body) (.carry c.id)
  | .command => startTxn s c.pos false (bytesLE 2 c.code.toNat ++ [0, 0] ++ c.body) (.carry c.id)
  | .fetching =>
    startTxn s c.pos false ([0x21, 0x0E, 0, 0] ++ bytesLE 4 c.got.length ++ bytesLE 4 (min stageChunk (c.size - c.got.length))) (.carry c.id)

/-- A command for another lane begins its way; `data` goes to the worker's staging buffer first. -/
def carryStart (s : State) (pos : Nat) (code : Half) (body data : List Byte) (reply : ReplyTo) : State :=
  let c : Carry := { id := s.host.nextCarry, pos := pos, code := code, body := body, data := data,
                     phase := if data.isEmpty && code != 0x0201 && code != 0x0308 then .command else .staging, reply := reply }
  carrySend (s.modHost fun h => { h with nextCarry := h.nextCarry + 1, carries := h.carries ++ [c] }) c

/-- What the manager takes from the outcome of a command on another lane: an unloaded lane and one whose apply pass has failed
are IDLE (R269, R272), and a lane's last choreography is kept for its next device (R546). -/
def carryNote (s : State) (c : Carry) (st : Half) : State :=
  if (c.code = 0x0202 ∧ st = 0) ∨ (c.isLoad = true ∧ st = Err.FAB_APPLY_FAILED) then
    (if (s.lane c.pos).state = .vacant ∨ (s.lane c.pos).state = .safe then s else setLane s c.pos .idle)
  else if c.isLoad = true ∧ st = 0 then s.modSvc fun v => { v with choreos := sset (fun _ => []) v.choreos c.pos c.data }
  else s

/-- A carried command has its outcome. -/
def carryDone (s : State) (c : Carry) (st : Half) (body : List Byte) : State :=
  let s1 := s.modHost fun h => { h with carries := h.carries.filter fun x => x.id != c.id }
  finishReply (carryNote s1 c st) c.reply st body

/-- STATUS of a worker's answer. -/
def replyStatus (b : List Byte) : Half := BitVec.ofNat 16 (numAt b 0 2)

/-- The answer to a carry's transaction. -/
def carryAnswer (s : State) (id : Nat) (b : List Byte) : State :=
  match s.carry id with
  | none => s
  | some c =>
    let next (c : Carry) := carrySend (putCarry s c) c
    match c.phase with
    | .staging =>
      if replyStatus b ≠ 0 then carryDone s c (replyStatus b) []
      else
        let n := c.sent + stageChunk
        if n < c.data.length then next { c with sent := n }
        else next { c with sent := n, phase := if c.isLoad then .keys else .command }
    | .keys => if replyStatus b ≠ 0 then carryDone s c (replyStatus b) [] else next { c with phase := .command }
    | .command =>
      if replyStatus b = 0 ∧ c.code = 0x0307 then next { c with phase := .fetching, size := numAt b 4 4 }
      else carryDone s c (replyStatus b) (b.drop 4)
    | .fetching =>
      if replyStatus b ≠ 0 then carryDone s c (replyStatus b) []
      else
        let got := c.got ++ slice b 4 (min stageChunk (c.size - c.got.length))
        if got.length < c.size then next { c with got := got }
        else carryDone (s.setBuf 2 (bufOf got)) c 0 (bytesLE 4 c.size)

/-- The ring gives up on a carry (R353, R382). -/
def carryFailed (s : State) (id : Nat) : State :=
  match s.carry id with
  | some c => carryDone s c Err.FRL_TXN_FAILED []
  | none => s

/-! ## Choreography loads as the manager begins them (R267, R498) -/

/-- The preconditions of R267 that the manager can judge for another lane. -/
def otherLoadRefusal (s : State) (lane tenant : Nat) : Option Half :=
  if s.host.carries.any fun c => c.pos == lane && (c.isLoad || c.code == 0x0202) then some Err.FAB_BUSY
  else if (tenantKeys s tenant).isNone then some Err.FAB_NO_KEY
  else none

/-- The body of CHOREO_LOAD on a worker, whose staging buffer holds the choreography. -/
def loadBody (a : LoadAsk) : List Byte := [BitVec.ofNat 8 a.mode, 3, 0, 0] ++ bytesLE 8 a.swapAt.toNat

/-- The load goes ahead after its LOAD_CHECK: the enclave's check pass begins, or the choreography is forwarded. -/
def loadGo (s : State) (a : LoadAsk) : State :=
  if a.lane = s.ownLane then loadRequest s (a.mode == 1) a.buf a.swapAt a.reply
  else carryStart s a.lane 0x0201 (loadBody a) (s.buf a.buf).bytes a.reply

/-- A load that is refused before it begins (R275, R498). -/
def loadRefuse (s : State) (a : LoadAsk) (code : Half) : State :=
  if code = Err.ACS_LICENCE then finishReply (raise s code acsSrc (BitVec.ofNat 64 a.tenant)) a.reply code []
  else if a.lane = s.ownLane then fabFail s a.reply code
  else finishReply (raise s code fabSrc) a.reply code []

/-- CHOREO_LOAD as the manager begins it: preconditions, then LOAD_CHECK where the tenant has an applet (R267, R498). -/
def loadBegin (s : State) (a : LoadAsk) : State :=
  match (if a.lane = s.ownLane then loadRefusal s (a.mode == 1) a.tenant else otherLoadRefusal s a.lane a.tenant) with
  | some c => loadRefuse s a c
  | none =>
    match appletOf s a.tenant with
    | some i => match s.met.applets.toList.getD i none with
      | some ap =>
        if ap.faulted then loadRefuse s a Err.ACS_LICENCE
        else if ap.entry[1] = 0xFFFF then loadGo s a
        else s.modMet fun m => { m with hooks := m.hooks ++ [(.loadCheck, i)], loads := m.loads ++ [a] }
      | none => loadGo s a
    | none => loadGo s a

end Sys2Proof.Machine
end

