-- ==== Sys2Proof/Machine/EngineQueue.lean ====
section
/-! DEFINITION. Submission to the digest, cipher and public-key engines and completion of their descriptors (R444–R447,
R468). Engines are numbered 0 digest, 1 cipher, 2 public-key. -/

namespace Sys2Proof.Machine

/-- The SUBMIT register of an engine, the base of its block. -/
def engBase (e : Nat) : Nat := if e = 0 then Reg.DIG_SUBMIT else if e = 1 then Reg.CIP_SUBMIT else Reg.PKA_SUBMIT

/-- The descriptors that an engine holds. -/
def engQueue (s : State) (e : Nat) : List Nat := if e = 0 then s.eng.digQ else if e = 1 then s.eng.cipQ else s.eng.pkaQ

/-- The outcome of an engine's first descriptor. -/
def engOut (s : State) (e : Nat) : Option EngOut := if e = 0 then s.eng.digOut else if e = 1 then s.eng.cipOut else s.eng.pkaOut

def setEngQueue (s : State) (e : Nat) (q : List Nat) : State :=
  let s1 := s.modEng fun x => if e = 0 then { x with digQ := q } else if e = 1 then { x with cipQ := q } else { x with pkaQ := q }
  (s1.wrf (engBase e + 4) 18 16 q.length).wrb (engBase e + 4) 31 (!q.isEmpty)

def setEngOut (s : State) (e : Nat) (o : Option EngOut) : State :=
  s.modEng fun x => if e = 0 then { x with digOut := o } else if e = 1 then { x with cipOut := o } else { x with pkaOut := o }

/-- Whether a descriptor's address is 64-byte aligned and in enclave SRAM. -/
def descAddrOk (a : Nat) : Bool := a % 64 == 0 && decide (enclaveBase ≤ a) && decide (a < 0x500C0000)

/-- The counts, the code and the interrupt of a completed descriptor (R445, R468). -/
def countDone (s : State) (e : Nat) (code : Half) : State :=
  let b := engBase e
  let s1 := (s.wr (b + 8) (s.rd (b + 8) + 1)).wrf (b + 4) 15 0 code.toNat
  (if code = 0 then s1 else s1.bump (b + 12) 31 0).emit (.engineDone e code)

/-- A write to a SUBMIT register: its precise error and its effect (R444). -/
def submitEffect (e : Nat) (s : State) (v : Word) : Half × State :=
  let q := engQueue s e
  if 4 ≤ q.length then (Err.ENG_QUEUE_FULL, s)
  else if descAddrOk v.toNat then (0, setEngQueue s e (q ++ [v.toNat]))
  else (0, countDone s e Err.ENG_DESC_BAD)

/-- A SUBMIT command of engine e. -/
def submitRow (e : Nat) (m : Master) (addr : Word) (s : State) : Host.Outcome State Fault Refusal :=
  .next <| whenLive s fun s =>
    if !canAccess s m then s
    else gated (flushPairs s m (engBase e)) { master := m, write := true, addr := engBase e, len := 4 } fun s =>
      let (c, s1) := submitEffect e s addr
      s1.resp m [] c

/-- DIG_SUBMIT (R444). -/
def execDigSubmit (m : Master) (addr : Word) (s : State) : Host.Outcome State Fault Refusal := submitRow 0 m addr s

/-- CIP_SUBMIT (R444). -/
def execCipSubmit (m : Master) (addr : Word) (s : State) : Host.Outcome State Fault Refusal := submitRow 1 m addr s

/-- PKA_SUBMIT (R444). -/
def execPkaSubmit (m : Master) (addr : Word) (s : State) : Host.Outcome State Fault Refusal := submitRow 2 m addr s

/-- The operation code of a descriptor. -/
def descOp (s : State) (a : Nat) : Nat := s.wordAt a % 256

/-- Whether an operation code is in the engine's table (R450, R458, R461). -/
def opKnown (e op : Nat) : Bool :=
  match e with
  | 0 => op == 1 || op == 2 || op == 3 || op == 0x11 || op == 0x12 || op == 0x13
  | 1 => decide (1 ≤ op) && decide (op ≤ 10)
  | _ => decide (1 ≤ op) && decide (op ≤ 5)

/-- The STATUS, DETAIL and RESULT words of a completed descriptor (R447). -/
def statusBytes (o : EngOut) : List Byte :=
  bytesLE 4 (2 ^ 31 + b2n o.trunc * 2 ^ 30 + b2n o.withheld * 2 ^ 29 + o.code.toNat) ++ bytesLE 4 o.detail.toNat ++
    bytesLE 4 o.result.toNat

/-- An engine completes its first descriptor with an outcome. -/
def completeDesc (s : State) (e a : Nat) (o : EngOut) : State :=
  countDone (setEngOut (setEngQueue (s.setBytes (a + 0x34) (statusBytes o)) e ((engQueue s e).drop 1)) e none) e o.code

/-- DESCRIPTOR_COMPLETE (R445, R447): the first descriptor of an engine completes, once it has run or because its operation
is unknown. -/
def execDescriptorComplete (eng : Fin 3) (s : State) : Host.Outcome State Fault Refusal :=
  .next <| whenLive s fun s =>
    match engQueue s eng.val, engOut s eng.val with
    | a :: _, some o => completeDesc s eng.val a o
    | a :: _, none => if opKnown eng.val (descOp s a) then s else completeDesc s eng.val a { code := Err.ENG_DESC_BAD }
    | [], _ => s

end Sys2Proof.Machine
end

