-- ==== Sys2Proof/Machine/Acsis.lean ====
section
/-! DEFINITION. The Acsis machine (R490–R493) and the hooks that call it (R498). -/

namespace Sys2Proof.Machine

/-! ## Invocations -/

/-- A loaded applet, by the index of its slot (0 for slot 1). -/
def State.applet (s : State) (i : Nat) : Option Applet := s.met.applets.toList.getD i none

/-- Changes a loaded applet. -/
def State.modApplet (s : State) (i : Nat) (f : Applet → Applet) : State :=
  s.modMet fun m => { m with applets := if h : i < 8 then m.applets.set i (m.applets[i].map f) else m.applets }

/-- The applet of the invocation that runs. -/
def runApplet (s : State) (r : AcsRun) : Applet :=
  (s.applet r.slot).getD { tenant := 0, seq := 0, version := 0, code := [], entry := Vector.replicate 4 0xFFFF }

/-- What a LOAD_CHECK says of the load that asked for it (R498). -/
def loadCheckDone (s : State) (granted : Bool) : State :=
  match s.met.loads with
  | a :: rest =>
    let s1 := s.modMet fun m => { m with loads := rest }
    if granted then loadGo s1 a else loadRefuse s1 a Err.ACS_LICENCE
  | [] => s

/-- What a CLOSE hook has contributed to the close under way (R485, R498). -/
def closeHookDone (s : State) (out : List Byte) (fault : Bool) : State :=
  match s.met.closing with
  | some c => finishClose s c out fault
  | none => s

/-- What follows an invocation, or a hook that a FAULTED applet does not run. -/
def hookDone (s : State) (h : Hook) (result : Option Word) (out : List Byte) : State :=
  match h with
  | .init | .tick => s
  | .loadCheck => loadCheckDone s (result == some 0)
  | .close => closeHookDone s (if result.isSome then out else []) result.isNone

/-- An invocation has ended: its result, or none after a trap. A close it has asked for follows, then the next close that
waits (R490, R493). -/
def invocationEnds (s : State) (r : AcsRun) (result : Option Word) : State :=
  let s1 := hookDone (s.modMet fun m => { m with run := none }) r.hook result r.out
  nextClose (if r.closeReq then closePeriod s1 (runApplet s r).tenant .none none else s1)

/-- A trap: 0xC010 with slot and cause; three in a row make the applet FAULTED (R492). -/
def acsTrap (s : State) (r : AcsRun) (cause : Nat) : State :=
  let s1 := raise (s.bump Reg.ACS_TRAPS 31 0) Err.ACS_TRAP acsSrc (BitVec.ofNat 64 (r.slot + 1 + 256 * cause))
  let n := (runApplet s r).traps + 1
  let s2 := s1.modApplet r.slot fun a => { a with traps := n, faulted := a.faulted || decide (3 ≤ n) }
  let s3 := if n = 3 then raise s2 Err.ACS_FAULTED acsSrc (BitVec.ofNat 64 (r.slot + 1)) else s2
  invocationEnds s3 r none

/-- The end of an invocation without a trap: its result is the top of the stack, or 0. -/
def acsFinish (s : State) (r : AcsRun) : State :=
  invocationEnds (s.modApplet r.slot fun a => { a with traps := 0 }) r (some (r.stack.headD 0))

/-! ## One instruction (R490, R491) -/

/-- What an instruction comes to. -/
inductive AcsRes where
  /-- The invocation goes on. -/
  | go (r : AcsRun) (s : State)
  /-- It ends. -/
  | stop (r : AcsRun) (s : State)
  /-- It traps with a cause. -/
  | trap (cause : Nat)
  /-- The instruction waits and has not been executed. -/
  | wait

/-- A byte of the running applet's code, 0 outside it. -/
def codeByte (code : List Byte) (a : Nat) : Nat := (code.getD a 0).toNat

/-- The little-endian immediate of n bytes after an opcode. -/
def codeImm (code : List Byte) (pc n : Nat) : Nat := natLE ((List.range n).map fun i => code.getD (pc + 1 + i) 0)

/-- Pushes items, the last of the list on top; more than 64 items trap. -/
def acsPush (r : AcsRun) (s : State) (l : List Word) : AcsRes :=
  if 64 < r.stack.length + l.length then .trap 2 else .go { r with stack := l.reverse ++ r.stack } s

/-- One instruction runs where an invocation runs whose code has `op` (and for SYS the number `sys`) at its pc: the budget is
spent first, then `f` acts with the pc after the instruction (R490, R492). -/
def acsRow (op imm : Nat) (sys : Option Nat) (f : Nat → AcsRun → State → AcsRes) (s : State) : Host.Outcome State Fault Refusal :=
  .next (whenLive s fun s =>
    match s.met.run with
    | none => s
    | some r =>
      let code := (runApplet s r).code
      let v := codeImm code r.pc imm
      if code.length ≤ r.pc ∨ codeByte code r.pc ≠ op ∨ (sys.isSome ∧ sys ≠ some v) then s
      else if 200000 ≤ r.count then acsTrap s r 7
      else match f v { r with pc := r.pc + 1 + imm, count := r.count + 1 } s with
        | .go r' s' => s'.modMet fun m => { m with run := some r' }
        | .stop r' s' => acsFinish s' r'
        | .trap c => acsTrap s { r with count := r.count + 1 } c
        | .wait => s)

/-- A value sign-extended from n bits. -/
def signExtend (n v : Nat) : Word := if v < 2 ^ (n - 1) then BitVec.ofNat 32 v else BitVec.ofNat 32 (v + (2 ^ 32 - 2 ^ n))

/-- Pops one item. -/
def acsPop1 (r : AcsRun) (f : Word → AcsRun → AcsRes) : AcsRes :=
  match r.stack with
  | a :: t => f a { r with stack := t }
  | _ => .trap 2

/-- Pops two items: a below b. -/
def acsPop2 (r : AcsRun) (f : Word → Word → AcsRun → AcsRes) : AcsRes :=
  match r.stack with
  | b :: a :: t => f a b { r with stack := t }
  | _ => .trap 2

/-- Pops four items: al, ah, bl, bh with bh on top, as two 64-bit values. -/
def acsPop4 (r : AcsRun) (f : DWord → DWord → AcsRun → AcsRes) : AcsRes :=
  match r.stack with
  | bh :: bl :: ah :: al :: t => f (ah ++ al) (bh ++ bl) { r with stack := t }
  | _ => .trap 2

/-- The two words of a 64-bit value, low half first. -/
def halves (v : DWord) : List Word := [v.truncate 32, (v >>> 32).truncate 32]

/-- An instruction a b → r. -/
def acsBin (op : Nat) (f : Word → Word → Word) (s : State) : Host.Outcome State Fault Refusal :=
  acsRow op 0 none (fun _ r s => acsPop2 r fun a b r => acsPush r s [f a b]) s

/-- A division a b → r, which traps on b = 0. -/
def acsDivision (op : Nat) (f : Word → Word → Word) (s : State) : Host.Outcome State Fault Refusal :=
  acsRow op 0 none (fun _ r s => acsPop2 r fun a b r => if b = 0 then .trap 6 else acsPush r s [f a b]) s

/-- The number a truth value pushes. -/
def acsBool (b : Bool) : Word := if b then 1 else 0

/-- An instruction al ah bl bh → rl rh. -/
def acsWide (op : Nat) (f : DWord → DWord → DWord) (s : State) : Host.Outcome State Fault Refusal :=
  acsRow op 0 none (fun _ r s => acsPop4 r fun a b r => acsPush r s (halves (f a b))) s

/-- Shift amounts are taken modulo 32. -/
def acsAmount (b : Word) : Nat := b.toNat % 32

/-- PUSH8. -/
def execAcsPush8 (s : State) : Host.Outcome State Fault Refusal := acsRow 0x01 1 none (fun v r s => acsPush r s [signExtend 8 v]) s
/-- PUSH16. -/
def execAcsPush16 (s : State) : Host.Outcome State Fault Refusal := acsRow 0x02 2 none (fun v r s => acsPush r s [signExtend 16 v]) s
/-- PUSH32. -/
def execAcsPush32 (s : State) : Host.Outcome State Fault Refusal := acsRow 0x03 4 none (fun v r s => acsPush r s [BitVec.ofNat 32 v]) s
/-- DUP: a → a a. -/
def execAcsDup (s : State) : Host.Outcome State Fault Refusal := acsRow 0x04 0 none (fun _ r s => acsPop1 r fun a r => acsPush r s [a, a]) s
/-- DROP: a →. -/
def execAcsDrop (s : State) : Host.Outcome State Fault Refusal := acsRow 0x05 0 none (fun _ r s => acsPop1 r fun _ r => .go r s) s
/-- SWAP: a b → b a. -/
def execAcsSwap (s : State) : Host.Outcome State Fault Refusal := acsRow 0x06 0 none (fun _ r s => acsPop2 r fun a b r => acsPush r s [b, a]) s
/-- OVER: a b → a b a. -/
def execAcsOver (s : State) : Host.Outcome State Fault Refusal := acsRow 0x07 0 none (fun _ r s => acsPop2 r fun a b r => acsPush r s [a, b, a]) s
/-- PICK: a copy of the item n places below the top. -/
def execAcsPick (s : State) : Host.Outcome State Fault Refusal :=
  acsRow 0x08 1 none (fun n r s => match r.stack[n]? with
    | some v => acsPush r s [v]
    | none => .trap 2) s
/-- ADD, wrapping. -/
def execAcsAdd (s : State) : Host.Outcome State Fault Refusal := acsBin 0x10 (· + ·) s
/-- SUB, wrapping. -/
def execAcsSub (s : State) : Host.Outcome State Fault Refusal := acsBin 0x11 (· - ·) s
/-- MUL: the low 32 bits. -/
def execAcsMul (s : State) : Host.Outcome State Fault Refusal := acsBin 0x12 (· * ·) s
/-- DIVU. -/
def execAcsDivu (s : State) : Host.Outcome State Fault Refusal := acsDivision 0x13 (fun a b => BitVec.ofNat 32 (a.toNat / b.toNat)) s
/-- REMU. -/
def execAcsRemu (s : State) : Host.Outcome State Fault Refusal := acsDivision 0x14 (fun a b => BitVec.ofNat 32 (a.toNat % b.toNat)) s
/-- DIVS: truncated toward zero. -/
def execAcsDivs (s : State) : Host.Outcome State Fault Refusal := acsDivision 0x15 (fun a b => BitVec.ofInt 32 (a.toInt.tdiv b.toInt)) s
/-- REMS: the sign of a. -/
def execAcsRems (s : State) : Host.Outcome State Fault Refusal := acsDivision 0x16 (fun a b => BitVec.ofInt 32 (a.toInt.tmod b.toInt)) s
/-- AND. -/
def execAcsAnd (s : State) : Host.Outcome State Fault Refusal := acsBin 0x17 (· &&& ·) s
/-- OR. -/
def execAcsOr (s : State) : Host.Outcome State Fault Refusal := acsBin 0x18 (· ||| ·) s
/-- XOR. -/
def execAcsXor (s : State) : Host.Outcome State Fault Refusal := acsBin 0x19 (· ^^^ ·) s
/-- NOT. -/
def execAcsNot (s : State) : Host.Outcome State Fault Refusal := acsRow 0x1A 0 none (fun _ r s => acsPop1 r fun a r => acsPush r s [~~~a]) s
/-- SHL. -/
def execAcsShl (s : State) : Host.Outcome State Fault Refusal := acsBin 0x1B (fun a b => a <<< acsAmount b) s
/-- SHR. -/
def execAcsShr (s : State) : Host.Outcome State Fault Refusal := acsBin 0x1C (fun a b => a >>> acsAmount b) s
/-- SAR. -/
def execAcsSar (s : State) : Host.Outcome State Fault Refusal := acsBin 0x1D (fun a b => a.sshiftRight (acsAmount b)) s
/-- EQ. -/
def execAcsEq (s : State) : Host.Outcome State Fault Refusal := acsBin 0x1E (fun a b => acsBool (a == b)) s
/-- LTU. -/
def execAcsLtu (s : State) : Host.Outcome State Fault Refusal := acsBin 0x1F (fun a b => acsBool (a.ult b)) s
/-- LTS. -/
def execAcsLts (s : State) : Host.Outcome State Fault Refusal := acsBin 0x20 (fun a b => acsBool (a.slt b)) s
/-- ADD64, wrapping. -/
def execAcsAdd64 (s : State) : Host.Outcome State Fault Refusal := acsWide 0x21 (· + ·) s
/-- SUB64, wrapping. -/
def execAcsSub64 (s : State) : Host.Outcome State Fault Refusal := acsWide 0x22 (· - ·) s
/-- LTU64. -/
def execAcsLtu64 (s : State) : Host.Outcome State Fault Refusal :=
  acsRow 0x23 0 none (fun _ r s => acsPop4 r fun a b r => acsPush r s [acsBool (a.ult b)]) s
/-- MULU64: the unsigned 64-bit product. -/
def execAcsMulu64 (s : State) : Host.Outcome State Fault Refusal :=
  acsRow 0x24 0 none (fun _ r s => acsPop2 r fun a b r => acsPush r s (halves (BitVec.ofNat 64 (a.toNat * b.toNat)))) s

/-! ## Data memory -/

/-- n bytes of the applet's data memory. -/
def acsData (s : State) (r : AcsRun) (a n : Nat) : List Byte := sparseBytes (runApplet s r).data a n

/-- Writes the applet's data memory. -/
def acsStore (s : State) (r : AcsRun) (a : Nat) (l : List Byte) : State := s.modApplet r.slot fun x => { x with data := putBytes x.data a l }

/-- A word address inside the data memory and aligned. -/
def acsWordAt (a : Word) : Bool := decide (a.toNat < 4096) && a.toNat % 4 == 0

/-- LDW: addr → v. -/
def execAcsLdw (s : State) : Host.Outcome State Fault Refusal :=
  acsRow 0x30 0 none (fun _ r s => acsPop1 r fun a r => if acsWordAt a then acsPush r s [wordLE (acsData s r a.toNat 4)] else .trap 4) s
/-- STW: v addr →. -/
def execAcsStw (s : State) : Host.Outcome State Fault Refusal :=
  acsRow 0x31 0 none (fun _ r s => acsPop2 r fun v a r => if acsWordAt a then .go r (acsStore s r a.toNat (bytesLE 4 v.toNat)) else .trap 4) s
/-- LDB: addr → the zero-extended byte. -/
def execAcsLdb (s : State) : Host.Outcome State Fault Refusal :=
  acsRow 0x32 0 none (fun _ r s => acsPop1 r fun a r => if a.toNat < 4096 then acsPush r s [wordLE (acsData s r a.toNat 1)] else .trap 4) s
/-- STB: v addr → stores v[7:0]. -/
def execAcsStb (s : State) : Host.Outcome State Fault Refusal :=
  acsRow 0x33 0 none (fun _ r s => acsPop2 r fun v a r => if a.toNat < 4096 then .go r (acsStore s r a.toNat [v.truncate 8]) else .trap 4) s

/-! ## Control flow -/

/-- A jump to an address, which must lie in the code. -/
def acsJump (r : AcsRun) (s : State) (target : Int) : AcsRes :=
  if target < 0 ∨ ((runApplet s r).code.length : Int) ≤ target then .trap 5 else .go { r with pc := target.toNat } s

/-- The byte after the instruction plus a signed 16-bit offset. -/
def acsOffset (r : AcsRun) (v : Nat) : Int := r.pc + (signExtend 16 v).toInt

/-- JMP. -/
def execAcsJmp (s : State) : Host.Outcome State Fault Refusal := acsRow 0x40 2 none (fun v r s => acsJump r s (acsOffset r v)) s
/-- JZ. -/
def execAcsJz (s : State) : Host.Outcome State Fault Refusal :=
  acsRow 0x41 2 none (fun v r s => acsPop1 r fun a r => if a = 0 then acsJump r s (acsOffset r v) else .go r s) s
/-- JNZ. -/
def execAcsJnz (s : State) : Host.Outcome State Fault Refusal :=
  acsRow 0x42 2 none (fun v r s => acsPop1 r fun a r => if a = 0 then .go r s else acsJump r s (acsOffset r v)) s
/-- CALL: pushes the return address; a seventeenth traps. -/
def execAcsCall (s : State) : Host.Outcome State Fault Refusal :=
  acsRow 0x43 2 none (fun v r s => if 16 ≤ r.calls.length then .trap 3 else acsJump { r with calls := r.pc :: r.calls } s v) s
/-- RET: returns, or ends the invocation with an empty call stack. -/
def execAcsRet (s : State) : Host.Outcome State Fault Refusal :=
  acsRow 0x44 0 none (fun _ r s => match r.calls with
    | [] => .stop r s
    | a :: t => acsJump { r with calls := t } s a) s
/-- END. -/
def execAcsEnd (s : State) : Host.Outcome State Fault Refusal := acsRow 0x45 0 none (fun _ r s => .stop r s) s

/-- ACS_BAD_OPCODE: an opcode not listed, or a SYS number not listed, traps (R492); so does a pc outside the code, where no
opcode is. -/
def execAcsBadOpcode (s : State) : Host.Outcome State Fault Refusal :=
  .next (whenLive s fun s =>
    match s.met.run with
    | none => s
    | some r =>
      let code := (runApplet s r).code
      let op := if r.pc < code.length then codeByte code r.pc else 0
      let listed := (1 ≤ op && op ≤ 8) || (0x10 ≤ op && op ≤ 0x24) || (0x30 ≤ op && op ≤ 0x33) || (0x40 ≤ op && op ≤ 0x45)
      let n := codeImm code r.pc 1
      if 200000 ≤ r.count then acsTrap s r 7
      else if op = 0x50 then (if 1 ≤ n ∧ n ≤ 0x0B then s else acsTrap s r 8)
      else if listed then s else acsTrap s r 1)

/-! ## System calls (R493) -/

/-- A system call. -/
def acsSys (n : Nat) (f : AcsRun → State → AcsRes) (s : State) : Host.Outcome State Fault Refusal :=
  acsRow 0x50 1 (some n) (fun _ r s => f r s) s

/-- TIME: → lo hi timed. -/
def execAcsSysTime (s : State) : Host.Outcome State Fault Refusal :=
  acsSys 1 (fun r s => acsPush r s (halves (BitVec.ofNat 64 (enclaveTime s)) ++ [acsBool (!untimed s)])) s
/-- PERIOD: → the number of the open period, or 0. -/
def execAcsPeriod (s : State) : Host.Outcome State Fault Refusal :=
  acsSys 2 (fun r s => acsPush r s [BitVec.ofNat 32 (((accOf s (runApplet s r).tenant).map (·.period)).getD 0)]) s
/-- TALLY: id kind → lo hi, the COUNT of the key in the open period. -/
def execAcsTally (s : State) : Host.Outcome State Fault Refusal :=
  acsSys 3 (fun r s => acsPop2 r fun id kind r =>
    let n := match accOf s (runApplet s r).tenant with
      | some a => ((a.entries.find? fun e => e.1 == (id.toNat, kind.toNat)).map (·.2)).getD 0
      | none => 0
    acsPush r s (halves (BitVec.ofNat 64 n))) s
/-- The tenant's version floor counter. -/
def floorCounter (s : State) (r : AcsRun) : Nat := 0x200 + (runApplet s r).tenant
/-- FLOOR: → lo hi. -/
def execAcsFloor (s : State) : Host.Outcome State Fault Refusal :=
  acsSys 4 (fun r s => acsPush r s (halves (BitVec.ofNat 64 ((cntRead s (floorCounter s r)).getD 0)))) s
/-- RAISE_FLOOR: lo hi → status. -/
def execAcsRaiseFloor (s : State) : Host.Outcome State Fault Refusal :=
  acsSys 5 (fun r s => acsPop2 r fun lo hi r =>
    let v := lo.toNat + 2 ^ 32 * hi.toNat
    if v ≤ (cntRead s (floorCounter s r)).getD 0 then acsPush r s [1] else acsPush r (raiseCounter s (floorCounter s r) v) [0]) s

/-- Pops three items: a, b, c with c on top. -/
def acsPop3 (r : AcsRun) (f : Word → Word → Word → AcsRun → AcsRes) : AcsRes :=
  match r.stack with
  | c :: b :: a :: t => f a b c { r with stack := t }
  | _ => .trap 2

/-- HMAC: addr len out → status, over "APPL", TENANT and the data. -/
def execAcsHmac (s : State) : Host.Outcome State Fault Refusal :=
  acsSys 6 (fun r s => acsPop3 r fun a len out r =>
    if 4096 < a.toNat + len.toNat ∨ 4096 < out.toNat + 32 then .trap 4
    else
      let t := (runApplet s r).tenant
      match meterKey s t with
      | none => acsPush r s [1]
      | some k =>
        let m := ascii [0x41, 0x50, 0x50, 0x4C] ++ bytesLE 2 t ++ acsData s r a.toNat len.toNat
        acsPush r (acsStore s r out.toNat (hmac .sha256 k m)) [0]) s
/-- RANDOM: → 32 bits; the invocation waits while the generator is not ready, and traps where it has FAILED. -/
def execAcsRandom (s : State) : Host.Outcome State Fault Refusal :=
  acsSys 7 (fun r s => if rngReady s then let (v, t) := s.drawWord; acsPush r t [v] else if rngFailed s then .trap 7 else .wait) s

/-- The instruction that an invocation is at is SYS RANDOM. -/
def atRandom (s : State) (r : AcsRun) : Bool :=
  let code := (runApplet s r).code
  decide (r.pc < code.length) && codeByte code r.pc == 0x50 && codeImm code r.pc 1 == 7

/-- RNG_REQUEST_TIMEOUT (R417, R462, R493): a request to the generator is refused after 100 ms: a KEYGEN or SIGN that waits
fails, and otherwise an invocation that waits in RANDOM traps with cause 7. -/
def execRngRequestTimeout (s : State) : Host.Outcome State Fault Refusal :=
  .next <| whenLive s fun s =>
    let applet : State := match s.met.run with
      | some r => if atRandom s r then acsTrap s r 7 else s
      | none => s
    if rngReady s then s
    else match s.eng.pkaQ, s.eng.pkaOut with
      | a :: _, none =>
        if descOp s a = 1 ∨ descOp s a = 3 then setEngOut s 2 (some { code := Err.PKA_RNG }) else applet
      | _, _ => applet

/-- CLOSE_REQ: a close of the open period after the invocation ends. -/
def execAcsCloseReq (s : State) : Host.Outcome State Fault Refusal := acsSys 8 (fun r s => .go { r with closeReq := true } s) s
/-- OUT: addr len → status, in CLOSE only. -/
def execAcsOut (s : State) : Host.Outcome State Fault Refusal :=
  acsSys 9 (fun r s =>
    if r.hook ≠ .close then .trap 8
    else acsPop2 r fun a len r =>
      if len.toNat % 4 ≠ 0 ∨ 64 < len.toNat then acsPush r s [1]
      else if 4096 < a.toNat + len.toNat then .trap 4
      else acsPush { r with out := acsData s r a.toNat len.toNat } s [0]) s
/-- LOAD_INFO: → recipe version lane, in LOAD_CHECK only. -/
def execAcsLoadInfo (s : State) : Host.Outcome State Fault Refusal :=
  acsSys 0xA (fun r s =>
    if r.hook ≠ .loadCheck then .trap 8
    else match s.met.loads with
      | a :: _ => acsPush r s [BitVec.ofNat 32 a.recipe, BitVec.ofNat 32 a.version, BitVec.ofNat 32 a.lane]
      | [] => acsPush r s [0, 0, 0]) s
/-- Lanes in SORTING with a choreography of a tenant: the own lane's, and those of the last choreographies that the manager has
loaded. -/
def tenantLanes (s : State) (t : Nat) : Nat :=
  ((List.range 65).filter fun p =>
    (s.lane p).state == .sorting &&
      (if p = s.ownLane then s.fabLoaded && s.fab.conf.tenant == t
       else decide (numAt (sget (fun _ => []) s.svc.choreos p) 8 2 = t) && !(sget (fun _ => []) s.svc.choreos p).isEmpty)).length
/-- LANES: → n. -/
def execAcsLanes (s : State) : Host.Outcome State Fault Refusal :=
  acsSys 0xB (fun r s => acsPush r s [BitVec.ofNat 32 (tenantLanes s (runApplet s r).tenant)]) s

/-! ## Hooks (R498) -/

/-- The index of a hook's entry point. -/
def hookIndex : Hook → Nat
  | .init => 0 | .loadCheck => 1 | .close => 2 | .tick => 3

/-- The invocation of a hook begins: INIT has its data memory zeroed (R490); a FAULTED applet runs none. -/
def startHook (s : State) (h : Hook) (i : Nat) : State :=
  match s.applet i with
  | none => nextClose (hookDone s h (some 0) [])
  | some a =>
    let pc := a.entry.toList.getD (hookIndex h) 0xFFFF
    if a.faulted then nextClose (hookDone s h none [])
    else if pc = 0xFFFF then nextClose (hookDone s h (some 0) [])
    else
      let s1 := if h = .init then s.modApplet i fun x => { x with data := [] } else s
      s1.modMet fun m => { m with run := some { slot := i, hook := h, pc := pc } }

/-- The invocation that waits longest begins, if it is of this hook and none runs. -/
def takeHook (s : State) (h : Hook) : State :=
  match s.met.run, s.met.hooks with
  | none, (k, i) :: rest => if k = h then startHook (s.modMet fun m => { m with hooks := rest }) k i else s
  | _, _ => s

/-- INIT: runs after each load and at each start of the manager. -/
def execHookInit (s : State) : Host.Outcome State Fault Refusal := .next (whenLive s fun s => takeHook s .init)

/-- CLOSE: runs at step 3 of a close. -/
def execHookClose (s : State) : Host.Outcome State Fault Refusal := .next (whenLive s fun s => takeHook s .close)

/-- LOAD_CHECK: runs for a CHOREO_LOAD that names the tenant. -/
def execHookLoadCheck (s : State) : Host.Outcome State Fault Refusal := .next (whenLive s fun s => takeHook s .loadCheck)

/-- A TICK that is due waits for its turn. -/
def tickWaits (s : State) (slot : Fin 8) : State :=
  match s.applet slot with
  | some a => if a.faulted then s else s.modMet fun m => { m with hooks := m.hooks ++ [(.tick, slot.val)] }
  | none => s

/-- TICK: every 60 s the TICK of a slot is due; it runs at once or in its turn. A FAULTED applet receives none. -/
def execHookTick (slot : Fin 8) (s : State) : Host.Outcome State Fault Refusal :=
  .next (whenLive s fun s =>
    if !s.isManager then s
    else match s.met.run, s.met.hooks with
      | none, [] => (match s.applet slot with
        | some a => if a.faulted then s else startHook s .tick slot
        | none => s)
      | none, e :: _ => if e = (.tick, slot.val) then takeHook s .tick else tickWaits s slot
      | some _, _ => tickWaits s slot)

/-- ACS_STAT: TIMED, FAULTED, LOADED and METERING. -/
def acsStatView (s : State) : Word :=
  let bits (f : Applet → Bool) : Nat := (List.range 8).foldl (fun n i => match s.applet i with
    | some a => if f a then n + 2 ^ i else n
    | none => n) 0
  BitVec.ofNat 32 (2 ^ 31 * b2n s.met.timed + 2 ^ 16 * bits (·.faulted) + 2 ^ 8 * bits (fun _ => true) + b2n s.isManager)

end Sys2Proof.Machine
end

