-- ==== Sys2Proof/Machine/Loops.lean ====
section
/-! DEFINITION. The loop outputs (R394–R397): settings, the current that a sink draws, its measurement and compliance. -/

namespace Sys2Proof.Machine

/-- LOOP_ in the peripheral slots. -/
def loopSrc : Byte := 0x13

/-- The evaluation state of a loop. -/
def State.loopEval (s : State) (n : Fin 2) : LoopEval := s.host.loops[n]

/-- Changes the evaluation state of a loop. -/
def State.modLoop (s : State) (n : Fin 2) (f : LoopEval → LoopEval) : State :=
  s.modHost fun h => { h with loops := h.loops.set n (f h.loops[n]) }

/-- COMPLIANCE of a loop. -/
def loopShort (s : State) (n : Fin 2) : Bool := s.rdb Reg.LOOP_STAT (8 * n.val)

/-- The commanded current of R394, in µA. -/
def loopCommand (s : State) (n : Fin 2) : Nat :=
  match s.rdf (Reg.LOOP_CTRL n) 1 0 with
  | 0 => 0
  | 1 => s.rdf (Reg.LOOP_CMD n) 14 0
  | 2 => 3600
  | _ => 21500

/-- The device signals failure on a loop (R395): DARK_ALARM is set and LANE_DARK is raised for its lane. -/
def loopAlarm (s : State) (n : Fin 2) : Bool := s.rdb (Reg.LOOP_CTRL n) 16 && s.lanes.dark

/-- The current that a sink is to draw, the first of R395 that applies; until it is configured 3,600 µA (R397). -/
def loopTarget (s : State) (n : Fin 2) : Nat :=
  if s.rdb Reg.ERR_STAT 31 then 3600
  else if !(s.loopEval n).configured then 3600
  else if loopAlarm s n && loopShort s n then 3600
  else if loopAlarm s n then (if s.rdb (Reg.LOOP_CTRL n) 17 then 21500 else 3600)
  else loopCommand s n

/-- LOOP_STAT: ALARM reads 1 while a failure signal is driven (R395). -/
def loopStatView (s : State) : Word :=
  BitVec.ofNat 32 (b2n (loopShort s 0) + 2 * b2n (loopAlarm s 0) + 256 * b2n (loopShort s 1) + 512 * b2n (loopAlarm s 1))

/-- The effect of a write to LOOP_CTRLn: the sink is configured. -/
def loopCtrlEffect (n : Fin 2) (s : State) (v : Word) : State :=
  (fieldWrite s (Reg.LOOP_CTRL n) v).modLoop n fun e => { e with configured := true }

/-- The settings of a LOOP_SET body. -/
def loopCfgOf (b : List Byte) : LoopCfg :=
  { mode := numAt b 1 1, value := numAt b 2 2, dark := numAt b 4 1 % 2 == 1, high := numAt b 4 1 / 2 % 2 == 1 }

/-- MODE and VALUE lie in the ranges of R394. -/
def loopRangeOk (c : LoopCfg) : Bool := decide (c.mode ≤ 3) && (c.mode != 1 || (decide (3800 ≤ c.value) && decide (c.value ≤ 20500)))

/-- The control core sets an own loop. -/
def loopApply (s : State) (n : Fin 2) (c : LoopCfg) : State :=
  let s1 := loopCtrlEffect n s (BitVec.ofNat 32 (c.mode + 2 ^ 16 * b2n c.dark + 2 ^ 17 * b2n c.high))
  s1.wr (Reg.LOOP_CMD n) (BitVec.ofNat 32 (c.value % 2 ^ 15))

/-- LOOP_SET on the device itself (R394). -/
def loopSetCmd (b : List Byte) (s : State) : Half × List Byte × State :=
  let c := loopCfgOf b
  if !loopRangeOk c then (Err.LOOP_RANGE, [], raise s Err.LOOP_RANGE loopSrc)
  else (0, [], loopApply s (if numAt b 0 1 = 0 then 0 else 1) c)

/-- The manager stores a lane's loop settings (R394). -/
def loopStore (s : State) (lane : Nat) (b : List Byte) : State :=
  let k := 2 * lane + (if numAt b 0 1 = 0 then 0 else 1)
  savePosition (s.modHost fun h => { h with loopStore := sset (fun _ => none) h.loopStore k (some (loopCfgOf b)) }) lane

/-- The body of the LOOP_SET that sends stored settings at an admission. -/
def loopBody (n : Nat) (c : LoopCfg) : List Byte :=
  [BitVec.ofNat 8 n, BitVec.ofNat 8 c.mode] ++ bytesLE 2 c.value ++ [BitVec.ofNat 8 (b2n c.dark + 2 * b2n c.high), 0, 0, 0]

/-- LOOP_STATUS (R383). -/
def loopStatusCmd (b : List Byte) (s : State) : Half × List Byte × State :=
  let n : Fin 2 := if numAt b 0 1 = 0 then 0 else 1
  let st := (loopStatView s).toNat / 2 ^ (8 * n.val) % 256
  (0, bytesLE 2 (loopCommand s n) ++ bytesLE 2 (s.rdf (Reg.LOOP_MEAS n) 14 0) ++ [BitVec.ofNat 8 st, 0, 0, 0], s)

/-- Compliance is not evaluated in mode OFF, where no failure signal is driven (R394). -/
def loopEvaluated (s : State) (n : Fin 2) : Bool := decide (loopTarget s n ≠ 0)

/-- LOOP_MEASURE: every millisecond a sink measures its current; COMPLIANCE sets after 50 measurements more than 100 µA short and
clears after 1000 that are not (R396). -/
def execLoopMeasure (n : Fin 2) (ua : BitVec 15) (s : State) : Host.Outcome State Fault Refusal :=
  .next (whenLive s fun s =>
    let s1 := s.wr (Reg.LOOP_MEAS n) (BitVec.ofNat 32 ua.toNat)
    if !loopEvaluated s1 n then s1.modLoop n fun e => { e with short := 0, fine := 0 }
    else
      let low := decide (ua.toNat + 100 < loopTarget s1 n)
      let e := s1.loopEval n
      let short := if low then min 50 (e.short + 1) else 0
      let fine := if low then 0 else min 1000 (e.fine + 1)
      let s2 := s1.modLoop n fun e => { e with short := short, fine := fine }
      if short = 50 ∧ loopShort s2 n = false then
        raise ((s2.wrb Reg.LOOP_STAT (8 * n.val) true).wrb Reg.ERR_EVT 13 true) Err.LOOP_COMPLIANCE loopSrc (BitVec.ofNat 64 n.val)
      else if fine = 1000 ∧ loopShort s2 n = true then (s2.wrb Reg.LOOP_STAT (8 * n.val) false).wrb Reg.ERR_EVT 13 true
      else s2)

end Sys2Proof.Machine
end

