-- ==== Sys2Proof/Machine/Tenant.lean ====
section
/-! DEFINITION. Key packages (R434–R437), tenant keys on workers (R442) and applet images (R494–R497). -/

namespace Sys2Proof.Machine

/-! ## Key packages (R434) -/

/-- An entry of a package's plaintext body: ROLE, TYPE and key. -/
structure PkgEntry where
  role : Nat
  kind : Nat
  key  : List Byte
  deriving DecidableEq, Repr

/-- The entries of a body, after which only zero bytes may follow. -/
def pkgEntries : Nat → List Byte → Option (List PkgEntry)
  | 0, l => if l.all (· == 0) then some [] else none
  | n + 1, l =>
    let len := numAt l 2 2
    let step := 4 + (len + 3) / 4 * 4
    if l.length < step then none
    else (pkgEntries n (l.drop step)).map fun r => { role := numAt l 0 1, kind := numAt l 1 1, key := slice l 4 len } :: r

/-- Role, type and length of an entry fit each other (R433, R434). -/
def PkgEntry.ok (e : PkgEntry) : Bool :=
  match e.role with
  | 1 => e.kind == 3 && e.key.length == 32
  | 2 => e.kind == 7 && e.key.length == 64
  | 3 => e.kind == 4 && decide (16 ≤ e.key.length) && decide (e.key.length ≤ 64)
  | 4 => e.kind == 7 && e.key.length == 64
  | _ => false

/-- The entries that a package of a kind may hold: one of ROLE 4 in KIND 1, none in KIND 3, tenant roles without repeats in
KIND 2. -/
def entriesOk (kind : Nat) (l : List PkgEntry) : Bool :=
  l.all PkgEntry.ok &&
    (match kind with
     | 1 => l.length == 1 && l.all fun e => e.role == 4
     | 2 => (l.all fun e => decide (e.role < 4)) && l.all fun e => (l.filter fun x => x.role == e.role).length == 1
     | _ => l.isEmpty)

/-- Check 1 of R435. -/
def pkgShape (l : List Byte) : Bool :=
  let n := numAt l 0x60 4
  let kind := numAt l 6 1
  let nent := numAt l 7 1
  let t := numAt l 8 2
  numAt l 0 4 == 0x4B504B47 && numAt l 4 2 == 1 && decide (1 ≤ kind) && decide (kind ≤ 3) &&
    (if kind = 3 then nent == 0 else decide (1 ≤ nent) && decide (nent ≤ 3)) && decide (t ≤ 255) && (kind != 1 || t == 0) &&
    decide (1 ≤ numAt l 0xC 4) && decide (n % 16 = 0) && decide (16 ≤ n) && decide (n ≤ 4096) && l.length == 0x80 + n + 64

/-- The floor counter of a package (R435). -/
def pkgFloor (l : List Byte) : Nat := if numAt l 6 1 = 1 then 5 else 0x100 + numAt l 8 2

/-- The checks of R435: the entries, or the first error. `fault` says that the machine-link engine finds a mismatch, which discards
the package as a failed tag does (R467). -/
def pkgCheck (s : State) (l : List Byte) (fault : Bool := false) : Half × List PkgEntry :=
  let n := numAt l 0x60 4
  let kind := numAt l 6 1
  if !pkgShape l then (Err.KEY_PKG_FORMAT, [])
  else if (kind = 1 ∧ s.lc ≠ 1) ∨ (kind ≠ 1 ∧ s.lc ≠ 2) then (Err.KEY_PKG_STATE, [])
  else
    let signer := if kind = 1 then some (lulomusKey 0) else ownerKey s
    let okSig := match signer with
      | some k => p256Verify k (l.take (0x80 + n)) (slice l (0x80 + n) 64)
      | none => false
    if !okSig then (Err.KEY_PKG_AUTH, [])
    else if numAt l 0xC 4 ≤ (cntRead s (pkgFloor l)).getD 0 then (Err.KEY_PKG_ROLLBACK, [])
    else match (if (s.slot 3).valid then keyUnwrap (s.slot 3).key (slice l 0x10 40) else none) with
      | none => (Err.KEY_PKG_AUTH, [])
      | some cek =>
        if fault then (Err.ENG_FAULT, [])
        else match gcmDecrypt cek (slice l 0x38 12) (l.take 0x50) (slice l 0x80 n) (slice l 0x50 16) with
        | none => (Err.KEY_PKG_AUTH, [])
        | some body => match pkgEntries (numAt l 7 1) body with
          | some es => if entriesOk kind es then (0, es) else (Err.KEY_PKG_AUTH, [])
          | none => (Err.KEY_PKG_AUTH, [])

/-- KIND 1: the owner key and its commit are written, counter 0x005 rises and OWNED is requested (R436). -/
def applyOwner (s : State) (seq : Nat) (key : List Byte) : State :=
  let s1 := (mramStoreBytes s ownerKeyAt key).2
  let s2 := (mramStoreBytes s1 ownerMacAt (cmac storageKey key)).2
  let s3 := (mramStoreBytes s2 ownerCommitAt (bytesLE 8 seq)).2
  let s4 := raiseCounter s3 5 seq
  if s4.lcStored = 1 then (lcRequest s4 2 true).2 else s4

/-- KIND 2: the tenant record is committed, its floor rises, and the tenant's slots are invalidated here and on every worker
(R436, R442). -/
def applyTenant (s : State) (t seq : Nat) (es : List PkgEntry) : State :=
  let a := tenantRecord t
  let body := bytesLE 8 es.length ++ es.flatMap fun e => makeEntry e.role e.kind e.key
  let s1 := (mramStoreBytes s a (bytesLE 8 0)).2
  let s2 := (mramStoreBytes s1 (a + 8) (slice body 0 272)).2
  let s3 := (mramStoreBytes s2 a (bytesLE 8 (0x54454E54 * 2 ^ 32 + seq))).2
  tellWorkers (dropTenantSlots (raiseCounter s3 (0x100 + t) seq) t) t

/-- TENANT_KEYS as an enclave carries it out over the bytes of a buffer (R435, R436, R467); the machine-link session-key register
is zero afterwards. -/
def tenantKeysRun (fault : Bool) (s : State) (l : List Byte) (r : ReplyTo) : State :=
  let seq := numAt l 0xC 4
  let t := numAt l 8 2
  match pkgCheck s l fault with
  | (0, es) =>
    let s1 := setSess s 2 []
    match numAt l 6 1, es with
    | 1, e :: _ => finishReply (applyOwner s1 seq e.key) r 0 []
    | 3, _ => closePeriod s1 t r (some seq)
    | _, es => finishReply (applyTenant s1 t seq es) r 0 []
  | (c, _) =>
    let s1 := setSess s 2 []
    if c = Err.ENG_FAULT then finishReply (raise (raise s1 c (pavSrc 1)) Err.KEY_PKG_AUTH (pavSrc 1)) r Err.KEY_PKG_AUTH []
    else finishReply (raise s1 c (pavSrc 1)) r c []

/-- A buffer passes to an admitted standby after the manager's own handling (R548). -/
def provision (s : State) (code : Half) (data : List Byte) : State :=
  match standbyPos s with
  | some p => if s.isManager && holdsKey s p then carryStart s p code [3, 0, 0, 0] data .provision else s
  | none => s

/-- R437: floors that lie below a committed record are raised at every start. -/
def raiseFloors (s : State) : State :=
  let s1 := match mramWord s ownerCommitAt with
    | some w => raiseCounter s 5 (w % 2 ^ 32)
    | none => s
  tenantNumbers.foldl (fun u t => match tenantSeq u t with
    | some seq => raiseCounter u (0x100 + t) seq
    | none => u) s1

/-! ## Tenant keys on workers (R442) -/

/-- TENANT_KEY_DELIVERY: the worker's enclave unwraps a delivered key under the session key of the path and fills its slots. -/
def execTenantKeyDelivery (p : Fin 2) (s : State) : Host.Outcome State Fault Refusal :=
  .next (whenLive s fun s =>
    if s.isManager then s
    else match takeFrame s p fun f => f.typ == 0x10 && !f.rsp && f.toEn && f.code == 0x0E08 with
      | (none, _) => s
      | (some f, t) =>
        match admitTxn t p f with
        | (false, u) => u
        | (true, u) =>
          match keyUnwrap (sessKey u u.position f.path) (slice f.payload 8 40) with
          | none => respondTxn u f.src f.txn.toNat (ringReply Err.KEY_PKG_AUTH [])
          | some ck =>
            match installTenant u (numAt f.payload 4 2) ck (slice f.payload 48 64) 0x1FF with
            | some v => respondTxn v f.src f.txn.toNat (ringReply 0 [])
            | none => respondTxn u f.src f.txn.toNat (ringReply Err.KEY_SLOT_BUSY []))

/-! ## Applet images (R494–R497) -/

/-- Check 1 of R496. -/
def appletShape (l : List Byte) : Bool :=
  let code := numAt l 0x10 2
  let n := numAt l 0x1C 4
  numAt l 0 4 == 0xACE50A01 && numAt l 4 2 == 1 && numAt l 6 2 == 0 && decide (numAt l 8 2 ≤ 255) && numAt l 0xA 2 == 0 &&
    decide (code ≤ 8192) && ((List.range 4).all fun i => numAt l (0x12 + 2 * i) 2 == 0xFFFF || decide (numAt l (0x12 + 2 * i) 2 < code)) &&
    numAt l 0x1A 2 == 0 && n == max 16 ((code + 15) / 16 * 16) && zeroSpan l 0x54 0x60 && zeroSpan l 0x70 0x80 && l.length == 128 + n + 64

/-- The code of an authentic image under its tenant's keys (R495). -/
def appletCode (s : State) (l : List Byte) : Option (List Byte) :=
  let n := numAt l 0x1C 4
  match tenantKey s (numAt l 8 2) 1, tenantKey s (numAt l 8 2) 2 with
  | some ck, some vk =>
    if !p256Verify vk (l.take (128 + n)) (slice l (128 + n) 64) then none
    else match keyUnwrap ck (slice l 0x20 40) with
      | none => none
      | some cek => (gcmDecrypt cek (slice l 0x48 12) (l.take 0x60) (slice l 128 n) (slice l 0x60 16)).map (·.take (numAt l 0x10 2))
  | _, _ => none

/-- The applet of an image. -/
def appletOfImage (l : List Byte) (seq : Nat) (code : List Byte) : Applet :=
  { tenant := numAt l 8 2, seq := seq, version := numAt l 0xC 4, code := code,
    entry := #v[numAt l 0x12 2, numAt l 0x14 2, numAt l 0x16 2, numAt l 0x18 2] }

/-- The checks of R496 in their order: the code, or the first error. -/
def appletCheck (s : State) (l : List Byte) : Half × List Byte :=
  let t := numAt l 8 2
  if !appletShape l then (Err.ACS_FORMAT, [])
  else if s.lc ≠ 2 ∨ !(s.isManager || s.isStandby) then (Err.ACS_STATE, [])
  else if (tenantKey s t 1).isNone || (tenantKey s t 2).isNone then (Err.ACS_NO_KEY, [])
  else if numAt l 0xC 4 < (cntRead s (0x200 + t)).getD 0 then (Err.ACS_ROLLBACK, [])
  else match appletCode s l with
    | none => (Err.ACS_AUTH, [])
    | some code =>
      if numAt l 0x10 2 ≠ 0 ∧ (List.range 8).all (fun i => (appletSeq s i).isSome) then (Err.ACS_NO_SLOT, []) else (0, code)

/-- An accepted image is stored under the next SEQ; on the acting manager it is loaded and its INIT is due; the tenant's previous
slot is dropped (R497). -/
def appletStore (s : State) (l code : List Byte) : State :=
  let t := numAt l 8 2
  let old := tenantSlots s t
  if numAt l 0x10 2 = 0 then old.foldl dropApplet s
  else match (List.range 8).find? fun i => (appletSeq s i).isNone with
    | none => s
    | some i =>
      let seq := (List.range 8).foldl (fun m k => max m ((appletSeq s k).getD 0)) 0 + 1
      let s1 := (mramStoreBytes s (appletAt i + 8) (l ++ List.replicate ((8 - l.length % 8) % 8) 0)).2
      let s2 := (mramStoreBytes s1 (appletAt i) (bytesLE 4 0x4150504C ++ bytesLE 4 seq)).2
      let s3 := if s.isManager then s2.modMet fun m =>
          { m with applets := if h : i < 8 then m.applets.set i (some (appletOfImage l seq code)) else m.applets, hooks := m.hooks ++ [(.init, i)] }
        else s2
      old.foldl dropApplet s3

/-- APPLET_LOAD over the bytes of a buffer (R496, R497). -/
def appletLoadRun (s : State) (l : List Byte) (r : ReplyTo) : State :=
  match appletCheck s l with
  | (0, code) => finishReply (appletStore s l code) r 0 []
  | (c, _) => finishReply (raise s c (pavSrc 5)) r c []

/-- A manager's start loads the stored applets: of two slots of one tenant the one with the higher SEQ, the other is dropped;
INIT of each is due (R497, R498). -/
def loadApplets (s : State) : State :=
  let s1 := (List.range 8).foldl (fun u i =>
    match appletSeq u i, slotTenant u i with
    | some q, some t => if (tenantSlots u t).any fun k => decide (q < (appletSeq u k).getD 0) then dropApplet u i else u
    | _, _ => u) s
  (List.range 8).foldl (fun u i =>
    match appletSeq u i, mramBytes u (appletAt i + 8) 8384 with
    | some q, some l =>
      let l := l.take (192 + numAt l 0x1C 4)
      match appletCode u l with
      | some code => u.modMet fun m =>
          { m with applets := if h : i < 8 then m.applets.set i (some (appletOfImage l q code)) else m.applets, hooks := m.hooks ++ [(.init, i)] }
      | none => u
    | _, _ => u) s1

end Sys2Proof.Machine
end

