-- ==== Sys2Proof/Machine/Admission.lean ====
section
/-! DEFINITION. Steps 4 to 8 of the admission of a device (R545–R547), as the manager carries them out. -/

namespace Sys2Proof.Machine

/-- SVC_ in the peripheral slots. -/
def svcSrc : Byte := 0x16

/-- The step under way and its outcome for a position. -/
def setAdmit (s : State) (pos : Nat) (step : AdmitStep) : State :=
  s.modSvc fun v => { v with admits := (pos, step, none) :: v.admits.filter fun a => a.1 != pos }

/-- The sequence of a position has ended. -/
def endAdmit (s : State) (pos : Nat) : State := s.modSvc fun v => { v with admits := v.admits.filter fun a => a.1 != pos }

/-- The request of step 4: the time where known, whether the device is a further standby that acts as a worker, and the position's
calibration record (R22, R227, R545). -/
def checkBody (s : State) (pos : Nat) : List Byte :=
  let l := (calRecord s pos).take 8
  let extra := (extraStandbys s.ring.nodes).contains pos
  [0x06, 0x0E, BitVec.ofNat 8 (b2n (utcNow s).isSome + 2 * b2n extra), BitVec.ofNat 8 l.length] ++ bytesLE 8 ((utcNow s).getD 0) ++ l.flatMap (slice · 0 8)

/-- The body of CHOREO_LOAD NEW on a worker. -/
def newLoadBody : List Byte := [0, 3, 0, 0] ++ bytesLE 8 0

/-- The sequence goes on with the first of some steps that has something to send; a lane without a choreography is IDLE
(R546, R547). -/
def admitRun (s : State) (pos : Nat) : List AdmitStep → State
  | [] => endAdmit s pos
  | .check :: _ => startTxn (setAdmit s pos .check) pos false (checkBody s pos) .check
  | .loop0 :: r => (match loopOf s pos 0 with
    | some c => carryStart (setAdmit s pos .loop0) pos 0x0206 (loopBody 0 c) [] (.admission pos)
    | none => admitRun s pos r)
  | .loop1 :: r => (match loopOf s pos 1 with
    | some c => carryStart (setAdmit s pos .loop1) pos 0x0206 (loopBody 1 c) [] (.admission pos)
    | none => admitRun s pos r)
  | .choreo :: _ =>
    let l := sget (fun _ => []) s.svc.choreos pos
    if (s.lane pos).state ≠ .admitting then endAdmit s pos
    else if l.isEmpty then endAdmit (setLane s pos .idle) pos
    else carryStart (setAdmit s pos .choreo) pos 0x0201 newLoadBody l (.admission pos)
  | .shutter :: _ => carryStart (setAdmit s pos .shutter) pos 0x0204 [] [] (.admission pos)
  | .enterLane :: _ => setAdmit s pos .enterLane

/-- A device whose worker firmware runs is admitted: step 4 begins (R546). -/
def admitStart (s : State) (pos : Nat) : State := admitRun s pos [.check]

/-- The calibration record of a lane is replaced after a commit or an import in it, and copied to an admitted standby (R545,
R548). -/
def storeRecord (s : State) (pos : Nat) (l : List (List Byte)) : State :=
  provisionRecord (savePosition (s.modSvc fun v => { v with records := sset (fun _ => []) v.records pos l }) pos) pos

/-- The answer to step 4: the lane's state on its device, the number of usable sets, and the digest prefixes it holds. An empty
record takes these; a device that is sorting keeps its lane SORTING; one without a usable set is IDLE (R545, R547). -/
def checkAnswer (s : State) (pos : Nat) (b : List Byte) : State :=
  let l := (List.range (min 8 (numAt b 6 1))).map fun i => slice b (8 + 8 * i) 8
  let s1 := if (calRecord s pos).isEmpty then storeRecord s pos l else s
  let s2 := if numAt b 4 1 = 4 then setLane s1 pos .sorting else if numAt b 5 1 = 0 then setLane s1 pos .idle else s1
  admitRun s2 pos [.loop0, .loop1, .choreo]

/-- A shutter event of an admission has failed: the manager orders it once more (R547). -/
def shutterFailed (s : State) (pos : Nat) : State := (endAdmit s pos).modSvc fun v => { v with shutterRetry := nsAdd v.shutterRetry pos }

/-- A step of a position has its outcome (R547): a failed load leaves the lane IDLE. -/
def admitOutcome (s : State) (pos : Nat) (step : AdmitStep) (st : Half) : State :=
  match step with
  | .check => endAdmit s pos
  | .loop0 => admitRun s pos [.loop1, .choreo]
  | .loop1 => admitRun s pos [.choreo]
  | .choreo =>
    if st = 0 then admitRun s pos [.shutter]
    else endAdmit (if (s.lane pos).state = .admitting then setLane s pos .idle else s) pos
  | .shutter => if st = 0 then admitRun s pos [.enterLane] else shutterFailed s pos
  | .enterLane => endAdmit s pos

/-- Every sequence whose step has an outcome goes on. -/
def admitAdvance (s : State) : State :=
  s.svc.admits.foldl (fun t a => match a.2.2 with
    | some st => admitOutcome t a.1 a.2.1 st
    | none => t) s

/-- A commit or an import has been made in the own lane: the manager's record follows (R545). -/
def reportRecord (s : State) : State :=
  let l := ownRecord s
  if s.isManager then storeRecord s s.ownLane l
  else startTxn s 0 false ([0x07, 0x0E, BitVec.ofNat 8 l.length, 0] ++ l.flatten) .quiet

/-- A calibration record holds on this device's lane (R545): usable slots that it does not list are not selected, and none left
raises 0xE010, or 0x4010 where the record is empty and there is no set at all (R231). The lane is then admitted only to IDLE. -/
def applyRecord (s : State) (l : List (List Byte)) : State :=
  let s1 := evaluateSlots (s.modSvc fun v => { v with allow := some l })
  let s2 := s1.wrb Reg.SVC_STAT 0 (!(usableSlots s1).isEmpty)
  if (usableSlots s2).isEmpty then
    let s3 := raise s2 (if l.isEmpty then Err.CAL_NONE else Err.SVC_CAL_FOREIGN) (if l.isEmpty then calSrc else svcSrc) (BitVec.ofNat 64 s2.ownLane)
    if s3.lanes.own.state = .admitting then setLane s3 s3.ownLane .idle else s3
  else loadSets 8 s2

/-- A full provision of the standby at its admission: the sticky map and every calibration record (R548). -/
def provisionAll (s : State) (p : Nat) : State :=
  let s1 := provisionMap s
  (List.range 65).foldl (fun t pos => if (calRecord t pos).isEmpty then t
    else startTxn t p false ([0x05, 0x0E, BitVec.ofNat 8 pos, 0] ++ positionBytes t pos) .quiet) s1

end Sys2Proof.Machine
end

