-- ==== Sys2Proof/Machine/Rows.lean ====
section
/-! DEFINITION. Row and frame boundaries (R165–R175, R182, R197–R202, R219, R270–R272): what takes effect at each, the results of a
shutter event, and the new row's header. -/

namespace Sys2Proof.Machine

/-! ## Stuck channels (R170) -/

/-- A channel's record at the end of a frame: the code it has returned throughout, and for how many frames. -/
def stuckFrame (c : ChStuck) : ChStuck :=
  match c.code, c.varied with
  | some k, false => { last := some k, frames := if c.last = some k then c.frames + 1 else 1 }
  | some _, true => {}
  | none, _ => { c with code := none, varied := false }

/-- The frame's end for one channel: declared stuck after 4 frames, and cleared after a frame with two codes. -/
def stuckChannel (s : State) (ch : Fin 8) : State :=
  let c := s.fe.stuck[ch]
  let s1 := s.modFe fun f => { f with stuck := f.stuck.set ch.val (stuckFrame c) }
  if c.varied then s1.wrb Reg.BFE_STAT (8 + ch.val) false
  else if 4 ≤ (stuckFrame c).frames ∧ s.rdb Reg.BFE_STAT (8 + ch.val) = false then
    raise (s1.wrb Reg.BFE_STAT (8 + ch.val) true) Err.FE_CHANNEL_STUCK 0x07 (BitVec.ofNat 64 ch.val)
  else s1

/-- The frame's end for every channel in use. -/
def stuckChannels (s : State) : State :=
  ([0, 1, 2, 3, 4, 5, 6, 7] : List (Fin 8)).foldl (fun t ch => if ch.val < feChannels s then stuckChannel t ch else t) s

/-! ## Windows of a shutter event (R201) -/

/-- TAU_FRAMES, clamped. -/
def tauFrames (s : State) : Nat := max 2 (s.rdf Reg.NUC_TAUCFG 19 16)

/-- A window at a frame boundary: it begins, or takes the frame that ends. FRAMES counts the boundaries it has seen. -/
def winFrame (m : Nat) (w : TauWin) (codes : Sparse Nat) : TauWin :=
  if !w.armed then w
  else
    let k := w.frames - 1
    let w1 := { w with frames := w.frames + 1 }
    if w.frames = 0 then w1
    else
      let w2 := if k = 0 then { w1 with x0 := codes } else if k = 1 then { w1 with x1 := codes } else w1
      if k = m then { w2 with xm := codes } else if k = m + 1 then { w2 with xn := codes, armed := false, done := true } else w2

/-- The frame that ends enters the windows; frames after the close window may belong to the offset window. -/
def windowsFrame (s : State) : State :=
  let m := tauFrames s
  s.modNuc fun n =>
    { n with closeWin := winFrame m n.closeWin n.cur.codes
             openWin := winFrame m n.openWin n.cur.codes
             frames := if n.closeWin.done then (n.cur :: n.frames).take 32 else n.frames }

/-- The estimate of a pixel from a window, as numerator and denominator of a. -/
def tauEstimate (w : TauWin) (stepMin p : Nat) : Option (Int × Int) :=
  let g (x : Sparse Nat) : Int := ((sget (fun _ => 0) x p : Nat) : Int)
  let s1 := g w.xm - g w.x0
  let s2 := g w.xn - g w.x1
  let (n, d) := if s1 < 0 then (-s2, -s1) else (s2, s1)
  if w.done ∧ (stepMin : Int) ≤ d ∧ 0 < n ∧ 10000 * n ≤ 9411 * d then some (n, d) else none

/-- K of R201 from the two estimates; none where neither is valid or they differ by more than TOL. -/
def tauK (tol : Nat) (a b : Option (Int × Int)) : Option Nat :=
  let k (e : Int × Int) : Nat := (roundDiv (256 * e.1) (e.2 - e.1).toNat).toNat
  match a, b with
  | some x, some y =>
    if 256 * (x.1 * y.2 - y.1 * x.2).natAbs ≤ tol * (x.2 * y.2).toNat then some (k (x.1 * y.2 + y.1 * x.2, 2 * (x.2 * y.2))) else none
  | some x, none => some (k x)
  | none, some y => some (k y)
  | none, none => none

/-- A 64-bit record with bits [hi:lo] replaced. -/
def setDw (w : DWord) (hi lo v : Nat) : DWord :=
  let m : DWord := BitVec.ofNat 64 ((2 ^ (hi + 1 - lo) - 1) * 2 ^ lo)
  (w &&& ~~~m) ||| (BitVec.ofNat 64 (v * 2 ^ lo) &&& m)

/-- O_SHUT of a pixel: its mean code over the offset window, Q14.4. -/
def shutMean (l : List FrameRec) (p : Nat) : Nat :=
  (roundDiv (l.foldl (fun (a : Nat) f => a + sget (fun _ => 0) f.codes p) 0 * 16) (max 1 l.length)).toNat

/-- The results of an event for one pixel; `ofs` is the offset window where it holds. -/
def eventPixel (ofs : Option (List FrameRec)) (s : State) (p : Nat) : State :=
  let stepMin := s.rdf Reg.NUC_TAUCFG 7 0
  let r := liveRecord s p
  let r1 := match ofs with | some l => setDw r 63 46 (shutMean l p) | none => r
  match tauK (s.rdf Reg.NUC_TAUCFG 15 8) (tauEstimate s.nuc.closeWin stepMin p) (tauEstimate s.nuc.openWin stepMin p) with
  | some k => s.modNuc fun n => putCoef n (coefKey 3 p) (setDw (setDw r1 45 34 k) 32 32 1)
  | none =>
    let s1 := s.bump Reg.NUC_TAU_REJECT 31 0
    if r1 = r then s1 else s1.modNuc fun n => putCoef n (coefKey 3 p) r1

/-- The offset window where it holds OFS_FRAMES frames, all CLOSED and none stale (R202). -/
def offsetWindow (s : State) : Option (List FrameRec) :=
  match s.nuc.ofsWin with
  | some l => if l.all fun f => f.closed && !f.stale then some l else none
  | none => none

/-- A completed event's results take effect (R201, R202). -/
def eventResults (s : State) : State :=
  let ofs := offsetWindow s
  let s1 := (setPixels s).foldl (eventPixel ofs) s
  let s2 := ((s1.wr Reg.NUC_TAU_FP (BitVec.ofNat 32 (framePeriod s))).wrb Reg.NUC_STAT 2 false).wrb Reg.ERR_EVT 4 true
  let s3 := match ofs with
    | some l =>
      let t := meanT (l.foldl (fun (a : Nat) (f : FrameRec) => a + f.tSum) 0) (l.foldl (fun (a : Nat) (f : FrameRec) => a + f.rows) 0)
      (s2.wr Reg.NUC_TSHUT (BitVec.ofNat 32 t)).wrb Reg.NUC_STAT 3 true
    | none => raise s2 Err.NUC_OFS_SKIPPED 0x09
  s3.modNuc fun n => { n with apply := false }

/-! ## The frame boundary -/

/-- Pending DEAD changes take effect (R195). -/
def applyDead (s : State) : State :=
  s.modNuc fun n => n.pendDead.foldl (fun (n : NucSt) (e : Nat × Bool) =>
    putCoef n (coefKey 3 e.1) (setDw (sget (fun _ => 0) n.coef (coefKey 3 e.1)) 33 33 (b2n e.2))) { n with pendDead := [] }

/-- Pixels whose K the ceiling binds are counted (R200). -/
def countLimited (s : State) : State :=
  s.bump Reg.NUC_TAU_LIMITED 31 0 ((setPixels s).filter fun p =>
    bitOf (liveRecord s p) 32 && decide (s.rdf Reg.NUC_TAU 11 0 < fld (liveRecord s p) 45 34)).length

/-- SHUT returns to OPEN once recovery has ended, and the event's results take effect with it (R182, R201). -/
def shutBoundary (s : State) : State :=
  if s.sht.recovered then
    let s1 := s.modSht fun x => { x with recovered := false, shut := .opened }
    if s1.nuc.apply then eventResults s1 else s1
  else s

/-- What waits for a frame boundary takes effect: output levels, bias codes, the event's results, the selection and DEAD changes
(R165, R174, R195, R197, R201). -/
def frameSettings (s : State) : State :=
  let s1 := s.modFe fun f => { f with outNow := s.rd Reg.BFE_OUT, bias := Vector.ofFn fun n => s.rd (Reg.BFE_BIAS n.val) }
  countLimited (applyDead (applySelection (shutBoundary s1)))

/-- A frame has ended: the calibration dialogue, the windows and the stuck channels take note of it. -/
def frameEnd (s : State) : State :=
  let s1 := stuckChannels (windowsFrame (calFrame s s.nuc.cur))
  (s1.modNuc fun n => { n with cur := {} }).wr Reg.BFE_FRAME (BitVec.ofNat 32 ((s.rdf Reg.BFE_FRAME 23 0 + 1) % 2 ^ 24))

/-- The front end stops at a frame boundary: a lane that sorts leaves SORTING (R166, R209). -/
def feStops (s : State) : State :=
  let s1 := fabRowBoundary ((tdiStop (s.wrb Reg.BFE_STAT 0 false)).modFe fun f => { f with row := none, buf := [] })
  if s1.lanes.own.state = .sorting then setLane s1 s1.ownLane .admitting else s1

/-! ## The row boundary -/

/-- A row starts: its header is captured, a line may open, and the fabric's ports, swap and unload follow (R167, R171, R208,
R270–R272). -/
def rowStart (row : Nat) (s : State) : State :=
  let h : RowHdr := { stamp := s.ct, frame := s.rdf Reg.BFE_FRAME 23 0, row := row, t := (s.rd Reg.BFE_FPT_K).toNat,
                      stale := s.rdb Reg.BFE_FPT_STAT 2, shut := if shtPresent s then s.sht.shut else .opened }
  let s1 := s.modFe fun f => { f with row := some row, hdr := h, buf := [], rows := f.rows + 1 }
  let s2 := tdiOpen (s1.modVis fun v => { v with trigRows := v.trigRows + 1 })
  fabRowBoundary (admitBoundary (openBoundary s2))

/-- The row in progress is complete. -/
def rowComplete (s : State) : Bool := s.fe.buf.length == feCols s

/-- ROW_BOUNDARY (R167): a row period ends, once all samples of its row have been taken (R164), and the next row starts. -/
def execRowBoundary (s : State) : Host.Outcome State Fault Refusal :=
  .next (whenLive s fun s =>
    if !s.feRunning then s
    else match s.fe.row with
      | none => rowStart 0 (frameSettings s)
      | some r =>
        if !rowComplete s then s
        else
          let s1 := calRow s
          if r + 1 < feRows s then rowStart (r + 1) s1
          else
            let s2 := frameSettings (frameEnd s1)
            if s2.rdb Reg.BFE_CTRL 0 then rowStart 0 s2 else feStops s2)

end Sys2Proof.Machine
end

