-- ==== Sys2Proof/Machine/ErrCtl.lean ====
section
/-! DEFINITION. The error controller as software sees it (R532–R542): handling of latches, the error log, reports, and entry into
the safe state on request or after 1 s. -/

namespace Sys2Proof.Machine

/-- The error-code block's source number in the latches: ERR_. -/
def errSrc : Byte := 0x15

/-- What the latch of a class holds (R531). -/
def latchReport (s : State) (k : Nat) : ErrReport :=
  { code := BitVec.ofNat 16 (s.rdf (Reg.ERR_LATCH_CODE k) 15 0), cls := k, ovf := s.rdf (Reg.ERR_OVF k) 15 0,
    detail := BitVec.ofNat 64 (s.rd64 (Reg.ERR_LATCH_DETAIL_LO k) (Reg.ERR_LATCH_DETAIL_HI k)),
    time := BitVec.ofNat 64 (s.rd64 (Reg.ERR_LATCH_TIME_LO k) (Reg.ERR_LATCH_TIME_HI k)) }

/-! ## The error log (R541) -/

/-- The record of a SEQ. -/
def errLogAt (n : Nat) : Nat := 0x20720000 + (n % 16384) * 0x20

/-- Words 1 to 3 are programmed, then word 0; a record that cannot be written uses its SEQ up. -/
def errLog (s : State) (pos : Nat) (r : ErrReport) : State :=
  let n := s.err.logSeq
  let body := bytesLE 8 (r.code.toNat + r.cls * 2 ^ 16 + pos * 2 ^ 24 + r.ovf * 2 ^ 32) ++ bytesLE 8 r.time.toNat ++ bytesLE 8 r.detail.toNat
  let s1 := s.modErr fun e => { e with logSeq := n + 1 }
  match mramStoreBytes s1 (errLogAt n + 8) body with
  | (true, t) => (mramStoreBytes t (errLogAt n) (bytesLE 8 n)).2
  | (false, t) => t

/-- At a start the next SEQ is one above the highest readable one. -/
def errLogStart (s : State) : State :=
  let top := (List.range 16384).foldl (fun m i => match mramWord s (errLogAt i) with | some w => max m w | none => m) 0
  s.modErr fun e => { e with logSeq := top + 1 }

/-! ## Reporting (R538, R539) -/

/-- Errors that are always sent as events (R388). -/
def alwaysSent (code : Half) : Bool :=
  code == Err.NODE_LOST || code == Err.DUPLICATE_MANAGER || code == Err.RING_OVERSIZE || code == Err.FRL_STANDBY_EXTRA

/-- A report becomes an ERROR event, INFO and CORRECTED ones as EVENT_MASK selects. -/
def reportEvent (s : State) (lane : Nat) (r : ErrReport) : State :=
  if decide (2 ≤ r.cls) || (r.cls == 0 && s.host.maskInfo) || (r.cls == 1 && s.host.maskCorr) || alwaysSent r.code then
    postEvent s 0x0110 lane (bytesLE 2 r.code.toNat ++ [BitVec.ofNat 8 r.cls, 0] ++ bytesLE 8 r.detail.toNat)
  else s

/-- A worker's report leaves for position 0. -/
def sendReport (s : State) (r : ErrReport) : State := startTxn s 0 false ([0x01, 0x0E, 0, 0] ++ reportBody r) .report

/-- A report is held until it is answered; one that finds 64 is discarded and counted. -/
def holdReport (s : State) (r : ErrReport) : State :=
  if 64 ≤ s.err.reports.length then (s.bump Reg.ERR_RPTLOST 31 0).modErr fun e => { e with owesLost := true }
  else sendReport (s.modErr fun e => { e with reports := e.reports ++ [r] }) r

/-- A report has been answered; space frees, and 0x0060 with the count of those lost goes first. -/
def reportAnswered (s : State) (body : List Byte) : State :=
  let s1 := s.modErr fun e => { e with reports := e.reports.eraseP fun r => reportBody r == body.drop 4 }
  if s1.err.owesLost then
    holdReport (s1.modErr fun e => { e with owesLost := false })
      { code := Err.ERR_REPORT_LOST, cls := 2, ovf := 0, detail := BitVec.ofNat 64 (s1.rd Reg.ERR_RPTLOST).toNat, time := s1.ct }
  else s1

/-! ## Handling (R532) -/

/-- Firmware handles a latch (R532, R581): it logs DEGRADED, FATAL and SECURITY errors, and reports. Reading ERR_OVFk clears it. -/
def handleLatch (s : State) (k : Nat) : State :=
  let r := latchReport s k
  let s1 := s.wr (Reg.ERR_OVF k) 0
  let s2 := if 2 ≤ k then errLog s1 s1.ownLane r else s1
  if s2.isManager then reportEvent s2 s2.ownLane r else holdReport s2 r

/-- The effect of a write to ERR_DONE: each named latch ends its handling. The control core's firmware or ROM has handled the
latch when it writes. -/
def errDoneEffect (m : Master) (s : State) (v : Word) : State :=
  (List.range 5).foldl (fun t k =>
    if bitOf v k && t.rdb Reg.ERR_STAT (16 + k) then
      (if m = .cc then handleLatch t k else t).wrb Reg.ERR_STAT (16 + k) false
    else t) s

/-- ERR_DONE (R532, R538, R539, R541): a write to ERR_DONE. -/
def execErrDone (m : Master) (v : Word) (s : State) : Host.Outcome State Fault Refusal := writeRow m Reg.ERR_DONE v (errDoneEffect m) s

/-- ERROR_RAISE (R531, R534, R535): errors raised in one CLK_PER cycle. -/
def execErrorRaise (l : List Raise) (s : State) : Host.Outcome State Fault Refusal := .next (whenLive s fun s => raiseMany s l)

/-- The effect of a write to ERR_SAFE_REQ (R535). -/
def safeReqEffect (s : State) (v : Word) : State := if v = 0x00005AFE then enterSafe s Err.SAFE_REQUESTED else s

/-- SAFE_REQUEST (R535): a write to ERR_SAFE_REQ. -/
def execSafeRequest (m : Master) (v : Word) (s : State) : Host.Outcome State Fault Refusal := writeRow m Reg.ERR_SAFE_REQ v safeReqEffect s

/-- SAFE_TIMEOUT (R535): the FATAL latch has stayed VALID for 1 s. -/
def execSafeTimeout (s : State) : Host.Outcome State Fault Refusal :=
  .next (whenLive s fun s => if s.rdb Reg.ERR_STAT 19 then enterSafe s Err.SAFE_TIMEOUT else s)

/-! ## What the manager does with a report (R539) -/

/-- The report of a request's body. -/
def reportOf (b : List Byte) : ErrReport :=
  { code := BitVec.ofNat 16 (numAt b 0 2), cls := numAt b 2 1, ovf := numAt b 4 2, detail := BitVec.ofNat 64 (numAt b 8 8),
    time := BitVec.ofNat 64 (numAt b 16 8) }

/-- A lane leaves SORTING for ADMITTING on a fault of its device that its report names; one that waits in ADMITTING has a further
fault to wait for, and any other lane is not changed (R30, R303). -/
def laneFault (s : State) (lane : Nat) (cause : Half) (f : LaneFaults → LaneFaults) : State :=
  let s1 := s.modLane lane fun l => { l with faults := f l.faults }
  match (s.lane lane).state with
  | .sorting => setLane s1 lane .admitting cause
  | .admitting => s1
  | _ => s

/-- A node that has no worker image is loaded again (R100). -/
def imageLost (s : State) (lane : Nat) : State :=
  (s.modRing fun r => { r with nodes := r.nodes.map fun n => if n.pos = lane then { n with listen := true } else n }).modFw fun f =>
    { f with running := nsDel f.running lane, want := nsAdd f.want lane }

/-- The shutter event of a lane's admission has failed (R547). -/
def admissionShutter (s : State) (lane : Nat) : State :=
  if s.svc.admits.any fun a => a.1 == lane && a.2.1 == .enterLane then shutterFailed s lane else s

/-- What follows from a worker's report for its lane and for the ring (R29, R30, R100, R361, R520, R539). -/
def reportAction (s : State) (lane : Nat) (r : ErrReport) : State :=
  if r.code = Err.SAFE_NESTED ∨ r.code = Err.SAFE_TIMEOUT ∨ r.code = Err.SAFE_REQUESTED then setLane s lane .safe r.code
  else if r.code = Err.CELL_EXCEPTION then laneFault s lane r.code fun f => { f with cell := true }
  else if r.code = Err.SHT_NO_CLOSE then admissionShutter s lane
  else if r.code = Err.SHT_NO_OPEN then laneFault (admissionShutter s lane) lane r.code fun f => { f with flag := true }
  else if r.code = Err.VIO1_LOST then laneFault s lane r.code fun f => { f with bank := true }
  else if r.code = Err.FRL_LINK_DOWN then ringOpen s
  else if r.code = Err.FW_WORKER_IMAGE then (if r.detail = 1 then imageLost s lane else s.modFw fun f => { f with behind := nsAdd f.behind lane })
  else s

/-- ERR_REPORT (R538, R539, R541): the manager logs a report, makes it an event, answers it and acts on it. -/
def execErrReport (p : Fin 2) (s : State) : Host.Outcome State Fault Refusal :=
  .next (whenLive s fun s =>
    if !s.isManager || !s.fwRuns then s
    else match takeFrame s p fun f => f.typ == 0x10 && !f.rsp && !f.toEn && f.code == 0x0E01 with
      | (none, _) => s
      | (some f, t) => match admitTxn t p f with
        | (false, u) => u
        | (true, u) =>
          let r := reportOf (f.payload.drop 4)
          respondTxn (reportAction (reportEvent (errLog u f.src r) f.src r) f.src r) f.src f.txn.toNat (ringReply 0 []))

/-! ## Interrupt lines (R542) -/

/-- The lines that Lulomus firmware enables at each start (log 40). -/
def irqMask0 : Word := 0x7FFFDF1F
def irqMask1 : Word := 0x00FFFFFF

/-- Lines 0 to 31 pending. -/
def irqPend0 (s : State) : Nat :=
  let cls := (List.range 5).foldl (fun a k => a + b2n (s.rdb Reg.ERR_STAT (16 + k)) * 2 ^ classLine k) 0
  let gates := [0, 1, 2, 3, 4, 6, 7].foldl (fun a g => a + b2n (s.rdb (Reg.GATE_FLT_INFO g) 31) * 2 ^ (8 + g)) 0
  let evt := [1, 2, 3, 4, 5, 6, 7, 8, 9, 12, 13, 14].foldl (fun a n => a + b2n (s.rdb Reg.ERR_EVT n) * 2 ^ (16 + n)) 0
  let q := b2n (!(s.queue 20).slots.isEmpty) * 2 ^ 26 + b2n (!(s.queue 22).slots.isEmpty) * 2 ^ 27
  cls + gates + b2n (s.rdb Reg.SYS_PAVMB_RSP 30) * 2 ^ 16 + evt + q

/-- Lines 32 to 63 pending: timers and pins that no choreography holds. -/
def irqPend1 (s : State) : Nat :=
  let tm := (List.range 8).foldl (fun a k => a + b2n (s.rdf (Reg.SYS_TMR_CTRL k) 1 0 == 3 && !claimed s 2 k) * 2 ^ k) 0
  let pins := (List.range 16).foldl (fun a n => a + b2n (s.rdb Reg.SYS_GPIO_IRQ_STAT n && !claimed s 1 n) * 2 ^ (8 + n)) 0
  tm + pins

end Sys2Proof.Machine
end

