-- ==== Sys2Proof/Machine/Bundle.lean ====
section
/-! DEFINITION. Bundles (R500–R503), the boot-control record (R504) and the failed-start count. -/

namespace Sys2Proof.Machine

/-- FW_ in the peripheral slots. -/
def fwSrc : Byte := 0x14

/-! ## The boot-control record (R504) -/

/-- The boot-control record: slot states, STAGED, PROB_STARTED, versions, manifest digests and SWITCH_AT. -/
structure Boot where
  stA   : Nat := 0
  stB   : Nat := 0
  staged : Bool := false
  prob  : Bool := false
  verA  : Nat := 0
  verB  : Nat := 0
  verS  : Nat := 0
  digA  : List Byte := List.replicate 16 0
  digB  : List Byte := List.replicate 16 0
  digS  : List Byte := List.replicate 16 0
  switchAt : Nat := 0
  deriving DecidableEq, Repr

def bootMagic : Nat := 0x42544354

/-- The record in force; all zero where no copy is valid. -/
def readBoot (s : State) : Boot :=
  match recordInForce s 0x206D3000 0x206D3800 bootMagic 11 with
  | some b =>
    { stA := numAt b 8 1, stB := numAt b 9 1, staged := numAt b 10 1 % 2 == 1, prob := numAt b 10 1 / 2 % 2 == 1
      verA := numAt b 16 4, verB := numAt b 20 4, verS := numAt b 24 4
      digA := slice b 32 16, digB := slice b 48 16, digS := slice b 64 16, switchAt := numAt b 80 8 }
  | none => {}

/-- Writes the record. -/
def writeBoot (s : State) (b : Boot) : State :=
  writeCopy s 0x206D3000 0x206D3800 bootMagic 11
    (bytesLE 1 b.stA ++ bytesLE 1 b.stB ++ bytesLE 1 (b2n b.staged + 2 * b2n b.prob) ++ bytesLE 5 0 ++ bytesLE 4 b.verA ++ bytesLE 4 b.verB ++
      bytesLE 8 b.verS ++ slice b.digA 0 16 ++ slice b.digB 0 16 ++ slice b.digS 0 16 ++ bytesLE 8 b.switchAt)

/-- STATE of slot 0 (A) or 1 (B). -/
def Boot.st (b : Boot) (k : Nat) : Nat := if k = 0 then b.stA else b.stB
def Boot.setSt (b : Boot) (k v : Nat) : Boot := if k = 0 then { b with stA := v } else { b with stB := v }
def Boot.ver (b : Boot) (k : Nat) : Nat := if k = 0 then b.verA else b.verB
def Boot.dig (b : Boot) (k : Nat) : List Byte := if k = 0 then b.digA else b.digB
def Boot.setImage (b : Boot) (k v : Nat) (d : List Byte) : Boot :=
  if k = 0 then { b with verA := v, digA := d } else { b with verB := v, digB := d }

/-- The slot with a state. -/
def Boot.find (b : Boot) (st : Nat) : Option Nat := if b.stA = st then some 0 else if b.stB = st then some 1 else none

/-- Changes the record. -/
def modBoot (s : State) (f : Boot → Boot) : State := writeBoot s (f (readBoot s))

/-- The failed-start count: an uncorrectable word counts as 0 (R509). -/
def startCount (s : State) : Nat := match mramWord s 0x20002000 with | some w => w % 256 | none => 0

/-- Writes the count; FW_STAT shows it. -/
def setStartCount (s : State) (n : Nat) : State := ((mramStoreBytes s 0x20002000 (bytesLE 8 (n % 256))).2).wrf Reg.FW_STAT 31 24 (n % 256)

/-! ## Bundles (R500–R503) -/

/-- The first byte of slot A, slot B and staging. -/
def slotAddr (k : Nat) : Nat := if k = 0 then 0x20010000 else 0x20150000
def stagingAddr : Nat := 0x20290000

/-- The sectors of a firmware store by its first byte. -/
def fwSectors (base : Nat) : List Nat := (List.range 320).map (· + (base - 0x20000000) / 0x1000)

/-- Lulomus's firmware verifying key, P-384 (log 25). -/
def firmwareKey : List Byte := (List.range 96).map (Config.lulomusByte 2)

/-- SIG of a manifest verifies. -/
def manifestSigned (m : List Byte) : Bool := ecdsaCheck p384 firmwareKey (sha384 (m.take 0xA0)) (slice m 0xA0 96)

/-- NBLOCKS of a section. -/
def sectionBlocks (sec : List Byte) : Nat := numAt sec 8 4
/-- A section's header and block table. -/
def sectionHead (sec : List Byte) : List Byte := slice sec 0 (128 + 32 * sectionBlocks sec)
/-- The content key of a section, unwrapped under the group transport key. -/
def sectionKey (s : State) (sec : List Byte) : Option (List Byte) :=
  if (s.slot 3).valid then keyUnwrap (s.slot 3).key (slice sec 0x10 40) else none
/-- The ciphertext of block b. -/
def sectionBlock (sec : List Byte) (b : Nat) : List Byte := slice sec (128 + 32 * sectionBlocks sec + 4096 * b) 4096

/-- A block's SHA-256 equals its table entry. -/
def blockOk (head block : List Byte) (b : Nat) : Bool := decide (sha256 block = slice head (128 + 32 * b) 32)

/-- A section's digest, blocks and key (R503). -/
def sectionOk (s : State) (sec digest : List Byte) : Bool :=
  decide (sha384 (sectionHead sec) = digest) && ((List.range (sectionBlocks sec)).all fun b => blockOk sec (sectionBlock sec b) b) &&
    (sectionKey s sec).isSome

/-- The manager and the worker section of a bundle. -/
def managerSection (l : List Byte) : List Byte := slice l 256 (numAt l 0x14 4)
def workerSection (l : List Byte) : List Byte := slice l (256 + numAt l 0x14 4) (numAt l 0x18 4)

/-- R503 over a whole bundle. -/
def bundleOk (s : State) (l : List Byte) : Bool :=
  manifestSigned l && numAt l 6 1 == 1 && sectionOk s (managerSection l) (slice l 0x30 48) && sectionOk s (workerSection l) (slice l 0x60 48)

/-- Reserved bytes of a span are zero. -/
def spanZero (l : List Byte) (a b : Nat) : Bool := (slice l a (b - a)).all (· == 0)

/-- A section's header fields (R501). -/
def sectionShape' (sec : List Byte) (kind maxLen len : Nat) : Bool :=
  let img := numAt sec 4 4
  numAt sec 0 1 == kind && spanZero sec 1 4 && decide (4096 ≤ img) && decide (img ≤ maxLen) && sectionBlocks sec == (img + 4095) / 4096 &&
    spanZero sec 0xC 0x10 && spanZero sec 0x40 0x80 && len == 128 + 4128 * sectionBlocks sec

/-- Check 3 of R506. -/
def bundleShape (l : List Byte) : Bool :=
  numAt l 0 4 == 0xB0D1E001 && numAt l 4 2 == 1 && spanZero l 7 8 && decide (1 ≤ numAt l 8 4) && decide (numAt l 0xC 4 ≤ numAt l 8 4) &&
    decide (numAt l 0x10 2 ≤ 1440) && spanZero l 0x12 0x14 && spanZero l 0x1C 0x30 && spanZero l 0x90 0xA0 &&
    l.length == 256 + numAt l 0x14 4 + numAt l 0x18 4 && sectionShape' (managerSection l) 1 491520 (numAt l 0x14 4) &&
    sectionShape' (workerSection l) 2 786432 (numAt l 0x18 4)

/-- The bundle that a firmware store holds, where its words read. -/
def storedBundle (s : State) (base : Nat) : Option (List Byte) :=
  match mramBytes s base 256 with
  | none => none
  | some m =>
    let n := 256 + numAt m 0x14 4 + numAt m 0x18 4
    if 1310720 < n then none else mramBytes s base n

/-- The first 16 bytes of the SHA-384 of the manifest. -/
def manifestDigest (l : List Byte) : List Byte := (sha384 (l.take 256)).take 16

/-- Every sector of a firmware store that is not VALID is cleared; false where another clear holds the controller. -/
def clearStore (s : State) (base : Nat) : Bool × State :=
  let dirty := (fwSectors base).filter fun x => !sectorValid s x
  if !dirty.isEmpty && s.mram.clear.isSome then (false, s) else (true, dirty.foldl clearSectorWhole s)

/-- A bundle is programmed into a store and read back (R507). -/
def programBundle (s : State) (base : Nat) (l : List Byte) : Bool × State :=
  match clearStore s base with
  | (false, t) => (false, t)
  | (true, t) =>
    let (ok, u) := mramStoreBytes t base (l ++ List.replicate ((8 - l.length % 8) % 8) 0)
    (ok && (match storedBundle u base with | some b => bundleOk u b | none => false), u)

/-- Staging holds a bundle: STAGED is 1 and every staging sector is VALID (R508). -/
def stagingHeld (s : State) : Bool := (readBoot s).staged && (fwSectors stagingAddr).all (sectorValid s)

/-- The check of R508, which zeroes STAGED where it fails. -/
def checkStaging (s : State) : Bool × State :=
  if stagingHeld s then (true, s)
  else if (readBoot s).staged then (false, modBoot s fun b => { b with staged := false })
  else (false, s)

/-- The plaintext of block b (R502): AES-256-CTR from the counter block NONCE, b in 4 bytes, 0. -/
def blockPlain (key nonce block : List Byte) (b : Nat) : List Byte := ctrCrypt key (nonce ++ bytesBE 4 b ++ [0, 0, 0, 0]) block

/-- The plaintext image of a section, padded to whole blocks. -/
def sectionPlain (s : State) (sec : List Byte) : List Byte :=
  let key := (sectionKey s sec).getD []
  (List.range (sectionBlocks sec)).flatMap fun b => blockPlain key (slice sec 0x38 8) (sectionBlock sec b) b

end Sys2Proof.Machine
end

