-- ==== Sys2Proof/Machine/Firmware.lean ====
section
/-! DEFINITION. Staging, chain loading, firmware transactions, scheduled switchover and probation (R506–R526). -/

namespace Sys2Proof.Machine

/-! ## Status and events (R526) -/

/-- FW_STAT.PHASE and FW_STAT.RUN. -/
def fwPhase (s : State) : Nat := s.rdf Reg.FW_STAT 19 16
def runSlot (s : State) : Nat := s.rdf Reg.FW_STAT 9 8
/-- The running image is in probation. -/
def inProbation (s : State) : Bool := s.rdb Reg.FW_STAT 0

/-- FW_STATE: phase, slot, code and version. -/
def fwState (s : State) (slot : Nat) (code : Half) (ver : Nat) : State :=
  postEvent s 0x0106 s.ownLane ([BitVec.ofNat 8 (fwPhase s), BitVec.ofNat 8 slot] ++ bytesLE 2 code.toNat ++ bytesLE 4 ver)

/-- The switchover goes to a state; FW_STAT.PHASE follows and a change of phase is reported (R526). -/
def setSwitch (s : State) (w : Option Switch) : State :=
  let ph := match w with | some x => x.phase | none => 0
  let old := fwPhase s
  let s1 := (s.modFw fun f => { f with switch := w }).wrf Reg.FW_STAT 19 16 ph
  if ph = old then s1 else match w with
    | some x => fwState s1 x.slot 0 ((readBoot s1).ver x.slot)
    | none => s1

/-- Whole seconds of probation left. -/
def probLeft (s : State) : Nat := match s.fw.probEnd with | some e => (e.toNat - s.ct.toNat) / ticksPerSecond | none => 0

/-- The response body of FW_STATUS (R526). -/
def fwStatusBody (s : State) : List Byte :=
  let b := readBoot s
  let run := if s.core.mode = .recovery then 2 else runSlot s
  let other := if run = 0 then b.verB else b.verA
  [BitVec.ofNat 8 run, BitVec.ofNat 8 b.stA, BitVec.ofNat 8 b.stB, BitVec.ofNat 8 (b2n (stagingHeld s))] ++
    bytesLE 4 (s.rd Reg.FW_VERSION).toNat ++ bytesLE 4 other ++ bytesLE 4 b.verS ++ bytesLE 4 ((cntRead s 7).getD 0) ++
    bytesLE 4 (probLeft s) ++ [BitVec.ofNat 8 (fwPhase s), BitVec.ofNat 8 (startCount s), 0, 0] ++
    bytesLE 8 (match s.fw.switch with | some w => w.at' | none => 0)

/-! ## Staging (R506, R507, R525) -/

/-- The checks of R506 but for the buffer's: the first error, or 0. -/
def stageCheck (s : State) (l : List Byte) : Half :=
  if fwPhase s = 1 ∨ fwPhase s = 2 then Err.FW_BUSY
  else if l.length < 256 ∨ !bundleShape l then Err.FW_FORMAT
  else if numAt l 6 1 ≠ 1 then Err.FW_STEPPING
  else if !bundleOk s l then Err.FW_AUTH
  else if numAt l 8 4 < (cntRead s 7).getD 0 then Err.FW_ROLLBACK
  else 0

/-- R507: STAGED 0, the bundle programmed and read back, STAGED 1 with its version and digest; the error, or 0. -/
def stageWrite (s : State) (l : List Byte) : Half × State :=
  match programBundle (modBoot s fun b => { b with staged := false }) stagingAddr l with
  | (true, t) => (0, modBoot t fun b => { b with staged := true, verS := numAt l 8 4, digS := manifestDigest l })
  | (false, t) => (Err.FW_STORE, raise t Err.FW_STORE fwSrc)

/-- The slot that recovery installs: the one that is not ACTIVE, or the first of A and B that is EMPTY, FAILED or LOADING, or A
(R525). -/
def installSlot (b : Boot) : Nat :=
  if b.stA = 4 then 1 else if b.stB = 4 then 0
  else if b.stA = 0 ∨ b.stA = 6 ∨ b.stA = 1 then 0 else if b.stB = 0 ∨ b.stB = 6 ∨ b.stB = 1 then 1 else 0

/-- A bundle is copied into a slot and checked; the record takes its version and digest. -/
def copyToSlot (s : State) (k : Nat) (l : List Byte) : Bool × State :=
  match programBundle (modBoot s fun b => b.setSt k 1) (slotAddr k) l with
  | (true, t) => (true, modBoot t fun b => b.setImage k (numAt l 8 4) (manifestDigest l))
  | (false, t) => (false, t)

/-- R525: recovery installs the staged bundle, to be started in probation, and zeroes the count. -/
def recoveryInstall (s : State) (l : List Byte) : Half × State :=
  let k := installSlot (readBoot s)
  match copyToSlot s k l with
  | (true, t) => (0, setStartCount (modBoot t fun b => { b.setSt k 3 with prob := false }) 0)
  | (false, t) => (Err.FW_STORE, raise t Err.FW_STORE fwSrc)

/-- FW_STAGE over the bytes of a buffer. -/
def fwStageRun (s : State) (l : List Byte) : Half × State :=
  let c := stageCheck s l
  if c ≠ 0 then (c, raise s c fwSrc)
  else match stageWrite s l with
    | (0, t) => if t.core.mode = .recovery then recoveryInstall t l else (0, t)
    | r => r

/-! ## What a load carries (R511, R512) -/

/-- The first byte of an image area (R505), and the area that FW_OPEN's AREA names. -/
def areaBase (k : Nat) : Nat := 0x10000000 + k * 0xC8000
def runArea (s : State) : Nat := s.rdf Reg.FW_STAT 12 12
def areaIndex (s : State) (area : Nat) : Nat := if area = 0 then runArea s else 1 - runArea s

/-- Manifest, worker section header and block table of a source: a firmware slot, or an image area after a takeover. -/
def loadHead (s : State) (src : Nat) : Option (List Byte) :=
  if src < 0x20000000 then
    let n := s.wordAt (src + 256 + 8)
    some (s.bytesAt src (384 + 32 * n))
  else match mramBytes s src 256 with
    | none => none
    | some m =>
      let a := src + 256 + numAt m 0x14 4
      match mramBytes s a 128 with
      | none => none
      | some h => (mramBytes s (a + 128) (32 * numAt h 8 4)).map fun t => m ++ h ++ t

/-- The ciphertext of block b of a source; an image area is encrypted again under its key (R551). -/
def loadBlock (s : State) (src b : Nat) : List Byte :=
  if src < 0x20000000 then
    let n := s.wordAt (src + 256 + 8)
    let key := (sectionKey s (s.bytesAt (src + 256) 128)).getD []
    blockPlain key (s.bytesAt (src + 256 + 0x38) 8) (s.bytesAt (src + 384 + 32 * n + 4096 * b) 4096) b
  else
    let a := src + 256 + s.wordAt (src + 0x14)
    (mramBytes s (a + 128 + 32 * s.wordAt (a + 8) + 4096 * b) 4096).getD []

/-- Blocks of a head, and chunks of its header phase. -/
def headBlocks (h : List Byte) : Nat := numAt h (256 + 8) 4
def headChunks (h : List Byte) : Nat := (h.length + 511) / 512
/-- The first 16 bytes of W_DIGEST. -/
def headDigest (h : List Byte) : List Byte := slice h 0x60 16

/-- Chunk number n of a load. -/
def chunkAt (h : List Byte) (n : Nat) : Chunk :=
  if n < headChunks h then { header := true, block := n, chunk := 0 }
  else { header := false, block := (n - headChunks h) / 8, chunk := (n - headChunks h) % 8 }

/-- The payload of a chunk frame (R512). -/
def chunkBody (s : State) (l : ChainLoad) (h : List Byte) (c : Chunk) : List Byte :=
  let data := if c.header then slice h (512 * c.block) 512 else slice (loadBlock s l.source c.block) (512 * c.chunk) 512
  bytesLE 4 l.session.toNat ++ [BitVec.ofNat 8 (b2n (!c.header)), BitVec.ofNat 8 c.chunk] ++ bytesLE 2 c.block ++
    [BitVec.ofNat 8 (b2n l.next)] ++ List.replicate 7 0 ++ data

/-- A chunk is broadcast: out of port A on a closed ring, out of both on an open one (R512). -/
def sendChunk (s : State) (l : ChainLoad) (h : List Byte) (c : Chunk) : State :=
  let (id, s1) := takeBcast s
  let f (path : Nat) : Frame := { typ := 0x20, flags := frlFlags false true false false path, src := srcPos s1, dst := 0xFF, txn := id, payload := chunkBody s1 l h c }
  let s2 := sendPlain s1 (f 0) 0
  if s2.ring.closed then s2 else sendPlain s2 (f 1) 1

/-- A chunk of a repair round leaves for one position (R514). -/
def sendRepair (s : State) (l : ChainLoad) (h : List Byte) (pos : Nat) (c : Chunk) : State :=
  let (id, s1) := takeBcast s
  let path := routeTo s1 pos
  sendPlain s1 { typ := 0x20, flags := frlFlags false false false false path, src := srcPos s1, dst := pos, txn := id, payload := chunkBody s1 l h c } path

/-! ## The manager's side of a load (R511, R514, R520) -/

/-- Changes the load. -/
def putLoad (s : State) (l : ChainLoad) : State := s.modFw fun f => { f with load := some l }

/-- FW_OPEN, FW_QUERY, FW_ARM and FW_DISARM to a position. -/
def sendFwOpen (s : State) (l : ChainLoad) (dig : List Byte) (pos : Nat) : State :=
  startTxn s pos false ([0x01, 0x0F, 0, 0] ++ bytesLE 4 l.session.toNat ++ [BitVec.ofNat 8 (b2n l.next), 0, 0, 0] ++ slice dig 0 16) (.firmware 0x0F01)
def sendFwQuery (s : State) (session : Word) (pos : Nat) : State :=
  startTxn s pos false ([0x02, 0x0F, 0, 0] ++ bytesLE 4 session.toNat) (.firmware 0x0F02)
def sendFwArm (s : State) (at' : Nat) (dig : List Byte) (pos : Nat) : State :=
  startTxn s pos false ([0x03, 0x0F, 0, 0] ++ bytesLE 8 at' ++ slice dig 0 16) (.firmware 0x0F03)
def sendFwDisarm (s : State) (pos : Nat) : State := startTxn s pos false [0x04, 0x0F, 0, 0] (.firmware 0x0F04)

/-- The source of loads outside a switchover: the slot the image was started from, or the own run area after a takeover. -/
def runSource (s : State) : Option Nat :=
  if runSlot s < 2 then some (slotAddr (runSlot s))
  else if takenOver s then some (areaBase (runArea s)) else none

/-- Devices that are admitted and run worker firmware. -/
def admitted (s : State) : List Nat :=
  ((s.ring.nodes.filter fun n => n.pos != 0xFF && n.role != 3 && n.pos != s.position && holdsKey s n.pos &&
    ((s.lane n.pos).state == .idle || (s.lane n.pos).state == .sorting || s.fw.running.contains n.pos)).map (·.pos)).foldl nsAdd []

/-- A load is opened for its targets. -/
def openLoad (s : State) (next catchUp : Bool) (src : Nat) (targets : List Nat) : State :=
  match loadHead s src with
  | none => s
  | some h =>
    let (w, s1) := s.drawWord
    let l : ChainLoad := { session := w, next := next, catchUp := catchUp, source := src, targets := targets, waiting := targets }
    targets.foldl (fun t p => sendFwOpen t l (headDigest h) p) (putLoad s1 l)

/-- A node was found in ROM listen state, or is not known. -/
def listening (s : State) (pos : Nat) : Bool :=
  match s.ring.nodes.find? fun n => n.pos == pos with
  | some n => n.listen
  | none => true

/-- Nothing is armed any more and the switchover ends; a committed slot is PENDING again (R519). -/
def endSwitch (s : State) (w : Switch) : State :=
  let s1 := (w.armed ++ w.waiting).foldl sendFwDisarm s
  let s2 := if w.phase = 4 then modBoot s1 fun b => if b.st w.slot = 3 then b.setSt w.slot 2 else b else s1
  let s3 := s2.modFw fun f => { f with load := match f.load with | some l => if l.next && !l.catchUp then none else some l | none => none }
  setSwitch (s3.wrb Reg.FW_SWITCH_CTRL 0 false) none

/-- The manager cancels the switchover by itself (R519). -/
def cancelSwitch (s : State) : State :=
  match s.fw.switch with
  | some w => fwState (raise (endSwitch s w) Err.FW_SWITCH_CANCELLED fwSrc) w.slot Err.FW_SWITCH_CANCELLED ((readBoot s).ver w.slot)
  | none => s

/-- ARM: FW_ARM to every device whose next area is complete (R517). -/
def armSwitch (s : State) (w : Switch) (targets : List Nat) : State :=
  let s1 := setSwitch s (some { w with phase := 3, armed := targets, waiting := targets })
  match loadHead s1 (slotAddr w.slot) with
  | some h => targets.foldl (fun t p => sendFwArm t w.at' (headDigest h) p) s1
  | none => s1

/-- A node is still incomplete after the last round (R514). -/
def chainFail (s : State) (pos : Nat) : State := raise s Err.FW_CHAIN_FAIL fwSrc (BitVec.ofNat 64 pos)

/-- A load has ended; `bad` are the targets that are incomplete. -/
def loadDone (s : State) (l : ChainLoad) (bad : List Nat) : State :=
  let ok := l.targets.filter fun p => !(bad.contains p)
  let s1 := bad.foldl chainFail (s.modFw fun f => { f with load := none })
  if l.next && !l.catchUp then
    match s1.fw.switch with
    | some w => if bad.isEmpty then armSwitch s1 w ok else cancelSwitch s1
    | none => s1
  else if l.catchUp then
    let s2 := s1.modFw fun f => { f with behind := f.behind.filter fun p => !(l.targets.contains p), failed := bad.foldl nsAdd f.failed }
    match loadHead s2 l.source with
    | some h => ok.foldl (fun t p => sendFwArm t (t.ct.toNat + 2 * ticksPerSecond) (headDigest h) p) s2
    | none => s2
  else
    let s2 := s1.modFw fun f => { f with running := ok.foldl nsAdd f.running, failed := bad.foldl nsAdd f.failed }
    ok.foldl (fun t p => admitStart (if standbyPos t = some p then provisionAll t p else t) p) s2

/-- FW_QUERY to every target of the load (R514). -/
def askAll (s : State) (l : ChainLoad) : State :=
  l.targets.foldl (fun t p => sendFwQuery t l.session p) (putLoad s { l with phase := .asking, waiting := l.targets, repair := [] })

/-- Every query has been answered: the load is done, repaired, or given up after 8 rounds (R514). -/
def loadRound (s : State) (l : ChainLoad) : State :=
  if !l.waiting.isEmpty then putLoad s l
  else if l.repair.isEmpty then loadDone s l []
  else if 8 ≤ l.rounds then loadDone s l ((l.repair.map (·.1)).foldl nsAdd [])
  else putLoad s { l with phase := .repairing, rounds := l.rounds + 1 }

/-- What a node's FW_QUERY response leaves to be resent. -/
def missingChunks (h b : List Byte) : List Chunk :=
  let hdr := if numAt b 0 1 = 0 then (List.range (headChunks h)).map fun i => { header := true, block := i, chunk := 0 } else []
  hdr ++ ((List.range (headBlocks h)).filter fun k => numAt b (4 + k / 8) 1 / 2 ^ (k % 8) % 2 == 0).flatMap fun k =>
    (List.range 8).map fun c => { header := false, block := k, chunk := c }

/-- A device answers with the W_DIGEST of its run area: another than the running bundle's puts it behind (R520). -/
def judgeImage (s : State) (pos : Nat) (dig : List Byte) : State :=
  match runSource s with
  | none => s
  | some src => match loadHead s src with
    | none => s
    | some h =>
      let s1 := s.modFw fun f => { f with running := nsAdd f.running pos }
      let s2 := if slice dig 0 16 = headDigest h then s1.modFw fun f => { f with behind := nsDel f.behind pos }
        else s1.modFw fun f => { f with behind := nsAdd f.behind pos }
      if (s2.lane pos).state = .admitting ∧ (s2.svc.admits.any fun a => a.1 == pos) = false then admitStart s2 pos else s2

/-- The commit: the PENDING slot is PROBATION, SWITCH_AT is recorded, and the manager is armed (R517). -/
def commitSwitch (s : State) (w : Switch) : State :=
  let s1 := modBoot s fun b => { b.setSt w.slot 3 with prob := false, switchAt := w.at' }
  let s2 := (s1.wr64 Reg.FW_SWITCH_AT_LO Reg.FW_SWITCH_AT_HI w.at').wrb Reg.FW_SWITCH_CTRL 0 true
  setSwitch s2 (some { w with phase := 4, asking := false, waiting := [] })

/-- The answer to a firmware transaction. -/
def fwAnswer (s : State) (code : Half) (pos : Nat) (b : List Byte) : State :=
  if code = 0x0F01 then
    match s.fw.load with
    | some l =>
      if l.phase ≠ .opening ∨ !(l.waiting.contains pos) then s
      else
        let l1 := { l with waiting := nsDel l.waiting pos }
        let l2 := if numAt b 0 1 = 0 then l1 else { l1 with targets := nsDel l1.targets pos }
        let s1 := if numAt b 0 1 = 0 then s else s.modFw fun f => { f with failed := if l.next && !l.catchUp then f.failed else nsAdd f.failed pos }
        if numAt b 0 1 ≠ 0 ∧ l.next = true ∧ l.catchUp = false then cancelSwitch s1
        else if !l2.waiting.isEmpty then putLoad s1 l2
        else if l2.targets.isEmpty then s1.modFw fun f => { f with load := none }
        else putLoad s1 { l2 with phase := .sending }
    | none => s
  else if code = 0x0F02 then
    match s.fw.load, s.fw.switch with
    | some l, w =>
      if l.phase = .asking ∧ l.waiting.contains pos = true then
        match loadHead s l.source with
        | some h => loadRound s { l with waiting := nsDel l.waiting pos, repair := l.repair ++ (missingChunks h b).map fun c => (pos, c) }
        | none => s
      else fwCommitAnswer s w pos b
    | none, w => fwCommitAnswer s w pos b
  else if code = 0x0F03 then
    match s.fw.switch with
    | some w =>
      if w.phase = 3 ∧ w.waiting.contains pos = true then
        if numAt b 0 1 = 0 then setSwitch s (some { w with waiting := nsDel w.waiting pos }) else cancelSwitch s
      else s
    | none => s
  else s
where
  /-- An answer of the commit's round, or of an admission. -/
  fwCommitAnswer (s : State) (w : Option Switch) (pos : Nat) (b : List Byte) : State :=
    match w with
    | some x =>
      if x.asking && x.waiting.contains pos then
        if numAt b 1 1 = 0 then cancelSwitch s
        else if (nsDel x.waiting pos).isEmpty then commitSwitch s x
        else setSwitch s (some { x with waiting := nsDel x.waiting pos })
      else judgeImage s pos (slice b 28 16)
    | none => judgeImage s pos (slice b 28 16)

/-- A firmware transaction has given up (R353): its target of a load is incomplete, a switchover is cancelled (R519). -/
def fwGaveUp (s : State) (code : Half) (pos : Nat) : State :=
  let s1 := match s.fw.load with
    | some l =>
      if l.waiting.contains pos ∧ (code = 0x0F01 ∨ code = 0x0F02) then
        let l1 := { l with waiting := nsDel l.waiting pos, targets := nsDel l.targets pos }
        let t := chainFail s pos
        if l.next && !l.catchUp then t
        else
          let t := t.modFw fun f => { f with failed := nsAdd f.failed pos }
          if l1.targets.isEmpty then t.modFw fun f => { f with load := none }
          else if l1.phase = ChainPhase.opening then (if l1.waiting.isEmpty then putLoad t { l1 with phase := .sending } else putLoad t l1)
          else loadRound t l1
      else s
    | none => s
  match s1.fw.switch with
  | some w =>
    if w.waiting.contains pos || (match s.fw.load with | some l => l.next && !l.catchUp && l.waiting.contains pos | none => false) then
      cancelSwitch s1 else s1
  | none => s1

/-- CHUNK_SEND: every FW_PACE the manager sends the next chunk of its load; without one it opens the load that is due: of a
switchover, of devices that have joined, of devices that are behind (R511, R512, R514, R520). -/
def execChunkSend (s : State) : Host.Outcome State Fault Refusal :=
  .next (whenLive s fun s =>
    if !s.isManager || !s.fwRuns then s
    else match s.fw.load with
      | some l => (match loadHead s l.source with
        | none => s
        | some h => match l.phase with
          | .opening | .asking => s
          | .sending =>
            let l1 := { l with sent := l.sent + 1 }
            let s1 := sendChunk s l h (chunkAt h l.sent)
            if headChunks h + 8 * headBlocks h ≤ l1.sent then askAll s1 l1 else putLoad s1 l1
          | .repairing => match l.repair with
            | (p, c) :: r =>
              let s1 := sendRepair s l h p c
              if r.isEmpty then askAll s1 l else putLoad s1 { l with repair := r }
            | [] => askAll s l)
      | none =>
        match s.fw.switch with
        | some w =>
          if w.phase = 2 then
            (if (admitted s).isEmpty then armSwitch s w [] else openLoad s true false (slotAddr w.slot) (admitted s))
          else openDue s
        | none => openDue s)
where
  /-- Loads of devices that have joined or are behind. -/
  openDue (s : State) : State :=
    match runSource s with
    | none => s
    | some src =>
      if !s.fw.want.isEmpty then
        let fresh := s.fw.want.filter (listening s)
        let rest := s.fw.want.filter fun p => !(listening s p)
        let s1 := rest.foldl (fun t p => sendFwQuery t 0 p) (s.modFw fun f => { f with want := [] })
        if fresh.isEmpty then s1 else openLoad s1 false false src fresh
      else if !s.fw.behind.isEmpty then openLoad s true true src s.fw.behind
      else s

/-- CHAIN_LOAD_RETRY: 10 s after a failed load the manager opens a new one for its nodes (R514). -/
def execChainLoadRetry (s : State) : Host.Outcome State Fault Refusal :=
  .next (whenLive s fun s =>
    if !s.isManager then s
    else s.modFw fun f => { f with want := f.failed.foldl nsAdd f.want, failed := [] })

/-! ## The node's side (R505, R513, R515) -/

/-- An image area of the node. -/
def State.area (s : State) (k : Nat) : FwArea := s.fw.areas.toList.getD k {}

/-- Replaces an image area. -/
def State.setArea (s : State) (k : Nat) (a : FwArea) : State :=
  s.modFw fun f => { f with areas := if h : k < 2 then f.areas.set k a else f.areas }

/-- The head of an area, once its chunks are there (R512). -/
def areaHead (a : FwArea) : Option (List Byte) :=
  let part (i : Nat) := (a.header.find? fun e => e.1 == i).map (·.2)
  match part 0 with
  | none => none
  | some c0 =>
    let n := numAt c0 (256 + 8) 4
    let len := 384 + 32 * n
    let all := (List.range ((len + 511) / 512)).map part
    if 192 < n ∨ all.any Option.isNone then none else some (slice ((all.map fun e => e.getD []).flatten) 0 len)

/-- A verified head: SIG, STEPPING, W_DIGEST, the digest that FW_OPEN named, and the content key (R503, R513). -/
def headKey (s : State) (a : FwArea) (h : List Byte) : Option (List Byte) :=
  if manifestSigned h && numAt h 6 1 == 1 && decide (sha384 (h.drop 256) = slice h 0x60 48) && decide (headDigest h = slice a.digest 0 16) then
    sectionKey s (h.drop 256)
  else none

/-- Every block of the area has passed its check. -/
def areaComplete (s : State) (k : Nat) : Bool :=
  (s.area k).headerOk && (List.range (s.wordAt (areaBase k + 256 + 8))).all fun b => (s.area k).good.contains b

/-- A block whose eight chunks are there is checked, decrypted and stored, or discarded (R513). -/
def takeBlock (k : Nat) (h : List Byte) (s : State) (b : Nat) : State :=
  let a := s.area k
  let parts := (List.range 8).map fun c => (a.chunks.find? fun e => e.1 == (b, c)).map (·.2)
  if parts.any Option.isNone || a.good.contains b then s
  else
    let block := (parts.map fun e => e.getD []).flatten
    let rest := a.chunks.filter fun e => e.1.1 != b
    if blockOk (h.drop 256) block b then
      (s.setBytes (areaBase k + h.length + 4096 * b) (blockPlain a.key (slice h (256 + 0x38) 8) block b)).setArea k
        { a with chunks := rest, good := nsAdd a.good b }
    else s.setArea k { a with chunks := rest }

/-- A chunk of the node's session (R512, R513). -/
def takeChunk (s : State) (p : List Byte) : State :=
  let k := areaIndex s (numAt p 8 1)
  let a := s.area k
  let b := numAt p 6 2
  let c := numAt p 5 1
  let data := slice p 16 512
  if a.session ≠ some (wordLE p) then s
  else if numAt p 4 1 = 0 then
    if a.headerOk then s
    else
      let a1 := { a with header := (b, data) :: a.header.filter fun e => e.1 != b }
      match areaHead a1 with
      | none => s.setArea k a1
      | some h => match headKey s a1 h with
        | none => s.setArea k {}
        | some key =>
          let s1 := (s.setBytes (areaBase k) h).setArea k { a1 with headerOk := true, key := key, header := [] }
          (List.range (headBlocks h)).foldl (takeBlock k h) s1
  else
    let s1 := s.setArea k { a with chunks := ((b, c), data) :: a.chunks.filter fun e => e.1 != (b, c) }
    if a.headerOk then
      let n := s.wordAt (areaBase k + 256 + 8)
      if b < n then takeBlock k (s.bytesAt (areaBase k) (384 + 32 * n)) s1 b else s
    else s1

/-- The first 16 bytes of the W_DIGEST of the run area. -/
def runAreaDigest (s : State) : List Byte := s.bytesAt (areaBase (runArea s) + 0x60) 16

/-- FW_OPEN on a node: the session is adopted, unless it names a run area from which firmware runs. -/
def fwOpenRun (s : State) (b : List Byte) : List Byte × State :=
  let w := wordLE (slice b 4 4)
  let k := areaIndex s (numAt b 8 1)
  if (s.area k).session = some w then ([0, 0, 0, 0], s)
  else if numAt b 8 1 = 0 ∧ s.fwRuns = true then ([1, 0, 0, 0], s)
  else ([0, 0, 0, 0], s.setArea k { session := some w, digest := slice b 12 16 })

/-- FW_QUERY on a node. -/
def fwQueryRun (s : State) (b : List Byte) : List Byte :=
  let w := wordLE (slice b 4 4)
  let a := if (s.area 0).session = some w then s.area 0 else if (s.area 1).session = some w then s.area 1 else {}
  let bits := a.good.foldl (fun n k => n + 2 ^ k) 0
  [BitVec.ofNat 8 (b2n a.headerOk), BitVec.ofNat 8 (b2n (s.rdb Reg.FW_SWITCH_CTRL 0)), 0, 0] ++ bytesLE 24 bits ++ runAreaDigest s

/-- FW_ARM on a node: its next area is complete and has the digest. -/
def fwArmRun (s : State) (b : List Byte) : List Byte × State :=
  let k := 1 - runArea s
  if areaComplete s k && decide (s.bytesAt (areaBase k + 0x60) 16 = slice b 12 16) then
    ([0, 0, 0, 0], (s.wr64 Reg.FW_SWITCH_AT_LO Reg.FW_SWITCH_AT_HI (numAt b 4 8)).wrb Reg.FW_SWITCH_CTRL 0 true)
  else ([1, 0, 0, 0], s)

/-- FW_DISARM on a node. -/
def fwDisarmRun (s : State) : List Byte × State := ([0, 0, 0, 0], s.wrb Reg.FW_SWITCH_CTRL 0 false)

/-- A firmware transaction for the control core, which ROM and firmware answer alike, but not during a warm path (R97, R515). -/
def fwTxn (p : Fin 2) (code : Nat) (run : State → List Byte → List Byte × State) (s : State) : Host.Outcome State Fault Refusal :=
  .next (whenLive s fun s =>
    if s.isManager || decide (s.core.mode = .warm) || decide (s.core.mode = .romStart) then s
    else match takeFrame s p fun f => f.typ == 0x10 && !f.rsp && !f.toEn && f.code == code with
      | (none, _) => s
      | (some f, t) => match admitTxn t p f with
        | (false, u) => u
        | (true, u) =>
          let (b, v) := run u f.payload
          respondTxn v f.src f.txn.toNat b)

/-- FW_OPEN (R515). -/
def execFwOpen (p : Fin 2) (s : State) : Host.Outcome State Fault Refusal := fwTxn p 0x0F01 fwOpenRun s
/-- FW_QUERY (R515). -/
def execFwQuery (p : Fin 2) (s : State) : Host.Outcome State Fault Refusal := fwTxn p 0x0F02 (fun s b => (fwQueryRun s b, s)) s
/-- FW_ARM (R515). -/
def execFwArm (p : Fin 2) (s : State) : Host.Outcome State Fault Refusal := fwTxn p 0x0F03 fwArmRun s
/-- FW_DISARM (R515). -/
def execFwDisarm (p : Fin 2) (s : State) : Host.Outcome State Fault Refusal := fwTxn p 0x0F04 (fun s _ => fwDisarmRun s) s

/-! ## Scheduled switchover (R516–R519) -/

/-- Ticks that a chain load of a bundle takes at the present FW_PACE. -/
def loadTicks (s : State) (h : List Byte) : Nat :=
  (headChunks h + 8 * headBlocks h) * (max 100 (min 10000 (s.rdf Reg.FW_PACE 13 0))) * 200

/-- A time for FW_SCHEDULE that is too soon for the chain load and its reserve, or more than 7 days ahead (R516). -/
def switchTimeBad (s : State) (h : List Byte) (at' : Nat) : Bool :=
  decide (at' < s.ct.toNat + 5 * ticksPerSecond + 2 * loadTicks s h) || decide (s.ct.toNat + 7 * 86400 * ticksPerSecond < at')

/-- FW_SCHEDULE (R516): the error, or COPY begins; COPY is skipped where the slot is PENDING with the staged digest. -/
def fwScheduleRun (s : State) (at' : Nat) : Half × State :=
  let (held, s) := checkStaging s
  let bad (c : Half) := (c, raise s c fwSrc)
  if !held then bad Err.FW_NOT_STAGED
  else if s.fw.switch.isSome then bad Err.FW_BUSY
  else if inProbation s then bad Err.FW_PROBATION
  else match loadHead s stagingAddr with
    | none => bad Err.FW_NOT_STAGED
    | some h =>
      if switchTimeBad s h at' then bad Err.FW_TIME
      else
        let b := readBoot s
        let k := installSlot b
        if b.st k = 2 ∧ b.dig k = b.digS then (0, setSwitch s (some { at' := at', phase := 2, slot := k }))
        else (0, setSwitch (modBoot s fun b => b.setSt k 1) (some { at' := at', phase := 1, slot := k }))

/-- COPY_DONE: staging is copied into the slot, checked, and PENDING; LOAD follows (R517). -/
def execCopyDone (s : State) : Host.Outcome State Fault Refusal :=
  .next (whenLive s fun s =>
    match s.fw.switch with
    | some w =>
      if w.phase ≠ 1 then s
      else match checkStaging s with
        | (false, t) => cancelSwitch t
        | (true, t) => match storedBundle t stagingAddr with
          | none => cancelSwitch (raise t Err.FW_STORE fwSrc)
          | some l => match copyToSlot t w.slot l with
            | (true, u) => setSwitch (modBoot u fun b => b.setSt w.slot 2) (some { w with phase := 2 })
            | (false, u) => cancelSwitch (raise u Err.FW_STORE fwSrc)
    | none => s)

/-- SWITCH_COMMIT: at T_SW − 1 s every admitted device is asked whether it is armed (R517); one that is not, or a switchover that
has not come so far, cancels it (R519). -/
def execSwitchCommit (s : State) : Host.Outcome State Fault Refusal :=
  .next (whenLive s fun s =>
    match s.fw.switch with
    | some w =>
      if s.ct.toNat + ticksPerSecond < w.at' ∨ w.phase = 4 ∨ w.asking = true then s
      else if w.phase ≠ 3 ∨ !w.waiting.isEmpty then cancelSwitch s
      else if (admitted s).isEmpty then commitSwitch s w
      else (admitted s).foldl (fun t p => sendFwQuery t 0 p) (setSwitch s (some { w with asking := true, waiting := admitted s }))
    | none => s)

/-- FW_CANCEL (R519). -/
def fwCancelRun (s : State) : Half × State :=
  match s.fw.switch with
  | none => (Err.FW_NONE_PENDING, raise s Err.FW_NONE_PENDING fwSrc)
  | some w =>
    if w.phase = 4 then (Err.FW_TOO_LATE, raise s Err.FW_TOO_LATE fwSrc)
    else (0, fwState (endSwitch s w) w.slot 0 ((readBoot s).ver w.slot))

/-! ## Probation (R510, R521, R522) -/

/-- A write to FW_READY with the key: the count is zeroed, and the errors this start owes are raised (R510, R518, R523). -/
def fwReadyEffect (s : State) (v : Word) : State :=
  if v ≠ 0x00004EAD then s
  else
    let s1 := (setStartCount s 0).modFw fun f => { f with ready := true, owesBad := [], owesStart := false, owesRevert := false }
    let s2 := s.fw.owesBad.foldl (fun t k => raise t Err.FW_SLOT_BAD fwSrc (BitVec.ofNat 64 k)) s1
    let s3 := if s.fw.owesStart then raise s2 Err.FW_FAILED_START fwSrc else s2
    let s4 := if s.fw.owesRevert then raise s3 Err.FW_REVERTED fwSrc else s3
    fwState s4 (runSlot s4) (if s.fw.owesRevert then Err.FW_REVERTED else 0) (s4.rd Reg.FW_VERSION).toNat

/-- FLOOR of the bundle in a slot. -/
def slotFloor (s : State) (k : Nat) : Nat := match mramBytes s (slotAddr k) 16 with | some m => numAt m 0xC 4 | none => 0

/-- HEALTH_CONFIRM, the write to FW_CONFIRM during probation (R521). -/
def fwConfirmEffect (s : State) (v : Word) : State :=
  if v ≠ 0x0000C0F1 ∨ !inProbation s then s
  else
    let k := runSlot s
    let s1 := modBoot s fun b =>
      let b1 := if b.st (1 - k) = 4 then b.setSt (1 - k) 5 else b
      { b1.setSt k 4 with prob := false }
    let s2 := raiseCounter s1 7 (slotFloor s1 k)
    let s3 := ((s2.modFw fun f => { f with probEnd := none }).wrb Reg.FW_STAT 0 false).wr Reg.FW_PROB_LEFT 0
    fwState (raise s3 Err.FW_CONFIRMED fwSrc) k Err.FW_CONFIRMED (s3.rd Reg.FW_VERSION).toNat

/-- FW_READY (R510): a write to the register. -/
def execFwReady (m : Master) (v : Word) (s : State) : Host.Outcome State Fault Refusal := writeRow m Reg.FW_READY v fwReadyEffect s

/-- HEALTH_CONFIRM (R521): a write to FW_CONFIRM. -/
def execHealthConfirm (m : Master) (v : Word) (s : State) : Host.Outcome State Fault Refusal := writeRow m Reg.FW_CONFIRM v fwConfirmEffect s

/-- The conditions of R522. -/
def healthy (s : State) : Bool :=
  s.fw.ready && s.fw.behind.isEmpty && s.fw.want.isEmpty && s.fw.failed.isEmpty && s.fw.load.isNone && !s.fw.sawFatal && !s.fw.sawDark

/-- HEALTH_CHECK: every 10 s the manager image checks its conditions, and confirms after 4 consecutive passes (R522). -/
def execHealthCheck (s : State) : Host.Outcome State Fault Refusal :=
  .next (whenLive s fun s =>
    if !s.isManager || !s.fwRuns then s
    else if healthy s then
      let s1 := s.modFw fun f => { f with healthy := min 4 (f.healthy + 1) }
      if s1.fw.healthy = 4 then fwConfirmEffect s1 0x0000C0F1 else s1
    else s.modFw fun f => { f with healthy := 0 })

end Sys2Proof.Machine
end

