-- ==== Sys2Proof/Machine/Feature.lean ====
section
/-! DEFINITION. Feature packets on the ring and on the machine link (R356, R389). -/

namespace Sys2Proof.Machine

/-- One 5-byte record of an entry: data, then QUAL and abort. -/
def featureEntry (e : QEntry) : List Byte := bytesLE 4 e.data.toNat ++ [BitVec.ofNat 8 (e.qual.toNat + 4 * b2n e.abort)]

/-- A complete packet leaves on the machine link, or is counted as discarded (R389). -/
def featureOut (s : State) (lane : Nat) (entries : List (List Byte)) : State :=
  if entries.length ≤ 290 ∧ s.hostReady = true then
    s.emit (.feature lane (bytesLE 2 entries.length ++ [0, 0] ++ entries.flatten))
  else s.bump Reg.HOST_FEAT_DROP 31 0

/-- The path by which a worker's features leave: that of R360, or the other where its port is not UP. -/
def featurePath (s : State) : Option Nat :=
  let p := routeHome s
  if frlUp s (pathPort s p) && !(sessKey s s.position p).isEmpty then some p
  else if frlUp s (pathPort s (1 - p)) && !(sessKey s s.position (1 - p)).isEmpty then some (1 - p)
  else none

/-- FEATURE frames that wait in a port's transmit queue. -/
def featuresWaiting (s : State) (p : Nat) : Nat := ((s.frl p).loc.filter fun q => q.frame.typ == 0x30).length

/-- The plaintext of one part (R356). -/
def featurePart (pkt part nparts : Nat) (entries : List QEntry) : List Byte :=
  pad4 (bytesLE 2 pkt ++ [BitVec.ofNat 8 part, BitVec.ofNat 8 nparts] ++ bytesLE 2 entries.length ++ [0, 0] ++ entries.flatMap featureEntry)

/-- The parts of a packet leave in order. -/
def sendParts (s : State) (path pkt : Nat) (l : List QEntry) : State :=
  let n := max 1 ((l.length + 99) / 100)
  (List.range n).foldl (fun t i =>
    sendProtected t 0x30 0 t.position false false 0 (featurePart pkt i n ((l.drop (100 * i)).take 100)) path) s

/-- FEATURE_SEND: the next packet of queue 15 is sent to position 0 in protected parts, or discarded whole (R356). -/
def execFeatureSend (s : State) : Host.Outcome State Fault Refusal :=
  .next (whenLive s fun s =>
    match queuePacket s 15 with
    | (none, _) => s
    | (some l, t) =>
      if t.isManager then featureOut t t.ownLane (l.map featureEntry)
      else
        match featurePath t with
        | some path =>
          if 290 < l.length ∨ 16 ≤ featuresWaiting t (pathPort t path) then t.bump Reg.FRL_FEAT_DROP 31 0
          else (sendParts t path t.ring.pkt l).modRing fun r => { r with pkt := (r.pkt + 1) % 65536 }
        | none => t.bump Reg.FRL_FEAT_DROP 31 0)

/-- The entries of a part. -/
def partEntries (l : List Byte) : List (List Byte) :=
  (List.range (min 100 (numAt l 4 2))).map fun i => slice l (8 + 5 * i) 5

/-- The packet a position has begun is discarded (R356). -/
def dropJoin (s : State) (pos : Nat) : State :=
  if s.ring.joins.any fun j => j.pos == pos then
    (s.bump Reg.HOST_FEAT_DROP 31 0).modRing fun r => { r with joins := r.joins.filter fun j => j.pos != pos }
  else s

/-- Replaces or adds the packet that a position is sending. -/
def putJoin (s : State) (j : FeatJoin) : State :=
  s.modRing fun r => { r with joins := j :: r.joins.filter fun k => k.pos != j.pos }

/-- One part joins its packet; a complete packet leaves on the machine link (R356). -/
def joinPart (s : State) (pos : Nat) (l : List Byte) : State :=
  let pkt := numAt l 0 2
  let part := numAt l 2 1
  let nparts := numAt l 3 1
  let cur := s.ring.joins.find? fun j => j.pos == pos && j.pkt == pkt
  let s1 := if cur.isNone then dropJoin s pos else s
  let j : FeatJoin := cur.getD { pos := pos, pkt := pkt, nparts := nparts, next := 0, entries := [] }
  if part ≠ j.next then putJoin s1 { j with next := 256 }
  else if part + 1 = j.nparts then
    featureOut (s1.modRing fun r => { r with joins := r.joins.filter fun k => k.pos != pos }) pos (j.entries ++ partEntries l)
  else putJoin s1 { j with next := part + 1, entries := j.entries ++ partEntries l }

/-- FEATURE: a FEATURE frame that a port has delivered joins its packet on the manager (R356, R389). -/
def execFeature (p : Fin 2) (s : State) : Host.Outcome State Fault Refusal :=
  .next (whenLive s fun s =>
    if !s.isManager || !s.fwRuns then s
    else match takeFrame s p fun f => f.typ == 0x30 with
      | (some f, t) => joinPart t f.src f.payload
      | (none, _) => s)

/-- FEATURE_TIMEOUT: a packet of this position still misses a part 10 ms after its first part (R356). -/
def execFeatureTimeout (pos : BitVec 8) (s : State) : Host.Outcome State Fault Refusal :=
  .next (whenLive s fun s => dropJoin s pos.toNat)

end Sys2Proof.Machine
end

