-- ==== Sys2Proof/Machine/Power.lean ====
section
/-! DEFINITION. Supplies and IO banks (R43–R57), the clock monitor (R81–R83), device resets (R90–R95), and debug access (R418,
R419). -/

namespace Sys2Proof.Machine

/-! ## What stops -/

/-- The front end stops at once: the row in progress ends without its samples and RUN is cleared (R187). -/
def feHalt (s : State) : State :=
  let s1 := tdiStop ((s.wrb Reg.BFE_CTRL 0 false).wrb Reg.BFE_STAT 0 false)
  calFrontEndLost ((s1.modFe fun f => { f with row := none, buf := [] }).modNuc fun n => { n with cur := {} })

/-- Bank 1 is lost: the front end and the shutter sequencer stop, and the lane leaves SORTING (R45, R187). -/
def bank1Lost (s : State) : State :=
  let s1 := shtBankLost (feHalt (raise s Err.VIO1_LOST 0x00))
  ownLaneFault s1 Err.VIO1_LOST fun f => { f with bank := true }

/-- A sector clear in progress is suspended (R53, R82). -/
def suspendClear (s : State) : State :=
  match s.mram.clear with
  | some c => setSectorStatus (s.modMram fun m => { m with clear := some { c with suspended := true, suspendRq := false } }) c.sector 2
  | none => s

/-- Steps 1 to 3 of R82 where no reset follows them: ejection, the data path, the Farandole ports and the shutter driver stop, and
the loop sinks go to 3.6 mA. -/
def stopDevice (s : State) : State :=
  let s1 := suspendClear (ejDisarm s)
  let s2 := (List.range 4).foldl (fun t n => t.modEjp n fun p => { nextSeq := p.nextSeq, nextId := p.nextId }) s1
  let s3 := visCtrlEffect (cellsStop (feHalt s2)) 0
  let s4 := (List.range 2).foldl (fun t p => if frlUp t p then portDown t p else setFrlState t p 0) s3
  let s5 := s4.modSht fun x => { x with seq := .idle, event := false, pulse := none, watch := none }
  let s6 := (s5.wr (Reg.LOOP_CTRL 0) 0).wr (Reg.LOOP_CTRL 1) 0
  let s7 := s6.modHost fun h => { h with loops := h.loops.map fun e => { e with configured := false } }
  if s7.lanes.own.state = .sorting then setLane s7 s7.ownLane .admitting Err.PAV_DBG_OPEN else s7

/-! ## Debug access (R418, R419) -/

/-- Secure debug opens (R419): in OWNED only after step 1 of R414 has run and the erasure is requested. -/
def openSecure (s : State) : State :=
  let (c, s1) := if s.lc = 2 then cntInc (stopDevice (zeroKeys s)) 2 1 else (0, s)
  if c = Err.PAV_CNT_LOST then s1
  else
    let s2 := (cntInc s1 4 1).2
    raise (s2.wrb Reg.PAV_DBG 1 true) Err.PAV_DBG_OPEN (pavSrc 0)

/-- Debug opens at a level. -/
def openDebug (s : State) (secure : Bool) : State := if secure then openSecure s else s.wrb Reg.PAV_DBG 0 true

/-- DBG_LEVEL_WRITE (R409, R418): the host asks for a level. MANUFACTURE and RETIRED open without a challenge; else a nonce is
returned where the generator is ready. -/
def execDbgLevelWrite (secure : Bool) (s : State) : Host.Outcome State Fault Refusal :=
  .next <| whenLive s fun s =>
    if s.rdb Reg.PAV_DBG 2 then s
    else if s.lc = 0 ∨ s.lc = 3 then openDebug s secure
    else if !rngReady s then s
    else
      let (nonce, s1) := s.drawBytes 32
      (s1.modPav fun p => { p with dbgNonce := some (nonce, b2n secure) }).emit (.debugChallenge nonce (b2n secure) s.lc)

/-- DBG_SIGNATURE (R418, R419): the signatures over nonce, level and life cycle that R409 requires open debug; anything else
counts a failed attempt. -/
def execDbgSignature (lulomus owner : List Byte) (s : State) : Host.Outcome State Fault Refusal :=
  .next <| whenLive s fun s =>
    match s.pav.dbgNonce with
    | none => s
    | some (nonce, level) =>
      let msg := nonce ++ [BitVec.ofNat 8 level, BitVec.ofNat 8 s.lc]
      let okL := p256Verify (lulomusKey 1) msg lulomus
      let okO := match ownerKey s with
        | some k => p256Verify k msg owner
        | none => false
      let ok := if s.lc = 1 then okL else if level = 0 then okO else okL && okO
      let s1 := s.modPav fun p => { p with dbgNonce := none }
      if ok then openDebug s1 (level == 1)
      else
        let n := s.pav.dbgFails + 1
        let s2 := s1.modPav fun p => { p with dbgFails := n }
        raise (if 3 ≤ n then s2.wrb Reg.PAV_DBG 2 true else s2) Err.PAV_DBG_FAIL (pavSrc 0)

/-- The effect of a write to PAV_DBG_CLOSE: DBG's grants at the Pavane gate go with secure debug (R401). -/
def dbgCloseEffect (s : State) (v : Word) : State :=
  if bitOf v 0 then
    (s.wrf Reg.PAV_DBG 1 0 0).modPav fun p => { p with slots := p.slots.map fun w => setFld w 11 10 0 }
  else s

/-- DBG_CLOSE (R401, R418). -/
def execDbgClose (m : Master) (v : Word) (s : State) : Host.Outcome State Fault Refusal :=
  writeRow m Reg.PAV_DBG_CLOSE v dbgCloseEffect s

/-! ## Power-up and power-down (R43–R57) -/

/-- An IO bank: 0 is bank 1, 1 is bank 2. -/
def ioBank (s : State) (b : Fin 2) : BankState := if b = 0 then s.power.bank1 else s.power.bank2

/-- A bank takes a state; SYS_STRAP and SYS_SUPPLY follow (R56, R57). -/
def setBank (s : State) (b : Fin 2) (v : BankState) : State :=
  let s1 := s.modPower fun p => if b = 0 then { p with bank1 := v } else { p with bank2 := v }
  (s1.wrf Reg.SYS_STRAP (if b = 0 then 3 else 5) (if b = 0 then 2 else 4) (bankCode v)).wrb Reg.SYS_SUPPLY (if b = 0 then 6 else 7)
    (decide (v ≠ .disabled))

/-- POWER_UP (R51, R54, R57): VIN passes 2.9 V, and the sequence begins. `drained`: the internal storage has fallen below 1.8 V
meanwhile, so that the next power-on reset is a cold start. -/
def execPowerUp (drained : Bool) (s : State) : Host.Outcome State Fault Refusal :=
  .next (if s.power.phase = .off then s.modPower fun p => { p with phase := .ramping, drained := p.drained || drained } else s)

/-- PLL_LOCK (R51 step 7, R77): the root PLL has held lock for 100 µs; the rails are in regulation and the bank modes are reported. -/
def execPllLock (s : State) : Host.Outcome State Fault Refusal :=
  .next (if s.power.phase = .ramping then
    let s1 := ((s.wrf Reg.CLK_STAT 1 0 3).wrf Reg.SYS_SUPPLY 5 3 7).modPower fun p => { p with phase := .locked }
    setBank (setBank s1 0 s1.power.bank1) 1 s1.power.bank2
  else s)

/-- A reset is released: the straps are sampled, ROM starts, and the new values of straps and life cycle are in force (R16, R48,
R86, R92, R408). -/
def releaseReset (s : State) (role : BitVec 2) (recover : Bool) : State :=
  let acting := if role = 3 then 0 else role.toNat
  let s1 := (s.wrf Reg.SYS_ROLE 1 0 role.toNat).wrf Reg.SYS_ROLE 3 2 acting
  let s2 := ((s1.wrb Reg.SYS_ROLE 7 (decide (role = 3))).wrf Reg.SYS_ROLE 23 16 0xFF).wrb Reg.SYS_STRAP 0 recover
  let s3 := s2.wrb Reg.CLK_STAT 2 (decide (role = 1))
  let s4 := (s3.modPower fun p => { p with ejPermit := .low }).modRst fun r => { r with asserted := false }
  s4.modPav fun p => { p with lcInForce := s4.lcStored }

/-- POR_RELEASE (R44, R48, R51 step 8): bank 2 is enabled and RESET_N is high. -/
def execPorRelease (role : BitVec 2) (recover : Bool) (s : State) : Host.Outcome State Fault Refusal :=
  .next (if s.power.phase = .locked ∧ s.power.bank2 ≠ .disabled ∧ s.rst.resetNLow = false then
    let s1 := if s.power.drained then s.wrf Reg.SYS_SUPPLY 2 0 0 else s
    releaseReset (s1.modPower fun p => { p with phase := .running, drained := false }) role recover
  else s)

/-- BANK_ENABLE (R43, R45): a VIO has stayed 1 ms in a valid window; `v33` says which. -/
def execBankEnable (bank : Fin 2) (v33 : Bool) (s : State) : Host.Outcome State Fault Refusal :=
  .next (if s.power.phase = .off ∨ ioBank s bank ≠ .disabled then s else setBank s bank (if v33 then .on33 else .on18))

/-- BANK_DISABLE (R43–R45): a VIO has stayed 10 µs outside its window. Loss of bank 2 is a power-on reset, from which the
sequence goes on at step 6. -/
def execBankDisable (bank : Fin 2) (s : State) : Host.Outcome State Fault Refusal :=
  .next (if s.power.phase = .off ∨ ioBank s bank = .disabled then s
  else
    let s1 := setBank s bank .disabled
    if bank = 0 then whenLive s1 bank1Lost
    else if s1.power.phase = .running then (powerOnReset s1 3 .ramping).wrb Reg.CLK_STAT 1 false
    else s1)

/-- Both banks are disabled, and their detectors begin again at step 3 of the sequence (R43, R51). -/
def banksOff (s : State) : State := setBank (setBank s 0 .disabled) 1 .disabled

/-- POWER_FAIL (R53, R54): VIN has stayed below 2.8 V for 2 µs. `back`: VIN is above 2.9 V when power-on reset is asserted, and the
sequence begins at once. -/
def execPowerFail (back : Bool) (s : State) : Host.Outcome State Fault Refusal :=
  .next (if s.power.phase = .off then s
  else (banksOff (powerOnReset s 1 (if back then .ramping else .off))).wrf Reg.CLK_STAT 1 0 0)

/-- REGULATOR_FAULT (R55): a regulator, 0 core, 1 analog, 2 SerDes, has left regulation for more than 5 µs; the sequence runs from
step 2. -/
def execRegulatorFault (rail : Fin 3) (s : State) : Host.Outcome State Fault Refusal :=
  .next (if s.power.phase = .off then s
  else ((banksOff (powerOnReset s 2 .ramping)).wrf Reg.CLK_STAT 1 0 0).wrb Reg.SYS_SUPPLY (3 + rail.val) false)

/-! ## Device resets (R50, R82, R83, R90, R91) -/

/-- RESET_N_ASSERT (R50): RESET_N has been low for the filter time. -/
def execResetNAssert (s : State) : Host.Outcome State Fault Refusal :=
  .next (
    let s1 := s.modRst fun r => { r with resetNLow := true }
    if s.power.phase = .running then deviceReset s1 1 else s1)

/-- RESET_N_RISE (R50): the count of 50 µs starts. -/
def execResetNRise (s : State) : Host.Outcome State Fault Refusal := .next (s.modRst fun r => { r with resetNLow := false })

/-- DEVICE_RESET_RELEASE (R48, R91): nothing holds the reset any more. -/
def execDeviceResetRelease (role : BitVec 2) (recover : Bool) (s : State) : Host.Outcome State Fault Refusal :=
  .next (if s.power.phase = .running ∧ s.rst.asserted = true ∧ s.rst.resetNLow = false ∧ s.rst.clockBad = false then
    releaseReset s role recover else s)

/-- CLOCK_FAIL (R81–R83, R91): the monitor declares a failure of the resonator or of the PLL; it declares nothing in a power-on reset. -/
def execClockFail (resonator : Bool) (s : State) : Host.Outcome State Fault Refusal :=
  .next (if s.power.phase ≠ .running then s
  else
    let s1 := ((s.bump Reg.CLK_STAT 31 16).wrb Reg.CLK_STAT 1 false).wrb Reg.CLK_STAT 0 (s.rdb Reg.CLK_STAT 0 && !resonator)
    let s2 := s1.modCore fun c => { c with owesClockFail := true }
    (deviceReset s2 2).modRst fun r => { r with clockBad := true })

/-- CLOCK_RECOVERY (R83): the resonator is in its window and the PLL has held lock for 100 µs. -/
def execClockRecovery (s : State) : Host.Outcome State Fault Refusal :=
  .next (if s.rst.clockBad then (s.wrf Reg.CLK_STAT 1 0 3).modRst fun r => { r with clockBad := false } else s)

/-- The effect of a write to RST_DEVICE (R90). -/
def softResetEffect (s : State) (v : Word) : State := if v = 0x0000D5E1 then deviceReset s 3 else s

/-- SOFTWARE_RESET (R90): a write to RST_DEVICE. -/
def execSoftwareReset (m : Master) (v : Word) (s : State) : Host.Outcome State Fault Refusal := writeRow m Reg.RST_DEVICE v softResetEffect s

/-- TRST_N_ASSERT (R94): the test access port is reset; an open debug session stays open. -/
def execTrstNAssert (s : State) : Host.Outcome State Fault Refusal :=
  .next (s.modPower fun p => { p with tapReset := true })

end Sys2Proof.Machine
end

