-- ==== Sys2Proof/Machine/Start.lean ====
section
/-! DEFINITION. The start of ROM and firmware: the root secret (R421, R422), the erasure (R415), a manager's start (R509, R510),
a worker's start (R513), control-core restarts and the warm path (R96–R101), switchover (R518) and the end of probation (R523). -/

namespace Sys2Proof.Machine

/-! ## What every image does when it starts -/

/-- The errors that firmware owes after a reset, a watchdog restart, an ERASE or a switchover (R83, R101, R414, R518). -/
def startReports (s : State) : State :=
  let s1 := if s.core.owesClockFail then raise s Err.CLOCK_FAIL 0x01 else s
  let s2 := if s.core.owesWdog then raise s1 Err.WDOG_RESTART 0x02 else s1
  let s3 := match s.core.owesErase with
    | some k => raise s2 Err.PAV_TAMPER_ERASE (pavSrc 0) (BitVec.ofNat 64 k.val)
    | none => s2
  let s4 := if s.fw.owesWorker then raise s3 Err.FW_WORKER_IMAGE fwSrc else s3
  (s4.modCore fun c => { c with owesClockFail := false, owesWdog := false, owesErase := none }).modFw fun f => { f with owesWorker := false }

/-- An image starts: it enables its interrupt lines, reports what it owes, checks the spares, and evaluates the calibration slots
(R227, R542, R555). A lane that was in ROM listen is being admitted. -/
def imageUp (s : State) : State :=
  let s1 := (s.modCore fun c => { c with mode := .firmware, sparesWarned := false, kick := s.svc.ticks }).modFw fun f =>
    { f with ready := false, sawFatal := false, sawDark := false, healthy := 0 }
  let s2 := (s1.wr Reg.ERR_IRQ_EN0 irqMask0).wr Reg.ERR_IRQ_EN1 irqMask1
  let s3 := evaluateSlots (sparesCheck (startReports s2))
  if s3.lanes.own.state = .listen then setLane s3 s3.ownLane .admitting else s3

/-! ## Workers and standbys (R100, R505, R513) -/

/-- ROM starts the image of the run area. -/
def workerUp (s : State) : State :=
  let s1 := s.wr Reg.FW_VERSION (BitVec.ofNat 32 (s.wordAt (areaBase (runArea s) + 8)))
  imageUp (s1.wrf Reg.FW_STAT 9 8 2)

/-- The image of an area verifies again: it is complete, no word is poisoned, and each block encrypted again has its digest (R505). -/
def imageIntact (s : State) (k : Nat) : Bool :=
  let base := areaBase k
  let n := s.wordAt (base + 256 + 8)
  let h := s.bytesAt base (384 + 32 * n)
  areaComplete s k && !(s.ms.poison.any fun w => decide (base ≤ w) && decide (w < base + 0xC8000)) &&
    decide (sha384 (h.drop 256) = slice h 0x60 48) &&
    (List.range n).all fun b =>
      blockOk (h.drop 256) (blockPlain (s.area k).key (slice h (256 + 0x38) 8) (s.bytesAt (base + h.length + 4096 * b) 4096) b) b

/-- The warm path of a worker (R100, R518): at a switchover the next area becomes the run area where it verifies; without an image
that verifies, the worker stays in ROM and reports it. -/
def workerWarm (s : State) : State :=
  let sw := s.rdf Reg.RST_CAUSE 19 16 == 1 && s.rdb Reg.FW_SWITCH_CTRL 0
  let s1 := s.wrb Reg.FW_SWITCH_CTRL 0 false
  let next := 1 - runArea s
  if sw && imageIntact s1 next then workerUp (s1.wrf Reg.FW_STAT 12 12 next)
  else
    let s2 := if sw then s1.modFw fun f => { f with owesWorker := true } else s1
    if imageIntact s2 (runArea s2) then workerUp s2
    else if !areaComplete s2 (runArea s2) then s2.modCore fun c => { c with mode := .listen }
    else raise ((s2.setArea (runArea s2) {}).modCore fun c => { c with mode := .listen }) Err.FW_WORKER_IMAGE fwSrc 1

/-- FW_BLOCK (R512, R513): the node takes its copy of a chunk; ROM starts a run area that has become complete (R514). -/
def execFwBlock (p : Fin 2) (s : State) : Host.Outcome State Fault Refusal :=
  .next (whenLive s fun s =>
    if s.isManager || decide (s.core.mode = .warm) || decide (s.core.mode = .romStart) then s
    else match takeFrame s p fun f => f.typ == 0x20 with
      | (none, _) => s
      | (some f, t) =>
        let u := takeChunk t f.payload
        if u.core.mode = .listen ∧ areaComplete u (runArea u) = true then workerUp u else u)

/-! ## Managers (R509, R510, R524) -/

/-- The own lane's admission on the manager: its calibration record, its stored loop settings, and IDLE without a choreography
(R546, R547). -/
def ownAdmission (s : State) : State :=
  let p := s.ownLane
  let own := ownRecord s
  let s1 := if (calRecord s p).isEmpty && !own.isEmpty then storeRecord s p own else s
  let s2 := applyRecord s1 (calRecord s1 p)
  let s3 := [(0 : Fin 2), 1].foldl (fun t n => match loopOf t p n.val with | some c => loopApply t n c | none => t) s2
  if s3.lanes.own.state = .admitting ∧ s3.fabLoaded = false then setLane s3 p .idle else s3

/-- Floors and metering records at a start of a manager (R437, R486, R524). `cold`: a device reset came before. -/
def meterUp (s : State) (cold erased : Bool) : State :=
  let s1 := raiseFloors s
  let s2 := match (readBoot s1).find 4 with
    | some k => raiseCounter s1 7 (slotFloor s1 k)
    | none => s1
  if cold then loadApplets (meterStart s2 erased)
  else
    let r := tenantNumbers.foldl (fun (e : Bool × State) t => if (accOf e.2 t).isSome then e else startTenant false e t) (false, s2)
    if r.1 then raise r.2 Err.MET_RECORD_LOST acsSrc else r.2

/-- A manager draws its EPOCH where its generator gives output (R377, R417). -/
def newEpoch (s : State) : State := if rngFailed s then s else drawEpoch s

/-- A manager image runs. After a device reset it reads its store, draws its EPOCH and enumerates; after a warm path it asks every
admitted device for its image (R520). -/
def managerUp (s : State) (cold erased : Bool) : State :=
  let s1 := imageUp (if cold then newEpoch (loadStore s) else s)
  let s2 := (checkStaging (meterUp (if cold then errLogStart s1 else s1) cold erased)).2
  if cold then ownAdmission (s2.modRing fun r => { r with due := true })
  else s2.modFw fun f => { f with load := none, want := (admitted s2).foldl nsAdd f.want }

/-- ROM recovery (R106, R107, R553): no ring, no data path. -/
def enterRecovery (s : State) : State :=
  newEpoch ((s.wrf Reg.FW_STAT 9 8 2).modCore fun c => { c with mode := .recovery })

/-- A slot holds a bundle that may start: its version is not below the floor and R503 holds. -/
def slotGood (s : State) (k : Nat) : Bool :=
  match storedBundle s (slotAddr k) with
  | some l => decide ((cntRead s 7).getD 0 ≤ (readBoot s).ver k) && bundleOk s l
  | none => false

/-- A slot found in a state is started: its record changes, its manager section is decrypted into the image area, and probation
begins for a slot that is not confirmed (R505, R509, R521). -/
def startSlot (s : State) (k st : Nat) (cold erased : Bool) : State :=
  let trial := st == 3 || st == 2
  let s1 := if trial then modBoot s fun b => { b.setSt k 3 with prob := true }
    else if st = 5 then modBoot s fun b => (if b.st (1 - k) = 4 then b.setSt (1 - k) 6 else b).setSt k 4
    else s
  let l := (storedBundle s1 (slotAddr k)).getD []
  let s2 := (s1.zeroRange 0x10000000 0x10078000).setBytes 0x10000000 (sectionPlain s1 (managerSection l))
  let s3 := ((s2.wrf Reg.FW_STAT 9 8 k).wrb Reg.FW_STAT 0 trial).wr Reg.FW_VERSION (BitVec.ofNat 32 (numAt l 8 4))
  let mins := if numAt l 0x10 2 = 0 then 10 else numAt l 0x10 2
  managerUp (s3.modFw fun f =>
    { f with probEnd := if trial then some (s3.ct + BitVec.ofNat 64 (mins * 60 * ticksPerSecond)) else none }) cold erased

/-- The slots in the order of R509; a slot that may not start is FAILED, and without one the start has failed. -/
def trySlots (cold erased : Bool) : List (Nat × Nat) → State → State
  | [], s => deviceReset s 3
  | (st, k) :: r, s =>
    if (readBoot s).st k ≠ st then trySlots cold erased r s
    else if slotGood s k then startSlot s k st cold erased
    else trySlots cold erased r ((modBoot s fun b => b.setSt k 6).modFw fun f => { f with owesBad := f.owesBad ++ [k] })

/-- A slot whose probation a start interrupts is FAILED: the revert of R509 and R523. -/
def revertSlot (s : State) : State :=
  match (readBoot s).find 3 with
  | some k =>
    if (readBoot s).prob then
      (modBoot s fun b => { b.setSt k 6 with prob := false }).modFw fun f => { f with owesBad := f.owesBad ++ [k], owesRevert := true }
    else s
  | none => s

/-- ROM's procedure of R509 at a start of a manager-strapped device. -/
def managerStart (s : State) (cold erased : Bool) : State :=
  let s0 := (mramReadWord s 0x20002000 0).2.2
  let n := startCount s
  if s.rdb Reg.SYS_STRAP 0 || decide (3 ≤ n) then
    (if cold then enterRecovery (s0.wrf Reg.FW_STAT 31 24 n) else deviceReset s0 3)
  else
    let s1 := (setStartCount s0 (n + 1)).modFw fun f =>
      { f with owesBad := [], owesRevert := false, owesStart := decide (n ≠ 0), probEnd := none }
    trySlots cold erased [(3, 0), (3, 1), (4, 0), (4, 1), (5, 0), (5, 1), (2, 0), (2, 1)] (revertSlot (s1.wrb Reg.FW_STAT 0 false))

/-! ## ROM's start (R415, R421, R422) -/

/-- The erasure that an ERASE has requested is completed: true if it ran (R415); a RETIRED device clears what is left of its keys
store (R410). -/
def romErase (s : State) : Bool × State :=
  let due := (cntRead s 2).getD 0 - (cntRead s 3).getD 0
  let notValid (t : State) := keysSectors.filter fun x => !sectorValid t x
  if 0 < due then
    let eoa := (List.range 48).map (· + 1760)
    let s1 := eoa.foldl clearSectorWhole s
    (true, (cntInc ((notValid s1).foldl clearSectorWhole s1) 3 due).2)
  else if s.lc = 3 then (false, (notValid s).foldl clearSectorWhole s)
  else (false, s)

/-- The start counts: a power-on reset counts, and both registers show the stored words (R117). -/
def countStart (s : State) : State :=
  let n := (mramWord s 0x20002008).getD 0
  let s1 := if s.rdf Reg.RST_CAUSE 3 0 = 0 then (mramStoreBytes s 0x20002008 (bytesLE 8 ((n + 1) % 2 ^ 32))).2 else s
  (s1.wr Reg.SVC_STARTS (BitVec.ofNat 32 ((mramWord s1 0x20002008).getD 0))).wr Reg.SVC_RUNHRS (BitVec.ofNat 32 ((mramWord s1 0x20002010).getD 0))

/-- The helper copy that failed is rewritten from the good one (R421). -/
def repairHelper (s : State) (good bad : Nat) : State :=
  let l := (mramBytes s (sectorAddr good) 4096).getD (List.replicate 4096 0)
  raise (mramStoreBytes s (sectorAddr bad) l).2 Err.KEY_HELPER_COPY (pavSrc 1) (BitVec.ofNat 64 (bad - 1744))

/-- ROM goes on after the root secret: a manager starts its image, every other device listens (R16, R95, R410, R422). -/
def romGoesOn (s : State) (ok erased : Bool) : State :=
  if s.lc = 3 ∨ !s.isManager then s.modCore fun c => { c with mode := .listen }
  else if ok then managerStart s true erased
  else enterRecovery s

/-- ROOT_SECRET_DONE (R421, R422): helper copies A and B have given a verified secret, or not. -/
def execRootSecretDone (okA okB : Bool) (s : State) : Host.Outcome State Fault Refusal :=
  .next (whenLive s fun s =>
    if s.core.mode ≠ .romStart ∨ s.core.rootSecret = true ∨ s.core.rootFailed = true then s
    else
      let e := romErase (countStart s)
      let s2 := e.2.drawWord
      let s3 := s2.2.modEng fun x => { x with gen := s2.1 }
      if okA || okB then
        let s4 := installRoot ((s3.modCore fun c => { c with rootSecret := true }).wrf Reg.KEY_STAT 9 8 1)
        let s5 := if okA && !okB then repairHelper s4 1744 1745 else if okB && !okA then repairHelper s4 1745 1744 else s4
        romGoesOn s5 true e.1
      else
        let s4 := (s3.modCore fun c => { c with rootFailed := true }).wrf Reg.KEY_STAT 9 8 2
        romGoesOn (raise s4 Err.KEY_ROOT_FAIL (pavSrc 1)) false e.1)

/-! ## Control-core restarts (R90, R92, R96–R101) -/

/-- A control-core restart with its cause: 1 switchover, 2 watchdog, 3 firmware request. The data path runs on (R31); a calibration
dialogue is aborted. A device still in its first start runs the boot ROM again. -/
def ccRestart (s : State) (cause : Nat) : State :=
  let s1 := ((s.wrf Reg.RST_CAUSE 19 16 cause).bump Reg.RST_CAUSE 31 24).modCore fun c =>
    { c with mode := if c.mode = .romStart then .romStart else .warm, kick := s.svc.ticks, owesWdog := c.owesWdog || cause == 2 }
  calAbort s1 0x02

/-- The effect of a write to RST_CCRESTART (R90). -/
def ccRestartEffect (s : State) (v : Word) : State := if v = 0x0000CC5A then ccRestart s 3 else s

/-- CC_RESTART_REQUEST (R90): a write to RST_CCRESTART. -/
def execCcRestartRequest (m : Master) (v : Word) (s : State) : Host.Outcome State Fault Refusal :=
  writeRow m Reg.RST_CCRESTART v ccRestartEffect s

/-- WARM_PATH_DONE (R99, R100, R509, R518): ROM has verified the image of the restarted core. A standby that has taken over runs
its worker image. -/
def execWarmPathDone (s : State) : Host.Outcome State Fault Refusal :=
  .next (whenLive s fun s =>
    if s.core.mode ≠ .warm then s
    else if s.lc = 3 then s.modCore fun c => { c with mode := .listen }
    else if s.rdf Reg.SYS_ROLE 1 0 = 1 then (if s.core.rootFailed then deviceReset s 3 else managerStart s false false)
    else workerWarm s)

/-- The effect of a write to RST_WDOG_KICK (R101). -/
def kickEffect (s : State) (v : Word) : State := if v = 0x0000A5C3 then s.modCore fun c => { c with kick := s.svc.ticks } else s

/-- WDOG_KICK (R101): a write to RST_WDOG_KICK. -/
def execWdogKick (m : Master) (v : Word) (s : State) : Host.Outcome State Fault Refusal := writeRow m Reg.RST_WDOG_KICK v kickEffect s

/-- WDOG_EXPIRE (R101): the timeout has passed while the watchdog is enabled. -/
def execWdogExpire (s : State) : Host.Outcome State Fault Refusal :=
  .next (whenLive s fun s => if s.rdb Reg.RST_WDOG 16 then ccRestart s 2 else s)

/-! ## Switchover and probation (R518, R523) -/

/-- A protected frame of the manager has verified within the 2 s before now. -/
def heardManager (s : State) : Bool :=
  [s.ring.lastProt[0], s.ring.lastProt[1]].any fun e => match e with
    | some t => decide (s.ct.toNat ≤ t.toNat + 2 * ticksPerSecond)
    | none => false

/-- SWITCHOVER (R518): curtain time has reached FW_SWITCH_AT on an armed device. -/
def execSwitchover (s : State) : Host.Outcome State Fault Refusal :=
  .next (whenLive s fun s =>
    if !s.rdb Reg.FW_SWITCH_CTRL 0 || decide (s.ct.toNat < s.rd64 Reg.FW_SWITCH_AT_LO Reg.FW_SWITCH_AT_HI) then s
    else
      let s1 := s.wrb Reg.ERR_EVT 14 true
      if s1.isManager then ccRestart (setSwitch (s1.wrb Reg.FW_SWITCH_CTRL 0 false) none) 1
      else if heardManager s1 then ccRestart s1 1
      else s1.wrb Reg.FW_SWITCH_CTRL 0 false)

/-- PROBATION_EXPIRED (R523): the timer of probation expires, and the restart reverts to the ACTIVE slot. -/
def execProbationExpired (s : State) : Host.Outcome State Fault Refusal :=
  .next (whenLive s fun s =>
    match s.fw.probEnd with
    | some e =>
      if s.ct.toNat < e.toNat then s
      else ccRestart ((s.modFw fun f => { f with probEnd := none }).wrb Reg.ERR_EVT 14 true) 1
    | none => s)

end Sys2Proof.Machine
end

