-- ==== Sys2Proof/Machine/Service.lean ====
section
/-! DEFINITION. Admission to SORTING as the manager orders it (R30, R270, R547), the standby's takeover (R549, R550), and powered
hours (R117). -/

namespace Sys2Proof.Machine

/-! ## ADMIT and shutter events (R30, R270, R547) -/

/-- The manager orders a shutter event in a lane. -/
def orderShutter (s : State) (lane : Nat) (r : ReplyTo) : State :=
  if lane = s.ownLane then (shtRequest s .event).2 else carryStart s lane 0x0204 [] [] r

/-- A lane's device may be asked to enter SORTING. -/
def admitAsked (s : State) (lane : Nat) : Bool :=
  let st := (s.lane lane).state
  (st == .idle || st == .admitting) && !(s.ring.pend.any fun t => t.use == .enterLane lane)

/-- ADMIT (R30, R89, R270): the manager sends ADMIT for a lane. Its own device, or the lane's when it gets the request, arms if it
is ready; where only the shutter event is missing the manager orders one. -/
def execAdmit (lane : BitVec 7) (s : State) : Host.Outcome State Fault Refusal :=
  .next (whenLive s fun s =>
    let p := lane.toNat
    if !s.isManager || !s.fwRuns || s.ring.duplicate || !admitAsked s p then s
    else if p ≠ s.ownLane then startTxn s p false [0x03, 0x0E, 0, 0] (.enterLane p)
    else if shutterMissing s && admitReady (withShutter s) then (shtRequest s .event).2
    else admitOwn s)
where
  /-- No shutter event has completed since the start, and a shutter is present. -/
  shutterMissing (s : State) : Bool := shtPresent s && s.svc.shutters == 0
  /-- The state with a completed shutter event. -/
  withShutter (s : State) : State := s.modSvc fun v => { v with shutters := 1 }

/-- ADMITTING_SHUTTER_RETRY (R30): every 10 s while a lane waits in ADMITTING for its flag. -/
def execAdmittingShutterRetry (lane : BitVec 7) (s : State) : Host.Outcome State Fault Refusal :=
  .next (whenLive s fun s =>
    let l := s.lane lane.toNat
    if s.isManager && s.fwRuns && l.state == .admitting && l.faults.flag then orderShutter s lane.toNat .none else s)

/-- ADMISSION_SHUTTER_RETRY (R547): 1 s after a failed shutter event of an admission. -/
def execAdmissionShutterRetry (lane : BitVec 7) (s : State) : Host.Outcome State Fault Refusal :=
  .next (whenLive s fun s =>
    if s.isManager && s.fwRuns && s.svc.shutterRetry.contains lane.toNat then
      orderShutter (s.modSvc fun v => { v with shutterRetry := nsDel v.shutterRetry lane.toNat }) lane.toNat .none
    else s)

/-! ## Takeover (R549, R550) -/

/-- The probe transaction on one path, where a session key exists. -/
def sendProbe (s : State) (path : Nat) : State :=
  if (sessKey s s.position path).isEmpty then s
  else
    let n := s.ring.nextTxn % 2 ^ 31 + 2 ^ 31
    let t : TxnPend := { txn := n, pos := 0, toEn := false, body := [0x10, 0x0E, 0, 0], use := .probe }
    sendProtected (s.modRing fun r => { r with nextTxn := r.nextTxn + 1, pend := r.pend ++ [t] }) 0x10 0 s.position false false
      (BitVec.ofNat 32 n) t.body path

/-- TAKEOVER_PROBE (R549): one of five attempts after 1 s without TIME. -/
def execTakeoverProbe (s : State) : Host.Outcome State Fault Refusal :=
  .next (whenLive s fun s =>
    if !s.isStandby || !s.fwRuns || s.position == 0xFF || decide (5 ≤ s.svc.probes) then s
    else sendProbe (sendProbe (s.modSvc fun v => { v with probes := v.probes + 1 }) 0) 1)

/-- An answer to a probe cancels the takeover (R549). -/
def takeoverDeclined (s : State) : State :=
  raise ((s.modSvc fun v => { v with probes := 0 }).modRing fun r => { r with pend := r.pend.filter fun t => t.use != .probe })
    Err.SVC_TAKEOVER_DECLINED svcSrc

/-- What the device still had to report to the former manager it now logs and reports itself. -/
def ownReports (s : State) : State :=
  let l := s.err.reports
  l.foldl (fun t r => reportEvent (errLog t t.ownLane r) t.ownLane r) (s.modErr fun e => { e with reports := [], owesLost := false })

/-- The standby becomes the acting manager and keeps its position (R17, R550). -/
def takeOver (s : State) : State :=
  let s1 := (s.wrf Reg.SYS_ROLE 3 2 1).wrf Reg.FRL_STAT 17 16 0
  let s2 := setCtValid (s1.wrb Reg.FRL_STAT 31 false) true
  let s3 := (setSess (setSess s2 0 []) 1 []).modSvc fun v => { v with probes := 0 }
  let s4 := loadStore (s3.modRing fun r =>
    { r with pend := [], notes := [], nodes := [], known := false, due := true, nonce := none, adopted := true, timeSent := false,
             slew := 0, duplicate := false })
  let s5 := newEpoch (s4.modRing fun r => { r with closed := false })
  let s6 := meterUp (errLogStart (s5.wrb Reg.SVC_STAT 2 true)) true false
  raise (ownReports s6) Err.SVC_TAKEOVER svcSrc

/-- TAKEOVER (R549, R550): no answer has come to any of the five probes. -/
def execTakeover (s : State) : Host.Outcome State Fault Refusal :=
  .next (whenLive s fun s => if s.isStandby && s.fwRuns && s.svc.probes == 5 then takeOver s else s)

/-! ## Powered hours (R117) -/

/-- RUNHRS_UPDATE (R117): another powered hour. -/
def execRunhrsUpdate (s : State) : Host.Outcome State Fault Refusal :=
  .next (whenLive s fun s =>
    let n := (s.rd Reg.SVC_RUNHRS).toNat + 1
    (mramStoreBytes (s.wr Reg.SVC_RUNHRS (BitVec.ofNat 32 n)) 0x20002010 (bytesLE 8 (n % 2 ^ 32))).2)

end Sys2Proof.Machine
end

