-- ==== Sys2Proof/Machine/Timers.lean ====
section
/-! DEFINITION. GPIO edges and general timers (R58, R300), and the reads and loads of curtain time (R87, R88). -/

namespace Sys2Proof.Machine

/-! ## GPIO -/

/-- The selected edge of a pin has occurred when its level has gone from one value to the other (SYS_GPIO_IRQ_CFG). -/
def edgeSelected (s : State) (n : Nat) (before after : Bool) : Bool :=
  (before != after) && s.rdb Reg.SYS_GPIO_IRQ_CFG (2 * n + (if after then 0 else 1))

/-- An unclaimed pin whose level differs from a level before records the edge (R58). -/
def recordEdge (s : State) (n : Nat) (before : Bool) : State :=
  if !claimed s 1 n && edgeSelected s n before (pinLevel s n) then s.wrb Reg.SYS_GPIO_IRQ_STAT n true else s

/-- GPIO_EDGE (R58): the outside drives a ball to a level. -/
def execGpioEdge (pin : Fin 16) (level : Bool) (s : State) : Host.Outcome State Fault Refusal :=
  let w : BitVec 16 := BitVec.ofNat 16 (2 ^ pin.val)
  let t := s.modPower fun p => { p with gpioIn := if level then p.gpioIn ||| w else p.gpioIn &&& ~~~w }
  .next (whenLive t fun t => recordEdge t pin.val (pinLevel s pin.val))

/-- A write to SYS_GPIO_DIR or SYS_GPIO_OUT: an edge that it makes on a pin is an edge of that pin. -/
def gpioDriveWrite (a : Nat) (s : State) (v : Word) : State :=
  (List.range 16).foldl (fun t n => recordEdge t n (pinLevel s n)) (gpioWrite a 1 s v)

/-! ## General timers -/

/-- EN of a general timer. -/
def timerOn (s : State) (k : Nat) : Bool := s.rdb (Reg.SYS_TMR_CTRL k) 0

/-- EXPIRED of a general timer. -/
def timerExpired (s : State) (k : Nat) : Bool := s.rdb (Reg.SYS_TMR_CTRL k) 1

/-- The effect of a write to SYS_TMRk_CTRL; a claimed timer ignores it. -/
def timerCtrlEffect (k : Nat) (s : State) (v : Word) : State :=
  if claimed s 2 k then s
  else s.wr (Reg.SYS_TMR_CTRL k) (BitVec.ofNat 32 (b2n (bitOf v 0) + 2 * b2n (timerExpired s k && !bitOf v 0 && !bitOf v 1)))

/-- The effect of a write to a half of a timer's expiry time. -/
def timerTimeEffect (k a : Nat) (s : State) (v : Word) : State := if claimed s 2 k then s else fieldWrite s a v

/-- TIMER_ARM (R58): a write to SYS_TMRk_CTRL. -/
def execTimerArm (m : Master) (k : Fin 8) (v : Word) (s : State) : Host.Outcome State Fault Refusal :=
  writeRow m (Reg.SYS_TMR_CTRL k.val) v (timerCtrlEffect k.val) s

/-- Curtain time is equal to or later than an armed timer's value. -/
def timerDue (s : State) (k : Nat) : Bool :=
  timerOn s k && !timerExpired s k && !claimed s 2 k && decide (s.rd64 (Reg.SYS_TMR_LO k) (Reg.SYS_TMR_HI k) ≤ s.ct.toNat)

/-- The low half of curtain time has reached a claimed timer's value (R300). -/
def cellTimerDue (s : State) (k : Fin 8) : Bool :=
  match s.fab.timers[k] with
  | (some v, false) => decide (0 ≤ (BitVec.ofNat 32 s.ct.toNat - v).toInt)
  | _ => false

/-- One comparison of a timer with curtain time (R58, R300). -/
def timerTick (s : State) (k : Fin 8) : State :=
  let s1 := if timerDue s k.val then s.wrb (Reg.SYS_TMR_CTRL k.val) 1 true else s
  if cellTimerDue s1 k then s1.modFab fun f => { f with timers := f.timers.set k.val ((f.timers[k]).1, true) } else s1

/-- TIMER_EXPIRED (R58, R300): the comparison at a tick. -/
def execTimerExpired (k : Fin 8) (s : State) : Host.Outcome State Fault Refusal := .next (whenLive s fun s => timerTick s k)

/-! ## Curtain time -/

/-- A master's place in the shadows of R87. -/
def masterIdx (m : Master) : Fin 6 :=
  match m with
  | .cc => 0 | .en => 1 | .fd => 2 | .ld => 3 | .hd => 4 | .dbg => 5

/-- A read of CLK_CT_LO: the low half, and the capture of the upper one for this master. -/
def ctReadLo (s : State) (m : Master) : Word × State :=
  (BitVec.ofNat 32 s.ct.toNat, s.modGate fun g => { g with ctShadow := g.ctShadow.set (masterIdx m) (BitVec.ofNat 32 (s.ct.toNat / 2 ^ 32)) })

/-- What CLK_CT_HI returns to a master: its shadow. -/
def ctReadHi (s : State) (m : Master) : Word := s.gate.ctShadow[masterIdx m]

/-- CT_READ (R87): a read of CLK_CT_LO. -/
def execCtRead (m : Master) (s : State) : Host.Outcome State Fault Refusal :=
  .next (whenLive s fun s =>
    gated (flushPairs s m Reg.CLK_CT_LO) { master := m, write := false, addr := Reg.CLK_CT_LO, len := 4 } fun s =>
      let (v, t) := ctReadLo s m
      t.resp m (bytesLE 4 v.toNat))

/-- The effect of a write to CLK_CT_CTRL: LOAD on a manager arms one load at the next tick (R88). -/
def ctCtrlEffect (s : State) (v : Word) : State := if bitOf v 0 && s.isManager then s.modCtArmed fun _ => true else s

/-- CT_LOAD (R88): a write to CLK_CT_CTRL. -/
def execCtLoad (m : Master) (v : Word) (s : State) : Host.Outcome State Fault Refusal := writeRow m Reg.CLK_CT_CTRL v ctCtrlEffect s

/-- What a tick of curtain time does (R84, R85, R88): an armed load takes place, or the counter advances, by 0 or 2 once in 1024
ticks while it is slewed. -/
def ctTick (s : State) : State :=
  if s.ctArmed then
    (s.modCtArmed fun _ => false).stepCt fun _ => BitVec.ofNat 64 (s.rd64 Reg.CLK_CT_SET_LO Reg.CLK_CT_SET_HI)
  else if s.ring.slew = 0 ∨ s.svc.ticks < s.ring.slewAt + 1024 then s.modCt (· + 1)
  else if s.ring.slew < 0 then
    s.modRing fun r => { r with slew := r.slew + 1, slewAt := s.svc.ticks }
  else (s.modCt (· + 2)).modRing fun r => { r with slew := r.slew - 1, slewAt := s.svc.ticks }

end Sys2Proof.Machine
end

