-- ==== Sys2Proof/Machine/Bus.lean ====
section
/-! DEFINITION. The bus as a master sees it: what each register read returns and each register write does, register blocks word by
word (R6, R577, R578), and reads and writes of any address through the gates (R139–R162). -/

namespace Sys2Proof.Machine

/-! ## Reads -/

/-- The index of an address in a register array; none outside it. -/
def regIdx (a base stride count : Nat) : Option Nat :=
  if base ≤ a ∧ (a - base) % stride = 0 ∧ (a - base) / stride < count then some ((a - base) / stride) else none

/-- A read by the field types of R6: the value, with RC fields cleared; an offset no table names reads 0 (R578). -/
def plainRead (s : State) (a : Nat) : Word × State :=
  match regDesc a with
  | none => (0, s)
  | some d => (s.rd a, if d.rc = 0 then s else s.wr a (s.rd a &&& ~~~d.rc))

/-- MRAM_CLR_STAT. -/
def clrStatView (s : State) : Word :=
  match s.mram.clear with
  | none => 0
  | some c => BitVec.ofNat 32 (c.sector * 2 ^ 18 + (if c.suspended then 2 else 1) * 2 ^ 16 + c.done)

/-- A free value of a register that the outside fixes. -/
def freeReg (s : State) (bits : Nat) : Word × State :=
  let (w, t) := s.drawWord
  (BitVec.ofNat 32 (w.toNat % 2 ^ bits), t)

/-- The read of Q_STATq, whose discard count is cleared (R134, R136). -/
def qStatRead (s : State) (q : Fin 24) : Word × State :=
  let (v, t) := qStatView s q
  (v, (plainRead t (Reg.Q_STAT q.val)).2)

/-- EJ_STAT with the level driven on EJ_PERMIT. -/
def ejStatView (s : State) : Word := BitVec.ofNat 32 (s.rdf Reg.EJ_STAT 7 0 + 256 * b2n (decide (s.power.ejPermit = .high)))

/-- Reads of the peripheral blocks that are computed or have an effect of their own. -/
def periphRead (s : State) (m : Master) (a : Nat) : Word × State :=
  if a = Reg.SYS_GPIO_IN then (gpioInView s, s)
  else if a = Reg.CLK_CT_LO then ctReadLo s m
  else if a = Reg.CLK_CT_HI then (ctReadHi s m, s)
  else if a = Reg.MRAM_CLR_STAT then (clrStatView s, s)
  else if a = Reg.MRAM_SSTAT then (BitVec.ofNat 32 (sectorStatus s (s.rdf Reg.MRAM_SSTAT_IDX 10 0)), s)
  else if a = Reg.GATE_SYNC then (BitVec.ofNat 32 (s.rdf Reg.GATE_SYNC 15 0), s)
  else if a = Reg.SHT_STAT then (shtStatView s, s)
  else if a = Reg.NUC_CDATA_LO then coefReadEffect s
  else if a = Reg.FAB_CLAIM_GPIO then (claimGpioView s, s)
  else if a = Reg.FAB_CLAIM_MISC then (claimMiscView s, s)
  else if a = Reg.FAB_CLAIM_Q then (claimQView s, s)
  else if a = Reg.EJ_STAT then (ejStatView s, s)
  else if a = Reg.LOOP_STAT then (loopStatView s, s)
  else if a = Reg.FW_PROB_LEFT then (BitVec.ofNat 32 (probLeft s), s)
  else if a = Reg.ERR_IRQ_PEND0 then (BitVec.ofNat 32 (irqPend0 s), s)
  else if a = Reg.ERR_IRQ_PEND1 then (BitVec.ofNat 32 (irqPend1 s), s)
  else if a = Reg.SVC_UPTIME then (BitVec.ofNat 32 (s.svc.ticks / ticksPerSecond), s)
  else if a = Reg.SVC_TJ ∨ a = Reg.SVC_VIN then freeReg s 16
  else match regIdx a (Reg.Q_STAT 0) 4 24 with
    | some q => if h : q < 24 then qStatRead s ⟨q, h⟩ else plainRead s a
    | none => match regIdx a (Reg.EJ_PART 0) 4 8 with
      | some k => (partView s k, s)
      | none => plainRead s a

/-- Reads of the Pavane blocks that are computed or have an effect of their own. -/
def pavaneRead (s : State) (a : Nat) : Word × State :=
  if a = Reg.PAV_LC then (lcView s, s)
  else if a = Reg.PAV_CNT_LO then cntLoRead s
  else if a = Reg.KEY_SLOT_ATTR then (slotAttrView s, s)
  else if a = Reg.ACS_STAT then (acsStatView s, s)
  else match regIdx a (Reg.KEY_PUB 0) 4 24 with
    | some i => (keyPubView s i, s)
    | none => match regIdx a (Reg.KEY_CLR_DATA 0) 4 16 with
      | some _ => (0, s)
      | none => plainRead s a

/-- A read of one register word by a master: its value, and what the read itself changes. -/
def regRead (s : State) (m : Master) (a : Nat) : Word × State :=
  if a < 0x50000000 then periphRead s m a else pavaneRead s a

/-! ## Writes -/

/-- FRL_CTRL: a port that is disabled stops: an UP port goes DOWN (R336), a training one returns to DOWN. -/
def frlCtrlEffect (s : State) (v : Word) : State :=
  (List.range 2).foldl (fun t p =>
    if bitOf v p then t
    else if frlUp t p then portDown t p
    else if frlState t p = 1 ∨ frlState t p = 3 then setFrlState t p 0
    else t) (fieldWrite s Reg.FRL_CTRL v)

/-- A write to NUC_TAU_FP is ignored while the front end runs (R200). -/
def tauFpEffect (s : State) (v : Word) : State := if s.feRunning then s else fieldWrite s Reg.NUC_TAU_FP v

/-- The write of a register array's element. -/
def arrayWrite (a base stride count : Nat) (f : Nat → State) (other : State) : State :=
  match regIdx a base stride count with
  | some k => f k
  | none => other

/-- System control, clock, reset, MRAM, queue and gate blocks. -/
def systemWrite (s : State) (m : Master) (a : Nat) (v : Word) : State :=
  if a = Reg.SYS_GPIO_DIR ∨ a = Reg.SYS_GPIO_OUT then gpioDriveWrite a s v
  else if a = Reg.SYS_GPIO_IRQ_CFG then gpioWrite a 2 s v
  else if a = Reg.SYS_GPIO_IRQ_STAT then gpioWrite a 1 s v
  else if a = Reg.SYS_PAVMB_REQ then mailboxEffect s v
  else if a = Reg.CLK_CT_CTRL then ctCtrlEffect s v
  else if a = Reg.RST_DEVICE then softResetEffect s v
  else if a = Reg.RST_CCRESTART then ccRestartEffect s v
  else if a = Reg.RST_WDOG_KICK then kickEffect s v
  else if a = Reg.Q_DROP then qDropPort s v
  else if isRuleReg a then ruleWrite m a s v
  else arrayWrite a (Reg.SYS_TMR_CTRL 0) 16 8 (fun k => timerCtrlEffect k s v)
    (arrayWrite a (Reg.SYS_TMR_LO 0) 16 8 (fun k => timerTimeEffect k a s v)
      (arrayWrite a (Reg.SYS_TMR_HI 0) 16 8 (fun k => timerTimeEffect k a s v) (fieldWrite s a v)))

/-- Front end, shutter, pipeline, integrator, visible channel. -/
def pathWrite (s : State) (a : Nat) (v : Word) : State :=
  if a = Reg.BFE_CTRL then feCtrlFull s v
  else if feConfigRegs.contains a then feConfigTau a s v
  else if a = Reg.BFE_OUT then feOutEffect s v
  else if a = Reg.BFE_FPT_CFG then fptCfgEffect s v
  else if a = Reg.SHT_CMD then shtCmdEffect s v
  else if a = Reg.NUC_CDATA_LO then coefWriteEffect s v
  else if a = Reg.NUC_SETSEL then setselEffect s v
  else if a = Reg.NUC_TAU_FP then tauFpEffect s v
  else if a = Reg.TDI_CTRL then tdiCtrlEffect s v
  else if a = Reg.VIS_CTRL then visCtrlEffect s v
  else if a = Reg.VIS_FMT ∨ a = Reg.VIS_LINE then visFormatEffect a s v
  else if a = Reg.VIS_SWAP then visSwapEffect s v
  else if a = Reg.VIS_TRIG then visTrigEffect s v
  else if isVisReg a then visRegEffect a s v
  else arrayWrite a (Reg.BFE_BIAS 0) 4 6 (fun n => if h : n < 6 then biasEffect ⟨n, h⟩ s v else s) (fieldWrite s a v)

/-- Ejection, Farandole, loops, firmware and the error controller. -/
def outerWrite (s : State) (m : Master) (a : Nat) (v : Word) : State :=
  if a = Reg.EJ_CTRL then ejCtrlEffect s v
  else if a = Reg.FRL_CTRL then frlCtrlEffect s v
  else if a = Reg.LOOP_CTRL 0 then loopCtrlEffect 0 s v
  else if a = Reg.LOOP_CTRL 1 then loopCtrlEffect 1 s v
  else if a = Reg.FW_READY then fwReadyEffect s v
  else if a = Reg.FW_CONFIRM then fwConfirmEffect s v
  else if a = Reg.ERR_DONE then errDoneEffect m s v
  else if a = Reg.ERR_SAFE_REQ then safeReqEffect s v
  else arrayWrite a (Reg.EJ_PCFG 0) 0x40 4 (fun n => ejCfgEffect n s v) (fieldWrite s a v)

/-- The Pavane blocks, with the precise error of a refused submission (R444). -/
def pavaneWrite (s : State) (a : Nat) (v : Word) : Half × State :=
  if a = Reg.DIG_SUBMIT then submitEffect 0 s v
  else if a = Reg.CIP_SUBMIT then submitEffect 1 s v
  else if a = Reg.PKA_SUBMIT then submitEffect 2 s v
  else if a = Reg.PAV_CLKCFG then (0, spreadEffect s v)
  else if a = Reg.PAV_CNT_ADD then (0, cntAddEffect s v)
  else if a = Reg.PAV_DBG_CLOSE then (0, dbgCloseEffect s v)
  else if a = Reg.KEY_CMD then (0, keyCmdEffect s v)
  else (0, arrayWrite a (Reg.KEY_CLR_DATA 0) 4 16 (fun _ => s.wr a v) (fieldWrite s a v))

/-- A write to MRAM_CLR (R124): its precise error and its effect. -/
def clrEffect (s : State) (m : Master) (v : Word) : Half × State :=
  let t := clearCommand s m (fld v 31 30) (fld v 10 0)
  match t.out with
  | .busResp _ _ e :: r => (e, t.modOut fun _ => r)
  | _ => (0, t)

/-- The effect of one permitted register write, with its precise error. -/
def regEffect (s : State) (m : Master) (a : Nat) (v : Word) : Half × State :=
  if 0x50000000 ≤ a then pavaneWrite s a v
  else if a = Reg.MRAM_CLR then clrEffect s m v
  else if a < 0x40070000 then (0, systemWrite s m a v)
  else if a < 0x400D0000 then (0, pathWrite s a v)
  else (0, outerWrite s m a v)

/-! ## Whole accesses (R577) -/

/-- Consecutive register reads (R577). -/
def regReads (m : Master) : Nat → Nat → State → List Byte × State
  | 0, _, s => ([], s)
  | n + 1, a, s =>
    let (v, s1) := regRead s m a
    let (d, s2) := regReads m n (a + 4) s1
    (bytesLE 4 v.toNat ++ d, s2)

/-- Consecutive register writes (R577); the first precise error is the access's. -/
def regWrites (m : Master) : Nat → Nat → List Byte → State → Half × State
  | 0, _, _, s => (0, s)
  | n + 1, a, d, s =>
    let (c, s1) := regEffect s m a (wordLE d)
    let (c', s2) := regWrites m n (a + 4) (d.drop 4) s1
    (if c = 0 then c' else c, s2)

/-- Whether an address lies in a register block (R577). -/
def isRegBlock (a : Nat) : Bool :=
  (decide (0x40000000 ≤ a) && decide (a < 0x40170000)) || (decide (0x50000000 ≤ a) && decide (a < 0x50060000))

/-- Whether a register access has a size and an alignment of whole words (R577): 4 bytes at a multiple of 4, 8 bytes at a multiple
of 8, or a DMA burst of whole words. -/
def regAligned (m : Master) (a len : Nat) : Bool :=
  a % 4 == 0 && len % 4 == 0 && len != 0 &&
    (len == 4 || (len == 8 && a % 8 == 0) || (match m with | .cc => false | .dbg => false | _ => true))

/-- A register access is performed on no register (R577): the precise error, or the imprecise notice of a posted write. -/
def regMisaligned (s : State) (acc : Access) : State :=
  if acc.write && postedWrite acc.master acc.addr then (impreciseNotice s acc Err.REG_ACCESS (BitVec.ofNat 8 (acc.addr / 0x10000))).resp acc.master []
  else s.resp acc.master (if acc.write then [] else List.replicate acc.len 0) Err.REG_ACCESS

/-- The words of a register read one by one; a read of GATE_SYNC that may not return yet holds the whole access (R159, R577). -/
def readWords (m : Master) : List Nat → List Byte → State → State
  | [], got, s => s.resp m got
  | a :: r, got, s =>
    if a = Reg.GATE_SYNC ∧ syncBlocked s s.gate.mark = true then
      s.modGate fun g => { g with waits := g.waits ++ [{ master := m, mark := g.mark, rest := a :: r, got := got }] }
    else
      let (v, t) := regRead s m a
      readWords m r (got ++ bytesLE 4 v.toNat) t

/-- A register read of some bytes by a master, through its gate. -/
def readAccess (s : State) (m : Master) (a len : Nat) : State :=
  if !canAccess s m then s
  else
    let acc : Access := { master := m, write := false, addr := a, len := len }
    gated (flushPairs s m a) acc fun s =>
      if !isRegBlock a then s.resp m (List.replicate len 0)
      else if regAligned m a len then readWords m ((List.range (len / 4)).map fun i => a + 4 * i) [] s
      else regMisaligned s acc

/-- A register write of some bytes by a master, through its gate. -/
def writeAccess (s : State) (m : Master) (a : Nat) (data : List Byte) : State :=
  if !canAccess s m then s
  else
    let acc : Access := { master := m, write := true, addr := a, len := data.length }
    gated (flushPairs s m a) acc fun s =>
      if !isRegBlock a then s.resp m []
      else if regAligned m a data.length then
        let (c, t) := regWrites m (data.length / 4) a data s
        t.resp m [] (if postedWrite m a then 0 else c)
      else regMisaligned s acc

/-- REGISTER_WRITE (R6, R577, R578): a write to a register block; each word has the effect of a single write to its register. -/
def execRegisterWrite (m : Master) (addr : Word) (data : List Byte) (s : State) : Host.Outcome State Fault Refusal :=
  .next (whenLive s fun s => writeAccess s m addr.toNat data)

/-- READ_CLEAR (R6, R577): a read of a register block; RC fields are cleared by it. -/
def execReadClear (m : Master) (addr : Word) (len : Nat) (s : State) : Host.Outcome State Fault Refusal :=
  .next (whenLive s fun s => readAccess s m addr.toNat len)

/-- Q_DROP (R136): a write to Q_DROP. -/
def execQDrop (m : Master) (v : Word) (s : State) : Host.Outcome State Fault Refusal := writeRow m Reg.Q_DROP v qDropPort s

/-! ## GATE_SYNC (R159, R160) -/

/-- GATE_SYNC (R157, R159): a read of GATE_SYNC. -/
def execGateSync (m : Master) (s : State) : Host.Outcome State Fault Refusal :=
  .next (whenLive s fun s => readAccess s m Reg.GATE_SYNC 4)

/-- A waiting read goes on with the present GEN. -/
def syncReturn (s : State) (w : SyncWait) : State :=
  readWords w.master w.rest.tail (w.got ++ genBytes s) (s.modGate fun g => { g with waits := g.waits.erase w })

/-- GATE_SYNC_RETURN (R159): the first waiting read whose accesses have completed returns. -/
def execGateSyncReturn (s : State) : Host.Outcome State Fault Refusal :=
  .next (whenLive s fun s =>
    match s.gate.waits.find? fun w => !syncBlocked s w.mark with
    | some w => syncReturn s w
    | none => s)

/-- GATE_SYNC_TIMEOUT (R160): a read has waited 10 ms; it completes with 0x2005 and the present GEN. -/
def execGateSyncTimeout (m : Master) (s : State) : Host.Outcome State Fault Refusal :=
  .next (whenLive s fun s =>
    match s.gate.waits.find? fun w => decide (w.master = m) with
    | some w =>
      let t := s.modGate fun g => { g with waits := g.waits.erase w }
      let (d, u) := regReads m (w.rest.length - 1) (w.rest.headD 0 + 4) t
      u.resp m (w.got ++ genBytes s ++ d) Err.GATE_SYNC_TIMEOUT
    | none => s)

/-! ## DMA -/

/-- A DMA read by a master: data, precise error, state. -/
def busRead (s0 : State) (acc : Access) : List Byte × Half × State :=
  let s := flushPairs s0 acc.master acc.addr
  let zeros := List.replicate acc.len 0
  match gateRefusal s acc with
  | some c => (zeros, c, refuseAccess s acc c)
  | none =>
    let a := acc.addr
    if isSram a then sramRead s [] a acc.len
    else if gateOf a = 0 then ((List.range acc.len).map fun i => Config.romByte (a + i), 0, s)
    else if gateOf a = 2 then
      let (d, e, s1) := mramReadWords s [] (a / 8 * 8) (wordSpan a acc.len)
      ((d.drop (a % 8)).take acc.len, e, s1)
    else if gateOf a = 6 then
      (if cellMemRefused s false a acc.len then (zeros, Err.FAB_PRIVATE, s) else (s.bytesAt a acc.len, 0, s))
    else if isRegBlock a then
      if regAligned acc.master a acc.len then
        let (d, s1) := regReads acc.master (acc.len / 4) a s
        (d, 0, s1)
      else (zeros, Err.REG_ACCESS, s)
    else (zeros, 0, s)

/-- A DMA write by a master, performed at once: precise error, state. -/
def busWrite (s0 : State) (acc : Access) (data : List Byte) : Half × State :=
  let s := flushPairs s0 acc.master acc.addr
  match gateRefusal s acc with
  | some c => (c, refuseAccess s acc c)
  | none =>
    let a := acc.addr
    if isSram a then
      let (bad, s1) := sramWriteWords s [] (wordSpan a data.length) a data
      (if bad.isSome then Err.MEM_WR_POISON else 0, s1)
    else if gateOf a = 2 then
      match mramWriteRefusal s a data.length with
      | some c => (c, s)
      | none => (0, (mramStoreBytes s a data).2)
    else if gateOf a = 6 then
      (if cellMemRefused s true a data.length then (Err.FAB_PRIVATE, s) else (0, s.setBytes a data))
    else if isRegBlock a then
      if regAligned acc.master a data.length then regWrites acc.master (data.length / 4) a data s else (Err.REG_ACCESS, s)
    else (0, s)

end Sys2Proof.Machine
end

