-- ==== Sys2Proof/Machine/Engines.lean ====
section
/-! DEFINITION. The operations of the digest, cipher and public-key engines (R446–R467). -/

namespace Sys2Proof.Machine

/-! ## Descriptors (R447) -/

/-- A descriptor as its engine reads it. -/
structure EngDesc where
  ctrl : Word
  key : Word
  src : Nat
  srcLen : Nat
  dst : Nat
  outLen : Nat
  aux : Nat
  aux2 : Nat
  aux2Len : Nat
  tag : Nat
  decl : Nat
  destSlot : Nat
  destAttr : Word
  deriving DecidableEq, Repr

/-- The fields of a descriptor's 64 bytes. -/
def descOf (l : List Byte) : EngDesc :=
  { ctrl := BitVec.ofNat 32 (numAt l 0 4), key := BitVec.ofNat 32 (numAt l 4 4), src := numAt l 8 4, srcLen := numAt l 12 4,
    dst := numAt l 16 4, outLen := numAt l 20 4, aux := numAt l 24 4, aux2 := numAt l 28 4, aux2Len := numAt l 32 4,
    tag := numAt l 36 4, decl := numAt l 40 4, destSlot := numAt l 44 4, destAttr := BitVec.ofNat 32 (numAt l 48 4) }

def EngDesc.op (d : EngDesc) : Nat := fld d.ctrl 7 0
def EngDesc.first (d : EngDesc) : Bool := bitOf d.ctrl 8
def EngDesc.last (d : EngDesc) : Bool := bitOf d.ctrl 9
def EngDesc.save (d : EngDesc) : Bool := bitOf d.ctrl 10
def EngDesc.restore (d : EngDesc) : Bool := bitOf d.ctrl 11
def EngDesc.dest (d : EngDesc) : Nat := fld d.ctrl 13 12
def EngDesc.secure (d : EngDesc) : Bool := bitOf d.ctrl 15
def EngDesc.slot (d : EngDesc) : Nat := fld d.key 8 0

/-- Compare and verify codes (R455). -/
def codePass : Word := 0xC3A55A3C
def codeFail : Word := 0x3C5AA5C3

/-! ## DMA (R446) -/

/-- A DMA read of an engine: none where nothing is read. -/
def engRead (s : State) (d : EngDesc) (a len : Nat) : List Byte × Half × State :=
  if len = 0 then ([], 0, s)
  else busRead s { master := .en, write := false, addr := a, len := len, normal := !d.secure }

/-- A DMA write of an engine. -/
def engWrite (s : State) (d : EngDesc) (a : Nat) (data : List Byte) : Half × State :=
  if data.isEmpty then (0, s)
  else busWrite s { master := .en, write := true, addr := a, len := data.length, normal := !d.secure } data

/-- The result of a step of an operation: it ends with an outcome, or goes on with a value. -/
inductive EngStep (α : Type) where
  | stop (o : EngOut) (s : State)
  | more (x : α) (s : State)

/-- Continues an operation that has not ended. -/
def EngStep.andThen {α : Type} (r : EngStep α) (f : α → State → EngOut × State) : EngOut × State :=
  match r with
  | .stop o s => (o, s)
  | .more x s => f x s

/-- A DMA read whose error ends the descriptor with 0xB003. -/
def engGet (s : State) (d : EngDesc) (a len : Nat) (trunc : Bool := false) : EngStep (List Byte) :=
  let (l, e, s1) := engRead s d a len
  if e = 0 then .more l s1 else .stop { code := Err.ENG_DMA, detail := e, trunc := trunc } s1

/-- A DMA write whose error ends the descriptor with 0xB003. -/
def engPut (s : State) (d : EngDesc) (a : Nat) (l : List Byte) (trunc : Bool := false) : EngStep Unit :=
  let (e, s1) := engWrite s d a l
  if e = 0 then .more () s1 else .stop { code := Err.ENG_DMA, detail := e, trunc := trunc } s1

/-- A condition whose breach ends the descriptor with a code. -/
def engNeed (s : State) (c : Bool) (code : Half) : EngStep Unit := if c then .more () s else .stop { code := code } s

/-- The check of the KEY slot (R426, R448): its material. -/
def engKey (s : State) (d : EngDesc) (n : Nat) (kinds uses : List Nat) : EngStep (List Byte) :=
  let (c, s1) := useSlot s n kinds uses 20 d.secure
  if c = 0 then .more (s1.slot n).key s1 else .stop { code := c } s1

/-! ## Destinations (R449, R454, R455) -/

/-- The material that a slot of the attribute's TYPE takes from an output (R449). -/
def slotMaterial (attr : Word) (outLen : Nat) (l : List Byte) : Option (List Byte) :=
  let n := match fld attr 19 16 with
    | 1 => 16 | 2 => 24 | 3 => 32 | 4 => outLen | 5 => 32 | 6 => 48 | 7 => 64 | 8 => 96 | _ => l.length
  if n ≤ l.length then some (l.take n) else none

/-- A destination slot must be free (R449). -/
def engSlotFree (s : State) (d : EngDesc) : EngStep Unit :=
  if (s.slot d.destSlot).valid then
    .stop { code := Err.KEY_SLOT_BUSY } (raise s Err.KEY_SLOT_BUSY (pavSrc 1) (BitVec.ofNat 64 d.destSlot))
  else .more () s

/-- The digest registers hold a result (R454). -/
def setResult (s : State) (l : List Byte) : State :=
  ((List.range 16).foldl (fun t i => t.wr (Reg.DIG_RESULT i) (wordLE (slice l (4 * i) 4))) s).modEng fun e =>
    { e with resLen := l.length }

/-- The digest registers read zero. -/
def clearResult (s : State) : State := (setResult s [])

/-- The comparison of an output with the pair at AUX_ADDR (R455). -/
def engCompare (s : State) (d : EngDesc) (out : List Byte) (src : Byte) : EngOut × State :=
  let n := out.length
  (engGet s d d.aux (2 * n)).andThen fun l s =>
    let e := l.take n
    let c := l.drop n
    if c ≠ e.map (~~~ ·) then ({ code := Err.ENG_EXPECT_BAD }, raise s Err.ENG_EXPECT_BAD src)
    else ({ code := 0, result := if out = e ∧ out.map (~~~ ·) = c then codePass else codeFail }, s)

/-- Delivers a result to its destination: memory, registers, a slot or a comparison. -/
def engDeliver (s : State) (d : EngDesc) (out : List Byte) (count : Nat) (src : Byte) (trunc : Bool) : EngOut × State :=
  let done : EngOut := { code := 0, result := BitVec.ofNat 32 count }
  match d.dest with
  | 0 => (engPut s d d.dst out trunc).andThen fun _ s => (done, s)
  | 1 => (done, setResult s out)
  | 2 => (engSlotFree s d).andThen fun _ s =>
    match slotMaterial d.destAttr d.outLen out with
    | some k => (done, fillKey s d.destSlot d.destAttr false d.slot k)
    | none => ({ code := Err.ENG_DESC_BAD }, s)
  | _ => engCompare s d out src

/-! ## Digest engine (R450–R457) -/

/-- The hash function of an operation, and whether it is an HMAC. -/
def digAlg (op : Nat) : HashAlg := if op % 16 = 1 then .sha256 else if op % 16 = 2 then .sha384 else .sha512
def digKeyed (op : Nat) : Bool := decide (0x10 ≤ op)
def digOutSize (op : Nat) : Nat := if op % 16 = 1 then 32 else if op % 16 = 2 then 48 else 64

/-- The fields of a digest descriptor lie in their ranges, and those it does not use are 0. -/
def digFieldsOk (d : EngDesc) : Bool :=
  let keyed := digKeyed d.op
  fld d.ctrl 31 16 == 0 && !bitOf d.ctrl 14 && !(d.first && d.restore) && !(d.save && d.last) &&
    (if keyed then decide (d.key.toNat < 320) else d.key == 0) &&
    d.aux2 == 0 && d.aux2Len == 0 && d.tag == 0 && decide (d.destSlot < 320) &&
    (!d.last || (d.outLen % 4 == 0 && decide (4 ≤ d.outLen) && decide (d.outLen ≤ digOutSize d.op))) &&
    (!(d.save || d.restore) || (decide (enclaveBase ≤ d.aux) && decide (d.aux + 256 ≤ 0x500C0000)))

/-- The job ends without a result. -/
def endDig (s : State) : State := (clearResult s).modEng fun e => { e with dig := none }

/-- An outcome that ends the job. -/
def failDig (r : EngOut × State) : EngOut × State := if r.1.code = 0 then r else (r.1, endDig r.2)

/-- USE bits of which an HMAC key needs one (R453). -/
def digUses (d : EngDesc) : List Nat :=
  if !d.last then [13, 14, 15] else match d.dest with
    | 2 => [15]
    | 3 => [13, 14]
    | _ => [13]

/-- The sealed state of an open job is written to AUX_ADDR (R456). -/
def saveDig (s : State) (d : EngDesc) (j : DigJob) (r : EngOut) : EngOut × State :=
  let (l, s1) := s.drawBytes 252
  let blob := bytesLE 4 s1.eng.gen.toNat ++ l
  (engPut s1 d d.aux blob).andThen fun _ s => (r, s.modEng fun e => { e with saved := (blob, j) :: e.saved })

/-- The segment of a job: its bytes, and the result where it is the last. -/
def runSegment (s : State) (d : EngDesc) (j : DigJob) (key : List Byte) : EngOut × State :=
  let count := j.count + d.srcLen
  if j.decl < count then ({ code := Err.DIG_LENGTH }, endDig s)
  else if d.last ∧ d.dest = 2 ∧ !digKeyed d.op then ({ code := Err.ENG_DEST }, endDig s)
  else failDig <| (engGet s d d.src d.srcLen true).andThen fun l s =>
    let j1 := { j with count := count, msg := j.msg ++ l }
    let s1 := s.modEng fun e => { e with dig := some j1 }
    if !d.last then
      let r : EngOut := { code := 0, result := BitVec.ofNat 32 count }
      if d.save then saveDig s1 d j1 r else (r, s1)
    else if count < j.decl then ({ code := Err.DIG_LENGTH, trunc := true }, s1)
    else
      let full := if digKeyed d.op then hmac (digAlg d.op) key j1.msg else hashOf (digAlg d.op) j1.msg
      engDeliver (s1.modEng fun e => { e with dig := none }) d (full.take d.outLen) count (pavSrc 2) true

/-- Finds the job of a saved state (R457). -/
def restoreJob (s : State) (d : EngDesc) : EngStep DigJob :=
  let (l, e, s1) := engRead s d d.aux 256
  if e ≠ 0 then .stop { code := Err.ENG_DMA, detail := e, trunc := true } s1
  else if numAt l 0 4 ≠ s1.eng.gen.toNat then .stop { code := Err.DIG_STATE_STALE } (raise s1 Err.DIG_STATE_STALE (pavSrc 2))
  else
    let forged := EngStep.stop (α := DigJob) { code := Err.DIG_STATE_AUTH } (raise s1 Err.DIG_STATE_AUTH (pavSrc 2))
    match s1.eng.saved.find? fun e => e.1 == l with
    | none => forged
    | some (_, j) =>
      if j.secure ≠ d.secure then forged
      else if digKeyed j.op ∧ (!(s1.slot j.slot).valid ∨ (s1.slot j.slot).tag ≠ j.tag) then .stop { code := Err.KEY_SLOT_INVALID } s1
      else .more j s1

/-- The key of a digest descriptor; empty for a plain hash. -/
def digKey (s : State) (d : EngDesc) : EngStep (List Byte) :=
  if digKeyed d.op then engKey s d d.slot [4] (digUses d) else .more [] s

/-- A digest descriptor runs (R450–R457). -/
def runDigest (d : EngDesc) (s : State) : EngOut × State :=
  if !digFieldsOk d then ({ code := Err.ENG_DESC_BAD }, s)
  else if d.first then
    failDig <| (digKey (endDig s) d).andThen fun key s =>
      runSegment s d { op := d.op, decl := d.decl, secure := d.secure, slot := d.slot, tag := (s.slot d.slot).tag, key := key } key
  else if d.restore then
    failDig <| (restoreJob (endDig s) d).andThen fun j s =>
      (digKey s d).andThen fun key s =>
        if j.op = d.op ∧ j.slot = d.slot then runSegment s d j key else ({ code := Err.ENG_DESC_BAD }, s)
  else match s.eng.dig with
    | none => ({ code := Err.DIG_NO_JOB }, s)
    | some j =>
      if j.op = d.op ∧ j.slot = d.slot ∧ j.secure = d.secure then
        failDig <| (digKey s d).andThen fun key s => runSegment s d j key
      else ({ code := Err.ENG_DESC_BAD }, s)

/-! ## Cipher engine (R458–R460) -/

/-- The fields of a cipher descriptor lie in their ranges, and those its operation does not use are 0. -/
def cipFieldsOk (d : EngDesc) : Bool :=
  let op := d.op
  let mode := decide (3 ≤ op) && decide (op ≤ 8)
  let gcm := op == 6 || op == 7
  fld d.ctrl 31 16 == 0 && !bitOf d.ctrl 14 && fld d.ctrl 11 10 == 0 && d.decl == 0 &&
    fld d.key 15 9 == 0 && fld d.key 31 25 == 0 && decide (d.slot < 320) &&
    (if op == 9 then decide (fld d.key 24 16 < 320) else fld d.key 24 16 == 0) &&
    (op != 9 || (d.src == 0 && d.srcLen == 0)) &&
    (op == 8 || op == 10 || d.outLen == 0) && (mode || d.aux == 0) &&
    (gcm || (d.aux2 == 0 && d.aux2Len == 0 && d.tag == 0)) && decide (d.aux2Len < 65536) &&
    (if op == 10 then decide (d.destSlot < 320) else d.destSlot == 0 && d.destAttr == 0) &&
    (op != 10 || d.dst == 0) && (!(op == 1 || op == 2) || (d.first && d.last))

/-- The destinations an operation allows. -/
def cipDestOk (d : EngDesc) : Bool :=
  if d.op = 8 then d.dest != 2 else if d.op = 10 then d.dest == 2 else d.dest == 0

/-- The lengths an operation allows. -/
def cipLenOk (d : EngDesc) (count : Nat) : Bool :=
  decide (count ≤ 16777216) &&
  (match d.op with
   | 1 | 2 | 3 | 4 => d.srcLen % 16 == 0
   | 5 | 6 | 7 => d.last || d.srcLen % 16 == 0
   | 8 => (d.last || d.srcLen % 16 == 0) && (!d.last || (decide (8 ≤ d.outLen) && decide (d.outLen ≤ 16)))
   | 10 => decide (24 ≤ d.srcLen) && decide (d.srcLen ≤ 72) && d.srcLen % 8 == 0
   | _ => true)

/-- The USE bits of which the key of an operation needs one. -/
def cipUses (d : EngDesc) : List Nat :=
  match d.op with
  | 1 | 3 | 5 | 6 => [9]
  | 2 | 4 | 7 => [10]
  | 8 => if d.last && d.dest == 3 then [13, 14] else if d.last then [13] else [13, 14]
  | 9 => [11]
  | _ => [12]

/-- The job ends. -/
def endCip (s : State) : State := s.modEng fun e => { e with cip := none }

/-- A fault of the datapaths (R460): the destination of the segment is zeroed, the job ends, 0xB030 is raised and counted. -/
def engFault (s : State) (e : Nat) (d : EngDesc) (len : Nat) : EngOut × State :=
  let s1 := (engWrite s d d.dst (List.replicate len 0)).2
  let s2 := raise (endCip s1) Err.ENG_FAULT (pavSrc (e + 2))
  ({ code := Err.ENG_FAULT, withheld := true }, s2.bump (engBase e + 16) 15 0)

/-- How many bytes an operation writes at DST_ADDR for a segment. -/
def cipDstLen (s : State) (d : EngDesc) : Nat :=
  match d.op with
  | 8 => if d.last ∧ d.dest = 0 then d.outLen else 0
  | 9 => (s.slot (fld d.key 24 16)).key.length + 8
  | 10 => 0
  | _ => d.srcLen

/-- An outcome that ends a cipher job; also where the descriptor is its last. -/
def closeCip (d : EngDesc) (r : EngOut × State) : EngOut × State :=
  if r.1.code ≠ 0 ∨ d.last then (r.1, endCip r.2) else r

/-- The segment of a job in a mode of operation, its input read (R458, R459). -/
def cipSegment (s : State) (d : EngDesc) (j : CipJob) (key l : List Byte) : EngOut × State :=
  let count := j.count + l.length
  let done : EngOut := { code := 0, result := BitVec.ofNat 32 count }
  let keep := fun (s : State) (j : CipJob) => s.modEng fun e => { e with cip := some { j with count := count } }
  let put := fun (s : State) (out : List Byte) (j : CipJob) =>
    (engPut s d d.dst out).andThen fun _ s => (done, keep s j)
  let nblk := (l.length + 15) / 16
  match d.op with
  | 1 => put s (ecbEncrypt key l) j
  | 2 => put s (ecbDecrypt key l) j
  | 3 => let (o, iv) := cbcEncBlocks key (blocks16 l) j.iv; put s o { j with iv := iv }
  | 4 => let (o, iv) := cbcDecBlocks key (blocks16 l) j.iv; put s o { j with iv := iv }
  | 5 => put s (ctrCrypt key j.iv l) { j with iv := ctrAdd j.iv nblk }
  | 6 =>
    let o := ctrCrypt key j.iv l
    let j1 := { j with iv := ctrAdd j.iv nblk, data := j.data ++ o }
    let (r, s1) := put s o j1
    if r.code = 0 ∧ d.last then (engPut s1 d d.tag (gcmTag key j.iv0 j.aad j1.data)).andThen fun _ s => (r, s) else (r, s1)
  | 7 =>
    let j1 := { j with iv := ctrAdd j.iv nblk, data := j.data ++ l }
    let (r, s1) := put s (ctrCrypt key j.iv l) j1
    if r.code = 0 ∧ d.last then
      (engGet s1 d d.tag 16).andThen fun t s =>
        if t = gcmTag key j.iv0 j.aad j1.data then (r, s)
        else ({ code := Err.CIP_TAG_FAIL, withheld := true }, (engWrite s d d.dst (List.replicate l.length 0)).2)
    else (r, s1)
  | _ =>
    let j1 := { j with data := j.data ++ l }
    if d.last then engDeliver (keep s j1) d ((cmac key j1.data).take d.outLen) count (pavSrc 3) false else (done, keep s j1)

/-- The blocks of a CTR or GCM segment would carry out of the low 32 bits of the counter. -/
def ctrWraps (d : EngDesc) (j : CipJob) : Bool :=
  (d.op == 5 || d.op == 6 || d.op == 7) && decide (2 ^ 32 < natBE (j.iv.drop 12) + (d.srcLen + 15) / 16)

/-- The job that a FIRST descriptor opens: its IV or counter block, and additional data. -/
def openCip (s : State) (d : EngDesc) : EngStep CipJob :=
  let n := if d.op = 3 ∨ d.op = 4 ∨ d.op = 5 then 16 else if d.op = 6 ∨ d.op = 7 then 12 else 0
  let (iv, e, s1) := engRead s d d.aux n
  if e ≠ 0 then .stop { code := Err.ENG_DMA, detail := e } s1
  else
    let (aad, e2, s2) := engRead s1 d d.aux2 d.aux2Len
    if e2 ≠ 0 then .stop { code := Err.ENG_DMA, detail := e2 } s2
    else
      let iv1 := if n = 12 then iv ++ [0, 0, 0, 2] else iv
      .more { op := d.op, iv := iv1, iv0 := iv, aad := aad } s2

/-- Key wrap (R426, R458): the material of a slot with EXPORT to memory. -/
def runWrap (s : State) (d : EngDesc) (key : List Byte) : EngOut × State :=
  let n := fld d.key 24 16
  let (c, s1) := useSlot s n [1, 2, 3, 4, 5, 6, 7, 8] [] 20 d.secure
  let k := s1.slot n
  if c ≠ 0 then ({ code := c }, s1)
  else if !bitOf k.attr 29 then ({ code := Err.KEY_USE_DENIED }, s1)
  else if k.key.length % 8 ≠ 0 ∨ k.key.length < 16 ∨ 64 < k.key.length then ({ code := Err.CIP_LENGTH }, s1)
  else
    (engPut s1 d d.dst (keyWrap key k.key)).andThen fun _ s => ({ code := 0, result := BitVec.ofNat 32 k.key.length }, s)

/-- Key unwrap (R449, R458): an intact wrapped key fills a free slot. -/
def runUnwrap (s : State) (d : EngDesc) (key : List Byte) : EngOut × State :=
  (engGet s d d.src d.srcLen).andThen fun l s =>
    match keyUnwrap key l with
    | none => ({ code := Err.CIP_UNWRAP_FAIL }, s)
    | some k => engDeliver s d k d.srcLen (pavSrc 3) false

/-- A cipher descriptor runs; `fault` says that the two datapaths disagree (R458–R460). -/
def runCipher (fault : Bool) (d : EngDesc) (s : State) : EngOut × State :=
  if !cipFieldsOk d then ({ code := Err.ENG_DESC_BAD }, s)
  else if !cipDestOk d then ({ code := Err.ENG_DEST }, endCip s)
  else
    let count := if d.first then 0 else match s.eng.cip with
      | some j => j.count
      | none => 0
    if !cipLenOk d (count + d.srcLen) then ({ code := Err.CIP_LENGTH }, endCip s)
    else (engKey s d d.slot [1, 2, 3] (cipUses d)).andThen fun key s =>
      if fault then engFault s 1 d (cipDstLen s d)
      else match d.op with
      | 9 => runWrap s d key
      | 10 => runUnwrap s d key
      | _ =>
        let job : EngStep CipJob := if d.first then openCip s d else match s.eng.cip with
          | some j => if j.op = d.op then .more j s else .stop { code := Err.ENG_DESC_BAD } s
          | none => .stop { code := Err.ENG_DESC_BAD } s
        closeCip d <| job.andThen fun j s =>
          if ctrWraps d j then ({ code := Err.CIP_CTR_WRAP }, s)
          else (engGet s d d.src d.srcLen).andThen fun l s => cipSegment s d j key l

/-! ## Public-key engine (R461–R466) -/

/-- The curve of a key TYPE. -/
def kindCurve (k : Nat) : Curve := if k = 6 ∨ k = 8 then p384 else p256

/-- A secret scalar from 1 to n − 1. -/
def drawScalar (s : State) (c : Curve) : Nat × State :=
  let (l, s1) := s.drawBytes 56
  (1 + natBE l % (c.n - 1), s1)

/-- A public key as bytes is valid (R463). -/
def pkaValid (c : Curve) (key : List Byte) : Bool := ecValid c (ecPoint c key).1 (ecPoint c key).2

/-- The hash input of SIGN and VERIFY: the digest registers, or SRC_LEN bytes at SRC_ADDR. -/
def pkaHash (s : State) (d : EngDesc) : EngStep (List Byte) :=
  if bitOf d.ctrl 14 then
    if s.eng.resLen = 0 ∨ d.src ≠ 0 ∨ d.srcLen ≠ 0 then .stop { code := Err.ENG_DESC_BAD } s
    else .more (((List.range 16).flatMap fun i => bytesLE 4 (s.rd (Reg.DIG_RESULT i)).toNat).take s.eng.resLen) s
  else if d.srcLen = 32 ∨ d.srcLen = 48 ∨ d.srcLen = 64 then engGet s d d.src d.srcLen
  else .stop { code := Err.ENG_DESC_BAD } s

/-- The fields of a public-key descriptor lie in their ranges, and those its operation does not use are 0. -/
def pkaFieldsOk (d : EngDesc) : Bool :=
  let op := d.op
  let slotted := op == 1 || op == 5
  let memKey := op == 4 && d.key == 0x1FF
  fld d.ctrl 11 8 == 0 && fld d.ctrl 31 17 == 0 && d.outLen == 0 && d.aux2 == 0 && d.aux2Len == 0 && d.tag == 0 && d.decl == 0 &&
    (if op == 1 then d.key == 0 else memKey || decide (d.key.toNat < 320)) && (memKey || !bitOf d.ctrl 16) &&
    (op == 3 || op == 4 || (d.src == 0 && d.srcLen == 0 && !bitOf d.ctrl 14)) &&
    (op == 4 || op == 5 || d.aux == 0) && (op == 1 || op == 2 || op == 3 || d.dst == 0) &&
    (if slotted then decide (d.destSlot < 320) else d.destSlot == 0 && d.destAttr == 0 && d.dest == 0)

/-- KEYGEN (R462). -/
def runKeygen (d : EngDesc) (s : State) : EngOut × State :=
  let kind := fld d.destAttr 19 16
  if kind ≠ 5 ∧ kind ≠ 6 then ({ code := Err.ENG_DESC_BAD }, s)
  else (engSlotFree s d).andThen fun _ s =>
    let c := kindCurve kind
    let (x, s1) := drawScalar s c
    (engPut s1 d d.dst (ecBytes c (ecMul c x (ecBase c)))).andThen fun _ s =>
      ({ code := 0 }, fillKey s d.destSlot d.destAttr false 0x1FF (bytesBE c.len x))

/-- The private key of a descriptor: its curve and scalar. -/
def pkaPrivate (s : State) (d : EngDesc) (uses : List Nat) : EngStep (Curve × Nat) :=
  match engKey s d d.slot [5, 6] uses with
  | .stop o s => .stop o s
  | .more k s => .more (kindCurve (s.slot d.slot).kind, natBE k) s

/-- PUBLIC (R461). -/
def runPublic (d : EngDesc) (s : State) : EngOut × State :=
  (pkaPrivate s d []).andThen fun (c, x) s =>
    (engPut s d d.dst (ecBytes c (ecMul c x (ecBase c)))).andThen fun _ s => ({ code := 0 }, s)

/-- A signature of a hash with the first drawn scalar that gives one. -/
def signDraw (c : Curve) (x : Nat) (h : List Byte) : Nat → State → Option (Nat × Nat) × State
  | 0, s => (none, s)
  | n + 1, s =>
    let (k, s1) := drawScalar s c
    match ecdsaSign c x k h with
    | some r => (some r, s1)
    | none => signDraw c x h n s1

/-- SIGN (R461, R465); `fault` says that the signature does not verify. -/
def runSign (fault : Bool) (d : EngDesc) (s : State) : EngOut × State :=
  (pkaPrivate s d [13]).andThen fun (c, x) s =>
    (pkaHash s d).andThen fun h s =>
      let (sig, s1) := signDraw c x h 4 s
      match sig, fault with
      | some (r, t), false =>
        (engPut s1 d d.dst (bytesBE c.len r ++ bytesBE c.len t)).andThen fun _ s => ({ code := 0 }, s)
      | _, _ =>
        ({ code := Err.ENG_FAULT, withheld := true }, (raise s1 Err.ENG_FAULT (pavSrc 4)).bump Reg.PKA_FAULT_CNT 15 0)

/-- The public key of a VERIFY: its curve, its bytes and the address after it. -/
def pkaPublic (s : State) (d : EngDesc) : EngStep (Curve × List Byte × Nat) :=
  if d.key = 0x1FF then
    let c := if bitOf d.ctrl 16 then p384 else p256
    match engGet s d d.aux (2 * c.len) with
    | .stop o s => .stop o s
    | .more k s => .more (c, k, d.aux + 2 * c.len) s
  else match engKey s d d.slot [7, 8] [14] with
    | .stop o s => .stop o s
    | .more k s => .more (kindCurve (s.slot d.slot).kind, k, d.aux) s

/-- VERIFY (R461, R463, R466). -/
def runVerify (d : EngDesc) (s : State) : EngOut × State :=
  (pkaPublic s d).andThen fun (c, k, at') s =>
    (pkaHash s d).andThen fun h s =>
      (engGet s d at' (2 * c.len)).andThen fun sig s =>
        if !pkaValid c k then ({ code := Err.PKA_POINT, result := codeFail }, s)
        else ({ code := 0, result := if ecdsaCheck c k h sig then codePass else codeFail }, s)

/-- ECDH (R463, R464). -/
def runEcdh (d : EngDesc) (s : State) : EngOut × State :=
  if fld d.destAttr 19 16 ≠ 4 ∨ fld d.destAttr 15 9 ≠ 0x40 then ({ code := Err.ENG_DEST }, s)
  else (pkaPrivate s d [15]).andThen fun (c, x) s =>
    (engGet s d d.aux (2 * c.len)).andThen fun peer s =>
      if !pkaValid c peer then ({ code := Err.PKA_POINT }, s)
      else match ecMul c x (some (ecPoint c peer)) with
        | none => ({ code := Err.PKA_ZERO }, s)
        | some (z, _) => (engSlotFree s d).andThen fun _ s =>
          ({ code := 0 }, fillKey s d.destSlot d.destAttr false d.slot (bytesBE c.len z))

/-- A public-key descriptor runs (R461–R466). -/
def runPka (fault : Bool) (d : EngDesc) (s : State) : EngOut × State :=
  if !pkaFieldsOk d then ({ code := Err.ENG_DESC_BAD }, s)
  else if (d.op = 1 ∨ d.op = 5) ∧ d.dest ≠ 2 then ({ code := Err.ENG_DEST }, s)
  else if (d.op = 1 ∨ d.op = 3) ∧ rngFailed s then ({ code := Err.PKA_RNG }, s)
  else match d.op with
    | 1 => runKeygen d s
    | 2 => runPublic d s
    | 3 => runSign fault d s
    | 4 => runVerify d s
    | _ => runEcdh d s

/-! ## The commands -/

/-- Whether an operation must wait for the generator (R417, R462). -/
def engWaits (s : State) (e op : Nat) : Bool := e == 2 && (op == 1 || op == 3) && !rngReady s && !rngFailed s

/-- The first descriptor of engine e runs, where its operation is `op` and it has not run. -/
def engRow (e op : Nat) (run : EngDesc → State → EngOut × State) (s : State) : Host.Outcome State Fault Refusal :=
  .next <| whenLive s fun s =>
    match engQueue s e, engOut s e with
    | a :: _, none =>
      if descOp s a ≠ op ∨ engWaits s e op then s
      else
        let (l, c, s1) := sramRead s [] a 64
        let (o, s2) := if c = 0 then run (descOf l) s1 else ({ code := Err.ENG_DMA, detail := c }, s1)
        setEngOut s2 e (some o)
    | _, _ => s

/-- SHA_256 (R450–R457). -/
def execEngSha256 (s : State) : Host.Outcome State Fault Refusal := engRow 0 0x01 runDigest s

/-- SHA_384 (R450–R457). -/
def execEngSha384 (s : State) : Host.Outcome State Fault Refusal := engRow 0 0x02 runDigest s

/-- SHA_512 (R450–R457). -/
def execEngSha512 (s : State) : Host.Outcome State Fault Refusal := engRow 0 0x03 runDigest s

/-- HMAC_SHA_256 (R450–R457). -/
def execEngHmacSha256 (s : State) : Host.Outcome State Fault Refusal := engRow 0 0x11 runDigest s

/-- HMAC_SHA_384 (R450–R457). -/
def execEngHmacSha384 (s : State) : Host.Outcome State Fault Refusal := engRow 0 0x12 runDigest s

/-- HMAC_SHA_512 (R450–R457). -/
def execEngHmacSha512 (s : State) : Host.Outcome State Fault Refusal := engRow 0 0x13 runDigest s

/-- ECB_ENCRYPT (R458–R460). -/
def execEngEcbEncrypt (fault : Bool) (s : State) : Host.Outcome State Fault Refusal := engRow 1 0x01 (runCipher fault) s

/-- ECB_DECRYPT (R458–R460). -/
def execEngEcbDecrypt (fault : Bool) (s : State) : Host.Outcome State Fault Refusal := engRow 1 0x02 (runCipher fault) s

/-- CBC_ENCRYPT (R458–R460). -/
def execEngCbcEncrypt (fault : Bool) (s : State) : Host.Outcome State Fault Refusal := engRow 1 0x03 (runCipher fault) s

/-- CBC_DECRYPT (R458–R460). -/
def execEngCbcDecrypt (fault : Bool) (s : State) : Host.Outcome State Fault Refusal := engRow 1 0x04 (runCipher fault) s

/-- CTR (R458–R460). -/
def execEngCtr (fault : Bool) (s : State) : Host.Outcome State Fault Refusal := engRow 1 0x05 (runCipher fault) s

/-- GCM_ENCRYPT (R458–R460). -/
def execEngGcmEncrypt (fault : Bool) (s : State) : Host.Outcome State Fault Refusal := engRow 1 0x06 (runCipher fault) s

/-- GCM_DECRYPT (R458–R460). -/
def execEngGcmDecrypt (fault : Bool) (s : State) : Host.Outcome State Fault Refusal := engRow 1 0x07 (runCipher fault) s

/-- CMAC (R458–R460). -/
def execEngCmac (fault : Bool) (s : State) : Host.Outcome State Fault Refusal := engRow 1 0x08 (runCipher fault) s

/-- KEY_WRAP (R458–R460). -/
def execEngKeyWrap (fault : Bool) (s : State) : Host.Outcome State Fault Refusal := engRow 1 0x09 (runCipher fault) s

/-- KEY_UNWRAP (R458–R460). -/
def execEngKeyUnwrap (fault : Bool) (s : State) : Host.Outcome State Fault Refusal := engRow 1 0x0A (runCipher fault) s

/-- KEYGEN (R461–R466). -/
def execEngKeygen (s : State) : Host.Outcome State Fault Refusal := engRow 2 0x01 (runPka false) s

/-- PUBLIC (R461–R466). -/
def execEngPublic (s : State) : Host.Outcome State Fault Refusal := engRow 2 0x02 (runPka false) s

/-- SIGN (R461–R466). -/
def execEngSign (fault : Bool) (s : State) : Host.Outcome State Fault Refusal := engRow 2 0x03 (runPka fault) s

/-- VERIFY (R461–R466). -/
def execEngVerify (s : State) : Host.Outcome State Fault Refusal := engRow 2 0x04 (runPka false) s

/-- ECDH (R461–R466). -/
def execEngEcdh (s : State) : Host.Outcome State Fault Refusal := engRow 2 0x05 (runPka false) s

end Sys2Proof.Machine
end

