-- ==== Sys2Proof/Machine/LaneCmd.lean ====
section
/-! DEFINITION. The commands that name a lane, as the device of that lane carries them out: for the machine link's manager on its
own lane and for a worker that the manager has asked (R381–R385, R540). -/

namespace Sys2Proof.Machine

/-- An answer given at once, or none where it comes later through the command's ReplyTo; and the state. -/
abbrev LaneAns := Option (Half × List Byte) × State

/-- An answer given at once. -/
def answerNow (x : Half × List Byte × State) : LaneAns := (some (x.1, x.2.1), x.2.2)

/-! ## DIAG_READ (R383) -/

/-- Words read one by one as CC through the lane's gates; a gate refusal, or an address that is not a multiple of 4 (R577), ends
the command with that STATUS. -/
def diagWords : Nat → Nat → State → Half × List Byte × State
  | 0, _, s => (0, [], s)
  | n + 1, a, s =>
    let acc : Access := { master := .cc, write := false, addr := a, len := 4 }
    match gateRefusal s acc with
    | some c => (c, [], refuseAccess s acc c)
    | none =>
      if a % 4 ≠ 0 then (Err.REG_ACCESS, [], s)
      else
        let (v, t) := regRead (flushPairs s .cc a) .cc a
        let (c, d, u) := diagWords n (a + 4) t
        (c, if c = 0 then bytesLE 4 v.toNat ++ d else [], u)

/-- DIAG_READ on its device. -/
def laneDiagRead (b : List Byte) (s : State) : Half × List Byte × State := diagWords (numAt b 4 2) (numAt b 0 4) s

/-! ## RESET_DEVICE (R383) -/

/-- The device resets once the response has left: at once, or when no frame of its own waits at a port any more. -/
def resetSoon (s : State) : State :=
  if (s.frl 0).loc.isEmpty && (s.frl 1).loc.isEmpty then deviceReset s 3 else s.modRst fun r => { r with due := true }

/-! ## SERVICE_FIRE (R383, R312) -/

/-- The service partition that takes a command: the lowest with room, else the lowest (log 66). -/
def servicePart (s : State) : Option Nat :=
  let l := (List.range 8).filter fun k => s.rdb Reg.EJ_CTRL (8 + k)
  match l.find? fun k => decide (partCount s k < 128) with
  | some k => some k
  | none => l.head?

/-- SERVICE_FIRE on its device: checks 3 and 5 to 7 of R309 with T_ON as given. -/
def laneServiceFire (b : List Byte) (s : State) : Half × List Byte × State :=
  let n := numAt b 0 1
  let done (x : Half × State) : Half × List Byte × State := (x.1, [], x.2)
  if (s.ejp n).state ≠ .up then done (ejRefuse s (Reg.EJ_PDROPPED n) Err.EJ_PORT_OFF n)
  else match servicePart s with
    | none => done (ejRefuse s Reg.EJ_RECBAD Err.EJ_PART_UNCLAIMED n)
    | some k => done (fireJudge s n k (numAt b 2 2) (BitVec.ofNat 64 (numAt b 4 8)) (Int.ofNat (numAt b 12 8)) none)

/-! ## SHUTTER_EVENT (R180, R383) -/

/-- SHUTTER_EVENT on its device. -/
def laneShutterEvent (s : State) : Half × List Byte × State :=
  let (c, t) := shtRequest s .event
  (c, [], t)

/-! ## INJECT (R385) -/

/-- The entries of an INJECT packet: QUAL 0b00, end of packet on the last word. -/
def injectEntries : List Word → List QEntry
  | [] => []
  | [w] => [{ data := w, eop := true }]
  | w :: r => { data := w, eop := false } :: injectEntries r

/-- A whole packet enters the INJECT queue; entries before an end of packet that Q_DROP awaits are discarded there (R136). -/
def injectPut (s : State) (l : List Word) : State :=
  (injectEntries l).foldl (fun t e =>
    if (t.queue 16).dropping && !e.eop && !((t.queue 16).slots.any fun x => x.entry.eop) then t else pushSlot t 16 e) s

/-- Waiting packets enter while the first of them fits whole. -/
def injectDrain : Nat → State → State
  | 0, s => s
  | n + 1, s =>
    match s.host.injects with
    | [] => s
    | (w, r) :: rest =>
      if (s.queue 16).slots.length + w.length ≤ queueDepth 16 then
        injectDrain n (finishReply (injectPut (s.modHost fun h => { h with injects := rest }) w) r 0 [])
      else s

/-- Little-endian words of a byte list. -/
def wordsOf : Nat → List Byte → List Word
  | 0, _ => []
  | n + 1, l => wordLE l :: wordsOf n (l.drop 4)

/-- INJECT on its device. -/
def laneInject (r : ReplyTo) (words : List Word) (s : State) : LaneAns :=
  if !(s.fabLoaded && portEnabled s.fab.conf 5) then (some (0x8009, []), s)
  else
    let s1 := s.modHost fun h => { h with injects := h.injects ++ [(words, r)] }
    (none, injectDrain s1.host.injects.length s1)

/-- INJECT_TIMEOUT (R385): the oldest waiting packet has not fitted within 100 ms. -/
def execInjectTimeout (s : State) : Host.Outcome State Fault Refusal :=
  .next (whenLive s fun s =>
    match s.host.injects with
    | [] => s
    | (_, r) :: rest => finishReply (s.modHost fun h => { h with injects := rest }) r 0x800A [])

/-! ## Calibration store (R232, R545) -/

/-- CAL_EXPORT on its device into a buffer: 2 on the manager, the staging buffer of a worker. A slot that is neither USABLE nor
EXPIRED is refused with 0x8008 (log 32); one whose bytes read with an error, with 0x4011. -/
def laneCalExport (b : List Byte) (into : Nat) (s : State) : Half × List Byte × State :=
  match exportBytes s (numAt b 0 1) with
  | some l => (0, bytesLE 4 l.length, s.setBuf into (bufOf l))
  | none =>
    if slotStat s (numAt b 0 1) = 1 ∨ slotStat s (numAt b 0 1) = 2 then refuse s Err.CAL_CORRUPT calSrc
    else (0x8008, [], s)

/-- CAL_IMPORT on its device; the manager's record of the lane follows (R545). -/
def laneCalImport (b : List Byte) (data : List Byte) (s : State) : Half × List Byte × State :=
  match calImportCmd (numAt b 0 1) data s with
  | (c, l, t) => (c, l, if c = 0 then reportRecord t else t)

/-! ## All of them -/

/-- A command of R383 that names a lane, on that lane's device; `buf` holds what a load or an import takes, `into` receives an
export. RESET_DEVICE is answered by its caller, which lets the response leave first. -/
def laneRun (s : State) (code : Half) (b : List Byte) (buf into : Nat) (r : ReplyTo) : LaneAns :=
  if code = 0x0006 then answerNow (laneDiagRead b s)
  else if code = 0x0201 then (none, loadRequest s (numAt b 0 1 == 1) buf (BitVec.ofNat 64 (numAt b 4 8)) r)
  else if code = 0x0202 then (none, unloadRequest s r)
  else if code = 0x0203 then answerNow (laneServiceFire b s)
  else if code = 0x0204 then answerNow (laneShutterEvent s)
  else if code = 0x0205 then laneInject r (wordsOf (numAt b 0 2) (if b.length = 4 then (s.buf buf).bytes else b.drop 4)) s
  else if code = 0x0206 then answerNow (loopSetCmd b s)
  else if code = 0x0207 then answerNow (loopStatusCmd b s)
  else if code = 0x0301 then answerNow (calBeginCmd b s)
  else if code = 0x0302 then answerNow (calPointReadyCmd s)
  else if code = 0x0303 then answerNow (calCommitCmd s)
  else if code = 0x0304 then answerNow (calDiscardCmd s)
  else if code = 0x0305 then answerNow (calAbortCmd s)
  else if code = 0x0306 then answerNow (calStatusCmd s)
  else if code = 0x0307 then answerNow (laneCalExport b into s)
  else if code = 0x0308 then answerNow (laneCalImport b (s.buf buf).bytes s)
  else answerNow (0x8003, [], s)

/-- CAL_WRITE_DONE (R226, R545): the set of the dialogue is in its slot, and the lane's record follows. -/
def execCalWriteDone (s : State) : Host.Outcome State Fault Refusal :=
  .next (whenLive s fun s =>
    if calState s = 0xA then
      match calWriteDone s with
      | (true, t) => reportRecord t
      | (false, t) => t
    else s)

end Sys2Proof.Machine
end

