-- ==== Sys2Proof/Machine/Host.lean ====
section
/-! DEFINITION. The machine link (R374–R389, R398, R540): acceptance of commands, their order, each command of R383, and events. -/

namespace Sys2Proof.Machine

/-! ## Who serves the link (R19, R97, R107, R386) -/

/-- The boot ROM serves the link after a failed start (R107). -/
def inRecovery (s : State) : Bool := decide (s.core.mode = .recovery)

/-- Frames are served: by the manager's firmware, by ROM in recovery, and by a standby outside a start or a warm path. -/
def hostServed (s : State) : Bool :=
  if s.isManager then s.fwRuns || inRecovery s else s.isStandby && (s.fwRuns || decide (s.core.mode = .listen))

/-- A response that is not recorded. -/
def answer (s : State) (c : HostCmd) (code st : Half) (body : List Byte) : State := emitResponse s c.src code c.txn st c.lane.toNat body

/-- An accepted frame is counted; one that nobody serves is discarded (R97, R374). -/
def hostFrame (s : State) (f : State → State) : State :=
  if !s.hostLink then s
  else
    let s1 := s.bump Reg.HOST_RXFRAMES 31 0
    if hostServed s1 then f s1 else s1

/-! ## Acceptance (R378) -/

/-- The ReplyTo of a job. -/
def HostJob.reply (j : HostJob) : ReplyTo := .host j.src j.code j.txn j.epoch j.lane

/-- Commands that name a lane (R381). -/
def namesLane (code : Half) : Bool :=
  code == 0x0006 || code == 0x0007 || (decide (0x0201 ≤ code) && decide (code ≤ 0x0207)) || (decide (0x0301 ≤ code) && decide (code ≤ 0x0308))

/-- Commands that ROM recovery accepts beside HELLO and STATUS (R386). -/
def recoveryCode (code : Half) : Bool :=
  code == 0x0007 || code == 0x0401 || code == 0x0402 || code == 0x0403 || code == 0x0501 || code == 0x0504

/-- A command is not above HIGHEST. -/
def txnStale (s : State) (txn : Word) : Bool :=
  match s.host.highest with
  | some h => decide (txn.toNat ≤ h)
  | none => false

/-- The decision of R378 on a command that is neither HELLO nor STATUS: an accepted one goes on as a job. -/
def hostJudge (s : State) (c : HostCmd) (code : Half) (run : State → HostJob → State) : State :=
  if c.epoch ≠ s.host.epoch then answer s c code 0x8005 []
  else match s.host.records.find? fun r => r.txn == c.txn with
    | some r => if r.code = code then answer s c code r.status r.body else answer s c code 0x8006 []
    | none =>
      if s.host.jobs.any fun j => j.txn == c.txn then answer s c code 0x8002 []
      else if txnStale s c.txn then answer s c code 0x8006 []
      else if 16 ≤ s.host.jobs.length then answer s c code 0x8004 []
      else
        let j : HostJob := { src := c.src, code := code, txn := c.txn, epoch := c.epoch, lane := c.lane.toNat, body := c.body, begun := false }
        run (s.modHost fun h => { h with highest := some c.txn.toNat, jobs := h.jobs ++ [j] }) j

/-! ## Bulk buffers (R384) -/

/-- The buffer that a command consumes. -/
def usesBuf (j : HostJob) : Option Nat :=
  if j.code = 0x0201 ∨ j.code = 0x0308 then some (numAt j.body 1 1)
  else if j.code = 0x0501 ∨ j.code = 0x0601 ∨ j.code = 0x0602 then some (numAt j.body 0 1)
  else none

/-- An executing command uses a buffer. -/
def bufBusy (s : State) (b : Nat) : Bool := s.host.jobs.any fun j => usesBuf j == some b

/-- An upload buffer that may be consumed. -/
def bufClosed (s : State) (b : Nat) : Bool := decide (b < 2) && decide ((s.buf b).phase = .closed)

/-- UPLOAD_OPEN. -/
def uploadOpenRun (s : State) (b : List Byte) : Half × State :=
  let k := numAt b 0 1
  let n := numAt b 4 4
  if 2 ≤ k ∨ uploadMax < n ∨ bufBusy s k = true then (0x800D, s)
  else (0, s.setBuf k { phase := .opened, size := n, data := [] })

/-- UPLOAD_DATA. -/
def uploadDataRun (s : State) (b : List Byte) : Half × State :=
  let k := numAt b 0 1
  let off := numAt b 4 4
  let d := b.drop 8
  if 2 ≤ k ∨ (s.buf k).phase ≠ .opened ∨ (s.buf k).size < off + d.length then (0x800D, s)
  else (0, s.setBuf k { s.buf k with data := putBytes (s.buf k).data off d })

/-- UPLOAD_CLOSE. -/
def uploadCloseRun (s : State) (b : List Byte) : Half × State :=
  let k := numAt b 0 1
  if 2 ≤ k ∨ (s.buf k).phase ≠ .opened then (0x800D, s)
  else if sha256 (s.buf k).bytes = slice b 4 32 then (0, s.setBuf k { s.buf k with phase := .closed })
  else (0x800C, s)

/-- DOWNLOAD_READ. -/
def downloadRun (s : State) (b : List Byte) : Half × List Byte :=
  let off := numAt b 0 4
  let n := numAt b 4 2
  if (s.buf 2).size < off + n then (0x800D, []) else (0, sparseBytes (s.buf 2).data off n)

/-! ## Lane commands (R381, R382, R540) -/

/-- A lane whose state lets it take no command, or one of some; the refusal's status. -/
def laneRefusal (s : State) (code : Half) (lane : Nat) : Option Half :=
  let st := (s.lane lane).state
  let own := decide (lane = s.ownLane)
  let load := code == 0x0201 || code == 0x0202
  let always := code == 0x0006 || code == 0x0007 || code == 0x0206 || code == 0x0207
  if 64 < lane ∨ knownPos s lane = false then some 0x800B
  else if own && code == 0x0007 then none
  else match st with
    | .vacant | .listen => some 0x800B
    | .safe => if always then none else if load then some Err.FAB_LANE_STATE else some 0x800F
    | .admitting => if always || code == 0x0204 || (load && (own || s.fw.running.contains lane)) then none else some 0x800B
    | .idle | .sorting => none

/-- The load that a CHOREO_LOAD asks for (R267). -/
def loadAskOf (s : State) (j : HostJob) : LoadAsk :=
  let k := numAt j.body 1 1
  let h := sparseBytes (s.buf k).data 0 16
  { tenant := numAt h 8 2, recipe := numAt h 0xA 2, version := numAt h 0xC 4, lane := j.lane, mode := numAt j.body 0 1, buf := k,
    swapAt := BitVec.ofNat 64 (numAt j.body 4 8), reply := j.reply }

/-- A refusal of a lane command: a load or an unload of a SAFE lane raises its error as R275 says. -/
def laneRefuse (s : State) (j : HostJob) (code : Half) : State :=
  if code = Err.FAB_LANE_STATE then loadRefuse s (loadAskOf s j) code else finishReply s j.reply code []

/-- LOOP_SET (R394, R540): the manager stores the settings; a SAFE lane receives them at its next admission. -/
def loopSetHost (s : State) (j : HostJob) : State :=
  if !loopRangeOk (loopCfgOf j.body) then finishReply (raise s Err.LOOP_RANGE loopSrc) j.reply Err.LOOP_RANGE []
  else
    let s1 := loopStore s j.lane j.body
    if (s1.lane j.lane).state = .safe then finishReply s1 j.reply 0 []
    else if j.lane = s1.ownLane then
      let (c, l, t) := loopSetCmd j.body s1
      finishReply t j.reply c l
    else carryStart s1 j.lane j.code j.body [] j.reply

/-- What a command for another lane sends to the worker's staging buffer, and the body that goes with it (R384). -/
def carryParts (s : State) (j : HostJob) : List Byte × List Byte :=
  if j.code = 0x0308 then ((s.buf (numAt j.body 1 1)).bytes, [(j.body[0]?).getD 0, 3, 0, 0])
  else if j.code = 0x0205 ∧ stageChunk < j.body.length then (j.body.drop 4, j.body.take 4)
  else ([], j.body)

/-- A lane command begins: judged by its lane's state, then carried out on the own lane or carried to the worker. -/
def laneBegin (s : State) (j : HostJob) : State :=
  match laneRefusal s j.code j.lane with
  | some c => laneRefuse s j c
  | none =>
    if (j.code = 0x0201 ∨ j.code = 0x0308) ∧ bufClosed s (numAt j.body 1 1) = false then finishReply s j.reply 0x800D []
    else if j.code = 0x0206 then loopSetHost s j
    else if j.code = 0x0201 then loadBegin s (loadAskOf s j)
    else if j.lane = s.ownLane then
      if j.code = 0x0007 then resetSoon (finishReply s j.reply 0 [])
      else match laneRun s j.code j.body (numAt j.body 1 1) 2 j.reply with
        | (some (c, l), t) => finishReply t j.reply c l
        | (none, t) => t
    else
      let (d, b) := carryParts s j
      carryStart s j.lane j.code b d j.reply

/-- A begun load or unload that its lane has taken: its request is with the own enclave, or on its way to the worker. The next
command of the lane may follow it (R272; log 62). -/
def loadTaken (s : State) (j : HostJob) : Bool :=
  (j.code == 0x0201 || j.code == 0x0202) && j.begun &&
    ((match s.fab.load with | some x => x.reply == j.reply | none => false) ||
      (match s.fab.unload with | some x => x.reply == j.reply | none => false) ||
      s.host.carries.any fun c => c.reply == j.reply && c.phase == .command)

/-- An earlier command that names the same lane has not completed (R381). -/
def laneHeld (s : State) (j : HostJob) : Bool :=
  (s.host.jobs.takeWhile fun k => k.txn != j.txn).any fun k => namesLane k.code && k.lane == j.lane && !loadTaken s k

/-- A job has begun. -/
def markBegun (s : State) (j : HostJob) : State :=
  s.modHost fun h => { h with jobs := h.jobs.map fun k => if k.txn = j.txn then { k with begun := true } else k }

/-- REENUMERATE (R359, R551, R554). -/
def reenumerateBegin (s : State) (j : HostJob) : State :=
  if takenOver s then finishReply s j.reply 0xE004 []
  else if s.ring.closed then s.modRing fun r => { r with renum := some j.reply, due := true }
  else finishReply s j.reply Err.FRL_RING_OPEN []

/-- Each accepted command whose turn has come begins. -/
def hostAdvance (s : State) : State :=
  s.host.jobs.foldl (fun t j =>
    match t.host.jobs.find? fun k => k.txn == j.txn with
    | none => t
    | some k =>
      if k.begun then t
      else if namesLane k.code then (if laneHeld t k then t else laneBegin (markBegun t k) k)
      else if k.code = 0x0101 then (if t.ring.renum.isSome then t else reenumerateBegin (markBegun t k) k)
      else t) s

/-! ## The frame of a command's meaning -/

/-- A machine-link command (R375, R378, R386): not served, refused by a device that is not the one manager, decided, checked, and
run at its turn. -/
def hostCmd (c : HostCmd) (code : Half) (bodyOk : List Byte → Bool) (run : State → HostJob → State) (s : State) :
    Host.Outcome State Fault Refusal :=
  .next (whenLive s fun s => hostFrame s fun s =>
    if !s.isManager || s.ring.duplicate then answer s c code 0x8007 []
    else hostJudge s c code fun t j =>
      if inRecovery t && !recoveryCode code then finishReply t j.reply 0x800E []
      else if !bodyOk c.body then finishReply t j.reply 0x8008 []
      else run t j)

/-- A command that names no lane runs at once. -/
def hostNow (f : State → List Byte → Half × List Byte × State) (s : State) (j : HostJob) : State :=
  let (c, l, t) := f (markBegun s j) j.body
  finishReply t j.reply c l

/-- A command that names a lane waits for its turn. -/
def hostLane (s : State) (_j : HostJob) : State := hostAdvance s

/-- A body of a length. -/
def lenIs (n : Nat) (b : List Byte) : Bool := b.length == n

/-! ## HELLO and STATUS (R376, R383, R386) -/

/-- The versions of the manager and the worker image: one bundle holds both (R502). ROM in recovery runs neither. -/
def imageVersion (s : State) : List Byte := if inRecovery s then [0, 0, 0, 0] else bytesLE 4 (s.rd Reg.FW_VERSION).toNat

/-- RECOVERY of HELLO: 1 in ROM recovery, 2 where the root secret has failed (R422). -/
def recoveryByte (s : State) : Byte := if inRecovery s then (if s.core.rootFailed then 2 else 1) else 0

/-- The response body of HELLO. -/
def helloBody (s : State) : List Byte :=
  [BitVec.ofNat 8 s.acting, BitVec.ofNat 8 (s.rdf Reg.SYS_ID 3 0), recoveryByte s, 0] ++ imageVersion s ++ imageVersion s ++
    [BitVec.ofNat 8 (match s.ring.sticky with | some (n, _) => n | none => 0)]

/-- Every event that waits leaves again, oldest first (R376, R387). -/
def sendEvents (s : State) : State := s.host.events.foldl (fun t e => t.emit (.event e.eseq e.code e.lane e.body)) s

/-- HELLO (R376, R383): binds the peer; a new peer receives the events not yet acknowledged. -/
def execHello (c : HostCmd) (s : State) : Host.Outcome State Fault Refusal :=
  .next (whenLive s fun s => hostFrame s fun s =>
    if !s.isManager then answer s c 0x0001 0x8007 []
    else if !lenIs 0 c.body then answer s c 0x0001 0x8008 []
    else
      let s1 := answer (s.modHost fun h => { h with peer := some c.src }) c 0x0001 0 (helloBody s)
      if s.host.peer = some c.src then s1 else sendEvents s1)

/-- The response body of STATUS; a standby answers with its own lane and 0xFF for every other (R386). -/
def statusBody (s : State) : List Byte :=
  let lanes := if s.isManager then laneBytes s
    else (List.range 65).map fun p => if p = s.position then BitVec.ofNat 8 (laneCode s.lanes.own.state) else 0xFF
  ringByte s :: lanes ++ bytesLE 8 s.ct.toNat

/-- STATUS (R383, R386). -/
def execStatus (c : HostCmd) (s : State) : Host.Outcome State Fault Refusal :=
  .next (whenLive s fun s => hostFrame s fun s =>
    if lenIs 0 c.body then answer s c 0x0002 0 (statusBody s) else answer s c 0x0002 0x8008 [])

/-! ## The device as a whole (R88, R383, R477) -/

/-- A lane is ADMITTING or SORTING, or a device of the ring may hold ARM: the own one by its register; of another lane that has
left SORTING the manager's answer is open (R88; log 63). -/
def ctSetBusy (s : State) : Bool × State :=
  let known := (List.range 65).filter (knownPos s)
  let busy := known.any fun p => (s.lane p).state == .admitting || (s.lane p).state == .sorting
  let maybe := known.any fun p => p != s.ownLane && s.lanes.left.contains p && (s.lane p).state == .idle
  if busy || s.rdb Reg.EJ_CTRL 1 then (true, s)
  else if maybe then
    let (n, t) := s.drawNat
    (n % 2 == 1, t)
  else (false, s)

/-- SET_TIME: the counter is loaded at the next tick, and a waiting switchover is cancelled (R88, R519). -/
def setTimeRun (s : State) (b : List Byte) : Half × List Byte × State :=
  let (busy, s1) := ctSetBusy s
  if busy then refuse s1 Err.CT_SET_BUSY 0x01
  else
    let v := numAt b 0 8
    let s2 := s1.wr64 Reg.CLK_CT_SET_LO Reg.CLK_CT_SET_HI v
    (0, [], cancelSwitch (ctCtrlEffect s2 1))

/-- SET_TIME (R88, R383). -/
def execSetTime (c : HostCmd) (s : State) : Host.Outcome State Fault Refusal := hostCmd c 0x0003 (lenIs 8) (hostNow setTimeRun) s

/-- SET_UTC (R383, R477). -/
def execSetUtc (c : HostCmd) (s : State) : Host.Outcome State Fault Refusal :=
  hostCmd c 0x0004 (lenIs 8) (hostNow fun s b => (0, [], setUtc s (numAt b 0 8))) s

/-- EVENT_MASK (R383). -/
def execEventMask (c : HostCmd) (s : State) : Host.Outcome State Fault Refusal :=
  hostCmd c 0x0005 (lenIs 4) (hostNow fun s b =>
    (0, [], s.modHost fun h => { h with maskInfo := numAt b 0 1 % 2 == 1, maskCorr := numAt b 0 1 / 2 % 2 == 1 })) s

/-- Every word of a DIAG_READ lies in the peripheral window, and COUNT is 1 to 64. -/
def diagOk (b : List Byte) : Bool :=
  lenIs 6 b && decide (1 ≤ numAt b 4 2) && decide (numAt b 4 2 ≤ 64) && decide (0x40000000 ≤ numAt b 0 4) &&
    decide (numAt b 0 4 + 4 * numAt b 4 2 ≤ 0x40170000)

/-- DIAG_READ (R383). -/
def execDiagRead (c : HostCmd) (s : State) : Host.Outcome State Fault Refusal := hostCmd c 0x0006 diagOk hostLane s

/-- RESET_DEVICE (R383, R540): the response leaves first. -/
def execResetDevice (c : HostCmd) (s : State) : Host.Outcome State Fault Refusal :=
  hostCmd c 0x0007 (fun b => lenIs 4 b && numAt b 0 4 == 0xD5E1) hostLane s

/-- REENUMERATE (R359, R551, R554): accepted while the ring is closed; the response follows the enumeration. -/
def execReenumerate (c : HostCmd) (s : State) : Host.Outcome State Fault Refusal :=
  hostCmd c 0x0101 (lenIs 0) (fun t _ => hostAdvance t) s

/-! ## Lanes (R267–R272, R309, R180, R385, R394) -/

/-- CHOREO_LOAD (R267–R271): MODE 0 NEW or 1 REPLACE, from an upload buffer. -/
def execChoreoLoad (c : HostCmd) (s : State) : Host.Outcome State Fault Refusal :=
  hostCmd c 0x0201 (fun b => lenIs 12 b && decide (numAt b 0 1 ≤ 1)) hostLane s

/-- CHOREO_UNLOAD (R272). -/
def execChoreoUnload (c : HostCmd) (s : State) : Host.Outcome State Fault Refusal := hostCmd c 0x0202 (lenIs 0) hostLane s

/-- SERVICE_FIRE (R309, R312, R383). -/
def execServiceFire (c : HostCmd) (s : State) : Host.Outcome State Fault Refusal :=
  hostCmd c 0x0203 (fun b => lenIs 20 b && decide (numAt b 0 1 ≤ 3)) hostLane s

/-- SHUTTER_EVENT (R180, R383). -/
def execShutterEvent (c : HostCmd) (s : State) : Host.Outcome State Fault Refusal := hostCmd c 0x0204 (lenIs 0) hostLane s

/-- NWORDS is 1 to 365 and the body holds as many words. -/
def injectOk (b : List Byte) : Bool :=
  decide (1 ≤ numAt b 0 2) && decide (numAt b 0 2 ≤ 365) && b.length == 4 + 4 * numAt b 0 2

/-- INJECT (R385). -/
def execInject (c : HostCmd) (s : State) : Host.Outcome State Fault Refusal := hostCmd c 0x0205 injectOk hostLane s

/-- LOOP_SET (R394–R397). -/
def execLoopSet (c : HostCmd) (s : State) : Host.Outcome State Fault Refusal :=
  hostCmd c 0x0206 (fun b => lenIs 8 b && decide (numAt b 0 1 ≤ 1)) hostLane s

/-- LOOP_STATUS (R383). -/
def execLoopStatus (c : HostCmd) (s : State) : Host.Outcome State Fault Refusal :=
  hostCmd c 0x0207 (fun b => lenIs 4 b && decide (numAt b 0 1 ≤ 1)) hostLane s

/-! ## Calibration (R216–R232) -/

/-- CAL_BEGIN (R216, R217). -/
def execCalBegin (c : HostCmd) (s : State) : Host.Outcome State Fault Refusal :=
  hostCmd c 0x0301 (fun b => lenIs 60 b && decide (numAt b 0 1 ≤ 7)) hostLane s

/-- CAL_POINT_READY (R218). -/
def execCalPointReady (c : HostCmd) (s : State) : Host.Outcome State Fault Refusal := hostCmd c 0x0302 (lenIs 0) hostLane s

/-- CAL_COMMIT (R218, R226). -/
def execCalCommit (c : HostCmd) (s : State) : Host.Outcome State Fault Refusal := hostCmd c 0x0303 (lenIs 0) hostLane s

/-- CAL_DISCARD (R218). -/
def execCalDiscard (c : HostCmd) (s : State) : Host.Outcome State Fault Refusal := hostCmd c 0x0304 (lenIs 0) hostLane s

/-- CAL_ABORT (R218, R223). -/
def execCalAbort (c : HostCmd) (s : State) : Host.Outcome State Fault Refusal := hostCmd c 0x0305 (lenIs 0) hostLane s

/-- CAL_STATUS (R383). -/
def execCalStatus (c : HostCmd) (s : State) : Host.Outcome State Fault Refusal := hostCmd c 0x0306 (lenIs 0) hostLane s

/-- CAL_EXPORT (R232, R384). -/
def execCalExport (c : HostCmd) (s : State) : Host.Outcome State Fault Refusal :=
  hostCmd c 0x0307 (fun b => lenIs 4 b && decide (numAt b 0 1 ≤ 7)) hostLane s

/-- CAL_IMPORT (R232, R384). -/
def execCalImport (c : HostCmd) (s : State) : Host.Outcome State Fault Refusal :=
  hostCmd c 0x0308 (fun b => lenIs 4 b && decide (numAt b 0 1 ≤ 7)) hostLane s

/-! ## Bulk data (R384) -/

/-- A run without a response body. -/
def noBody (x : Half × State) : Half × List Byte × State := (x.1, [], x.2)

/-- UPLOAD_OPEN (R384). -/
def execUploadOpen (c : HostCmd) (s : State) : Host.Outcome State Fault Refusal :=
  hostCmd c 0x0401 (lenIs 8) (hostNow fun s b => noBody (uploadOpenRun s b)) s

/-- UPLOAD_DATA (R384). -/
def execUploadData (c : HostCmd) (s : State) : Host.Outcome State Fault Refusal :=
  hostCmd c 0x0402 (fun b => decide (8 ≤ b.length)) (hostNow fun s b => noBody (uploadDataRun s b)) s

/-- UPLOAD_CLOSE (R384). -/
def execUploadClose (c : HostCmd) (s : State) : Host.Outcome State Fault Refusal :=
  hostCmd c 0x0403 (lenIs 36) (hostNow fun s b => noBody (uploadCloseRun s b)) s

/-- LENGTH of DOWNLOAD_READ is 1 to 1472. -/
def downloadOk (b : List Byte) : Bool := lenIs 8 b && decide (1 ≤ numAt b 4 2) && decide (numAt b 4 2 ≤ 1472)

/-- DOWNLOAD_READ (R384). -/
def execDownloadRead (c : HostCmd) (s : State) : Host.Outcome State Fault Refusal :=
  hostCmd c 0x0404 downloadOk (hostNow fun s b => ((downloadRun s b).1, (downloadRun s b).2, s)) s

/-! ## Firmware (R506–R526, R551) -/

/-- FW_STAGE (R506, R507): buffer and takeover first. -/
def fwStageHost (s : State) (b : List Byte) : Half × List Byte × State :=
  if takenOver s then (0xE004, [], s)
  else if !bufClosed s (numAt b 0 1) then (0x800D, [], s)
  else noBody (fwStageRun s (s.buf (numAt b 0 1)).bytes)

/-- FW_STAGE (R384, R506, R507, R551). -/
def execFwStage (c : HostCmd) (s : State) : Host.Outcome State Fault Refusal := hostCmd c 0x0501 (lenIs 4) (hostNow fwStageHost) s

/-- FW_SCHEDULE (R516, R551). -/
def execFwSchedule (c : HostCmd) (s : State) : Host.Outcome State Fault Refusal :=
  hostCmd c 0x0502 (lenIs 8) (hostNow fun s b =>
    if takenOver s then (0xE004, [], s) else noBody (fwScheduleRun s (numAt b 0 8))) s

/-- FW_CANCEL (R519). -/
def execFwCancel (c : HostCmd) (s : State) : Host.Outcome State Fault Refusal :=
  hostCmd c 0x0503 (lenIs 0) (hostNow fun s _ => noBody (fwCancelRun s)) s

/-- FW_STATUS (R526). -/
def execFwStatus (c : HostCmd) (s : State) : Host.Outcome State Fault Refusal :=
  hostCmd c 0x0504 (lenIs 0) (hostNow fun s _ => (0, fwStatusBody s, s)) s

/-! ## Keys, applets and metering (R435, R436, R484, R489, R496) -/

/-- A package of a closed buffer is handled, and passes to an admitted standby whatever the outcome (R548). -/
def packageRun (run : State → List Byte → ReplyTo → State) (s : State) (j : HostJob) : State :=
  let k := numAt j.body 0 1
  let s1 := markBegun s j
  if !bufClosed s1 k then finishReply s1 j.reply 0x800D []
  else provision (run s1 (s1.buf k).bytes j.reply) j.code (s1.buf k).bytes

/-- TENANT_KEYS (R435, R436, R548); `fault` says that the machine-link engine finds a mismatch in the package (R467). -/
def execTenantKeys (c : HostCmd) (fault : Bool) (s : State) : Host.Outcome State Fault Refusal :=
  hostCmd c 0x0601 (lenIs 4) (packageRun (tenantKeysRun fault)) s

/-- APPLET_LOAD (R496, R497, R548). -/
def execAppletLoad (c : HostCmd) (s : State) : Host.Outcome State Fault Refusal := hostCmd c 0x0602 (lenIs 4) (packageRun appletLoadRun) s

/-- STATEMENT_READ (R489): PERIOD 0 names the newest statement. -/
def execStatementRead (c : HostCmd) (s : State) : Host.Outcome State Fault Refusal :=
  hostCmd c 0x0603 (lenIs 8) (hostNow fun s b =>
    match findStatement s (numAt b 0 2) (numAt b 4 4) with
    | some l => (0, l, s)
    | none => (0xC022, [], s)) s

/-- PERIOD_CLOSE (R484, R485): answered when the statement is stored. -/
def execPeriodClose (c : HostCmd) (s : State) : Host.Outcome State Fault Refusal :=
  hostCmd c 0x0604 (lenIs 4) (fun t j => closePeriod (markBegun t j) (numAt j.body 0 2) j.reply none) s

/-! ## The plant port (R392) -/

/-- PLANT_CONFIG's body: 26 bytes, INTERVAL 1 to 3600. -/
def plantOk (b : List Byte) : Bool := lenIs 26 b && decide (1 ≤ numAt b 20 2) && decide (numAt b 20 2 ≤ 3600)

/-- PLANT_CONFIG (R392). -/
def execPlantConfig (c : HostCmd) (s : State) : Host.Outcome State Fault Refusal :=
  hostCmd c 0x0701 plantOk (hostNow fun s b => noBody (plantConfig s b)) s

/-- The four plant registers, read as the control core reads them. -/
def plantStatusRun (s : State) : Half × List Byte × State :=
  let (d, t) := regReads .cc 4 Reg.PLANT_STAT s
  (0, d, t)

/-- PLANT_STATUS (R383). -/
def execPlantStatus (c : HostCmd) (s : State) : Host.Outcome State Fault Refusal :=
  hostCmd c 0x0702 (lenIs 0) (hostNow fun s _ => plantStatusRun s) s

/-! ## Other frames (R374, R375, R383) -/

/-- The codes of R383 beside HELLO and STATUS. -/
def knownCode (code : Half) : Bool :=
  namesLane code || code == 0x0001 || code == 0x0002 || code == 0x0003 || code == 0x0004 || code == 0x0005 || code == 0x0101 ||
    (decide (0x0401 ≤ code) && decide (code ≤ 0x0404)) || (decide (0x0501 ≤ code) && decide (code ≤ 0x0504)) ||
    (decide (0x0601 ≤ code) && decide (code ≤ 0x0604)) || code == 0x0701 || code == 0x0702

/-- UNKNOWN_COMMAND (R383): a CODE that R383 does not list is refused with 0x8003. -/
def execUnknownCommand (c : HostCmd) (code : Half) (s : State) : Host.Outcome State Fault Refusal :=
  if knownCode code then .next s
  else hostCmd c code (fun _ => true) (hostNow fun s _ => (0x8003, [], s)) s

/-- HOST_FRAME_INVALID (R374, R375): a foreign frame, or one with a bad header, is discarded and counted. -/
def execHostFrameInvalid (foreign : Bool) (s : State) : Host.Outcome State Fault Refusal :=
  .next (whenLive s fun s =>
    if !s.hostLink then s
    else if foreign then s.bump Reg.HOST_FOREIGN 31 0
    else s.bump Reg.HOST_BADHDR 31 0)

/-! ## Events (R387, R398) -/

/-- EVENT_LOST is queued first when space frees, and 0x8011 is raised once for the loss. -/
def eventLost (s : State) : State :=
  if s.host.lost = 0 ∨ 256 ≤ s.host.events.length then s
  else
    let n := s.host.lost
    raise (postEvent (s.modHost fun h => { h with lost := 0 }) 0x0107 s.ownLane (bytesLE 4 n)) Err.HOST_EVENT_LOST 0x11

/-- EVENT_ACK (R387): every event up to ESEQ is released. An acknowledgement of another EPOCH is ignored. -/
def execEventAck (epoch eseq : Word) (s : State) : Host.Outcome State Fault Refusal :=
  .next (whenLive s fun s => hostFrame s fun s =>
    if !s.isManager || epoch ≠ s.host.epoch then s
    else eventLost (s.modHost fun h => { h with events := h.events.filter fun e => decide (eseq.toNat < e.eseq) }))

/-- EVENT_RESEND (R387): 100 ms after they were last sent, unacknowledged events are sent again, oldest first. -/
def execEventResend (s : State) : Host.Outcome State Fault Refusal :=
  .next (whenLive s fun s => if s.isManager && s.fwRuns && s.hostReady then sendEvents s else s)

/-- HOST_LINK_UP (R374): synchronised, and with AN_EN negotiated; line 28. Waiting events leave. -/
def execHostLinkUp (s : State) : Host.Outcome State Fault Refusal :=
  .next (whenLive s fun s =>
    if s.acting = 0 ∨ s.hostLink = true then s
    else
      let s1 := (((s.wrb Reg.HOST_STAT 0 true).wrb Reg.HOST_STAT 1 true).wrb Reg.HOST_STAT 2 (s.rdb Reg.HOST_CTRL 0)).wrb Reg.ERR_EVT 12 true
      if s1.isManager && s1.hostReady then sendEvents s1 else s1)

/-- HOST_LINK_DOWN (R398): the machine link is lost; line 28, and 0x8010 on the manager. Events wait. -/
def execHostLinkDown (s : State) : Host.Outcome State Fault Refusal :=
  .next (whenLive s fun s =>
    if !s.hostLink then s
    else
      let s1 := (s.wrf Reg.HOST_STAT 2 0 0).wrb Reg.ERR_EVT 12 true
      if s1.isManager then raise s1 Err.HOST_LINK_DOWN 0x11 else s1)

end Sys2Proof.Machine
end

