-- ==== Sys2Proof/Machine/TxnRows.lean ====
section
/-! DEFINITION. Ring transactions beside those with a row of their own: what a request makes a node do, what a response completes,
and retries (R352–R355). The codes that the manual does not give are this model's (log 30). -/

namespace Sys2Proof.Machine

/-! ## Requests -/

/-- The first bytes of a request's body after CODE and its reserved bytes. -/
def Frame.args (f : Frame) : List Byte := f.payload.drop 4

/-- A lane state by its code in STATUS. -/
def laneOfCode : Nat → LaneState
  | 1 => .listen
  | 2 => .admitting
  | 3 => .idle
  | 4 => .sorting
  | 5 => .safe
  | _ => .vacant

/-- A worker's lane has left SORTING or become SAFE: the manager takes its state and the faults that hold it (R29, R30). -/
def takeLaneNote (s : State) (lane : Nat) (b : List Byte) : State :=
  if (s.lane lane).state ≠ .sorting ∧ numAt b 0 1 ≠ 5 then s
  else
    let m := numAt b 1 1
    let fl : LaneFaults := { cell := m % 2 == 1, ports := m / 2 % 2 == 1, flag := m / 4 % 2 == 1, bank := m / 8 % 2 == 1 }
    setLane (s.modLane lane fun l => { l with faults := fl }) lane (laneOfCode (numAt b 0 1)) (BitVec.ofNat 16 (numAt b 2 2))

/-- The digest prefixes of a body. -/
def prefixList (n : Nat) (b : List Byte) : List (List Byte) := (List.range (min 8 n)).map fun i => slice b (8 * i) 8

/-- A request that a worker sends to the acting manager. -/
def managerTxn (s : State) (f : Frame) : Half × List Byte × State :=
  let b := f.args
  if f.code = 0x0E02 then (0, [], s.modRing fun r => { r with due := true })
  else if f.code = 0x0E07 then (0, [], storeRecord s f.src (prefixList (numAt f.payload 2 1) b))
  else if f.code = 0x0E0A then (0, [], postEvent s (BitVec.ofNat 16 (numAt b 0 2)) f.src (b.drop 2))
  else if f.code = 0x0E0B then (0, [], takeLaneNote s f.src b)
  else if f.code = 0x0E10 then (0, [], s)
  else (0x8003, [], s)

/-- Step 4 of an admission on the admitted device (R22, R227, R545). -/
def admissionCheck (s : State) (f : Frame) : Half × List Byte × State :=
  let fl := numAt f.payload 2 1
  let s1 := if fl % 2 = 1 then s.modHost fun h => { h with utc := some (numAt f.payload 4 8, s.ct) } else s
  let s2 := if fl / 2 % 2 = 1 then s1.wrf Reg.SYS_ROLE 3 2 0 else s1
  let s3 := applyRecord s2 (prefixList (numAt f.payload 3 1) (f.payload.drop 12))
  let own := (ownRecord s3).take 8
  (0, [BitVec.ofNat 8 (laneCode s3.lanes.own.state), BitVec.ofNat 8 (usableSlots s3).length, BitVec.ofNat 8 own.length, 0] ++ own.flatten, s3)

/-- ADMIT on the lane's device: 0 where it arms, 2 where only a shutter event is missing, 1 otherwise (R89, R270). -/
def admitRequest (s : State) : Half × List Byte × State :=
  if execAdmit.shutterMissing s && admitReady (execAdmit.withShutter s) then (2, [], s)
  else if admitReady s then (0, [], admitOwn s)
  else (1, [], s)

/-- Bytes for the staging buffer (R384): OFFSET, SIZE and data; those at OFFSET 0 begin it anew. -/
def stageRequest (s : State) (b : List Byte) : Half × List Byte × State :=
  let off := numAt b 0 4
  let old := if off = 0 then [] else s.host.stage.data
  (0, [], s.modHost fun h => { h with stage := { phase := .closed, size := numAt b 4 4, data := putBytes old off (b.drop 8) } })

/-- A request of the acting manager that a worker or a standby answers at once; a standby takes the copies of R548. -/
def workerTxn (s : State) (f : Frame) : Half × List Byte × State :=
  let b := f.args
  if f.code = 0x0E03 then admitRequest s
  else if f.code = 0x0E04 ∧ s.isStandby = true then (0, [], (writeSticky s b).wrb Reg.SVC_STAT 1 true)
  else if f.code = 0x0E05 ∧ s.isStandby = true then
    (0, [], (writeCopy s (positionAddr (numAt f.payload 2 1) 0) (positionAddr (numAt f.payload 2 1) 1) positionMagic 16 b).wrb Reg.SVC_STAT 1 true)
  else if f.code = 0x0E06 then admissionCheck s f
  else if f.code = 0x0E09 then (0, [], dropTenantSlots s (numAt b 0 2))
  else if f.code = 0x0E20 then stageRequest s b
  else if f.code = 0x0E21 then (0, sparseBytes s.host.stage.data (numAt b 0 4) (numAt b 4 4), s)
  else (0x8003, [], s)

/-- A command that the manager carries to this lane (R382); a SAFE lane takes only some (R540). -/
def carriedTxn (s : State) (f : Frame) : State :=
  let code : Half := BitVec.ofNat 16 f.code
  let r : ReplyTo := .ring f.txn.toNat
  if code = 0x0007 then resetSoon (finishReply s r 0 [])
  else if s.lanes.own.state = .safe ∧ !(code == 0x0006 || code == 0x0201 || code == 0x0202 || code == 0x0206 || code == 0x0207) then
    finishReply s r 0x800F []
  else match laneRun s code f.args 3 3 r with
    | (some (c, l), t) => finishReply t r c l
    | (none, t) => t

/-- What a new request makes this node do, with its response at once or later. -/
def txnRun (s : State) (f : Frame) : State :=
  let r : ReplyTo := .ring f.txn.toNat
  let done (x : Half × List Byte × State) : State := finishReply x.2.2 r x.1 x.2.1
  if s.isManager then done (managerTxn s f)
  else if namesLane (BitVec.ofNat 16 f.code) then carriedTxn s f
  else if f.code = 0x0601 ∧ s.isStandby = true then tenantKeysRun false s s.host.stage.bytes r
  else if f.code = 0x0602 ∧ s.isStandby = true then appletLoadRun s s.host.stage.bytes r
  else done (workerTxn s f)

/-- Requests that have rows of their own: error reports, chain loading, tenant keys and delta reports. -/
def ownRow (s : State) (f : Frame) : Bool :=
  f.code == 0x0E01 || (decide (0x0F01 ≤ f.code) && decide (f.code ≤ 0x0F04)) || (f.toEn && (s.isManager || f.code == 0x0E08))

/-- TXN (R354, R355): a request at a port is executed, answered from its record, or ignored while it executes. A control core that
does not run its firmware answers nothing (R97); the enclave answers for itself. -/
def execTxn (p : Fin 2) (s : State) : Host.Outcome State Fault Refusal :=
  .next (whenLive s fun s =>
    match takeFrame s p fun f => f.typ == 0x10 && !f.rsp && !ownRow s f && (s.fwRuns || f.toEn) with
    | (none, _) => s
    | (some f, t) =>
      match admitTxn t p f with
      | (false, u) => u
      | (true, u) => txnRun u f)

/-! ## Responses -/

/-- The answer to ADMIT: SORTING has been ordered, and the lane's faults are over; a missing shutter event is ordered (R30, R270). -/
def admitAnswered (s : State) (lane : Nat) (st : Half) : State :=
  if st = 0 then
    setLane ((endAdmit s lane).modLane lane fun l => { l with faults := {} }) lane .sorting
  else if st = 2 then orderShutter s lane .none
  else s

/-- A transaction has its response. -/
def txnDone (s : State) (t : TxnPend) (b : List Byte) : State :=
  match t.use with
  | .carry id => carryAnswer s id b
  | .report => reportAnswered s t.body
  | .firmware code => fwAnswer s code t.pos b
  | .check => checkAnswer s t.pos b
  | .enterLane lane => admitAnswered s lane (replyStatus b)
  | .probe => takeoverDeclined s
  | .delta | .link | .quiet => s

/-- TXN_RESPONSE (R352): a response completes its transaction; one that names none that waits is discarded. Delta reports are
acknowledged to the enclave. -/
def execTxnResponse (p : Fin 2) (s : State) : Host.Outcome State Fault Refusal :=
  .next (whenLive s fun s =>
    match takeFrame s p fun f => f.typ == 0x10 && f.rsp &&
        !(s.ring.pend.any fun t => t.txn == f.txn.toNat && t.use == .delta) && (s.fwRuns || f.toEn) with
    | (none, _) => s
    | (some f, t) =>
      match t.ring.pend.find? fun x => x.txn == f.txn.toNat && x.pos == f.src with
      | none => t
      | some x => hostAdvance (admitAdvance (txnDone (t.modRing fun r => { r with pend := r.pend.filter fun y => y.txn != x.txn }) x f.payload)))

/-! ## Retries (R353) -/

/-- The ring has given up on a transaction. -/
def txnFailed (s : State) (t : TxnPend) : State :=
  let s1 := s.modRing fun r => { r with pend := r.pend.filter fun y => y.txn != t.txn }
  let s2 := if s1.isManager then raise s1 Err.FRL_TXN_FAILED frlSrc (BitVec.ofNat 64 t.pos) else s1
  match t.use with
  | .carry id => carryFailed s2 id
  | .firmware code => fwGaveUp s2 code t.pos
  | .check => endAdmit s2 t.pos
  | .report => reportAnswered s2 t.body
  | .enterLane _ | .delta | .link | .probe | .quiet => s2

/-- TXN_RETRY (R353): a transaction has had no response for 10 ms. It is sent again on the present route, 50 times in all; delta
reports and probes are never resent. A restarting control core resends nothing. -/
def execTxnRetry (txn : Word) (s : State) : Host.Outcome State Fault Refusal :=
  .next (whenLive s fun s =>
    match s.ring.pend.find? fun t => t.txn == txn.toNat with
    | none => s
    | some t =>
      if t.use = .delta ∨ t.use = .probe ∨ (s.fwRuns = false ∧ t.toEn = false) then s
      else if 50 ≤ t.tries then hostAdvance (admitAdvance (txnFailed s t))
      else
        sendTxnFrame (s.modRing fun r => { r with pend := r.pend.map fun y => if y.txn = t.txn then { y with tries := y.tries + 1 } else y }) t)

end Sys2Proof.Machine
end

