-- ==== Sys2Proof/Machine/Dispatch.lean ====
section
/-! DEFINITION. The dispatch: one arm for each command, one meaning for each arm. -/

namespace Sys2Proof.Machine

def exec (i : Instr) (s : State) : Host.Outcome State Fault Refusal :=
  match i with
  | .registerWrite m addr data => Sys2Proof.Machine.execRegisterWrite m addr data s
  | .readClear m addr len => Sys2Proof.Machine.execReadClear m addr len s
  | .powerUp drained => Sys2Proof.Machine.execPowerUp drained s
  | .pllLock => Sys2Proof.Machine.execPllLock s
  | .porRelease role recover => Sys2Proof.Machine.execPorRelease role recover s
  | .bankEnable bank v33 => Sys2Proof.Machine.execBankEnable bank v33 s
  | .bankDisable bank => Sys2Proof.Machine.execBankDisable bank s
  | .powerFail back => Sys2Proof.Machine.execPowerFail back s
  | .regulatorFault rail => Sys2Proof.Machine.execRegulatorFault rail s
  | .resetNAssert => Sys2Proof.Machine.execResetNAssert s
  | .resetNRise => Sys2Proof.Machine.execResetNRise s
  | .deviceResetRelease role recover => Sys2Proof.Machine.execDeviceResetRelease role recover s
  | .rootSecretDone okA okB => Sys2Proof.Machine.execRootSecretDone okA okB s
  | .gpioEdge pin level => Sys2Proof.Machine.execGpioEdge pin level s
  | .timerArm m k v => Sys2Proof.Machine.execTimerArm m k v s
  | .timerExpired k => Sys2Proof.Machine.execTimerExpired k s
  | .clockFail resonator => Sys2Proof.Machine.execClockFail resonator s
  | .clockRecovery => Sys2Proof.Machine.execClockRecovery s
  | .ctRead m => Sys2Proof.Machine.execCtRead m s
  | .ctLoad m v => Sys2Proof.Machine.execCtLoad m v s
  | .softwareReset m v => Sys2Proof.Machine.execSoftwareReset m v s
  | .ccRestartRequest m v => Sys2Proof.Machine.execCcRestartRequest m v s
  | .warmPathDone => Sys2Proof.Machine.execWarmPathDone s
  | .wdogKick m v => Sys2Proof.Machine.execWdogKick m v s
  | .wdogExpire => Sys2Proof.Machine.execWdogExpire s
  | .sramRead m addr len found => Sys2Proof.Machine.execSramRead m addr len found s
  | .sramWrite m addr data found => Sys2Proof.Machine.execSramWrite m addr data found s
  | .scrubWord encl bits => Sys2Proof.Machine.execScrubWord encl bits s
  | .mramRead m addr len found => Sys2Proof.Machine.execMramRead m addr len found s
  | .mramWrite m addr data => Sys2Proof.Machine.execMramWrite m addr data s
  | .mramWordProgrammed => Sys2Proof.Machine.execMramWordProgrammed s
  | .mramClrStart m sector => Sys2Proof.Machine.execMramClrStart m sector s
  | .mramClrSuspend m => Sys2Proof.Machine.execMramClrSuspend m s
  | .mramClrResume m => Sys2Proof.Machine.execMramClrResume m s
  | .clearStepDone => Sys2Proof.Machine.execClearStepDone s
  | .patrolRead bits => Sys2Proof.Machine.execPatrolRead bits s
  | .retirementDone lost => Sys2Proof.Machine.execRetirementDone lost s
  | .queueWrite q e => Sys2Proof.Machine.execQueueWrite q e s
  | .queueStallRelease q => Sys2Proof.Machine.execQueueStallRelease q s
  | .qDrop m v => Sys2Proof.Machine.execQDrop m v s
  | .qDropComplete q => Sys2Proof.Machine.execQDropComplete q s
  | .gateRuleWrite m addr v => Sys2Proof.Machine.execGateRuleWrite m addr v s
  | .gateSync m => Sys2Proof.Machine.execGateSync m s
  | .gateSyncReturn => Sys2Proof.Machine.execGateSyncReturn s
  | .gateSyncTimeout m => Sys2Proof.Machine.execGateSyncTimeout m s
  | .feRun m => Sys2Proof.Machine.execFeRun m s
  | .feStop m => Sys2Proof.Machine.execFeStop m s
  | .feConfigWrite m addr v => Sys2Proof.Machine.execFeConfigWrite m addr v s
  | .bfeOutWrite m v => Sys2Proof.Machine.execBfeOutWrite m v s
  | .rowBoundary => Sys2Proof.Machine.execRowBoundary s
  | .biasWrite m n v => Sys2Proof.Machine.execBiasWrite m n v s
  | .biasLimit n => Sys2Proof.Machine.execBiasLimit n s
  | .fptMeasure raw snsUv => Sys2Proof.Machine.execFptMeasure raw snsUv s
  | .fptStale => Sys2Proof.Machine.execFptStale s
  | .shtPosChange pos1 pos0 => Sys2Proof.Machine.execShtPosChange pos1 pos0 s
  | .shtPosFault => Sys2Proof.Machine.execShtPosFault s
  | .shtClose m => Sys2Proof.Machine.execShtClose m s
  | .shtOpen m => Sys2Proof.Machine.execShtOpen m s
  | .shtEvent m => Sys2Proof.Machine.execShtEvent m s
  | .shtPulseEnd volts => Sys2Proof.Machine.execShtPulseEnd volts s
  | .shtSettleTimeout => Sys2Proof.Machine.execShtSettleTimeout s
  | .shtDwellEnd => Sys2Proof.Machine.execShtDwellEnd s
  | .shtRecoverEnd => Sys2Proof.Machine.execShtRecoverEnd s
  | .reservoirReady => Sys2Proof.Machine.execReservoirReady s
  | .pipelineSample code clip ecc => Sys2Proof.Machine.execPipelineSample code clip ecc s
  | .nucCoefWrite m v => Sys2Proof.Machine.execNucCoefWrite m v s
  | .nucCoefRead m => Sys2Proof.Machine.execNucCoefRead m s
  | .nucSetsel m v => Sys2Proof.Machine.execNucSetsel m v s
  | .tdiApply m => Sys2Proof.Machine.execTdiApply m s
  | .calBegin c => Sys2Proof.Machine.execCalBegin c s
  | .calPointReady c => Sys2Proof.Machine.execCalPointReady c s
  | .calCommit c => Sys2Proof.Machine.execCalCommit c s
  | .calDiscard c => Sys2Proof.Machine.execCalDiscard c s
  | .calAbort c => Sys2Proof.Machine.execCalAbort c s
  | .calStatus c => Sys2Proof.Machine.execCalStatus c s
  | .calExport c => Sys2Proof.Machine.execCalExport c s
  | .calImport c => Sys2Proof.Machine.execCalImport c s
  | .calComputeDone => Sys2Proof.Machine.execCalComputeDone s
  | .calWriteDone => Sys2Proof.Machine.execCalWriteDone s
  | .calSettleTimeout => Sys2Proof.Machine.execCalSettleTimeout s
  | .calWaitTimeout => Sys2Proof.Machine.execCalWaitTimeout s
  | .calDriftTimeout => Sys2Proof.Machine.execCalDriftTimeout s
  | .calReselect => Sys2Proof.Machine.execCalReselect s
  | .calExpiryCheck => Sys2Proof.Machine.execCalExpiryCheck s
  | .visEnable m v => Sys2Proof.Machine.execVisEnable m v s
  | .visLock khz => Sys2Proof.Machine.execVisLock khz s
  | .visLockLost => Sys2Proof.Machine.execVisLockLost s
  | .visLineStart => Sys2Proof.Machine.execVisLineStart s
  | .visLineEnd clocks => Sys2Proof.Machine.execVisLineEnd clocks s
  | .visSwap m v => Sys2Proof.Machine.execVisSwap m v s
  | .visRegWrite m addr v => Sys2Proof.Machine.execVisRegWrite m addr v s
  | .visTrigEnable m v => Sys2Proof.Machine.execVisTrigEnable m v s
  | .visTrigger high => Sys2Proof.Machine.execVisTrigger high s
  | .choreoLoad c => Sys2Proof.Machine.execChoreoLoad c s
  | .checkPassDone failed => Sys2Proof.Machine.execCheckPassDone failed s
  | .drainEnd => Sys2Proof.Machine.execDrainEnd s
  | .applyDone failed => Sys2Proof.Machine.execApplyDone failed s
  | .choreoUnload c => Sys2Proof.Machine.execChoreoUnload c s
  | .tallyEntry => Sys2Proof.Machine.execTallyEntry s
  | .cellMemAccess m wr addr len data => Sys2Proof.Machine.execCellMemAccess m wr addr len data s
  | .cellAdd iss lanes d a b f => Sys2Proof.Machine.execCellAdd iss lanes d a b f s
  | .cellAdds iss lanes d a b f => Sys2Proof.Machine.execCellAdds iss lanes d a b f s
  | .cellSub iss lanes d a b f => Sys2Proof.Machine.execCellSub iss lanes d a b f s
  | .cellSubs iss lanes d a b f => Sys2Proof.Machine.execCellSubs iss lanes d a b f s
  | .cellAnd iss lanes d a b f => Sys2Proof.Machine.execCellAnd iss lanes d a b f s
  | .cellOr iss lanes d a b f => Sys2Proof.Machine.execCellOr iss lanes d a b f s
  | .cellXor iss lanes d a b f => Sys2Proof.Machine.execCellXor iss lanes d a b f s
  | .cellAndn iss lanes d a b f => Sys2Proof.Machine.execCellAndn iss lanes d a b f s
  | .cellMul iss lanes d a b f => Sys2Proof.Machine.execCellMul iss lanes d a b f s
  | .cellMuls iss lanes d a b f => Sys2Proof.Machine.execCellMuls iss lanes d a b f s
  | .cellMulh iss d a b f => Sys2Proof.Machine.execCellMulh iss d a b f s
  | .cellMulhu iss d a b f => Sys2Proof.Machine.execCellMulhu iss d a b f s
  | .cellMin iss lanes d a b f => Sys2Proof.Machine.execCellMin iss lanes d a b f s
  | .cellMax iss lanes d a b f => Sys2Proof.Machine.execCellMax iss lanes d a b f s
  | .cellMinu iss lanes d a b f => Sys2Proof.Machine.execCellMinu iss lanes d a b f s
  | .cellMaxu iss lanes d a b f => Sys2Proof.Machine.execCellMaxu iss lanes d a b f s
  | .cellShl iss lanes d a b f => Sys2Proof.Machine.execCellShl iss lanes d a b f s
  | .cellShr iss lanes d a b f => Sys2Proof.Machine.execCellShr iss lanes d a b f s
  | .cellSar iss lanes d a b f => Sys2Proof.Machine.execCellSar iss lanes d a b f s
  | .cellRor iss lanes d a b f => Sys2Proof.Machine.execCellRor iss lanes d a b f s
  | .cellMac iss d a b f => Sys2Proof.Machine.execCellMac iss d a b f s
  | .cellMacs iss d a b f => Sys2Proof.Machine.execCellMacs iss d a b f s
  | .cellCmp iss a b => Sys2Proof.Machine.execCellCmp iss a b s
  | .cellTst iss a b => Sys2Proof.Machine.execCellTst iss a b s
  | .cellNeg iss lanes d a f => Sys2Proof.Machine.execCellNeg iss lanes d a f s
  | .cellNegs iss lanes d a f => Sys2Proof.Machine.execCellNegs iss lanes d a f s
  | .cellAbs iss lanes d a f => Sys2Proof.Machine.execCellAbs iss lanes d a f s
  | .cellAbss iss lanes d a f => Sys2Proof.Machine.execCellAbss iss lanes d a f s
  | .cellClz iss d a f => Sys2Proof.Machine.execCellClz iss d a f s
  | .cellMov iss d a f => Sys2Proof.Machine.execCellMov iss d a f s
  | .cellAddi iss d a f imm => Sys2Proof.Machine.execCellAddi iss d a f imm s
  | .cellAddis iss d a f imm => Sys2Proof.Machine.execCellAddis iss d a f imm s
  | .cellAndi iss d a f imm => Sys2Proof.Machine.execCellAndi iss d a f imm s
  | .cellOri iss d a f imm => Sys2Proof.Machine.execCellOri iss d a f imm s
  | .cellXori iss d a f imm => Sys2Proof.Machine.execCellXori iss d a f imm s
  | .cellCmpi iss a imm => Sys2Proof.Machine.execCellCmpi iss a imm s
  | .cellShi iss d a f kind amount => Sys2Proof.Machine.execCellShi iss d a f kind amount s
  | .cellMovl iss d f imm => Sys2Proof.Machine.execCellMovl iss d f imm s
  | .cellMovh iss d f imm => Sys2Proof.Machine.execCellMovh iss d f imm s
  | .cellMova iss a b => Sys2Proof.Machine.execCellMova iss a b s
  | .cellRda iss d a => Sys2Proof.Machine.execCellRda iss d a s
  | .cellAdda iss a imm => Sys2Proof.Machine.execCellAdda iss a imm s
  | .cellDiv iss d a b => Sys2Proof.Machine.execCellDiv iss d a b s
  | .cellDivu iss d a b => Sys2Proof.Machine.execCellDivu iss d a b s
  | .cellRem iss d a b => Sys2Proof.Machine.execCellRem iss d a b s
  | .cellRemu iss d a b => Sys2Proof.Machine.execCellRemu iss d a b s
  | .cellRecip iss d a => Sys2Proof.Machine.execCellRecip iss d a s
  | .cellSqrt iss d a => Sys2Proof.Machine.execCellSqrt iss d a s
  | .cellSqrtq iss d a => Sys2Proof.Machine.execCellSqrtq iss d a s
  | .dsuResult c => Sys2Proof.Machine.execDsuResult c s
  | .cellLdw iss d a p off ecc => Sys2Proof.Machine.execCellLdw iss d a p off ecc s
  | .cellLdh iss d a p off ecc => Sys2Proof.Machine.execCellLdh iss d a p off ecc s
  | .cellLdhu iss d a p off ecc => Sys2Proof.Machine.execCellLdhu iss d a p off ecc s
  | .cellLdb iss d a p off ecc => Sys2Proof.Machine.execCellLdb iss d a p off ecc s
  | .cellLdbu iss d a p off ecc => Sys2Proof.Machine.execCellLdbu iss d a p off ecc s
  | .cellStw iss d a p off => Sys2Proof.Machine.execCellStw iss d a p off s
  | .cellSth iss d a p off ecc => Sys2Proof.Machine.execCellSth iss d a p off ecc s
  | .cellStb iss d a p off ecc => Sys2Proof.Machine.execCellStb iss d a p off ecc s
  | .cellB iss cond off => Sys2Proof.Machine.execCellB iss cond off s
  | .cellJal iss d off => Sys2Proof.Machine.execCellJal iss d off s
  | .cellJr iss a => Sys2Proof.Machine.execCellJr iss a s
  | .cellHalt iss => Sys2Proof.Machine.execCellHalt iss s
  | .cellPop iss d slot => Sys2Proof.Machine.execCellPop iss d slot s
  | .cellPush iss a slot e q x => Sys2Proof.Machine.execCellPush iss a slot e q x s
  | .cellDrop iss slot => Sys2Proof.Machine.execCellDrop iss slot s
  | .cellAvail iss d slot => Sys2Proof.Machine.execCellAvail iss d slot s
  | .cellSpace iss d slot => Sys2Proof.Machine.execCellSpace iss d slot s
  | .cellRds iss d sel => Sys2Proof.Machine.execCellRds iss d sel s
  | .cellWrf iss a => Sys2Proof.Machine.execCellWrf iss a s
  | .cellGpw iss a pin => Sys2Proof.Machine.execCellGpw iss a pin s
  | .cellGpr iss d pin => Sys2Proof.Machine.execCellGpr iss d pin s
  | .cellTarm iss a k => Sys2Proof.Machine.execCellTarm iss a k s
  | .cellTwait iss k => Sys2Proof.Machine.execCellTwait iss k s
  | .cellTrd iss d k => Sys2Proof.Machine.execCellTrd iss d k s
  | .cellNop iss => Sys2Proof.Machine.execCellNop iss s
  | .decisionRecord => Sys2Proof.Machine.execDecisionRecord s
  | .ejEnable m v => Sys2Proof.Machine.execEjEnable m v s
  | .ejArm m v => Sys2Proof.Machine.execEjArm m v s
  | .fireDue port => Sys2Proof.Machine.execFireDue port s
  | .syncDue port => Sys2Proof.Machine.execSyncDue port s
  | .statusPoll port => Sys2Proof.Machine.execStatusPoll port s
  | .linkOpenProbe port => Sys2Proof.Machine.execLinkOpenProbe port s
  | .portReprobe port => Sys2Proof.Machine.execPortReprobe port s
  | .fireAck port seq res conf => Sys2Proof.Machine.execFireAck port seq res conf s
  | .syncRsp port seq t2 t3 t4 => Sys2Proof.Machine.execSyncRsp port seq t2 t3 t4 s
  | .statusFrame port seq nvalves flags conf => Sys2Proof.Machine.execStatusFrame port seq nvalves flags conf s
  | .exchangeTimeout port => Sys2Proof.Machine.execExchangeTimeout port s
  | .ejNoconf port id => Sys2Proof.Machine.execEjNoconf port id s
  | .ejDriverHot port => Sys2Proof.Machine.execEjDriverHot port s
  | .driverCool port => Sys2Proof.Machine.execDriverCool port s
  | .admitLane lane => Sys2Proof.Machine.execAdmit lane s
  | .linkSignal port => Sys2Proof.Machine.execLinkSignal port s
  | .trainReceived port letter state => Sys2Proof.Machine.execTrainReceived port letter state s
  | .linkDown port => Sys2Proof.Machine.execLinkDown port s
  | .linkIdleTimeout port => Sys2Proof.Machine.execLinkIdleTimeout port s
  | .frameHeader port header stamp => Sys2Proof.Machine.execFrameHeader port header stamp s
  | .frameEnd port payload fcs eof fault => Sys2Proof.Machine.execFrameEnd port payload fcs eof fault s
  | .ack port s0 s1 chk => Sys2Proof.Machine.execAck port s0 s1 chk s
  | .nak port s0 s1 chk => Sys2Proof.Machine.execNak port s0 s1 chk s
  | .ackTimer port => Sys2Proof.Machine.execAckTimer port s
  | .busyBackoff port => Sys2Proof.Machine.execBusyBackoff port s
  | .replayTimeout port => Sys2Proof.Machine.execReplayTimeout port s
  | .enum port => Sys2Proof.Machine.execEnum port s
  | .enumRound => Sys2Proof.Machine.execEnumRound s
  | .assign port => Sys2Proof.Machine.execAssign port s
  | .time port => Sys2Proof.Machine.execTime port s
  | .timePeriod => Sys2Proof.Machine.execTimePeriod s
  | .pdelayPeriod => Sys2Proof.Machine.execPdelayPeriod s
  | .pdelayReq port => Sys2Proof.Machine.execPdelayReq port s
  | .pdelayRsp port => Sys2Proof.Machine.execPdelayRsp port s
  | .timeSourceSwitch => Sys2Proof.Machine.execTimeSourceSwitch s
  | .timeLost => Sys2Proof.Machine.execTimeLost s
  | .txn port => Sys2Proof.Machine.execTxn port s
  | .txnResponse port => Sys2Proof.Machine.execTxnResponse port s
  | .txnRetry txn => Sys2Proof.Machine.execTxnRetry txn s
  | .featureSend => Sys2Proof.Machine.execFeatureSend s
  | .feature port => Sys2Proof.Machine.execFeature port s
  | .featureTimeout pos => Sys2Proof.Machine.execFeatureTimeout pos s
  | .hello c => Sys2Proof.Machine.execHello c s
  | .status c => Sys2Proof.Machine.execStatus c s
  | .setTime c => Sys2Proof.Machine.execSetTime c s
  | .setUtc c => Sys2Proof.Machine.execSetUtc c s
  | .eventMask c => Sys2Proof.Machine.execEventMask c s
  | .diagRead c => Sys2Proof.Machine.execDiagRead c s
  | .resetDevice c => Sys2Proof.Machine.execResetDevice c s
  | .reenumerate c => Sys2Proof.Machine.execReenumerate c s
  | .serviceFire c => Sys2Proof.Machine.execServiceFire c s
  | .shutterEvent c => Sys2Proof.Machine.execShutterEvent c s
  | .inject c => Sys2Proof.Machine.execInject c s
  | .loopSet c => Sys2Proof.Machine.execLoopSet c s
  | .loopStatus c => Sys2Proof.Machine.execLoopStatus c s
  | .uploadOpen c => Sys2Proof.Machine.execUploadOpen c s
  | .uploadData c => Sys2Proof.Machine.execUploadData c s
  | .uploadClose c => Sys2Proof.Machine.execUploadClose c s
  | .downloadRead c => Sys2Proof.Machine.execDownloadRead c s
  | .fwStage c => Sys2Proof.Machine.execFwStage c s
  | .fwSchedule c => Sys2Proof.Machine.execFwSchedule c s
  | .fwCancel c => Sys2Proof.Machine.execFwCancel c s
  | .fwStatus c => Sys2Proof.Machine.execFwStatus c s
  | .tenantKeys c fault => Sys2Proof.Machine.execTenantKeys c fault s
  | .appletLoad c => Sys2Proof.Machine.execAppletLoad c s
  | .statementRead c => Sys2Proof.Machine.execStatementRead c s
  | .periodClose c => Sys2Proof.Machine.execPeriodClose c s
  | .plantConfig c => Sys2Proof.Machine.execPlantConfig c s
  | .plantStatus c => Sys2Proof.Machine.execPlantStatus c s
  | .hostFrameInvalid foreign => Sys2Proof.Machine.execHostFrameInvalid foreign s
  | .eventAck epoch eseq => Sys2Proof.Machine.execEventAck epoch eseq s
  | .eventResend => Sys2Proof.Machine.execEventResend s
  | .hostLinkDown => Sys2Proof.Machine.execHostLinkDown s
  | .plantStatusDatagram => Sys2Proof.Machine.execPlantStatusDatagram s
  | .statementResend => Sys2Proof.Machine.execStatementResend s
  | .arpRequest ip => Sys2Proof.Machine.execArpRequest ip s
  | .arpRefresh => Sys2Proof.Machine.execArpRefresh s
  | .plantNoarp => Sys2Proof.Machine.execPlantNoarp s
  | .icmpEcho data => Sys2Proof.Machine.execIcmpEcho data s
  | .plantRxDiscard => Sys2Proof.Machine.execPlantRxDiscard s
  | .plantLinkUp => Sys2Proof.Machine.execPlantLinkUp s
  | .plantLinkDown => Sys2Proof.Machine.execPlantLinkDown s
  | .loopMeasure n ua => Sys2Proof.Machine.execLoopMeasure n ua s
  | .mailboxRequest m v => Sys2Proof.Machine.execMailboxRequest m v s
  | .mailboxResponse status raddr => Sys2Proof.Machine.execMailboxResponse status raddr s
  | .counterIncrement m n => Sys2Proof.Machine.execCounterIncrement m n s
  | .lcTransition lc met => Sys2Proof.Machine.execLcTransition lc met s
  | .tamperSensor sensor => Sys2Proof.Machine.execTamperSensor sensor s
  | .rngWindow pass => Sys2Proof.Machine.execRngWindow pass s
  | .dbgLevelWrite secure => Sys2Proof.Machine.execDbgLevelWrite secure s
  | .dbgSignature lulomus owner => Sys2Proof.Machine.execDbgSignature lulomus owner s
  | .dbgClose m v => Sys2Proof.Machine.execDbgClose m v s
  | .spreadMode m v => Sys2Proof.Machine.execSpreadMode m v s
  | .clearWrite m slot => Sys2Proof.Machine.execClearWrite m slot s
  | .invalidate m slot => Sys2Proof.Machine.execInvalidate m slot s
  | .loadSess m reg slot => Sys2Proof.Machine.execLoadSess m reg slot s
  | .zeroSess m reg => Sys2Proof.Machine.execZeroSess m reg s
  | .keyRemask => Sys2Proof.Machine.execKeyRemask s
  | .setupChallenge port => Sys2Proof.Machine.execSetupChallenge port s
  | .setupResponse port => Sys2Proof.Machine.execSetupResponse port s
  | .setupConfirm port => Sys2Proof.Machine.execSetupConfirm port s
  | .setupDone port => Sys2Proof.Machine.execSetupDone port s
  | .setupTimeout pos pathB => Sys2Proof.Machine.execSetupTimeout pos pathB s
  | .setupRetry pos pathB => Sys2Proof.Machine.execSetupRetry pos pathB s
  | .tenantKeyDelivery port => Sys2Proof.Machine.execTenantKeyDelivery port s
  | .digSubmit m addr => Sys2Proof.Machine.execDigSubmit m addr s
  | .cipSubmit m addr => Sys2Proof.Machine.execCipSubmit m addr s
  | .pkaSubmit m addr => Sys2Proof.Machine.execPkaSubmit m addr s
  | .engSha256 => Sys2Proof.Machine.execEngSha256 s
  | .engSha384 => Sys2Proof.Machine.execEngSha384 s
  | .engSha512 => Sys2Proof.Machine.execEngSha512 s
  | .engHmacSha256 => Sys2Proof.Machine.execEngHmacSha256 s
  | .engHmacSha384 => Sys2Proof.Machine.execEngHmacSha384 s
  | .engHmacSha512 => Sys2Proof.Machine.execEngHmacSha512 s
  | .engEcbEncrypt fault => Sys2Proof.Machine.execEngEcbEncrypt fault s
  | .engEcbDecrypt fault => Sys2Proof.Machine.execEngEcbDecrypt fault s
  | .engCbcEncrypt fault => Sys2Proof.Machine.execEngCbcEncrypt fault s
  | .engCbcDecrypt fault => Sys2Proof.Machine.execEngCbcDecrypt fault s
  | .engCtr fault => Sys2Proof.Machine.execEngCtr fault s
  | .engGcmEncrypt fault => Sys2Proof.Machine.execEngGcmEncrypt fault s
  | .engGcmDecrypt fault => Sys2Proof.Machine.execEngGcmDecrypt fault s
  | .engCmac fault => Sys2Proof.Machine.execEngCmac fault s
  | .engKeyWrap fault => Sys2Proof.Machine.execEngKeyWrap fault s
  | .engKeyUnwrap fault => Sys2Proof.Machine.execEngKeyUnwrap fault s
  | .engKeygen => Sys2Proof.Machine.execEngKeygen s
  | .engPublic => Sys2Proof.Machine.execEngPublic s
  | .engSign fault => Sys2Proof.Machine.execEngSign fault s
  | .engVerify => Sys2Proof.Machine.execEngVerify s
  | .engEcdh => Sys2Proof.Machine.execEngEcdh s
  | .descriptorComplete eng => Sys2Proof.Machine.execDescriptorComplete eng s
  | .deltaReport => Sys2Proof.Machine.execDeltaReport s
  | .deltaReportApply port => Sys2Proof.Machine.execDeltaReportApply port s
  | .deltaAck port => Sys2Proof.Machine.execDeltaAck port s
  | .persistenceRound => Sys2Proof.Machine.execPersistenceRound s
  | .highWaterUpdate => Sys2Proof.Machine.execHighWaterUpdate s
  | .hookInit => Sys2Proof.Machine.execHookInit s
  | .hookTick slot => Sys2Proof.Machine.execHookTick slot s
  | .hookClose => Sys2Proof.Machine.execHookClose s
  | .hookLoadCheck => Sys2Proof.Machine.execHookLoadCheck s
  | .acsPush8 => Sys2Proof.Machine.execAcsPush8 s
  | .acsPush16 => Sys2Proof.Machine.execAcsPush16 s
  | .acsPush32 => Sys2Proof.Machine.execAcsPush32 s
  | .acsDup => Sys2Proof.Machine.execAcsDup s
  | .acsDrop => Sys2Proof.Machine.execAcsDrop s
  | .acsSwap => Sys2Proof.Machine.execAcsSwap s
  | .acsOver => Sys2Proof.Machine.execAcsOver s
  | .acsPick => Sys2Proof.Machine.execAcsPick s
  | .acsAdd => Sys2Proof.Machine.execAcsAdd s
  | .acsSub => Sys2Proof.Machine.execAcsSub s
  | .acsMul => Sys2Proof.Machine.execAcsMul s
  | .acsDivu => Sys2Proof.Machine.execAcsDivu s
  | .acsRemu => Sys2Proof.Machine.execAcsRemu s
  | .acsDivs => Sys2Proof.Machine.execAcsDivs s
  | .acsRems => Sys2Proof.Machine.execAcsRems s
  | .acsAnd => Sys2Proof.Machine.execAcsAnd s
  | .acsOr => Sys2Proof.Machine.execAcsOr s
  | .acsXor => Sys2Proof.Machine.execAcsXor s
  | .acsNot => Sys2Proof.Machine.execAcsNot s
  | .acsShl => Sys2Proof.Machine.execAcsShl s
  | .acsShr => Sys2Proof.Machine.execAcsShr s
  | .acsSar => Sys2Proof.Machine.execAcsSar s
  | .acsEq => Sys2Proof.Machine.execAcsEq s
  | .acsLtu => Sys2Proof.Machine.execAcsLtu s
  | .acsLts => Sys2Proof.Machine.execAcsLts s
  | .acsAdd64 => Sys2Proof.Machine.execAcsAdd64 s
  | .acsSub64 => Sys2Proof.Machine.execAcsSub64 s
  | .acsLtu64 => Sys2Proof.Machine.execAcsLtu64 s
  | .acsMulu64 => Sys2Proof.Machine.execAcsMulu64 s
  | .acsLdw => Sys2Proof.Machine.execAcsLdw s
  | .acsStw => Sys2Proof.Machine.execAcsStw s
  | .acsLdb => Sys2Proof.Machine.execAcsLdb s
  | .acsStb => Sys2Proof.Machine.execAcsStb s
  | .acsJmp => Sys2Proof.Machine.execAcsJmp s
  | .acsJz => Sys2Proof.Machine.execAcsJz s
  | .acsJnz => Sys2Proof.Machine.execAcsJnz s
  | .acsCall => Sys2Proof.Machine.execAcsCall s
  | .acsRet => Sys2Proof.Machine.execAcsRet s
  | .acsEnd => Sys2Proof.Machine.execAcsEnd s
  | .acsSysTime => Sys2Proof.Machine.execAcsSysTime s
  | .acsPeriod => Sys2Proof.Machine.execAcsPeriod s
  | .acsTally => Sys2Proof.Machine.execAcsTally s
  | .acsFloor => Sys2Proof.Machine.execAcsFloor s
  | .acsRaiseFloor => Sys2Proof.Machine.execAcsRaiseFloor s
  | .acsHmac => Sys2Proof.Machine.execAcsHmac s
  | .acsRandom => Sys2Proof.Machine.execAcsRandom s
  | .acsCloseReq => Sys2Proof.Machine.execAcsCloseReq s
  | .acsOut => Sys2Proof.Machine.execAcsOut s
  | .acsLoadInfo => Sys2Proof.Machine.execAcsLoadInfo s
  | .acsLanes => Sys2Proof.Machine.execAcsLanes s
  | .copyDone => Sys2Proof.Machine.execCopyDone s
  | .chunkSend => Sys2Proof.Machine.execChunkSend s
  | .fwBlock port => Sys2Proof.Machine.execFwBlock port s
  | .fwOpen port => Sys2Proof.Machine.execFwOpen port s
  | .fwQuery port => Sys2Proof.Machine.execFwQuery port s
  | .fwArm port => Sys2Proof.Machine.execFwArm port s
  | .fwDisarm port => Sys2Proof.Machine.execFwDisarm port s
  | .chainLoadRetry => Sys2Proof.Machine.execChainLoadRetry s
  | .switchCommit => Sys2Proof.Machine.execSwitchCommit s
  | .switchover => Sys2Proof.Machine.execSwitchover s
  | .fwReady m v => Sys2Proof.Machine.execFwReady m v s
  | .healthConfirm m v => Sys2Proof.Machine.execHealthConfirm m v s
  | .healthCheck => Sys2Proof.Machine.execHealthCheck s
  | .probationExpired => Sys2Proof.Machine.execProbationExpired s
  | .errorRaise l => Sys2Proof.Machine.execErrorRaise l s
  | .errDone m v => Sys2Proof.Machine.execErrDone m v s
  | .safeRequest m v => Sys2Proof.Machine.execSafeRequest m v s
  | .safeTimeout => Sys2Proof.Machine.execSafeTimeout s
  | .errReport port => Sys2Proof.Machine.execErrReport port s
  | .takeoverProbe => Sys2Proof.Machine.execTakeoverProbe s
  | .takeover => Sys2Proof.Machine.execTakeover s
  | .runhrsUpdate => Sys2Proof.Machine.execRunhrsUpdate s
  | .biasLimitEnd n => Sys2Proof.Machine.execBiasLimitEnd n s
  | .bankResponseDiscarded port wrong => Sys2Proof.Machine.execBankResponseDiscarded port wrong s
  | .signalLost port => Sys2Proof.Machine.execSignalLost port s
  | .hostLinkUp => Sys2Proof.Machine.execHostLinkUp s
  | .unknownCommand c code => Sys2Proof.Machine.execUnknownCommand c code s
  | .arpReply ip => Sys2Proof.Machine.execArpReply ip s
  | .trstNAssert => Sys2Proof.Machine.execTrstNAssert s
  | .illegalInstruction iss => Sys2Proof.Machine.execIllegalInstruction iss s
  | .acsBadOpcode => Sys2Proof.Machine.execAcsBadOpcode s
  | .admittingShutterRetry lane => Sys2Proof.Machine.execAdmittingShutterRetry lane s
  | .admissionShutterRetry lane => Sys2Proof.Machine.execAdmissionShutterRetry lane s
  | .injectTimeout => Sys2Proof.Machine.execInjectTimeout s
  | .rngRequestTimeout => Sys2Proof.Machine.execRngRequestTimeout s

end Sys2Proof.Machine
end

