-- ==== Sys2Proof/Machine/Idle.lean ====
section
/-! DEFINITION. What one step does when no command waits: a tick of curtain time passes, and the control core goes on with what it has
accepted (log 11). -/

namespace Sys2Proof.Machine

/-- A port holds no command whose T_ON + WIDTH is still to come (R330). -/
def portSpent (s : State) (n : Nat) : Bool :=
  let p := s.ejp n
  p.queue.isEmpty && (match p.exch with | some x => x.cmds.isEmpty | none => true) &&
    (p.await ++ p.unknown).all fun c => decide (c.tOn + 200 * c.width ≤ s.ct.toNat)

/-- A lane that has left SORTING keeps ARM until every command it accepted has passed or has been dropped (R330). -/
def armRelease (s : State) : State :=
  if armed s && decide (s.lanes.own.state ≠ .sorting) && !s.lanes.admitPending && ((List.range 4).all (portSpent s)) then ejDisarm s else s

/-- A worker's notes for the manager leave as transactions once a session key exists for the path home. -/
def sendNotes (s : State) : State :=
  if s.isManager then s.modRing fun r => { r with notes := [] }
  else if s.position = 0xFF ∨ (sessKey s s.position (routeHome s)).isEmpty = true then s
  else s.ring.notes.foldl (fun t b => startTxn t 0 false b .quiet) (s.modRing fun r => { r with notes := [] })

/-- What running firmware does at a tick. -/
def firmwareTick (s : State) : State :=
  let s1 := armRelease (loadAbandoned (readFlag s))
  let s2 := hostAdvance (admitAdvance (injectDrain s1.host.injects.length s1))
  sendNotes (if s2.isManager then eventLost s2 else s2)

/-- The watchdog has not been kicked for TIMEOUT milliseconds, 0 acting as 1 (R101). -/
def wdogDue (s : State) : Bool :=
  s.rdb Reg.RST_WDOG 16 && decide (s.core.kick + max 1 (s.rdf Reg.RST_WDOG 15 0) * 200000 ≤ s.svc.ticks)

/-- The reset of an answered RESET_DEVICE, once the response has left (R383). -/
def dueReset (s : State) : State :=
  if s.rst.due && (s.frl 0).loc.isEmpty && (s.frl 1).loc.isEmpty then deviceReset s 3 else s

/-- A tick of a device out of reset. -/
def tick (s : State) : State :=
  let s1 := (ctTick s).modSvc fun v => { v with ticks := v.ticks + 1 }
  let s2 := (List.finRange 8).foldl timerTick s1
  let s3 := if s2.fwRuns then firmwareTick s2 else s2
  dueReset (if s3.fwRuns && wdogDue s3 then ccRestart s3 2 else s3)

/-- The block with no command waiting. -/
def idle (s : State) : State := whenLive s tick

end Sys2Proof.Machine
end

