-- ==== Sys2Proof/Machine/CellWords.lean ====
section
/-! DEFINITION. The words of the stage cells' instructions (R280–R282): the word a cell command stands for, and the command that a
word at a cell's PC stands for. -/

namespace Sys2Proof.Machine

/-- The cell and the word of a command that is a cell instruction; none for any other command. -/
def cellWord : Instr → Option (Issue × Word)
  | .cellAdd i l d a b f => some (i, encR (if l then 2 else 1) d.val a.val b.val f 0x00)
  | .cellAdds i l d a b f => some (i, encR (if l then 2 else 1) d.val a.val b.val f 0x01)
  | .cellSub i l d a b f => some (i, encR (if l then 2 else 1) d.val a.val b.val f 0x02)
  | .cellSubs i l d a b f => some (i, encR (if l then 2 else 1) d.val a.val b.val f 0x03)
  | .cellAnd i l d a b f => some (i, encR (if l then 2 else 1) d.val a.val b.val f 0x04)
  | .cellOr i l d a b f => some (i, encR (if l then 2 else 1) d.val a.val b.val f 0x05)
  | .cellXor i l d a b f => some (i, encR (if l then 2 else 1) d.val a.val b.val f 0x06)
  | .cellAndn i l d a b f => some (i, encR (if l then 2 else 1) d.val a.val b.val f 0x07)
  | .cellMul i l d a b f => some (i, encR (if l then 2 else 1) d.val a.val b.val f 0x08)
  | .cellMuls i l d a b f => some (i, encR (if l then 2 else 1) d.val a.val b.val f 0x09)
  | .cellMulh i d a b f => some (i, encR 1 d.val a.val b.val f 0x0A)
  | .cellMulhu i d a b f => some (i, encR 1 d.val a.val b.val f 0x0B)
  | .cellMin i l d a b f => some (i, encR (if l then 2 else 1) d.val a.val b.val f 0x0C)
  | .cellMax i l d a b f => some (i, encR (if l then 2 else 1) d.val a.val b.val f 0x0D)
  | .cellMinu i l d a b f => some (i, encR (if l then 2 else 1) d.val a.val b.val f 0x0E)
  | .cellMaxu i l d a b f => some (i, encR (if l then 2 else 1) d.val a.val b.val f 0x0F)
  | .cellShl i l d a b f => some (i, encR (if l then 2 else 1) d.val a.val b.val f 0x10)
  | .cellShr i l d a b f => some (i, encR (if l then 2 else 1) d.val a.val b.val f 0x11)
  | .cellSar i l d a b f => some (i, encR (if l then 2 else 1) d.val a.val b.val f 0x12)
  | .cellRor i l d a b f => some (i, encR (if l then 2 else 1) d.val a.val b.val f 0x13)
  | .cellMac i d a b f => some (i, encR 1 d.val a.val b.val f 0x14)
  | .cellMacs i d a b f => some (i, encR 1 d.val a.val b.val f 0x15)
  | .cellNeg i l d a f => some (i, encR (if l then 2 else 1) d.val a.val 0 f 0x18)
  | .cellNegs i l d a f => some (i, encR (if l then 2 else 1) d.val a.val 0 f 0x19)
  | .cellAbs i l d a f => some (i, encR (if l then 2 else 1) d.val a.val 0 f 0x1A)
  | .cellAbss i l d a f => some (i, encR (if l then 2 else 1) d.val a.val 0 f 0x1B)
  | .cellClz i d a f => some (i, encR 1 d.val a.val 0 f 0x1C)
  | .cellMov i d a f => some (i, encR 1 d.val a.val 0 f 0x1D)
  | .cellCmp i a b => some (i, encR 1 0 a.val b.val true 0x16)
  | .cellTst i a b => some (i, encR 1 0 a.val b.val true 0x17)
  | .cellAddi i d a f imm => some (i, encI 0x03 d.val a.val f imm.toNat)
  | .cellAddis i d a f imm => some (i, encI 0x04 d.val a.val f imm.toNat)
  | .cellAndi i d a f imm => some (i, encI 0x05 d.val a.val f imm.toNat)
  | .cellOri i d a f imm => some (i, encI 0x06 d.val a.val f imm.toNat)
  | .cellXori i d a f imm => some (i, encI 0x07 d.val a.val f imm.toNat)
  | .cellCmpi i a imm => some (i, encI 0x08 0 a.val true imm.toNat)
  | .cellShi i d a f k n => some (i, encI 0x09 d.val a.val f (k.val * 256 + n.toNat))
  | .cellMovl i d f imm => some (i, encI 0x0A d.val 0 f imm.toNat)
  | .cellMovh i d f imm => some (i, encI 0x0B d.val 0 f imm.toNat)
  | .cellMova i a b => some (i, encI 0x18 a.val b.val false 0)
  | .cellRda i d a => some (i, encI 0x19 d.val a.val false 0)
  | .cellAdda i a imm => some (i, encI 0x1A a.val 0 false imm.toNat)
  | .cellDiv i d a b => some (i, encR 0x0C d.val a.val b.val false 0)
  | .cellDivu i d a b => some (i, encR 0x0C d.val a.val b.val false 1)
  | .cellRem i d a b => some (i, encR 0x0C d.val a.val b.val false 2)
  | .cellRemu i d a b => some (i, encR 0x0C d.val a.val b.val false 3)
  | .cellRecip i d a => some (i, encR 0x0C d.val a.val 0 false 4)
  | .cellSqrt i d a => some (i, encR 0x0C d.val a.val 0 false 5)
  | .cellSqrtq i d a => some (i, encR 0x0C d.val a.val 0 false 6)
  | .cellLdw i d a p off _ => some (i, encM 0x10 d.val a.val p off)
  | .cellLdh i d a p off _ => some (i, encM 0x11 d.val a.val p off)
  | .cellLdhu i d a p off _ => some (i, encM 0x12 d.val a.val p off)
  | .cellLdb i d a p off _ => some (i, encM 0x13 d.val a.val p off)
  | .cellLdbu i d a p off _ => some (i, encM 0x14 d.val a.val p off)
  | .cellStw i d a p off => some (i, encM 0x15 d.val a.val p off)
  | .cellSth i d a p off _ => some (i, encM 0x16 d.val a.val p off)
  | .cellStb i d a p off _ => some (i, encM 0x17 d.val a.val p off)
  | .cellB i c off => some (i, encB 0x20 c.val 0 off)
  | .cellJal i d off => some (i, encB 0x21 d.val 0 off)
  | .cellJr i a => some (i, encB 0x22 0 a.val 0)
  | .cellHalt i => some (i, encB 0x23 0 0 0)
  | .cellPop i d k => some (i, encS 0x28 d.val k.val false 0 false)
  | .cellPush i a k e q x => some (i, encS 0x29 a.val k.val e q x)
  | .cellDrop i k => some (i, encS 0x2A 0 k.val false 0 false)
  | .cellAvail i d k => some (i, encS 0x2B d.val k.val false 0 false)
  | .cellSpace i d k => some (i, encS 0x2C d.val k.val false 0 false)
  | .cellRds i d n => some (i, encI 0x30 d.val 0 false n.toNat)
  | .cellWrf i a => some (i, encI 0x31 0 a.val false 0)
  | .cellGpw i a n => some (i, encI 0x34 0 a.val false n.val)
  | .cellGpr i d n => some (i, encI 0x35 d.val 0 false n.val)
  | .cellTarm i a n => some (i, encI 0x36 0 a.val false n.val)
  | .cellTwait i n => some (i, encI 0x37 0 0 false n.val)
  | .cellTrd i d n => some (i, encI 0x38 d.val 0 false n.val)
  | .cellNop i => some (i, encI 0x3F 0 0 false 0)
  | _ => none

/-- The instruction of OP 0x01 or, on lanes, 0x02 that a legal word names. -/
def aluCommand (i : Issue) (lanes : Bool) (w : Word) : Option Instr :=
  let d : Fin 16 := Fin.ofNat 16 (fld w 25 22)
  let a : Fin 16 := Fin.ofNat 16 (fld w 21 18)
  let b : Fin 16 := Fin.ofNat 16 (fld w 17 14)
  let f := bitOf w 13
  match fld w 12 8 with
  | 0x00 => some (.cellAdd i lanes d a b f)
  | 0x01 => some (.cellAdds i lanes d a b f)
  | 0x02 => some (.cellSub i lanes d a b f)
  | 0x03 => some (.cellSubs i lanes d a b f)
  | 0x04 => some (.cellAnd i lanes d a b f)
  | 0x05 => some (.cellOr i lanes d a b f)
  | 0x06 => some (.cellXor i lanes d a b f)
  | 0x07 => some (.cellAndn i lanes d a b f)
  | 0x08 => some (.cellMul i lanes d a b f)
  | 0x09 => some (.cellMuls i lanes d a b f)
  | 0x0A => some (.cellMulh i d a b f)
  | 0x0B => some (.cellMulhu i d a b f)
  | 0x0C => some (.cellMin i lanes d a b f)
  | 0x0D => some (.cellMax i lanes d a b f)
  | 0x0E => some (.cellMinu i lanes d a b f)
  | 0x0F => some (.cellMaxu i lanes d a b f)
  | 0x10 => some (.cellShl i lanes d a b f)
  | 0x11 => some (.cellShr i lanes d a b f)
  | 0x12 => some (.cellSar i lanes d a b f)
  | 0x13 => some (.cellRor i lanes d a b f)
  | 0x14 => some (.cellMac i d a b f)
  | 0x15 => some (.cellMacs i d a b f)
  | 0x16 => some (.cellCmp i a b)
  | 0x17 => some (.cellTst i a b)
  | 0x18 => some (.cellNeg i lanes d a f)
  | 0x19 => some (.cellNegs i lanes d a f)
  | 0x1A => some (.cellAbs i lanes d a f)
  | 0x1B => some (.cellAbss i lanes d a f)
  | 0x1C => some (.cellClz i d a f)
  | 0x1D => some (.cellMov i d a f)
  | _ => none

/-- The DSU instruction that a legal word names. -/
def dsuCommand (i : Issue) (w : Word) : Option Instr :=
  let d : Fin 16 := Fin.ofNat 16 (fld w 25 22)
  let a : Fin 16 := Fin.ofNat 16 (fld w 21 18)
  let b : Fin 16 := Fin.ofNat 16 (fld w 17 14)
  match fld w 12 8 with
  | 0 => some (.cellDiv i d a b)
  | 1 => some (.cellDivu i d a b)
  | 2 => some (.cellRem i d a b)
  | 3 => some (.cellRemu i d a b)
  | 4 => some (.cellRecip i d a)
  | 5 => some (.cellSqrt i d a)
  | 6 => some (.cellSqrtq i d a)
  | _ => none

/-- The command that a word of a cell's code memory stands for when it issues so; none where the word is illegal (R281). -/
def cellCommand (i : Issue) (ecc : Nat) (w : Word) : Option Instr :=
  let d : Fin 16 := Fin.ofNat 16 (fld w 25 22)
  let a : Fin 16 := Fin.ofNat 16 (fld w 21 18)
  let imm : Half := BitVec.ofNat 16 (fld w 15 0)
  if !cellLegal w then none
  else match fld w 31 26 with
  | 0x01 => aluCommand i false w
  | 0x02 => aluCommand i true w
  | 0x0C => dsuCommand i w
  | 0x03 => some (.cellAddi i d a (bitOf w 17) imm)
  | 0x04 => some (.cellAddis i d a (bitOf w 17) imm)
  | 0x05 => some (.cellAndi i d a (bitOf w 17) imm)
  | 0x06 => some (.cellOri i d a (bitOf w 17) imm)
  | 0x07 => some (.cellXori i d a (bitOf w 17) imm)
  | 0x08 => some (.cellCmpi i a imm)
  | 0x09 => some (.cellShi i d a (bitOf w 17) (Fin.ofNat 4 (fld w 9 8)) (BitVec.ofNat 6 (fld w 5 0)))
  | 0x0A => some (.cellMovl i d (bitOf w 17) imm)
  | 0x0B => some (.cellMovh i d (bitOf w 17) imm)
  | 0x10 => some (.cellLdw i d (Fin.ofNat 4 (fld w 21 20)) (bitOf w 19) imm ecc)
  | 0x11 => some (.cellLdh i d (Fin.ofNat 4 (fld w 21 20)) (bitOf w 19) imm ecc)
  | 0x12 => some (.cellLdhu i d (Fin.ofNat 4 (fld w 21 20)) (bitOf w 19) imm ecc)
  | 0x13 => some (.cellLdb i d (Fin.ofNat 4 (fld w 21 20)) (bitOf w 19) imm ecc)
  | 0x14 => some (.cellLdbu i d (Fin.ofNat 4 (fld w 21 20)) (bitOf w 19) imm ecc)
  | 0x15 => some (.cellStw i d (Fin.ofNat 4 (fld w 21 20)) (bitOf w 19) imm)
  | 0x16 => some (.cellSth i d (Fin.ofNat 4 (fld w 21 20)) (bitOf w 19) imm ecc)
  | 0x17 => some (.cellStb i d (Fin.ofNat 4 (fld w 21 20)) (bitOf w 19) imm ecc)
  | 0x18 => some (.cellMova i (Fin.ofNat 4 (fld w 23 22)) a)
  | 0x19 => some (.cellRda i d (Fin.ofNat 4 (fld w 19 18)))
  | 0x1A => some (.cellAdda i (Fin.ofNat 4 (fld w 23 22)) imm)
  | 0x20 => some (.cellB i d (BitVec.ofNat 12 (fld w 11 0)))
  | 0x21 => some (.cellJal i d (BitVec.ofNat 12 (fld w 11 0)))
  | 0x22 => some (.cellJr i a)
  | 0x23 => some (.cellHalt i)
  | 0x28 => some (.cellPop i d (Fin.ofNat 4 (fld w 21 20)))
  | 0x29 => some (.cellPush i d (Fin.ofNat 4 (fld w 21 20)) (bitOf w 19) (BitVec.ofNat 2 (fld w 18 17)) (bitOf w 16))
  | 0x2A => some (.cellDrop i (Fin.ofNat 4 (fld w 21 20)))
  | 0x2B => some (.cellAvail i d (Fin.ofNat 4 (fld w 21 20)))
  | 0x2C => some (.cellSpace i d (Fin.ofNat 4 (fld w 21 20)))
  | 0x30 => some (.cellRds i d (BitVec.ofNat 3 (fld w 2 0)))
  | 0x31 => some (.cellWrf i a)
  | 0x34 => some (.cellGpw i a (Fin.ofNat 16 (fld w 3 0)))
  | 0x35 => some (.cellGpr i d (Fin.ofNat 16 (fld w 3 0)))
  | 0x36 => some (.cellTarm i a (Fin.ofNat 8 (fld w 2 0)))
  | 0x37 => some (.cellTwait i (Fin.ofNat 8 (fld w 2 0)))
  | 0x38 => some (.cellTrd i d (Fin.ofNat 8 (fld w 2 0)))
  | 0x3F => some (.cellNop i)
  | _ => none

/-- The command with the bits in error that its data access finds replaced. -/
def withEcc (ecc : Nat) : Instr → Instr
  | .cellLdw i d a p off _ => .cellLdw i d a p off ecc
  | .cellLdh i d a p off _ => .cellLdh i d a p off ecc
  | .cellLdhu i d a p off _ => .cellLdhu i d a p off ecc
  | .cellLdb i d a p off _ => .cellLdb i d a p off ecc
  | .cellLdbu i d a p off _ => .cellLdbu i d a p off ecc
  | .cellSth i d a p off _ => .cellSth i d a p off ecc
  | .cellStb i d a p off _ => .cellStb i d a p off ecc
  | c => c

end Sys2Proof.Machine
end

