-- ==== Sys2Proof/Safety.lean ====
section
/-! DEFINITION. The terms in which claims about the block are stated: when an access reaches its register, when a command does what its
row says, and the canonical form of the state. -/

namespace Sys2Proof.Machine

/-- No gate refuses the access, nothing of the write-pair buffer is held, and the master can issue it (R112, R146, R418). -/
def State.permits (s : State) (acc : Access) : Bool :=
  s.live && canAccess s acc.master && s.ms.pairs.isEmpty && (gateRefusal s acc).isNone

/-- A 4-byte write by a master reaches register `a`. -/
def State.reaches (s : State) (m : Master) (a : Nat) : Bool := s.permits { master := m, write := true, addr := a, len := 4 }

/-- A 4-byte read by a master reaches register `a`. -/
def State.readsFrom (s : State) (m : Master) (a : Nat) : Bool := s.permits { master := m, write := false, addr := a, len := 4 }

/-- Memory and registers are in their canonical form: keys strictly rising, no entry equal to what an unlisted key reads as. -/
def State.canon (s : State) : Bool := s.mem.wf && swf resetWord s.regs

/-- A cell issues the word at its PC without a stall or a fault of its own: the device is live, the cell runs, its code memory reads
without an error and holds the word, and its DSU is free. -/
def cellReady (s : State) (i : Issue) (w : Word) : Bool :=
  s.live && cellRuns s i.cell.val && (codeAt s i.cell.val (s.cell i.cell.val).pc == w) && (s.cell i.cell.val).dsu.isNone &&
    i.fetchBits == 0

/-- An instruction of a cell changes the cell alone: the cycles it took, its own change `f`, the next PC, and the register that it
writes late. -/
def cellNext (s : State) (i : Issue) (late : Option Nat) (f : CellSt → CellSt) : State :=
  s.modCell i.cell.val fun x =>
    let y := f { x with cyc := x.cyc + BitVec.ofNat 32 i.cycles }
    { y with pc := y.pc + 1, lateReg := late }

/-- A result is written to a register, and with F to the flags. -/
def cellWrote (d : Fin 16) (f : Bool) (r : Arith 32) (x : CellSt) : CellSt :=
  if f then (x.setG d r.r).setFlags r.r r.c r.v else x.setG d r.r

/-- The job of a machine-link command. -/
def hostJob (c : HostCmd) (code : Half) : HostJob :=
  { src := c.src, code := code, txn := c.txn, epoch := c.epoch, lane := c.lane.toNat, body := c.body, begun := false }

/-- The one manager's running firmware serves the machine link (R97, R386). -/
def hostServing (s : State) : Bool :=
  s.live && s.hostLink && (s.bump Reg.HOST_RXFRAMES 31 0).isManager && (s.bump Reg.HOST_RXFRAMES 31 0).fwRuns && !inRecovery s && !s.ring.duplicate

/-- R378 accepts a command as a new one. -/
def hostNew (s : State) (c : HostCmd) : Bool :=
  c.epoch == s.host.epoch && s.host.records.all (fun r => r.txn != c.txn) && s.host.jobs.all (fun j => j.txn != c.txn) && !txnStale s c.txn &&
    decide (s.host.jobs.length < 16)

/-- The state in which an accepted command has its turn: its frame is counted, HIGHEST is its TXN, and it is a job that has begun. -/
def hostBegun (s : State) (c : HostCmd) (code : Half) : State :=
  markBegun ((s.bump Reg.HOST_RXFRAMES 31 0).modHost fun h => { h with highest := some c.txn.toNat, jobs := h.jobs ++ [hostJob c code] }) (hostJob c code)

/-- A command completes with an answer: status and body. -/
def hostDone (s : State) (c : HostCmd) (code st : Half) (body : List Byte) : State := finishReply s (hostJob c code).reply st body

end Sys2Proof.Machine
end

