-- ==== Sys2Proof/Certificates/Slice0/Obligations.lean ====
section
/-! DEFINITION. The statements about the block, each with the rule of the manual it formalises. -/

open Sys2Proof Sys2Proof.Machine

/-- A step takes the command at the front of the queue, first in first out, and is its execution on the rest. The model's own
choices and readings in it: log 70 (one sender, one order). -/
def Obligations.StepRunsFrontCommand : Prop :=
  (∀ (c : Instr) (rest : List Instr) (s : State), step { s with pending := c :: rest } = exec c { s with pending := rest }) ∧
  (∀ (s : State) (nbits w : Nat), s.withFetchWord nbits w = s)

/-- The tick on an empty queue (DESIGN CHOICE, log 11), with the counter rules of R84 and R88. -/
def Obligations.EmptyQueueTicks : Prop :=
  (∀ s : State, s.pending = [] → s.live = false → step s = .next s) ∧
  (∀ s : State, s.pending = [] → s.live = true → s.fwRuns = false → s.ctArmed = false → s.ring.slew = 0 → s.rst.due = false →
    (∀ k : Fin 8, timerOn s k.val = false) → (∀ k : Fin 8, s.fab.timers[k] = (none, false)) →
    step s = .next ((s.modCt (· + 1)).modSvc fun v => { v with ticks := v.ticks + 1 })) ∧
  (∀ s : State, s.ctArmed = true → (ctTick s).ct = BitVec.ofNat 64 (s.rd64 Reg.CLK_CT_SET_LO Reg.CLK_CT_SET_HI) ∧
    (ctTick s).ctArmed = false ∧ (ctTick s).regs = s.regs)

/-- The state right after a power-on reset has been released (R9, R13, R92). The model's own choices and readings in it: log 4 (what
memory holds that nothing has written). -/
def Obligations.ResetLeaves : Prop :=
  State.reset.ct = 0 ∧ State.reset.pending = [] ∧ State.reset.mem = [] ∧
  State.reset.rd Reg.RST_WDOG = 0x000107D0 ∧ State.reset.position = 0xFF ∧ State.reset.fabLoaded = false ∧
  State.reset.rdb Reg.EJ_CTRL 1 = false ∧ (∀ q : Fin 24, (State.reset.queue q).slots = []) ∧
  State.reset.lanes.own.state = .listen ∧ State.reset.live = true ∧ State.reset.canon = true

/-- No command stops the block, and none touches the queue of waiting commands. The model's own choices and readings in it: log 6 (a
command whose occasion does not exist), log 69 (operands that a sender may give). -/
def Obligations.EveryCommandCompletes : Prop :=
  ∀ (c : Instr) (s : State), ∃ t, exec c s = .next t ∧ t.pending = s.pending

/-- The canonical form of memory and registers is an invariant of every step. The model's own choices and readings in it: log 4
(what memory holds that nothing has written). -/
def Obligations.StepKeepsCanonicalForm : Prop :=
  ∀ s t : State, s.canon = true → step s = .next t → t.canon = true

/-- The power-up sequence and the power-on resets (R43–R57, R92). -/
def Obligations.SupplySequence : Prop :=
  (∀ (s : State) (d : Bool), s.power.phase = .off →
    exec (.powerUp d) s = .next (s.modPower fun p => { p with phase := .ramping, drained := p.drained || d })) ∧
  (∀ s : State, s.power.phase = .ramping →
    exec .pllLock s = .next (setBank (setBank (((s.wrf Reg.CLK_STAT 1 0 3).wrf Reg.SYS_SUPPLY 5 3 7).modPower fun p => { p with phase := .locked })
      0 s.power.bank1) 1 s.power.bank2)) ∧
  (∀ (s : State) (role : BitVec 2) (rec : Bool), s.power.phase = .locked → s.power.bank2 ≠ .disabled → s.rst.resetNLow = false →
    s.power.drained = false →
    exec (.porRelease role rec) s = .next (releaseReset (s.modPower fun p => { p with phase := .running, drained := false }) role rec)) ∧
  (∀ (s : State) (b : Fin 2), s.power.phase ≠ .off → ioBank s b = .disabled →
    exec (.bankEnable b true) s = .next (setBank s b .on33) ∧ exec (.bankEnable b false) s = .next (setBank s b .on18)) ∧
  (∀ s : State, s.power.phase ≠ .off → s.power.phase ≠ .running → ∀ b : Fin 2, ioBank s b ≠ .disabled →
    exec (.bankDisable b) s = .next (setBank s b .disabled)) ∧
  (∀ s : State, s.power.phase = .running → s.power.bank2 ≠ .disabled →
    exec (.bankDisable 1) s = .next ((powerOnReset (setBank s 1 .disabled) 3 .ramping).wrb Reg.CLK_STAT 1 false)) ∧
  (∀ s : State, s.power.phase ≠ .off →
    exec (.powerFail false) s = .next ((banksOff (powerOnReset s 1 .off)).wrf Reg.CLK_STAT 1 0 0) ∧
    exec (.powerFail true) s = .next ((banksOff (powerOnReset s 1 .ramping)).wrf Reg.CLK_STAT 1 0 0)) ∧
  (∀ (s : State) (rail : Fin 3), s.power.phase ≠ .off →
    exec (.regulatorFault rail) s =
      .next (((banksOff (powerOnReset s 2 .ramping)).wrf Reg.CLK_STAT 1 0 0).wrb Reg.SYS_SUPPLY (3 + rail.val) false))

/-- Sources of a device reset and its release (R50, R81–R83, R90, R91, R94). -/
def Obligations.DeviceResetSources : Prop :=
  (∀ s : State, s.power.phase = .running → exec .resetNAssert s = .next (deviceReset (s.modRst fun r => { r with resetNLow := true }) 1)) ∧
  (∀ s : State, exec .resetNRise s = .next (s.modRst fun r => { r with resetNLow := false })) ∧
  (∀ (s : State) (role : BitVec 2) (rec : Bool), s.power.phase = .running → s.rst.asserted = true → s.rst.resetNLow = false →
    s.rst.clockBad = false → exec (.deviceResetRelease role rec) s = .next (releaseReset s role rec)) ∧
  (∀ (s : State) (r : Bool), s.power.phase = .running →
    exec (.clockFail r) s = .next ((deviceReset ((((s.bump Reg.CLK_STAT 31 16).wrb Reg.CLK_STAT 1 false).wrb Reg.CLK_STAT 0 (!r)).modCore
      fun c => { c with owesClockFail := true }) 2).modRst fun r => { r with clockBad := true })) ∧
  (∀ s : State, s.rst.clockBad = true →
    exec .clockRecovery s = .next ((s.wrf Reg.CLK_STAT 1 0 3).modRst fun r => { r with clockBad := false })) ∧
  (∀ (s : State) (m : Master), s.reaches m Reg.RST_DEVICE = true →
    exec (.softwareReset m 0x0000D5E1) s = .next ((deviceReset s 3).resp m []) ∧
    ∀ v : Word, v ≠ 0x0000D5E1 → exec (.softwareReset m v) s = .next (s.resp m [])) ∧
  (∀ s : State, exec .trstNAssert s = .next (s.modPower fun p => { p with tapReset := true }))

/-- A device reset leaves SRAM zero and unpoisoned (R93) and keeps MRAM (R92); the word in the programming engine completes (R91). -/
def Obligations.DeviceResetClearsSram : Prop :=
  ∀ (s : State) (cause : Nat), s.rst.asserted = false → s.mem.wf = true →
    (deviceReset s cause).ms.poison = [] ∧
    (∀ a, a < 0x20000000 ∨ 0x20800000 ≤ a → (deviceReset s cause).byteAt a = 0) ∧
    (s.mram.engine = none → ∀ a, 0x20000000 ≤ a → a < 0x20800000 → (deviceReset s cause).byteAt a = s.byteAt a)

/-- Starts and restarts of the control core (R90, R96–R101, R421, R422, R518, R523). The model's own choices and readings in it: log
40 (which interrupt lines firmware enables), log 64 (the state a restart keeps), log 71 (firmware and enclave software). -/
def Obligations.CoreRestarts : Prop :=
  (∀ s t : State, s.live = true → s.core.mode = .romStart → s.core.rootSecret = false → s.core.rootFailed = false →
    t = ((romErase (countStart s)).2.drawWord.2.modEng fun e => { e with gen := (romErase (countStart s)).2.drawWord.1 }) →
    exec (.rootSecretDone true true) s = .next (romGoesOn (installRoot ((t.modCore fun c => { c with rootSecret := true }).wrf
      Reg.KEY_STAT 9 8 1)) true (romErase (countStart s)).1) ∧
    exec (.rootSecretDone false false) s = .next (romGoesOn (raise ((t.modCore fun c => { c with rootFailed := true }).wrf
      Reg.KEY_STAT 9 8 2) Err.KEY_ROOT_FAIL (pavSrc 1)) false (romErase (countStart s)).1)) ∧
  (∀ (s : State) (ok erased : Bool), s.isManager = false → romGoesOn s ok erased = s.modCore fun c => { c with mode := .listen }) ∧
  (∀ (s : State) (m : Master), s.reaches m Reg.RST_CCRESTART = true →
    exec (.ccRestartRequest m 0x0000CC5A) s = .next ((ccRestart s 3).resp m []) ∧
    ∀ v : Word, v ≠ 0x0000CC5A → exec (.ccRestartRequest m v) s = .next (s.resp m [])) ∧
  (∀ (s : State) (m : Master), s.reaches m Reg.RST_WDOG_KICK = true →
    exec (.wdogKick m 0x0000A5C3) s = .next ((s.modCore fun c => { c with kick := s.svc.ticks }).resp m []) ∧
    ∀ v : Word, v ≠ 0x0000A5C3 → exec (.wdogKick m v) s = .next (s.resp m [])) ∧
  (∀ s : State, s.live = true → s.rdb Reg.RST_WDOG 16 = true → exec .wdogExpire s = .next (ccRestart s 2)) ∧
  (∀ s : State, s.live = true → s.rdb Reg.RST_WDOG 16 = false → exec .wdogExpire s = .next s) ∧
  (∀ s : State, s.live = true → s.core.mode = .warm → s.lc = 3 →
    exec .warmPathDone s = .next (s.modCore fun c => { c with mode := .listen })) ∧
  (∀ s : State, s.live = true → s.rdb Reg.FW_SWITCH_CTRL 0 = true → s.rd64 Reg.FW_SWITCH_AT_LO Reg.FW_SWITCH_AT_HI ≤ s.ct.toNat →
    (s.wrb Reg.ERR_EVT 14 true).isManager = true →
    exec .switchover s = .next (ccRestart (setSwitch ((s.wrb Reg.ERR_EVT 14 true).wrb Reg.FW_SWITCH_CTRL 0 false) none) 1)) ∧
  (∀ (s : State) (e : CTime), s.live = true → s.fw.probEnd = some e → e.toNat ≤ s.ct.toNat →
    exec .probationExpired s = .next (ccRestart ((s.modFw fun f => { f with probEnd := none }).wrb Reg.ERR_EVT 14 true) 1)) ∧
  (∀ (s : State) (cause : Nat), s.canon = true → calState s = 0 → s.core.mode ≠ .romStart →
    ccRestart s cause = ((s.wrf Reg.RST_CAUSE 19 16 cause).bump Reg.RST_CAUSE 31 24).modCore fun c =>
      { c with mode := .warm, kick := s.svc.ticks, owesWdog := c.owesWdog || cause == 2 })

/-- GPIO edges, general timers, and the reads and loads of curtain time (R58, R87, R88). The model's own choices and readings in it:
log 11 (what step does on an empty queue, and time), log 57 (shutter and bank details). -/
def Obligations.GpioTimersAndTime : Prop :=
  (∀ (s : State) (n : Fin 16), s.live = true → claimed s 1 n.val = false → pinDrive s n.val = none → pinBankOn s n.val = true →
    bitOf s.power.gpioIn n.val = false → s.rdb Reg.SYS_GPIO_IRQ_CFG (2 * n.val) = true →
    exec (.gpioEdge n true) s = .next ((s.modPower fun p => { p with gpioIn := p.gpioIn ||| BitVec.ofNat 16 (2 ^ n.val) }).wrb
      Reg.SYS_GPIO_IRQ_STAT n.val true)) ∧
  (∀ (s : State) (n : Fin 16), s.live = true → s.rdf Reg.SYS_GPIO_IRQ_CFG (2 * n.val + 1) (2 * n.val) = 0 →
    exec (.gpioEdge n false) s = .next (s.modPower fun p => { p with gpioIn := p.gpioIn &&& ~~~(BitVec.ofNat 16 (2 ^ n.val)) })) ∧
  (∀ (s : State) (m : Master) (k : Fin 8) (v : Word), s.reaches m (Reg.SYS_TMR_CTRL k.val) = true → claimed s 2 k.val = false →
    exec (.timerArm m k v) s = .next ((s.wr (Reg.SYS_TMR_CTRL k.val) (BitVec.ofNat 32
      (b2n (bitOf v 0) + 2 * b2n (s.rdb (Reg.SYS_TMR_CTRL k.val) 1 && !bitOf v 0 && !bitOf v 1)))).resp m [])) ∧
  (∀ (s : State) (m : Master) (k : Fin 8) (v : Word), s.reaches m (Reg.SYS_TMR_CTRL k.val) = true → claimed s 2 k.val = true →
    exec (.timerArm m k v) s = .next (s.resp m [])) ∧
  (∀ (s : State) (k : Fin 8), s.live = true → s.fab.timers[k] = (none, false) → claimed s 2 k.val = false →
    s.rdb (Reg.SYS_TMR_CTRL k.val) 0 = true → s.rdb (Reg.SYS_TMR_CTRL k.val) 1 = false →
    exec (.timerExpired k) s = .next
      (if s.rd64 (Reg.SYS_TMR_LO k.val) (Reg.SYS_TMR_HI k.val) ≤ s.ct.toNat then s.wrb (Reg.SYS_TMR_CTRL k.val) 1 true else s)) ∧
  (∀ (s : State) (m : Master), s.readsFrom m Reg.CLK_CT_LO = true →
    exec (.ctRead m) s = .next ((s.modGate fun g =>
      { g with ctShadow := g.ctShadow.set (masterIdx m) (BitVec.ofNat 32 (s.ct.toNat / 2 ^ 32)) }).resp m (bytesLE 4 (BitVec.ofNat 32 s.ct.toNat).toNat))) ∧
  (∀ (s : State) (m : Master) (v : Word), s.reaches m Reg.CLK_CT_CTRL = true →
    exec (.ctLoad m v) s = .next ((if bitOf v 0 && s.isManager then s.modCtArmed fun _ => true else s).resp m []))

/-- The latch of R87. -/
def Obligations.CurtainTimeLatch : Prop :=
  ∀ (s : State) (m : Master), s.readsFrom m Reg.CLK_CT_LO = true →
    ∃ t, exec (.ctRead m) s = .next t ∧ t.out = .busResp m (bytesLE 4 (s.ct.toNat % 2 ^ 32)) 0 :: s.out ∧
      (∀ c : CTime, ctReadHi (t.modCt fun _ => c) m = BitVec.ofNat 32 (s.ct.toNat / 2 ^ 32)) ∧
      (∀ m' : Master, m' ≠ m → ctReadHi t m' = ctReadHi s m') ∧ t.ct = s.ct ∧ t.regs = s.regs ∧ t.mem = s.mem

/-- Reads and full writes of SRAM (R108, R110, R111), and what memory reads as after them. -/
def Obligations.SramReadsAndFullWrites : Prop :=
  (∀ (s : State) (m : Master) (a : Word) (len : Nat), s.permits { master := m, write := false, addr := a.toNat, len := len } = true →
    isSram a.toNat = true → (∀ w ∈ s.ms.poison, w + 8 ≤ a.toNat ∨ a.toNat + len ≤ w) → (∀ w ∈ s.ms.poison, w % 8 = 0) →
    exec (.sramRead m a len []) s = .next (s.resp m (s.bytesAt a.toNat len))) ∧
  (∀ (s : State) (m : Master) (a : Word) (d : List Byte), s.permits { master := m, write := true, addr := a.toNat, len := 8 } = true →
    isSram a.toNat = true → a.toNat % 8 = 0 → d.length = 8 →
    exec (.sramWrite m a d []) s =
      .next (((s.setBytes a.toNat d).modMs fun x => { x with poison := nsDel x.poison a.toNat }).resp m []) ∧
    (s.setBytes a.toNat d).bytesAt a.toNat 8 = d ∧
    ∀ b, b < a.toNat ∨ a.toNat + 8 ≤ b → (s.setBytes a.toNat d).byteAt b = s.byteAt b)

/-- Poison, partial writes, write pairs and scrubbing (R110, R112–R115, R400). The model's own choices and readings in it: log 10
(accesses that are taken as one step). -/
def Obligations.SramErrorsAndScrub : Prop :=
  (∀ (s : State) (m : Master) (a : Word), s.permits { master := m, write := false, addr := a.toNat, len := 8 } = true →
    gateOf a.toNat = 1 → a.toNat % 8 = 0 → a.toNat ∈ s.ms.poison →
    exec (.sramRead m a 8 []) s = .next ((s.bump Reg.MEM_POISON_HITS 15 0).resp m (List.replicate 8 0) Err.MEM_POISON)) ∧
  (∀ (s : State) (m : Master) (a : Word) (d : List Byte), s.permits { master := m, write := true, addr := a.toNat, len := d.length } = true →
    isSram a.toNat = true → 0 < d.length → d.length < 4 → a.toNat % 8 + d.length ≤ 8 →
    exec (.sramWrite m a d []) s = .next (
      if a.toNat / 8 * 8 ∈ s.ms.poison then
        if postedWrite m a.toNat then impreciseNotice ((s.setBytes a.toNat d).resp m [])
          { master := m, write := true, addr := a.toNat / 8 * 8, len := d.length } Err.MEM_WR_POISON (sramSrc a.toNat)
        else (s.setBytes a.toNat d).resp m [] Err.MEM_WR_POISON
      else (s.setBytes a.toNat d).resp m [])) ∧
  (∀ (s : State) (m : Master) (a : Word) (d : List Byte), s.permits { master := m, write := true, addr := a.toNat, len := 4 } = true →
    isSram a.toNat = true → a.toNat % 8 = 0 → d.length = 4 →
    exec (.sramWrite m a d []) s = .next (s.modMs fun x => { x with pairs := x.pairs ++ [{ master := m, addr := a.toNat, data := d }] })) ∧
  (∀ (s : State) (m : Master) (a : Word) (d h : List Byte), s.live = true → canAccess s m = true →
    gateRefusal s { master := m, write := true, addr := a.toNat + 4, len := 4 } = none → a.toNat + 4 < 2 ^ 32 →
    isSram (a.toNat + 4) = true → a.toNat % 8 = 0 → d.length = 4 → h.length = 4 →
    s.ms.pairs = [{ master := m, addr := a.toNat, data := d }] →
    exec (.sramWrite m (a + 4) h []) s = .next (((s.setBytes a.toNat (d ++ h)).modMs fun x =>
      { x with poison := nsDel x.poison a.toNat, pairs := [] }).resp m [])) ∧
  (∀ s : State, s.live = true →
    exec (.scrubWord true []) s = .next (s.modMs fun x => { x with scrubEn := (x.scrubEn + 1) % 32768 })) ∧
  (∀ s : State, s.live = true → s.rdb Reg.MEM_SCRUB_CTRL 16 = true →
    exec (.scrubWord false []) s = .next (
      let t := s.modMs fun x => { x with scrub := (x.scrub + 1) % 65536 }
      if s.ms.scrub = 65535 then t.bump Reg.MEM_SCRUB_PASS 31 0 else t)) ∧
  (∀ (s : State) (b : List Nat), s.live = true → s.rdb Reg.MEM_SCRUB_CTRL 16 = false → exec (.scrubWord false b) s = .next s) ∧
  (∀ (s : State) (n : Nat), s.live = true → 2 ≤ n → enclaveBase + 8 * s.ms.scrubEn ∉ s.ms.poison → s.ms.scrubEn < 32768 →
    exec (.scrubWord true [n]) s = .next ((raise (s.modMs fun x => { x with poison := nsAdd x.poison (enclaveBase + 8 * x.scrubEn) })
      Err.MEM_UE 0x80 (BitVec.ofNat 64 (enclaveBase + 8 * s.ms.scrubEn))).modMs fun x => { x with scrubEn := (s.ms.scrubEn + 1) % 32768 }) ∧
    exec (.scrubWord true [1]) s = .next ((raise (s.bump Reg.PAV_MEMCE 15 0)
      Err.MEM_CE 0x80 (BitVec.ofNat 64 (enclaveBase + 8 * s.ms.scrubEn))).modMs fun x => { x with scrubEn := (s.ms.scrubEn + 1) % 32768 }))

/-- Reads, word programming and patrol of MRAM (R118–R121, R130, R579, R580). The model's own choices and readings in it: log 10
(accesses that are taken as one step), log 55 (MRAM wear and retirement). -/
def Obligations.MramWords : Prop :=
  (∀ (s : State) (m : Master) (a : Word), s.permits { master := m, write := false, addr := a.toNat, len := 8 } = true →
    gateOf a.toNat = 2 → a.toNat % 8 = 0 → sectorValid s (mramSector a.toNat) = true → a.toNat ∉ s.mram.bad →
    exec (.mramRead m a 8 []) s = .next ((wearCount s (mramSector a.toNat) 0).resp m (s.bytesAt a.toNat 8))) ∧
  (∀ (s : State) (m : Master) (a : Word), s.permits { master := m, write := false, addr := a.toNat, len := 8 } = true →
    gateOf a.toNat = 2 → a.toNat % 8 = 0 → sectorValid s (mramSector a.toNat) = false →
    exec (.mramRead m a 8 []) s = .next (s.resp m (List.replicate 8 0) Err.MRAM_NOT_VALID)) ∧
  (∀ (s : State) (m : Master) (a : Word) (d : List Byte), s.permits { master := m, write := true, addr := a.toNat, len := 8 } = true →
    gateOf a.toNat = 2 → a.toNat % 8 = 0 → d.length = 8 → inCounters a.toNat = false → sectorValid s (mramSector a.toNat) = true →
    s.mram.engine = none → s.mram.buffer = [] → s.mram.waiting = [] → s.mram.retiring = [] →
    exec (.mramWrite m a d) s = .next (s.modMram fun x => { x with
      engine := some { id := x.nextId, master := m, addr := a.toNat, data := BitVec.ofNat 64 (natLE d), last := true },
      nextId := x.nextId + 1 })) ∧
  (∀ (s : State) (m : Master) (a : Word) (d : List Byte), s.permits { master := m, write := true, addr := a.toNat, len := d.length } = true →
    gateOf a.toNat = 2 → inCounters (a.toNat / 8 * 8) = false → 0 < d.length → d.length < 4 → a.toNat % 8 + d.length ≤ 8 →
    exec (.mramWrite m a d) s = .next (s.resp m [] Err.MRAM_ALIGN)) ∧
  (∀ (s : State) (w : MWord), s.live = true → s.mram.engine = some w → s.mram.buffer = [] → s.mram.waiting = [] → w.last = true →
    exec .mramWordProgrammed s = .next (((s.setBytes w.addr (bytesLE 8 w.data.toNat)).modMram fun x =>
      { x with engine := none, bad := nsDel x.bad w.addr }).resp w.master [])) ∧
  (∀ s : State, s.live = true → sectorValid s (mramSector (0x20000000 + 8 * s.mram.patrol)) = true →
    0x20000000 + 8 * s.mram.patrol ∉ s.mram.bad →
    exec (.patrolRead 0) s = .next (wearCount (s.modMram fun x => { x with patrol := (s.mram.patrol + 1) % 1048576 })
      (mramSector (0x20000000 + 8 * s.mram.patrol)) 0)) ∧
  (∀ (s : State) (b : Nat), s.live = true → sectorValid s (mramSector (0x20000000 + 8 * s.mram.patrol)) = false →
    exec (.patrolRead b) s = .next (s.modMram fun x => { x with patrol := (s.mram.patrol + 1) % 1048576 }))

/-- Clears and retirement of MRAM sectors (R122–R125, R131, R132, R580). The model's own choices and readings in it: log 55 (MRAM
wear and retirement). -/
def Obligations.MramClears : Prop :=
  (∀ (s : State) (m : Master) (sec : BitVec 11), s.reaches m Reg.MRAM_CLR = true → s.mram.clear = none → s.mram.clearWait = none →
    s.mram.retiring = [] → clearDenied s m sec.toNat = none →
    exec (.mramClrStart m sec) s = .next (((setSectorStatus s sec.toNat 1).modMram fun x =>
      { x with clear := some { sector := sec.toNat, suspended := false, suspendRq := false, done := 0, master := m } }).resp m [])) ∧
  (∀ (s : State) (m : Master) (sec : BitVec 11) (c : ClearSt), s.reaches m Reg.MRAM_CLR = true → s.mram.clear = some c →
    clearDenied s m sec.toNat = none → exec (.mramClrStart m sec) s = .next (s.resp m [] Err.MRAM_BUSY)) ∧
  (∀ (s : State) (m : Master) (c : ClearSt), s.reaches m Reg.MRAM_CLR = true → s.mram.clear = some c → clearDenied s m c.sector = none →
    (c.suspended = false →
      exec (.mramClrSuspend m) s = .next ((s.modMram fun x => { x with clear := some { c with suspendRq := true } }).resp m []) ∧
      exec (.mramClrResume m) s = .next (s.resp m [] Err.MRAM_BUSY)) ∧
    (c.suspended = true →
      exec (.mramClrResume m) s = .next (((setSectorStatus s c.sector 1).modMram fun x =>
        { x with clear := some { c with suspended := false, suspendRq := false } }).resp m []) ∧
      exec (.mramClrSuspend m) s = .next (s.resp m [] Err.MRAM_BUSY))) ∧
  (∀ (s : State) (c : ClearSt), s.live = true → s.mram.clear = some c → c.suspended = false → s.mram.bad = [] →
    exec .clearStepDone s = .next (
      let t := s.zeroRange (sectorAddr c.sector + 8 * c.done) (sectorAddr c.sector + 8 * c.done + 64)
      if 504 ≤ c.done then ((setSectorStatus t c.sector 0).modMram fun x => { x with clear := none }).wrb Reg.ERR_EVT 2 true
      else if c.suspendRq then (setSectorStatus t c.sector 2).modMram fun x =>
        { x with clear := some { c with done := c.done + 8, suspended := true, suspendRq := false } }
      else t.modMram fun x => { x with clear := some { c with done := c.done + 8 } })) ∧
  (∀ (s : State) (sec : Nat), s.live = true → s.fwRuns = false → s.mram.retiring = [sec] → 2 ≤ s.rdf Reg.MRAM_STAT 31 24 →
    s.mram.engine = none → s.mram.buffer = [] → s.mram.waiting = [] → s.mram.clearWait = none →
    exec (.retirementDone []) s = .next (raise ((((s.modMram fun x => { x with retiring := [], remapped := nsAdd x.remapped sec }).wrf
      Reg.MRAM_STAT 31 24 (s.rdf Reg.MRAM_STAT 31 24 - 1)).wrb Reg.ERR_EVT 2 true)) Err.MRAM_RETIRED 0x04 (BitVec.ofNat 64 sec)))

/-- The crossing queues (R133–R136). The model's own choices and readings in it: log 8 (how late a queue's flags may be with an
external clock). -/
def Obligations.QueueCommands : Prop :=
  (∀ (s : State) (q : Fin 24) (e : QEntry), s.live = true → q.val ∉ [9, 10, 11, 12] → (s.queue q).dropping = false →
    (s.queue q).freedAt = none → queueFull s q = false → (s.queue q).stalled = [] → (s.queue q).discard = false →
    (s.queue q).owesAbort = false → ∃ t, exec (.queueWrite q e) s = .next t ∧
      (t.queue q).slots = (s.queue q).slots ++ [{ entry := e, time := s.ct }] ∧ (t.queue q).stalled = [] ∧
      (∀ p, p ≠ q → t.queue p = s.queue p) ∧ t.regs = s.regs ∧ t.mem = s.mem) ∧
  (∀ (s : State) (q : Fin 24) (e : QEntry), s.live = true → q.val ∈ [13, 14, 15, 17, 18, 21, 23] → (s.queue q).dropping = false →
    queueFull s q = true →
    exec (.queueWrite q e) s = .next (s.modQueue q fun x => { x with stalled := x.stalled ++ [e] })) ∧
  (∀ (s : State) (q : Fin 24) (e : QEntry), s.live = true → q.val ∉ [9, 10, 11] → queueStalls q.val = false →
    (s.queue q).dropping = false → queueFull s q = true → (s.queue q).discard = false →
    exec (.queueWrite q e) s = .next (raise ((s.modQueue q fun x =>
      { x with discard := !e.eop, owesAbort := x.owesAbort || x.midPacket, midPacket := false }).bump (Reg.Q_STAT q.val) 31 20)
      Err.Q_DROPPED 0x05 (BitVec.ofNat 64 q.val))) ∧
  (∀ (s : State) (q : Fin 24) (e : QEntry), s.live = true → q.val ∉ [9, 10, 11] → queueStalls q.val = false →
    (s.queue q).dropping = false → (s.queue q).discard = true →
    exec (.queueWrite q e) s = .next (s.modQueue q fun x => { x with discard := !e.eop })) ∧
  (∀ (s : State) (q : Fin 24) (e : QEntry), s.live = true → queueStalls q.val = true → queueFull s q = false →
    (s.queue q).stalled = [e] → exec (.queueStallRelease q) s = .next (s.modQueue q fun x =>
      { x with slots := x.slots ++ [{ entry := e, time := s.ct }], stalled := [] })) ∧
  (∀ (s : State) (m : Master) (q : Fin 24), s.reaches m Reg.Q_DROP = true → (s.queue q).begun = true →
    (s.queue q).dropping = false → (∀ e ∈ (s.queue q).slots, e.entry.eop = false ∧ readerLag q.val < s.ct.toNat - e.time.toNat) →
    exec (.qDrop m (BitVec.ofNat 32 q.val)) s =
      .next ((pumpPorts (s.modQueue q fun x => { x with slots := [], dropping := true })).resp m [])) ∧
  (∀ (s : State) (q : Fin 24) (e : QSlot) (r : List QSlot), s.live = true → (s.queue q).dropping = true →
    (s.queue q).slots = e :: r → e.entry.eop = true →
    exec (.qDropComplete q) s = .next (s.modQueue q fun x => { x with slots := r, dropping := false, begun := false }))

/-- First in, first out (R133, R135). The model's own choices and readings in it: log 8 (how late a queue's flags may be with an
external clock). -/
def Obligations.QueuesKeepOrder : Prop :=
  (∀ (s : State) (q : Fin 24) (e : QEntry), queueStalls q.val = true → (s.queue q).dropping = false →
    (((queueWrite s q e).queue q).slots.map QSlot.entry ++ ((queueWrite s q e).queue q).stalled) =
      (s.queue q).slots.map QSlot.entry ++ (s.queue q).stalled ++ [e] ∧
    ((s.queue q).slots.length ≤ queueDepth q.val → ((queueWrite s q e).queue q).slots.length ≤ queueDepth q.val)) ∧
  (∀ (s : State) (q : Fin 24) (e : QSlot) (r : List QSlot), (s.queue q).dropping = false → (s.queue q).slots = e :: r →
    (queuePop s q).1 = some e.entry ∧ ((queuePop s q).2.queue q).slots = r ∧ ∀ p, p ≠ q → (queuePop s q).2.queue p = s.queue p)

/-- Rule writes, GATE_SYNC and single register accesses (R142–R144, R157–R160, R577). The model's own choices and readings in it:
log 68 (gates and posted writes). -/
def Obligations.GateAndRegisterAccess : Prop :=
  (∀ (s : State) (m : Master) (a v : Word) (d : RegDesc), s.reaches m a.toNat = true → isRuleReg a.toNat = true →
    regDesc a.toNat = some d → ruleIgnored s m a.toNat = false →
    exec (.gateRuleWrite m a v) s = .next ((ruleTaken (s.wr a.toNat
      (applyFields d (regLocked s d a.toNat) (s.rd a.toNat) v))).resp m [])) ∧
  (∀ (s : State) (m : Master) (a v : Word), s.reaches m a.toNat = true → isRuleReg a.toNat = true → ruleIgnored s m a.toNat = true →
    exec (.gateRuleWrite m a v) s = .next (s.resp m [])) ∧
  (∀ s : State, s.canon = true → (ruleTaken s).rdf Reg.GATE_SYNC 15 0 = (s.rdf Reg.GATE_SYNC 15 0 + 1) % 65536) ∧
  (∀ (s : State) (m : Master), s.readsFrom m Reg.GATE_SYNC = true →
    exec (.gateSync m) s = .next (if syncBlocked s s.gate.mark = true then
      s.modGate fun g => { g with waits := g.waits ++ [{ master := m, mark := g.mark, rest := [Reg.GATE_SYNC], got := [] }] }
      else s.resp m (bytesLE 4 (s.rdf Reg.GATE_SYNC 15 0)))) ∧
  (∀ (s : State) (w : SyncWait), s.live = true → s.gate.waits = [w] → w.rest = [Reg.GATE_SYNC] → w.got = [] →
    syncBlocked s w.mark = false →
    exec .gateSyncReturn s = .next ((s.modGate fun g => { g with waits := [] }).resp w.master (bytesLE 4 (s.rdf Reg.GATE_SYNC 15 0)))) ∧
  (∀ (s : State) (w : SyncWait), s.live = true → s.gate.waits = [w] → w.rest = [Reg.GATE_SYNC] → w.got = [] →
    exec (.gateSyncTimeout w.master) s = .next ((s.modGate fun g => { g with waits := [] }).resp w.master
      (bytesLE 4 (s.rdf Reg.GATE_SYNC 15 0)) Err.GATE_SYNC_TIMEOUT)) ∧
  (∀ (s : State) (m : Master) (a v : Word), s.reaches m a.toNat = true → isRegBlock a.toNat = true → a.toNat % 4 = 0 →
    exec (.registerWrite m a (bytesLE 4 v.toNat)) s = .next ((regEffect s m a.toNat v).2.resp m []
      (if postedWrite m a.toNat then 0 else (regEffect s m a.toNat v).1))) ∧
  (∀ (s : State) (m : Master) (a : Word), s.readsFrom m a.toNat = true → isRegBlock a.toNat = true → a.toNat % 4 = 0 →
    a.toNat ≠ Reg.GATE_SYNC →
    exec (.readClear m a 4) s = .next ((regRead s m a.toNat).2.resp m (bytesLE 4 (regRead s m a.toNat).1.toNat)))

/-- The field types of R6 and the locks of R7. -/
def Obligations.FieldTypesAndLocks : Prop :=
  (∀ (s : State) (a : Nat) (v : Word) (d : RegDesc), s.canon = true → regDesc a = some d →
    (∀ i, i < 32 → ((fieldWrite s a v).rd a).getLsbD i =
      (v.getLsbD i && d.w1s.getLsbD i || !(v.getLsbD i && d.w1c.getLsbD i) &&
        (if d.rw.getLsbD i || d.rwl.getLsbD i && !s.rdb (a + d.lockOff) d.lockBit then v.getLsbD i else (s.rd a).getLsbD i))) ∧
    (∀ b, b ≠ a → (fieldWrite s a v).rd b = s.rd b) ∧ (fieldWrite s a v).mem = s.mem) ∧
  (∀ (s : State) (a : Nat) (d : RegDesc), s.canon = true → regDesc a = some d →
    (plainRead s a).1 = s.rd a ∧ (plainRead s a).2.rd a = s.rd a &&& ~~~d.rc ∧ ∀ b, b ≠ a → (plainRead s a).2.rd b = s.rd b) ∧
  (∀ (s : State) (a : Nat) (v : Word) (d : RegDesc) (i : Nat), s.canon = true → regDesc a = some d → i < 32 →
    d.rw.getLsbD i = false → d.rwl.getLsbD i = false → d.w1c.getLsbD i = false → s.rdb a i = true → (fieldWrite s a v).rdb a i = true)

/-- A refused access (R10, R151). -/
def Obligations.RefusedAccessChangesNothing : Prop :=
  ∀ (s : State) (m : Master) (a : Word) (data : List Byte) (len : Nat) (c c' : Half), s.canon = true → s.live = true → canAccess s m = true →
    s.ms.pairs = [] → gateRefusal s { master := m, write := true, addr := a.toNat, len := data.length } = some c →
    gateRefusal s { master := m, write := false, addr := a.toNat, len := len } = some c' →
    ∀ cmd ∈ [Instr.registerWrite m a data, .sramWrite m a data [], .mramWrite m a data, .readClear m a len, .sramRead m a len [],
      .mramRead m a len []],
    ∃ t, exec cmd s = .next t ∧ t.mem = s.mem ∧ t.ms = s.ms ∧ t.mram = s.mram ∧ t.queues = s.queues ∧ t.sht = s.sht ∧ t.nuc = s.nuc ∧ t.key = s.key ∧
      t.eng = s.eng ∧ t.ej = s.ej ∧ t.fab = s.fab ∧ t.ct = s.ct ∧ t.ctArmed = s.ctArmed ∧
      (∀ b, b / 0x10000 ≠ 0x4006 → b / 0x10000 ≠ 0x4015 → t.rd b = s.rd b) ∧
      ((∃ e, t.out.head? = some (.busResp m [] e)) ∨ t.out.head? = some (.busResp m (List.replicate len 0) c'))

/-- RUN, settings, outputs and bias DACs (R163–R166, R173–R175). The model's own choices and readings in it: log 54 (time of FE_STOP
and calibration in ADMITTING). -/
def Obligations.FrontEndSettings : Prop :=
  (∀ (s : State) (m : Master), s.reaches m Reg.BFE_CTRL = true → s.rdb Reg.BFE_CTRL 0 = false → s.feRunning = false →
    s.sht.posRead = true →
    exec (.feRun m) s = .next ((if geomValid s && timingValid s then startRun s else raise s Err.FE_TIMING 0x07).resp m [])) ∧
  (∀ s : State, s.canon = true → (startRun s).feRunning = true ∧ (startRun s).rdb Reg.BFE_CTRL 0 = true ∧
    (startRun s).rd Reg.BFE_FRAME = 0 ∧ (startRun s).fe.row = none ∧ (startRun s).fe.buf = []) ∧
  (∀ (s : State) (m : Master), s.reaches m Reg.BFE_CTRL = true → s.canon = true → s.rdb Reg.BFE_CTRL 0 = true → calState s = 0 →
    exec (.feStop m) s = .next ((s.wrb Reg.BFE_CTRL 0 false).resp m [])) ∧
  (∀ (s : State) (m : Master) (a v : Word), a.toNat ∈ feConfigRegs → s.reaches m a.toNat = true → s.feRunning = true →
    s.canon = true → framePeriod (raise s Err.FE_BUSY 0x07) = framePeriod s →
    exec (.feConfigWrite m a v) s = .next ((raise s Err.FE_BUSY 0x07).resp m [])) ∧
  (∀ (s : State) (m : Master) (a v : Word), a.toNat ∈ feConfigRegs → s.reaches m a.toNat = true → s.feRunning = false →
    exec (.feConfigWrite m a v) s = .next ((if framePeriod (fieldWrite s a.toNat v) = framePeriod s then fieldWrite s a.toNat v
      else nominalTau (fieldWrite s a.toNat v)).resp m [])) ∧
  (∀ (s : State) (m : Master) (v : Word), s.reaches m Reg.BFE_OUT = true → s.feRunning = false →
    exec (.bfeOutWrite m v) s = .next (((fieldWrite s Reg.BFE_OUT v).modFe fun f =>
      { f with outNow := (fieldWrite s Reg.BFE_OUT v).rd Reg.BFE_OUT }).resp m [])) ∧
  (∀ (s : State) (m : Master) (v : Word), s.reaches m Reg.BFE_OUT = true → s.feRunning = true →
    exec (.bfeOutWrite m v) s = .next ((
      let t := s.wr Reg.BFE_OUT (setFld (setFld (s.rd Reg.BFE_OUT) 7 0 v.toNat) 15 8 (fld s.fe.outNow 15 8))
      if fld v 15 8 = fld s.fe.outNow 15 8 then t else raise t Err.FE_BUSY 0x07).resp m [])) ∧
  (∀ (s : State) (m : Master) (n : Fin 6) (v : Word), s.reaches m (Reg.BFE_BIAS n.val) = true →
    (fld v 15 0 < s.rdf (biasLim n.val) 15 0 ∨ s.rdf (biasLim n.val) 31 16 < fld v 15 0) →
    exec (.biasWrite m n v) s = .next ((raise (s.wrb Reg.BFE_BIAS_STAT n.val true) Err.BIAS_RANGE 0x07 (BitVec.ofNat 64 n.val)).resp m [])) ∧
  (∀ (s : State) (m : Master) (n : Fin 6) (v : Word), s.reaches m (Reg.BFE_BIAS n.val) = true → s.feRunning = false → s.canon = true →
    s.rdf (biasLim n.val) 15 0 ≤ fld v 15 0 → fld v 15 0 ≤ s.rdf (biasLim n.val) 31 16 →
    ∃ t, exec (.biasWrite m n v) s = .next t ∧ t.rdf (Reg.BFE_BIAS n.val) 15 0 = fld v 15 0 ∧
      t.fe.bias[n] = t.rd (Reg.BFE_BIAS n.val) ∧ t.out = .busResp m [] 0 :: s.out) ∧
  (∀ (s : State) (n : Fin 6), s.live = true →
    exec (.biasLimit n) s = .next (if s.rdb Reg.BFE_BIAS_STAT (8 + n.val) then s
      else raise (s.wrb Reg.BFE_BIAS_STAT (8 + n.val) true) Err.BIAS_LIMIT 0x07 (BitVec.ofNat 64 n.val)) ∧
    exec (.biasLimitEnd n) s = .next (s.wrb Reg.BFE_BIAS_STAT (8 + n.val) false))

/-- Row boundaries (R167, R171) and temperature measurements (R176, R177). The model's own choices and readings in it: log 9 (values
of the front end, the pipeline and calibration that the manual does not state), log 57 (shutter and bank details). -/
def Obligations.RowsAndTemperature : Prop :=
  (∀ s : State, s.live = true → s.feRunning = false → exec .rowBoundary s = .next s) ∧
  (∀ s : State, s.live = true → s.feRunning = true → s.fe.row = none → exec .rowBoundary s = .next (rowStart 0 (frameSettings s))) ∧
  (∀ (s : State) (r : Nat), s.live = true → s.feRunning = true → s.fe.row = some r → s.fe.buf.length < feCols s →
    exec .rowBoundary s = .next s) ∧
  (∀ (s : State) (r : Nat), s.live = true → s.feRunning = true → s.fe.row = some r → s.fe.buf.length = feCols s → r + 1 < feRows s →
    exec .rowBoundary s = .next (rowStart (r + 1) (calRow s))) ∧
  (∀ (s : State) (r : Nat), (rowStart r s).fe.hdr.stamp = s.ct ∧ (rowStart r s).fe.hdr.row = r ∧
    (rowStart r s).fe.hdr.t = (s.rd Reg.BFE_FPT_K).toNat ∧
    (rowStart r s).fe.row = some r ∧ (rowStart r s).fe.buf = []) ∧
  (∀ (s : State) (raw : Word) (u : Nat), s.live = true → s.rdf Reg.BFE_FPT_CFG 1 0 = 0 → exec (.fptMeasure raw u) s = .next s) ∧
  (∀ (s : State) (u : Nat), s.live = true → s.canon = true → s.rdf Reg.BFE_FPT_CFG 1 0 = 2 → fptAscending s = true →
    5000 ≤ u → u ≤ 2000000 →
    ∃ t, exec (.fptMeasure (s.rd (Reg.BFE_FPT_TAB_RAW 0)) u) s = .next t ∧ t.rd Reg.BFE_FPT_K = s.rd (Reg.BFE_FPT_TAB_K 0) ∧
      t.rd Reg.BFE_FPT_RAW = s.rd (Reg.BFE_FPT_TAB_RAW 0) ∧ t.rd Reg.BFE_FPT_STAT = 0 ∧ t.fe.fptOpen = false ∧ t.fe.fptShort = false) ∧
  (∀ (s : State) (raw : Word) (u : Nat), s.live = true → s.rdf Reg.BFE_FPT_CFG 1 0 ≠ 0 → 2000000 < u → s.fe.fptOpen = false →
    exec (.fptMeasure raw u) s = .next (raise ((((s.wr Reg.BFE_FPT_RAW raw).modFe fun f =>
      { f with fptOpen := true, fptShort := false }).wrb Reg.BFE_FPT_STAT 1 false).wrb Reg.BFE_FPT_STAT 0 true) Err.FPT_OPEN 0x07)) ∧
  (∀ (s : State) (raw : Word) (u : Nat), s.live = true → s.rdf Reg.BFE_FPT_CFG 1 0 = 2 → u < 5000 → s.fe.fptShort = true →
    exec (.fptMeasure raw u) s = .next (((s.wr Reg.BFE_FPT_RAW raw).modFe fun f =>
      { f with fptOpen := false, fptShort := true }).wrb Reg.BFE_FPT_STAT 0 false)) ∧
  (∀ s : State, s.live = true → s.rdf Reg.BFE_FPT_CFG 1 0 ≠ 0 → exec .fptStale s = .next (s.wrb Reg.BFE_FPT_STAT 2 true))

/-- The shutter (R178–R182, R184). The model's own choices and readings in it: log 3 (the shutter reservoir at reset), log 13 (the
flag position at reset), log 57 (shutter and bank details). -/
def Obligations.ShutterCommands : Prop :=
  (∀ (s : State) (m : Master), s.reaches m Reg.SHT_CMD = true →
    (shtPresent s = false → ∀ c ∈ [Instr.shtClose m, .shtOpen m, .shtEvent m],
      exec c s = .next ((raise s Err.SHT_ABSENT 0x08).resp m [])) ∧
    (shtPresent s = true → (s.bank1On = false ∨ s.rdb Reg.ERR_STAT 31 = true) → ∀ c ∈ [Instr.shtClose m, .shtOpen m, .shtEvent m],
      exec c s = .next ((raise s Err.SHT_INHIBITED 0x08).resp m [])) ∧
    (shtPresent s = true → s.bank1On = true → s.rdb Reg.ERR_STAT 31 = false → (s.sht.pulse ≠ none ∨ s.sht.seq ≠ .idle) →
      ∀ c ∈ [Instr.shtClose m, .shtOpen m, .shtEvent m], exec c s = .next ((raise s Err.SHT_BUSY 0x08).resp m [])) ∧
    (shtPresent s = true → s.bank1On = true → s.rdb Reg.ERR_STAT 31 = false → s.sht.pulse = none → s.sht.seq = .idle →
      s.power.resReady = false →
      ∀ c ∈ [Instr.shtClose m, .shtOpen m, .shtEvent m], exec c s = .next ((raise s Err.SHT_NOT_READY 0x08).resp m []))) ∧
  (∀ (s : State) (m : Master), s.reaches m Reg.SHT_CMD = true → shtRefusal s = none →
    exec (.shtClose m) s = .next (((s.modSht fun x =>
      { x with pulse := some true, commanded := true, recovered := false, watch := some true, shut := .moving, retried := false,
               event := false, noClose := false }).modPower fun p => { p with resReady := false }).resp m []) ∧
    (s.sht.pos ≠ .opened → exec (.shtOpen m) s = .next ((((s.modSht fun x =>
      { x with pulse := some false, commanded := true, recovered := false, watch := some false, shut := .moving, retried := false,
               event := false, noClose := false }).modPower fun p => { p with resReady := false }).modNuc fun n =>
      { n with ofsWin := if ofsFrames s ≤ n.frames.length then some (n.frames.take (ofsFrames s)) else none }).resp m [])) ∧
    exec (.shtEvent m) s = .next ((((s.modSht fun x =>
      { x with pulse := some true, commanded := true, recovered := false, watch := none, shut := .moving, retried := false,
               event := true, noClose := false, seq := .closing, failed := false }).modPower fun p =>
      { p with resReady := false }).modNuc fun n =>
      { n with closeWin := {}, openWin := {}, frames := [], ofsWin := none, apply := false }).resp m [])) ∧
  (∀ (s : State) (v : BitVec 8) (c : Bool), s.live = true → s.sht.pulse = some c → s.sht.seq ≠ .waitOpen →
    exec (.shtPulseEnd v) s = .next ((s.modSht fun x => { x with pulse := none, volts := v }).modPower fun p =>
      { p with resReady := decide (190 ≤ v.toNat) })) ∧
  (∀ s : State, s.sht.pulse = none → s.rdb Reg.SYS_SUPPLY 4 = true → s.sht.seq ≠ .waitOpen →
    exec .reservoirReady s = .next ((s.modPower fun p => { p with resReady := true }).modSht fun x => { x with volts := 190 })) ∧
  (∀ s : State, s.live = true → shtPresent s = true → s.bank1On = true → s.sht.pos = .between → s.sht.seq = .closing →
    s.sht.noClose = false →
    exec (.shtPosChange false true) s = .next ((s.modSht fun x => { x with pos := .closed, shut := .closed, seq := .dwell }).modNuc fun n =>
      { n with closeWin := { armed := true } })) ∧
  (∀ (s : State) (a b : Bool), s.live = true → shtPresent s = false → exec (.shtPosChange a b) s = .next s) ∧
  (∀ s : State, s.live = true → shtPresent s = true → s.bank1On = true →
    exec .shtPosFault s = .next (if s.sht.pos = .fault then raise s Err.SHT_POS_FAULT 0x08 else s)) ∧
  (∀ s : State, s.live = true → s.sht.seq = .closing → s.power.resReady = false → s.rdb Reg.ERR_STAT 31 = false →
    exec .shtSettleTimeout s = .next (raise (s.modSht fun x =>
      { x with failed := x.event, noClose := true, seq := .waitOpen, watch := none }) Err.SHT_NO_CLOSE 0x08)) ∧
  (∀ s : State, s.live = true → s.sht.seq = .opening → s.sht.watch = none → s.sht.retried = true → s.sht.event = true →
    exec .shtSettleTimeout s = .next (ownLaneFault (((
      (raise s Err.SHT_NO_OPEN 0x08).modSht fun x => { x with seq := .idle, event := false, watch := none }).bump Reg.SHT_EVCNT 31 16).wrb
      Reg.ERR_EVT 3 true) Err.SHT_NO_OPEN fun f => { f with flag := true })) ∧
  (∀ s : State, s.live = true → s.sht.seq = .dwell → s.power.resReady = false →
    exec .shtDwellEnd s = .next (s.modSht fun x => { x with seq := .waitOpen })) ∧
  (∀ s : State, s.live = true → s.sht.shut = .recovering → s.sht.recovered = false → s.sht.event = false →
    (s.sht.seq = .recovering ∨ s.sht.seq = .idle) →
    exec .shtRecoverEnd s = .next (s.modSht fun x =>
      { x with recovered := true, seq := .idle, event := false, commanded := false, retried := false }))

/-- Samples (R190, R191, R198), coefficient records (R194, R195), NUC_SETSEL (R197) and APPLY (R207). The model's own choices and
readings in it: log 9 (values of the front end, the pipeline and calibration that the manual does not state), log 22 (when a row's
packet is written). -/
def Obligations.PipelineAndCoefficients : Prop :=
  (∀ (s : State) (row : Nat) (c : BitVec 14), s.live = true → s.fe.row = some row → s.feRunning = true → s.fe.buf ≠ [] →
    s.fe.buf.length + 1 < feCols s → s.rdb Reg.NUC_CFG 0 = true → s.nuc.tauOff = true → s.nuc.selLo ≠ 3 → s.nuc.selHi ≠ 3 →
    (s.nuc.w = 0 ∨ s.nuc.w = 65536) →
    ∃ t px, exec (.pipelineSample c false []) s = .next t ∧ t.fe.buf = s.fe.buf ++ [px] ∧ px.code = c.toNat ∧ px.clip = false ∧
      px.y = (let r := setRecord s (if s.nuc.w = 0 then s.nuc.selLo else s.nuc.selHi) (row * 1024 + s.fe.buf.length)
        ((s.rd Reg.NUC_TREF_SET).toNat : Int) + roundDiv ((fld r 45 30 : Int) * ((c.toNat : Int) * 16 - (fld r 63 46 : Int))) 4) ∧
      t.fe.hdr = s.fe.hdr ∧ t.mem = s.mem ∧ t.queues = s.queues) ∧
  (∀ (s : State) (m : Master) (v : Word), s.canon = true → s.reaches m Reg.NUC_CDATA_LO = true → s.rdf Reg.NUC_CADDR 31 30 < 3 →
    s.rdf Reg.NUC_CADDR 16 0 < 98304 → bankInUse s (s.rdf Reg.NUC_CADDR 31 30) = false → swf (fun _ => (0 : DWord)) s.nuc.coef = true →
    ∃ t, exec (.nucCoefWrite m v) s = .next t ∧
      sget (fun _ => 0) t.nuc.coef (coefKey (s.rdf Reg.NUC_CADDR 31 30) (s.rdf Reg.NUC_CADDR 16 0)) =
        BitVec.ofNat 64 (v.toNat + 2 ^ 32 * (s.rd Reg.NUC_CDATA_HI).toNat) ∧
      t.rdf Reg.NUC_CADDR 16 0 = s.rdf Reg.NUC_CADDR 16 0 + 1 ∧ t.rdf Reg.NUC_CADDR 31 30 = s.rdf Reg.NUC_CADDR 31 30 ∧
      t.out = .busResp m [] 0 :: s.out) ∧
  (∀ (s : State) (m : Master) (v : Word), s.reaches m Reg.NUC_CDATA_LO = true → s.rdf Reg.NUC_CADDR 31 30 < 3 →
    s.rdf Reg.NUC_CADDR 16 0 < 98304 → bankInUse s (s.rdf Reg.NUC_CADDR 31 30) = true →
    exec (.nucCoefWrite m v) s = .next ((raise s Err.NUC_BANK_BUSY 0x09
      (BitVec.ofNat 64 (coefKey (s.rdf Reg.NUC_CADDR 31 30) (s.rdf Reg.NUC_CADDR 16 0)))).resp m [])) ∧
  (∀ (s : State) (m : Master), s.canon = true → s.readsFrom m Reg.NUC_CDATA_LO = true →
    let r := sget (fun _ => 0) s.nuc.coef (coefKey (s.rdf Reg.NUC_CADDR 31 30) (s.rdf Reg.NUC_CADDR 16 0))
    ∃ t, exec (.nucCoefRead m) s = .next t ∧ t.out = .busResp m (bytesLE 4 (r.toNat % 2 ^ 32)) 0 :: s.out ∧
      t.rd Reg.NUC_CDATA_HI = BitVec.ofNat 32 (r.toNat / 2 ^ 32) ∧
      t.rdf Reg.NUC_CADDR 16 0 = (s.rdf Reg.NUC_CADDR 16 0 + 1) % 2 ^ 17 ∧ t.nuc = s.nuc) ∧
  (∀ (s : State) (m : Master) (v : Word), s.reaches m Reg.NUC_SETSEL = true →
    exec (.nucSetsel m v) s = .next ((if selConsistent s (fld v 1 0) (fld v 3 2) then
      (fieldWrite s Reg.NUC_SETSEL v).modNuc fun n => { n with pendSel := some (fld v 1 0, fld v 3 2) }
      else raise s Err.NUC_SETSEL_BAD 0x09).resp m [])) ∧
  (∀ (s : State) (m : Master), s.reaches m Reg.TDI_CTRL = true →
    (s.feRunning = true ∨ s.rdf Reg.TDI_PATH 30 24 = 0 ∨ s.rdf Reg.TDI_V0 15 0 = 0 ∨ s.rdf Reg.TDI_G 15 0 = 0 ∨ s.rdf Reg.TDI_PITCH 15 0 = 0) →
    exec (.tdiApply m) s = .next ((raise s Err.TDI_CONFIG 0x0A).resp m []))

/-- APPLY when it is accepted (R207). The model's own choices and readings in it: log 9 (values of the front end, the pipeline and
calibration that the manual does not state). -/
def Obligations.TdiApplyAccepted : Prop :=
  ∀ (s : State) (m : Master), s.canon = true → s.reaches m Reg.TDI_CTRL = true → s.feRunning = false →
    s.rdf Reg.TDI_PATH 30 24 ≠ 0 → s.rdf Reg.TDI_V0 15 0 ≠ 0 → s.rdf Reg.TDI_G 15 0 ≠ 0 → s.rdf Reg.TDI_PITCH 15 0 ≠ 0 →
    s.rdb Reg.BFE_GEOM 31 = false → s.rdf Reg.TDI_PATH 22 16 + s.rdf Reg.TDI_PATH 30 24 ≤ feRows s →
    ceilDiv (80 * fallDelay (s.rdf Reg.TDI_V0 15 0) (s.rdf Reg.TDI_G 15 0) (s.rdf Reg.TDI_PITCH 15 0) (s.rdf Reg.TDI_PATH 30 24 - 1) +
      framePeriod s) (max 1 (s.rdf Reg.TDI_PATH 7 0) * feRowPeriod s) ≤ 64 →
    ∃ t, exec (.tdiApply m) s = .next t ∧ t.tdi.first = s.rdf Reg.TDI_PATH 22 16 ∧ t.tdi.n = s.rdf Reg.TDI_PATH 30 24 ∧
      t.tdi.step = max 1 (s.rdf Reg.TDI_PATH 7 0) ∧ t.tdi.up = true ∧ t.out = .busResp m [] 0 :: s.out ∧ t.err = s.err ∧
      ∀ k, k < s.rdf Reg.TDI_PATH 30 24 → fallDelay (s.rdf Reg.TDI_V0 15 0) (s.rdf Reg.TDI_G 15 0) (s.rdf Reg.TDI_PITCH 15 0) k < 65536 →
        (t.rd (Reg.TDI_DLY k)).toNat = fallDelay (s.rdf Reg.TDI_V0 15 0) (s.rdf Reg.TDI_G 15 0) (s.rdf Reg.TDI_PITCH 15 0) k

/-- Events of the calibration dialogue and of the stored sets (R218–R229). The model's own choices and readings in it: log 14
(readings of the calibration dialogue). -/
def Obligations.CalibrationEvents : Prop :=
  (∀ s : State, s.live = true → calState s = 8 →
    exec .calComputeDone s = .next (
      let res := (setPixels s).map (pixelCoefs s)
      let unfit := (res.filter Option.isNone).length
      let t := s.wr Reg.CAL_UNFIT (BitVec.ofNat 32 unfit)
      if s.rdf Reg.CAL_NOISE 31 24 * calPixels s < unfit * 1000 then calAbort t 0x06
      else (calEnter t 9).modCal fun c => { c with result := res })) ∧
  (∀ s : State, s.live = true →
    ((calState s = 2 ∨ calState s = 5) → exec .calSettleTimeout s = .next (calAbort s 0x04)) ∧
    ((calState s = 1 ∨ calState s = 4 ∨ calState s = 9) → exec .calWaitTimeout s = .next (calAbort s 0x05)) ∧
    (calState s = 0 → exec .calSettleTimeout s = .next s ∧ exec .calWaitTimeout s = .next s)) ∧
  (∀ s : State, s.live = true → calState s = 7 →
    exec .calDriftTimeout s = .next ((calEnter s 8).modCal fun c => { c with driftOk := false, cap := {}, d1 := {}, d2 := {} })) ∧
  (∀ s : State, s.live = true → calState s = 0xA →
    exec .calWriteDone s = .next (if (calWriteDone s).1 then reportRecord (calWriteDone s).2 else (calWriteDone s).2)) ∧
  (∀ s : State, s.live = true → calState s = 0xA → s.mram.clear.isSome = true → slotDirty s s.cal.args.slot ≠ [] →
    exec .calWriteDone s = .next (calAbort s 0x08)) ∧
  (∀ s : State, s.live = true → s.fwRuns = true → anyLoaded s = true →
    (s.rd Reg.BFE_FPT_K).toNat ≤ slotT s (s.rdf Reg.CAL_SEL 6 4) + 16384 →
    slotT s (s.rdf Reg.CAL_SEL 2 0) ≤ (s.rd Reg.BFE_FPT_K).toNat + 16384 → exec .calReselect s = .next s) ∧
  (∀ (s : State) (n : Nat), s.live = true → s.fwRuns = true → anyLoaded s = true →
    slotT s (s.rdf Reg.CAL_SEL 6 4) + 16384 < (s.rd Reg.BFE_FPT_K).toNat → nextSet s true = some n →
    (installPair s (s.rdf Reg.CAL_SEL 6 4) n).1 = false →
    exec .calReselect s = .next (installPair s (s.rdf Reg.CAL_SEL 6 4) n).2) ∧
  (∀ s : State, s.live = true → s.fwRuns = true → slotStatuses s = List.replicate 8 0 →
    exec .calExpiryCheck s = .next (s.wr Reg.CAL_SLOTSTAT 0))

/-- What an abort leaves and what it leaves alone (R223). -/
def Obligations.AbortKeepsSets : Prop :=
  ∀ (s : State) (cause : Nat), s.canon = true → calState s ≠ 0 → cause < 256 →
    calState (calAbort s cause) = 0 ∧ (calAbort s cause).rdf Reg.CAL_STATE 23 16 = cause ∧
    (calAbort s cause).cal = { loaded := s.cal.loaded } ∧ (calAbort s cause).mem = s.mem ∧ (calAbort s cause).nuc = s.nuc ∧
    (calAbort s cause).mram = s.mram

/-- The visible channel (R234–R244) and its camera trigger (R248). The model's own choices and readings in it: log 19 (the bit
assignment of Camera Link), log 20 (what a visible port holds), log 21 (a visible line passes VIS_IN at once). -/
def Obligations.VisibleChannel : Prop :=
  (∀ (s : State) (m : Master) (v : Word), s.reaches m Reg.VIS_CTRL = true → s.rdb Reg.VIS_CTRL 0 = false → bitOf v 0 = true →
    exec (.visEnable m v) s = .next ((if visValid s then
        (((fieldWrite s Reg.VIS_CTRL v).wrb Reg.VIS_STAT 0 true).wr Reg.VIS_LINECNT 0).modVis fun x =>
          { x with line := none, gap0 := false, gap1 := false, lenErr := false }
      else raise ((fieldWrite s Reg.VIS_CTRL v).wrb Reg.VIS_CTRL 0 false) Err.VIS_FORMAT 0x0C).resp m [])) ∧
  (∀ (s : State) (m : Master) (v : Word), s.reaches m Reg.VIS_CTRL = true → bitOf v 0 = false →
    exec (.visEnable m v) s = .next ((((fieldWrite s Reg.VIS_CTRL v).wrb Reg.VIS_STAT 0 false).wrb Reg.VIS_STAT 1 false).modVis
      (fun x => { x with line := none }) |>.resp m [])) ∧
  (∀ (s : State) (f : BitVec 17), s.live = true → s.rdb Reg.VIS_STAT 0 = true →
    exec (.visLock f) s = .next (if 19000 ≤ f.toNat ∧ f.toNat ≤ 87000 then
      (s.wrb Reg.VIS_STAT 1 true).wr Reg.VIS_FREQ (f.zeroExtend 32) else s)) ∧
  (∀ s : State, s.live = true → s.rdb Reg.VIS_STAT 1 = true → s.vis.line = none →
    exec .visLockLost s = .next (raise (((s.modVis fun x => { x with gap0 := true, gap1 := true }).wrb Reg.VIS_STAT 1 false).bump
      Reg.VIS_UNLOCK 31 0) Err.VIS_LOCK_LOST 0x0C)) ∧
  (∀ s : State, s.live = true → s.rdb Reg.VIS_STAT 0 = true → s.rdb Reg.VIS_STAT 1 = true → s.vis.line = none →
    exec .visLineStart s = .next ((if s.vis.swap then s.wrb Reg.VIS_STAT 8 (!s.rdb Reg.VIS_STAT 8) else s).modVis fun x =>
      { x with swap := false, line := some (s.ct + (s.rd Reg.VIS_STAMP_ADJ).signExtend 64) })) ∧
  (∀ (s : State) (st : CTime) (l : List PixClock), s.live = true → s.vis.line = some st → s.rdb Reg.VIS_FMT 9 = false →
    l.length * visPpc (visMode s) ≠ s.rdf Reg.VIS_LINE 13 0 → s.vis.lenErr = false →
    exec (.visLineEnd l) s = .next (raise ((((s.wr Reg.VIS_LINECNT (BitVec.ofNat 32 ((s.rdf Reg.VIS_LINECNT 23 0 + 1) % 2 ^ 24))).modVis
      fun x => { x with line := none, gap0 := true, gap1 := true }).bump Reg.VIS_LENERR 31 0).modVis fun x =>
      { x with lenErr := true }) Err.VIS_LINE_LEN 0x0C)) ∧
  (∀ (s : State) (st : CTime) (l : List PixClock), s.live = true → s.canon = true → s.vis.line = some st → s.rdb Reg.VIS_FMT 9 = false →
    l.length * visPpc (visMode s) = s.rdf Reg.VIS_LINE 13 0 → s.rdb Reg.VIS_CTRL 1 = false → s.rdb Reg.VIS_CTRL 2 = false →
    exec (.visLineEnd l) s = .next ((s.wr Reg.VIS_LINECNT (BitVec.ofNat 32 ((s.rdf Reg.VIS_LINECNT 23 0 + 1) % 2 ^ 24))).modVis fun x =>
      { x with line := none, lenErr := false })) ∧
  (∀ (s : State) (m : Master) (v : Word), s.reaches m Reg.VIS_SWAP = true →
    exec (.visSwap m v) s = .next ((if bitOf v 0 then s.modVis fun x => { x with swap := true } else s).resp m [])) ∧
  (∀ (s : State) (m : Master) (a v : Word), isVisReg a.toNat = true → s.reaches m a.toNat = true →
    exec (.visRegWrite m a v) s = .next ((if decide (0x400C2000 ≤ a.toNat) = s.rdb Reg.VIS_STAT 8 then
      raise s Err.VIS_REG_BUSY 0x0C (BitVec.ofNat 64 a.toNat) else fieldWrite s a.toNat v).resp m [])) ∧
  (∀ (s : State) (m : Master) (v : Word), s.reaches m Reg.VIS_TRIG = true → s.rdb Reg.VIS_TRIG 31 = false → bitOf v 31 = true →
    claimed s 1 (fld v 19 16) = false →
    exec (.visTrigEnable m v) s = .next ((((fieldWrite s Reg.VIS_TRIG v).wrb Reg.SYS_GPIO_IRQ_STAT (fld v 19 16) false).modVis fun x =>
      { x with trigHigh := false, trigRows := 0, trigAt := s.ct }).resp m [])) ∧
  (∀ s : State, s.live = true → s.rdb Reg.VIS_TRIG 31 = true →
    exec (.visTrigger false) s = .next (s.modVis fun x => { x with trigHigh := false }) ∧
    exec (.visTrigger true) s = .next (if visTrigDue s then s.modVis fun x => { x with trigHigh := true, trigRows := 0, trigAt := s.ct } else s))

/-- OP 0x01 and 0x02 (R282). -/
def Obligations.CellRegisterOps : Prop :=
  (∀ (s : State) (i : Issue) (l : Bool) (d a b : Fin 16) (f : Bool) (w : Word),
    let x := (s.cell i.cell.val).greg a
    let y := (s.cell i.cell.val).greg b
    ∀ e ∈ [(Instr.cellAdd i l d a b f, false, if l then onLanes aluAdd x y else aluAdd x y),
      (.cellAdds i l d a b f, false, if l then onLanes aluAdds x y else aluAdds x y),
      (.cellSub i l d a b f, false, if l then onLanes aluSub x y else aluSub x y),
      (.cellSubs i l d a b f, false, if l then onLanes aluSubs x y else aluSubs x y),
      (.cellAnd i l d a b f, false, if l then onLanes aluAnd x y else aluAnd x y),
      (.cellOr i l d a b f, false, if l then onLanes aluOr x y else aluOr x y),
      (.cellXor i l d a b f, false, if l then onLanes aluXor x y else aluXor x y),
      (.cellAndn i l d a b f, false, if l then onLanes aluAndn x y else aluAndn x y),
      (.cellMul i l d a b f, true, if l then onLanes aluMul x y else aluMul x y),
      (.cellMuls i l d a b f, true, if l then onLanes aluMuls x y else aluMuls x y),
      (.cellMin i l d a b f, false, if l then onLanes aluMin x y else aluMin x y),
      (.cellMax i l d a b f, false, if l then onLanes aluMax x y else aluMax x y),
      (.cellMinu i l d a b f, false, if l then onLanes aluMinu x y else aluMinu x y),
      (.cellMaxu i l d a b f, false, if l then onLanes aluMaxu x y else aluMaxu x y),
      (.cellShl i l d a b f, false, if l then onLanes aluShl x y else aluShl x y),
      (.cellShr i l d a b f, false, if l then onLanes aluShr x y else aluShr x y),
      (.cellSar i l d a b f, false, if l then onLanes aluSar x y else aluSar x y),
      (.cellRor i l d a b f, false, if l then onLanes aluRor x y else aluRor x y)],
    cellWord e.1 = some (i, w) → cellReady s i w = true →
      exec e.1 s = .next (cellNext s i (if e.2.1 then some d.val else none) (cellWrote d f e.2.2))) ∧
  (∀ (s : State) (i : Issue) (l : Bool) (d a b : Fin 16) (f : Bool) (w : Word),
    let x := (s.cell i.cell.val).greg a
    let y := (s.cell i.cell.val).greg b
    let z := (s.cell i.cell.val).greg d
    ∀ e ∈ [(Instr.cellNeg i l d a f, false, if l then onLanes aluSub 0 x else aluSub 0 x),
      (.cellNegs i l d a f, false, if l then onLanes aluSubs 0 x else aluSubs 0 x),
      (.cellAbs i l d a f, false, if l then onLanes aluAbs x 0 else aluAbs x 0),
      (.cellAbss i l d a f, false, if l then onLanes aluAbss x 0 else aluAbss x 0),
      (.cellMulh i d a b f, true, aluMulh x y), (.cellMulhu i d a b f, true, aluMulhu x y),
      (.cellMac i d a b f, true, aluMac z x y), (.cellMacs i d a b f, true, aluMacs z x y),
      (.cellClz i d a f, false, { r := BitVec.ofNat 32 (leadingZeros x 32) }), (.cellMov i d a f, false, { r := x })],
    cellWord e.1 = some (i, w) → cellReady s i w = true →
      exec e.1 s = .next (cellNext s i (if e.2.1 then some d.val else none) (cellWrote d f e.2.2))) ∧
  (∀ (s : State) (i : Issue) (a b : Fin 16),
    let x := (s.cell i.cell.val).greg a
    let y := (s.cell i.cell.val).greg b
    (cellReady s i (encR 1 0 a.val b.val true 0x16) = true →
      exec (.cellCmp i a b) s = .next (cellNext s i none fun c => c.setFlags (aluSub x y).r (aluSub x y).c (aluSub x y).v)) ∧
    (cellReady s i (encR 1 0 a.val b.val true 0x17) = true →
      exec (.cellTst i a b) s = .next (cellNext s i none fun c => c.setFlags (x &&& y) false false)))

/-- The arithmetic of R282 with the flags of R284 and the shifts of R285. -/
def Obligations.CellArithmetic : Prop :=
  (∀ x y : Word, (aluAdd x y).r = x + y ∧ (aluSub x y).r = x - y ∧ (aluMul x y).r = x * y ∧
    (aluAdd x y).c = decide (2 ^ 32 ≤ x.toNat + y.toNat) ∧ (aluSub x y).c = decide (y.toNat ≤ x.toNat) ∧
    (aluAdd x y).v = decide ((x + y).toInt ≠ x.toInt + y.toInt) ∧ (aluSub x y).v = decide ((x - y).toInt ≠ x.toInt - y.toInt) ∧
    (aluMul x y).v = decide ((x * y).toInt ≠ x.toInt * y.toInt)) ∧
  (∀ x y : Word, (aluAdds x y).r.toInt = max (-2147483648) (min 2147483647 (x.toInt + y.toInt)) ∧
    (aluSubs x y).r.toInt = max (-2147483648) (min 2147483647 (x.toInt - y.toInt)) ∧
    (aluMuls x y).r.toInt = max (-2147483648) (min 2147483647 (x.toInt * y.toInt)) ∧
    ∀ z : Word, (aluMacs z x y).r.toInt = max (-2147483648) (min 2147483647 (z.toInt + x.toInt * y.toInt)) ∧ (aluMac z x y).r = z + x * y) ∧
  (∀ x y : Word, (aluMulh x y).r.toInt = x.toInt * y.toInt / 2 ^ 32 ∧ (aluMulhu x y).r.toNat = x.toNat * y.toNat / 2 ^ 32 ∧
    (aluMin x y).r.toInt = min x.toInt y.toInt ∧ (aluMax x y).r.toInt = max x.toInt y.toInt ∧
    (aluMinu x y).r.toNat = min x.toNat y.toNat ∧ (aluMaxu x y).r.toNat = max x.toNat y.toNat) ∧
  (∀ x y : Word, (aluShl x y).r = (if y.toNat % 64 < 32 then x <<< (y.toNat % 64) else 0) ∧
    (aluShr x y).r = (if y.toNat % 64 < 32 then x >>> (y.toNat % 64) else 0) ∧
    (aluSar x y).r.toInt = x.toInt / 2 ^ (y.toNat % 64) ∧ (aluRor x y).r = x.rotateRight (y.toNat % 32)) ∧
  (∀ (x : Word) (n : Nat), n ≤ 32 → (leadingZeros x 32 = n ↔ (x.toNat < 2 ^ (32 - n) ∧ (n < 32 → 2 ^ (31 - n) ≤ x.toNat)))) ∧
  (∀ (g : BitVec 16 → BitVec 16 → Arith 16) (x y : Word),
    (onLanes g x y).r.extractLsb' 0 16 = (g (x.extractLsb' 0 16) (y.extractLsb' 0 16)).r ∧
    (onLanes g x y).r.extractLsb' 16 16 = (g (x.extractLsb' 16 16) (y.extractLsb' 16 16)).r ∧
    (onLanes g x y).c = (g (x.extractLsb' 16 16) (y.extractLsb' 16 16)).c)

/-- Immediate and address instructions (R282). -/
def Obligations.CellImmediates : Prop :=
  (∀ (s : State) (i : Issue) (d a : Fin 16) (f : Bool) (imm : Half) (k : Fin 4) (n : BitVec 6) (w : Word),
    let x := (s.cell i.cell.val).greg a
    let z := (s.cell i.cell.val).greg d
    ∀ e ∈ [(Instr.cellAddi i d a f imm, aluAdd x (imm.signExtend 32)), (.cellAddis i d a f imm, aluAdds x (imm.signExtend 32)),
      (.cellAndi i d a f imm, { r := x &&& imm.zeroExtend 32 }), (.cellOri i d a f imm, { r := x ||| imm.zeroExtend 32 }),
      (.cellXori i d a f imm, { r := x ^^^ imm.zeroExtend 32 }),
      (.cellShi i d a f k n, match k with
        | 0 => aluShl x (n.zeroExtend 32)
        | 1 => aluShr x (n.zeroExtend 32)
        | 2 => aluSar x (n.zeroExtend 32)
        | 3 => aluRor x (n.zeroExtend 32)),
      (.cellMovl i d f imm, { r := imm.zeroExtend 32 }),
      (.cellMovh i d f imm, { r := imm ++ z.extractLsb' 0 16 })],
    cellWord e.1 = some (i, w) → cellReady s i w = true → exec e.1 s = .next (cellNext s i none (cellWrote d f e.2))) ∧
  (∀ (s : State) (i : Issue) (a : Fin 16) (imm : Half), cellReady s i (encI 0x08 0 a.val true imm.toNat) = true →
    let r := aluSub ((s.cell i.cell.val).greg a) (imm.signExtend 32)
    exec (.cellCmpi i a imm) s = .next (cellNext s i none fun c => c.setFlags r.r r.c r.v)) ∧
  (∀ (s : State) (i : Issue) (a : Fin 4) (b : Fin 16), cellReady s i (encI 0x18 a.val b.val false 0) = true →
    exec (.cellMova i a b) s = .next (cellNext s i none fun c => { c with a := c.a.set a.val ((c.greg b).truncate 15) })) ∧
  (∀ (s : State) (i : Issue) (d : Fin 16) (a : Fin 4), cellReady s i (encI 0x19 d.val a.val false 0) = true →
    exec (.cellRda i d a) s = .next (cellNext s i none fun c => c.setG d (c.a[a].zeroExtend 32))) ∧
  (∀ (s : State) (i : Issue) (a : Fin 4) (imm : Half), cellReady s i (encI 0x1A a.val 0 false imm.toNat) = true →
    exec (.cellAdda i a imm) s = .next (cellNext s i none fun c => { c with a := c.a.set a.val (c.a[a] + imm.truncate 15) }))

/-- The DSU (R282, R286, R291, R293). The model's own choices and readings in it: log 18 (stage cells). -/
def Obligations.CellDivider : Prop :=
  (∀ (s : State) (i : Issue) (d a b : Fin 16) (w : Word), ∀ e ∈ [(Instr.cellDiv i d a b, 0), (.cellDivu i d a b, 1),
      (.cellRem i d a b, 2), (.cellRemu i d a b, 3)],
    cellWord e.1 = some (i, w) → cellReady s i w = true → exec e.1 s = .next (cellNext s i none fun c =>
      { c with dsu := some { fn := e.2, d := d.val, s := c.greg a, t := c.greg b, squashed := false } })) ∧
  (∀ (s : State) (i : Issue) (d a : Fin 16) (w : Word), ∀ e ∈ [(Instr.cellRecip i d a, 4), (.cellSqrt i d a, 5), (.cellSqrtq i d a, 6)],
    cellWord e.1 = some (i, w) → cellReady s i w = true → exec e.1 s = .next (cellNext s i none fun c =>
      { c with dsu := some { fn := e.2, d := d.val, s := c.greg a, t := c.greg 0, squashed := false } })) ∧
  (∀ (s : State) (c : Fin 32) (fn : Nat) (d : Fin 16) (x y : Word), s.live = true →
    (s.cell c.val).dsu = some { fn := fn, d := d.val, s := x, t := y, squashed := false } →
    exec (.dsuResult c) s = .next (s.modCell c.val fun k =>
      { k.setG d (dsuOut fn x y).r with dsu := none, v := (dsuOut fn x y).v, dz := k.dz || (dsuOut fn x y).dz })) ∧
  (∀ (s : State) (c : Fin 32) (op : DsuOp), s.live = true → (s.cell c.val).dsu = some op → op.squashed = true →
    exec (.dsuResult c) s = .next (s.modCell c.val fun k => { k with dsu := none })) ∧
  (∀ x y : Word, y ≠ 0 → (¬(x = 0x80000000 ∧ y = 0xFFFFFFFF) → (dsuOut 0 x y).r.toInt = x.toInt.tdiv y.toInt) ∧
    (dsuOut 1 x y).r.toNat = x.toNat / y.toNat ∧ (dsuOut 2 x y).r.toInt = x.toInt.tmod y.toInt ∧
    (dsuOut 3 x y).r.toNat = x.toNat % y.toNat) ∧
  (∀ x : Word, (dsuOut 0 x 0).dz = true ∧ (dsuOut 1 x 0).dz = true ∧ (dsuOut 2 x 0).r = x ∧ (dsuOut 3 x 0).r = x ∧
    (dsuOut 5 x 0).r.toNat ^ 2 ≤ x.toNat ∧ x.toNat < ((dsuOut 5 x 0).r.toNat + 1) ^ 2 ∧
    (dsuOut 6 x 0).r.toNat ^ 2 ≤ x.toNat * 2 ^ 16 ∧ x.toNat * 2 ^ 16 < ((dsuOut 6 x 0).r.toNat + 1) ^ 2) ∧
  dsuOut 0 0x80000000 0xFFFFFFFF = { r := 0x7FFFFFFF, v := true } ∧ (dsuOut 0 5 0).r = 0x7FFFFFFF ∧ (dsuOut 0 0xFFFFFFFB 0).r = 0x80000000 ∧
  (dsuOut 0 0 0).r = 0 ∧ (dsuOut 4 0 0).dz = true

/-- Memory instructions (R277, R278, R282). -/
def Obligations.CellMemory : Prop :=
  (∀ (s : State) (i : Issue) (d : Fin 16) (a : Fin 4) (p : Bool) (off : Half) (w : Word),
    let c := i.cell.val
    let ea := (effAddr (s.cell c).a[a] p off).1.toNat
    let v := fun n => natLE (s.bytesAt (cellBase c + ea) n)
    ∀ e ∈ [(Instr.cellLdw i d a p off 0, 4, BitVec.ofNat 32 (v 4)), (.cellLdh i d a p off 0, 2, (BitVec.ofNat 16 (v 2)).signExtend 32),
      (.cellLdhu i d a p off 0, 2, BitVec.ofNat 32 (v 2)), (.cellLdb i d a p off 0, 1, (BitVec.ofNat 8 (v 1)).signExtend 32),
      (.cellLdbu i d a p off 0, 1, BitVec.ofNat 32 (v 1))],
    cellWord e.1 = some (i, w) → cellReady s i w = true → ea % e.2.1 = 0 →
      exec e.1 s = .next (cellNext s i (some d.val) fun k =>
        { k.setG d e.2.2 with a := k.a.set a.val (effAddr (s.cell c).a[a] p off).2 })) ∧
  (∀ (s : State) (i : Issue) (d : Fin 16) (a : Fin 4) (p : Bool) (off : Half) (w : Word),
    let c := i.cell.val
    let ea := (effAddr (s.cell c).a[a] p off).1.toNat
    let v := ((s.cell c).greg d).toNat
    ∀ e ∈ [(Instr.cellStw i d a p off, 4), (.cellSth i d a p off 0, 2), (.cellStb i d a p off 0, 1)],
    cellWord e.1 = some (i, w) → cellReady s i w = true → ea % e.2 = 0 →
      ∃ t, exec e.1 s = .next t ∧ t = (cellNext s i none fun k =>
          { k with a := k.a.set a.val (effAddr (s.cell c).a[a] p off).2 }).setBytes (cellBase c + ea) (bytesLE e.2 v) ∧
        (∀ b, b < cellBase c + ea ∨ cellBase c + ea + e.2 ≤ b → t.byteAt b = s.byteAt b) ∧
        t.bytesAt (cellBase c + ea) e.2 = bytesLE e.2 v) ∧
  (∀ (s : State) (i : Issue) (d : Fin 16) (a : Fin 4) (p : Bool) (off : Half) (w : Word),
    ∀ e ∈ [(Instr.cellLdw i d a p off 0, 4), (.cellLdh i d a p off 0, 2), (.cellLdhu i d a p off 0, 2), (.cellStw i d a p off, 4),
      (.cellSth i d a p off 0, 2)],
    cellWord e.1 = some (i, w) → cellReady s i w = true → (effAddr (s.cell i.cell.val).a[a] p off).1.toNat % e.2 ≠ 0 →
      ∃ t, exec e.1 s = .next t ∧ t.mem = s.mem ∧
        t = cellFault (s.modCell i.cell.val fun x => { x with cyc := x.cyc + BitVec.ofNat 32 i.cycles }) i.cell.val 2)

/-- Control (R282, R283, R289, R304). -/
def Obligations.CellControl : Prop :=
  (∀ (s : State) (i : Issue) (c : Fin 16) (off : BitVec 12), cellReady s i (encB 0x20 c.val 0 off) = true →
    fld (codeAt s i.cell.val ((s.cell i.cell.val).pc + 1)) 31 26 ≠ 0x0C →
    exec (.cellB i c off) s = .next (if condHolds (s.cell i.cell.val) c.val then
      s.modCell i.cell.val fun x => { x with cyc := x.cyc + BitVec.ofNat 32 i.cycles, pc := x.pc + off.truncate 11, lateReg := none }
      else cellNext s i none id)) ∧
  (∀ (s : State) (i : Issue) (d : Fin 16) (off : BitVec 12), cellReady s i (encB 0x21 d.val 0 off) = true →
    fld (codeAt s i.cell.val ((s.cell i.cell.val).pc + 1)) 31 26 ≠ 0x0C →
    exec (.cellJal i d off) s = .next (s.modCell i.cell.val fun x =>
      { x.setG d ((x.pc + 1).zeroExtend 32) with cyc := x.cyc + BitVec.ofNat 32 i.cycles, pc := x.pc + off.truncate 11, lateReg := none })) ∧
  (∀ (s : State) (i : Issue) (a : Fin 16), cellReady s i (encB 0x22 0 a.val 0) = true →
    fld (codeAt s i.cell.val ((s.cell i.cell.val).pc + 1)) 31 26 ≠ 0x0C →
    exec (.cellJr i a) s = .next (s.modCell i.cell.val fun x =>
      { x with cyc := x.cyc + BitVec.ofNat 32 i.cycles, pc := (x.greg a).truncate 11, lateReg := none })) ∧
  (∀ (s : State) (i : Issue), cellReady s i (encB 0x23 0 0 0) = true →
    fld (codeAt s i.cell.val ((s.cell i.cell.val).pc + 1)) 31 26 ≠ 0x0C →
    exec (.cellHalt i) s = .next ((s.modCell i.cell.val fun x => { x with cyc := x.cyc + BitVec.ofNat 32 i.cycles, lateReg := none }).wr
      (Reg.CELL_STAT i.cell.val) (BitVec.ofNat 32 (2 ^ 30 + (s.cell i.cell.val).pc.toNat)))) ∧
  (∀ x : CellSt, condHolds x 0 = true ∧ condHolds x 1 = x.z ∧ condHolds x 2 = !x.z ∧ condHolds x 3 = (x.n != x.v) ∧
    condHolds x 4 = (x.n == x.v) ∧ condHolds x 5 = !x.c ∧ condHolds x 6 = x.c ∧ condHolds x 9 = x.v ∧ condHolds x 15 = x.dz)

/-- Streams (R294–R297). The model's own choices and readings in it: log 18 (stage cells). -/
def Obligations.CellStreams : Prop :=
  (∀ (s : State) (i : Issue) (d : Fin 16) (k : Fin 4) (e : SlotEntry) (r : List SlotEntry),
    cellReady s i (encS 0x28 d.val k.val false 0 false) = true → slotFed s i.cell.val k.val = true →
    ((s.cell i.cell.val).slot k.val).dropping = false → ((s.cell i.cell.val).slot k.val).entries = e :: r →
    exec (.cellPop i d k) s = .next ((pumpPorts ((s.modCell i.cell.val fun x => { x with cyc := x.cyc + BitVec.ofNat 32 i.cycles }).modCell
      i.cell.val fun x => { (x.modSlot k.val fun y => { y with entries := r, begun := !e.entry.eop }).setG d e.entry.data with
        sb := BitVec.ofNat 4 (b2n e.entry.eop * 8 + b2n e.entry.abort * 4 + e.entry.qual.toNat) })).modCell i.cell.val fun x =>
      { x with pc := x.pc + 1, lateReg := some d.val })) ∧
  (∀ (s : State) (i : Issue) (d : Fin 16) (k : Fin 4), cellReady s i (encS 0x28 d.val k.val false 0 false) = true →
    (slotFed s i.cell.val k.val = true → ((s.cell i.cell.val).slot k.val).entries = [] →
      exec (.cellPop i d k) s = .next ((s.modCell i.cell.val fun x => { x with cyc := x.cyc + BitVec.ofNat 32 i.cycles }).bump
        (Reg.CELL_POPSTALL i.cell.val) 31 0 i.cycles)) ∧
    (slotFed s i.cell.val k.val = false →
      exec (.cellPop i d k) s = .next (cellFault (s.modCell i.cell.val fun x => { x with cyc := x.cyc + BitVec.ofNat 32 i.cycles }) i.cell.val 3))) ∧
  (∀ (s : State) (i : Issue) (a : Fin 16) (k : Fin 4) (e : Bool) (q : BitVec 2) (x : Bool) (r : Route),
    cellReady s i (encS 0x29 a.val k.val e q x) = true → slotRoutes s i.cell.val k.val = [r] → slotPorts s i.cell.val k.val = [] →
    pushReady s i.cell.val k.val = true →
    exec (.cellPush i a k e q x) s = .next ((deliver (s.modCell i.cell.val fun x => { x with cyc := x.cyc + BitVec.ofNat 32 i.cycles })
      [(r.dstCell, r.dstSlot)] { entry := { data := (s.cell i.cell.val).greg a, eop := e, abort := x, qual := q }, time := s.ct,
                                 lag := (2 + r.hops) / 2 + 1 }).modCell i.cell.val fun x => { x with pc := x.pc + 1, lateReg := none })) ∧
  (∀ (s : State) (i : Issue) (k : Fin 4), cellReady s i (encS 0x2A 0 k.val false 0 false) = true → slotFed s i.cell.val k.val = true →
    exec (.cellDrop i k) s = .next ((pumpPorts ((s.modCell i.cell.val fun x => { x with cyc := x.cyc + BitVec.ofNat 32 i.cycles }).modCell
      i.cell.val fun x => x.modSlot k.val slotDrop)).modCell i.cell.val fun x => { x with pc := x.pc + 1, lateReg := none })) ∧
  (∀ (s : State) (i : Issue) (d : Fin 16) (k : Fin 4), cellReady s i (encS 0x2B d.val k.val false 0 false) = true →
    slotFed s i.cell.val k.val = true → ((s.cell i.cell.val).slot k.val).dropping = false →
    (∀ e ∈ ((s.cell i.cell.val).slot k.val).entries, e.lag < s.ct.toNat - e.time.toNat) →
    exec (.cellAvail i d k) s = .next (cellNext s i none fun x => x.setG d (BitVec.ofNat 32 ((s.cell i.cell.val).slot k.val).entries.length))) ∧
  (∀ (s : State) (i : Issue) (d : Fin 16) (k : Fin 4), cellReady s i (encS 0x2C d.val k.val false 0 false) = true →
    slotRoutes s i.cell.val k.val ≠ [] →
    exec (.cellSpace i d k) s = .next (cellNext s i none fun x => x.setG d (BitVec.ofNat 32 (outSpace s i.cell.val k.val))))

/-- Special instructions (R282, R299–R301), ILLEGAL (R281, R302) and cell memory from outside (R253). The model's own choices and
readings in it: log 18 (stage cells). -/
def Obligations.CellSpecials : Prop :=
  (∀ (s : State) (i : Issue) (d : Fin 16) (n : BitVec 3), cellReady s i (encI 0x30 d.val 0 false n.toNat) = true → n.toNat < 6 →
    exec (.cellRds i d n) s = .next (cellNext s i none fun x => match n.toNat with
      | 0 => x.setG d (BitVec.ofNat 32 i.cell.val)
      | 1 => x.setG d (x.sb.zeroExtend 32)
      | 2 => x.setG d (BitVec.ofNat 32 (b2n x.dz * 16 + b2n x.v * 8 + b2n x.c * 4 + b2n x.n * 2 + b2n x.z))
      | 3 => { x.setG d (s.ct.truncate 32) with shadow := BitVec.ofNat 32 (s.ct.toNat / 2 ^ 32) }
      | 4 => x.setG d x.shadow
      | _ => x.setG d x.cyc)) ∧
  (∀ (s : State) (i : Issue) (a : Fin 16), cellReady s i (encI 0x31 0 a.val false 0) = true →
    exec (.cellWrf i a) s = .next (cellNext s i none fun x => { x with
      dz := bitOf (x.greg a) 4, v := bitOf (x.greg a) 3, c := bitOf (x.greg a) 2, n := bitOf (x.greg a) 1, z := bitOf (x.greg a) 0 })) ∧
  (∀ (s : State) (i : Issue) (a pin : Fin 16), cellReady s i (encI 0x34 0 a.val false pin.val) = true →
    (∀ c, cellClaim s 1 pin.val = some c → c.flags % 2 = 1 →
      exec (.cellGpw i a pin) s = .next ((cellNext s i none id).modFab fun f =>
        let m : BitVec 16 := BitVec.ofNat 16 (2 ^ pin.val)
        let on := bitOf ((s.cell i.cell.val).greg a) 0
        { f with pins := if on then f.pins ||| m else f.pins &&& ~~~m })) ∧
    (cellClaim s 1 pin.val = none → exec (.cellGpw i a pin) s =
      .next (cellFault (s.modCell i.cell.val fun x => { x with cyc := x.cyc + BitVec.ofNat 32 i.cycles }) i.cell.val 4))) ∧
  (∀ (s : State) (i : Issue) (d pin : Fin 16) (c : Claim), cellReady s i (encI 0x35 d.val 0 false pin.val) = true →
    cellClaim s 1 pin.val = some c →
    exec (.cellGpr i d pin) s = .next (cellNext s i none fun x => x.setG d (BitVec.ofNat 32 (b2n (pinLevel s pin.val))))) ∧
  (∀ (s : State) (i : Issue) (a d : Fin 16) (k : Fin 8) (c : Claim), cellClaim s 2 k.val = some c →
    (cellReady s i (encI 0x36 0 a.val false k.val) = true → exec (.cellTarm i a k) s = .next ((cellNext s i none id).modFab fun f =>
      { f with timers := f.timers.set k.val (some ((s.cell i.cell.val).greg a), false) })) ∧
    (cellReady s i (encI 0x37 0 0 false k.val) = true → s.fab.timers[k].2 = true → exec (.cellTwait i k) s = .next (cellNext s i none id)) ∧
    (cellReady s i (encI 0x38 d.val 0 false k.val) = true →
      exec (.cellTrd i d k) s = .next (cellNext s i none fun x => x.setG d (BitVec.ofNat 32 (b2n s.fab.timers[k].2))))) ∧
  (∀ (s : State) (i : Issue), cellReady s i (encI 0x3F 0 0 false 0) = true → exec (.cellNop i) s = .next (cellNext s i none id)) ∧
  (∀ (s : State) (i : Issue) (w : Word), cellReady s i w = true → cellLegal w = false →
    exec (.illegalInstruction i) s =
      .next (cellFault (s.modCell i.cell.val fun x => { x with cyc := x.cyc + BitVec.ofNat 32 i.cycles }) i.cell.val 1)) ∧
  (∀ (s : State) (m : Master) (a : Word) (n : Nat) (d : List Byte), gateOf a.toNat = 6 →
    (s.permits { master := m, write := false, addr := a.toNat, len := n } = true → exec (.cellMemAccess m false a n d) s = .next (
      if cellMemRefused s false a.toNat n then s.resp m (List.replicate n 0) Err.FAB_PRIVATE else s.resp m (s.bytesAt a.toNat n))) ∧
    (s.permits { master := m, write := true, addr := a.toNat, len := d.length } = true → exec (.cellMemAccess m true a n d) s = .next (
      if cellMemRefused s true a.toNat d.length then s.resp m [] Err.FAB_PRIVATE else (s.setBytes a.toNat d).resp m [])))

/-- The words of R280 to R282 and the commands they stand for agree. -/
def Obligations.CellWordsRoundTrip : Prop :=
  (∀ (c : Instr) (i : Issue) (w : Word) (ecc : Nat), cellWord c = some (i, w) →
    cellLegal w = true ∧ cellCommand i ecc w = some (withEcc ecc c)) ∧
  (∀ (i : Issue) (ecc : Nat) (w : Word), cellLegal w = false → cellCommand i ecc w = none)

/-- Issue (R281) and exceptions (R303). -/
def Obligations.CellIssueAndException : Prop :=
  (∀ (c : Instr) (i : Issue) (w : Word) (s : State), cellWord c = some (i, w) → s.live = true →
    (cellRuns s i.cell.val = false ∨ codeAt s i.cell.val (s.cell i.cell.val).pc ≠ w) → exec c s = .next s) ∧
  (∀ (s : State) (c : Fin 32) (cause : Nat), s.canon = true → cause < 16 →
    (∀ k : Fin 32, cellRuns (cellFault s c.val cause) k.val = false) ∧ (cellFault s c.val cause).rdb Reg.FAB_STAT 30 = false ∧
    (cellFault s c.val cause).rdf (Reg.CELL_STAT c.val) 28 25 = cause ∧
    (cellFault s c.val cause).rdf (Reg.CELL_STAT c.val) 10 0 = (s.cell c.val).pc.toNat ∧ (cellFault s c.val cause).mem = s.mem)

/-- Worked words (R280, R282). -/
def Obligations.CellExampleWords : Prop :=
  ∀ i : Issue, cellWord (.cellCmpi i 1 0) = some (i, 0x20060000) ∧ cellWord (.cellB i 1 3) = some (i, 0x80400003) ∧
    cellWord (.cellDiv i 2 3 1) = some (i, 0x308C4000) ∧ cellWord (.cellDiv i 5 6 7) = some (i, 0x3159C000) ∧
    cellWord (.cellB i 9 20) = some (i, 0x82400014)

/-- Loads (R265, R268, R269, R271), unloads (R272) and tally entries (R263). The model's own choices and readings in it: log 60
(loading a choreography), log 61 (tallies and unknown entries). -/
def Obligations.ChoreographyPasses : Prop :=
  (∀ (s : State) (j : LoadJob), s.live = true → s.fab.load = some j → j.phase = .checking →
    exec (.checkPassDone true) s = .next (loadEnd s j Err.FAB_STAGING) ∧
    (∀ c b, checkChoreo s (s.buf j.buf).bytes = (c, b) → c ≠ 0 → exec (.checkPassDone false) s = .next (loadEnd s j c)) ∧
    (∀ b, checkChoreo s (s.buf j.buf).bytes = (0, some b) → j.replace = false → b.conf.claims.any (claimCollides s false) = false →
      exec (.checkPassDone false) s = .next (applyBegins (takeWindows ((takeClaims s b.conf.claims).modFab fun f =>
        { f with held := b.conf.claims }) b.conf.claims)
        { j with choreo := b.conf, keys := (tenantKeys s b.conf.tenant).getD ([], []) })) ∧
    (∀ b, checkChoreo s (s.buf j.buf).bytes = (0, some b) → b.conf.claims.any (claimCollides s j.replace) = true →
      exec (.checkPassDone false) s = .next (loadEnd s { j with choreo := b.conf } Err.FAB_CLAIM_CONFLICT))) ∧
  (∀ (s : State) (j : LoadJob) (f : Bool), s.live = true → s.fab.load = some j → j.phase = .abandoned →
    exec (.checkPassDone f) s = .next (loadEnd s j Err.FAB_LANE_STATE)) ∧
  (∀ (s : State) (j : LoadJob), s.live = true → s.fab.load = some j → j.phase = .draining →
    exec .drainEnd s = .next (applyBegins s j)) ∧
  (∀ (s : State) (u : UnloadJob), s.live = true → s.fab.load = none → s.fab.unload = some u → u.draining = true →
    exec .drainEnd s = .next (unloadDone s u)) ∧
  (∀ (s : State) (j : LoadJob), s.live = true → s.fab.load = some j → j.phase = .applying →
    exec (.applyDone true) s = .next (applyFailed s j) ∧
    (reopenChoreo s j = none → exec (.applyDone false) s = .next (applyFailed s j)) ∧
    ∀ b, reopenChoreo s j = some b → exec (.applyDone false) s = .next (applyPassed s j b)) ∧
  (∀ (s t : State) (e : QEntry) (r : List QEntry), s.live = true → queuePacket s 14 = (some (e :: r), t) → t.fabLoaded = true →
    fld e.data 31 28 < t.fab.conf.tally.length →
    exec .tallyEntry s = .next (t.wr64 (Reg.ACS_TALLY_LO (fld e.data 31 28)) (Reg.ACS_TALLY_HI (fld e.data 31 28))
      ((tallyCounter t (fld e.data 31 28) + fld e.data 15 0) % 2 ^ 48))) ∧
  (∀ (s t : State) (e : QEntry) (r : List QEntry), s.live = true → queuePacket s 14 = (some (e :: r), t) →
    t.fab.conf.tally.length ≤ fld e.data 31 28 →
    exec .tallyEntry s = .next (raise (t.bump Reg.FAB_TALLY_BAD 31 0) Err.FAB_TALLY_CLASS 0x0D (BitVec.ofNat 64 (fld e.data 31 28))))

/-- What a failed apply pass leaves (R269). -/
def Obligations.ApplyFailureClears : Prop :=
  ∀ (s : State) (j : LoadJob), s.canon = true →
    (applyFailed s j).fabLoaded = false ∧ (applyFailed s j).fab.load = none ∧ (applyFailed s j).fab.held = [] ∧
    (applyFailed s j).fab.reserved = [] ∧ (applyFailed s j).fab.cells = Vector.replicate 32 {} ∧ (applyFailed s j).fab.code = [] ∧
    (∀ c : Fin 32, cellRuns (applyFailed s j) c.val = false) ∧
    (∀ a, 0x60000000 ≤ a → a < 0x60100000 → (applyFailed s j).byteAt a = 0) ∧
    (∀ a, a < 0x60000000 ∨ 0x60100000 ≤ a → (applyFailed s j).byteAt a = s.byteAt a) ∧
    (s.lanes.own.state ≠ .safe → (applyFailed s j).lanes.own.state = .idle)

/-- Enables (R312, R327, R330), records (R307–R312) and timed commands (R313). The model's own choices and readings in it: log 28
(ejection). -/
def Obligations.EjectionCommands : Prop :=
  (∀ (s : State) (m : Master) (v : Word), s.reaches m Reg.EJ_CTRL = true →
    let was := s.rdb Reg.EJ_CTRL 0
    let svc := if was && bitOf v 0 then s.rdf Reg.EJ_CTRL 15 8 else fld v 15 8
    let clash := !was && (List.range 8).any fun k => svc / 2 ^ k % 2 == 1 && claimed s 3 k
    let arm := bitOf v 1 && !s.rdb Reg.ERR_STAT 31
    let t := s.wr Reg.EJ_CTRL (BitVec.ofNat 32 (svc * 256 + b2n (arm || s.rdb Reg.EJ_CTRL 1) * 2 + b2n (bitOf v 0 && !clash)))
    ∀ c ∈ [Instr.ejEnable m v, .ejArm m v], exec c s =
      .next (((List.range 4).foldl ejPortCfg (if s.rdb Reg.EJ_CTRL 1 && !arm then ejDisarm t else setPermit t)).resp m [])) ∧
  (∀ (s t : State) (l : List QEntry), s.live = true → queuePacket s 13 = (some l, t) → (t.queue 13).stalled = [] →
    ((l.length ≠ 6 ∨ l.any (·.abort) = true) → exec .decisionRecord s = .next (ejRaise (t.bump Reg.EJ_RECBAD 31 0) Err.EJ_REC_BAD 4)) ∧
    (l.length = 6 → l.any (·.abort) = false → t.rdb Reg.EJ_CTRL 1 = false → exec .decisionRecord s = .next (t.bump Reg.EJ_DISARMED 31 0))) ∧
  (∀ (s t : State) (w0 w1 w2 w3 w4 w5 : QEntry), s.live = true → queuePacket s 13 = (some [w0, w1, w2, w3, w4, w5], t) →
    (t.queue 13).stalled = [] → [w0, w1, w2, w3, w4, w5].any (·.abort) = false → t.rdb Reg.EJ_CTRL 1 = true →
    let n := fld w0.data 31 30
    let part := fld w0.data 29 27
    let mask : DWord := BitVec.ofNat 64 (w1.data.toNat + 2 ^ 32 * w2.data.toNat)
    let tOn : Int := Int.ofNat (w3.data.toNat + 2 ^ 32 * w4.data.toNat) - 200 * (t.rdf (Reg.EJ_PTIME n) 31 16 : Int)
    (t.ejp n).state = .up → partUsable t part = true → mask ≠ 0 → mask.toNat / 2 ^ (t.ejp n).nvalves = 0 →
    200 * (t.rdf (Reg.EJ_PLIM n) 15 0 : Int) ≤ tOn - t.ct.toNat → tOn - t.ct.toNat ≤ 20000000 → partCount t part < 128 →
    exec .decisionRecord s = .next (firePlace t n part (fld w0.data 15 0) mask tOn.toNat (some (fld w0.data 19 16)))) ∧
  (∀ (s : State) (n : Fin 4) (c : FireCmd), s.live = true → (s.ejp n.val).state = .up → (s.ejp n.val).exch = none →
    (s.ejp n.val).openNext = false → (s.ejp n.val).queue = [c] →
    (c.tOn < s.ct.toNat + 20000 →
      exec (.fireDue n) s = .next ((s.bump (Reg.EJ_PLATE n.val) 31 0 1).modEjp n.val fun p => { p with queue := [] })) ∧
    (s.ct.toNat + 20000 ≤ c.tOn → c.tOn ≤ s.ct.toNat + ejAdvance s n.val →
      exec (.fireDue n) s = .next (ejStart ((s.bump (Reg.EJ_PLATE n.val) 31 0 0).modEjp n.val fun p => { p with queue := [] }) n.val .fire [c])))

/-- Arming and port states gate every command (R309, R313, R330). -/
def Obligations.NoFireUnlessArmed : Prop :=
  (∀ (s : State) (l : List QEntry) (n : Fin 4), s.rdb Reg.EJ_CTRL 1 = false →
    ((recordJudge s l).ejp n.val).queue = (s.ejp n.val).queue) ∧
  (∀ (s : State) (l : List QEntry) (n : Fin 4), (s.ejp n.val).state ≠ .up →
    ((recordJudge s l).ejp n.val).queue = (s.ejp n.val).queue) ∧
  (∀ (s : State) (n : Fin 4), s.live = true → (s.ejp n.val).state ≠ .up → exec (.fireDue n) s = .next s) ∧
  (∀ (c : FireCmd) (l : List FireCmd), List.Pairwise (fun a b => a.tOn ≤ b.tOn) l →
    List.Pairwise (fun a b => a.tOn ≤ b.tOn) (fireInsert c l) ∧ (fireInsert c l).length = l.length + 1 ∧ c ∈ fireInsert c l ∧
      ∀ x ∈ l, x ∈ fireInsert c l)

/-- Exchanges (R319–R323), confirmations (R325), port states (R327–R329) and drivers (R71). The model's own choices and readings in
it: log 28 (ejection). -/
def Obligations.EjectorLinks : Prop :=
  (∀ (s : State) (n : Fin 4), s.live = true → (s.ejp n.val).state = .up → (s.ejp n.val).exch = none → (s.ejp n.val).openNext = false →
    (s.ejp n.val).queue = [] →
    exec (.syncDue n) s = .next (ejStart s n.val .sync) ∧ exec (.statusPoll n) s = .next (ejStart s n.val .statusReq)) ∧
  (∀ (s : State) (n : Fin 4), s.live = true → (s.ejp n.val).state = .probing → (s.ejp n.val).exch = none → (s.ejp n.val).openNext = false →
    exec (.linkOpenProbe n) s = .next (ejStart s n.val .linkOpen)) ∧
  (∀ (s : State) (n : Fin 4), s.live = true → (s.ejp n.val).state = .down →
    exec (.portReprobe n) s = .next (setEjState (s.modEjp n.val fun p =>
      { p with opened := none, openNext := false, good := 0, outliers := 0, pairs := [], fails := 0, viol := [], cackKnown := false })
      n.val .probing)) ∧
  (∀ (s : State) (n : Fin 4) (x : EjExch) (c : FireCmd) (r : Byte), s.live = true → (s.ejp n.val).exch = some x → x.kind = .fire →
    x.seq < 256 → x.cmds = [c] → r.toNat ≤ 1 →
    exec (.fireAck n (BitVec.ofNat 8 x.seq) [r] []) s = .next (s.modEjp n.val fun p =>
      { p with exch := none, fails := 0, await := c :: p.await })) ∧
  (∀ (s : State) (n : Fin 4) (x : EjExch) (v : Byte), s.live = true → (s.ejp n.val).exch = some x → x.kind = .linkOpen → x.seq < 256 →
    (s.ejp n.val).state = .probing →
    exec (.statusFrame n (BitVec.ofNat 8 x.seq) v 0 []) s = .next (s.modEjp n.val fun p =>
      { p with exch := none, fails := 0, opened := some v.toNat, overflow := false })) ∧
  (∀ (s : State) (n : Fin 4) (x : EjExch) (t2 t3 : Word) (t4 : CTime), s.live = true → (s.ejp n.val).exch = some x → x.kind = .sync →
    x.seq < 256 →
    ((t3 - t2).toInt < 80 ∨ 180 < (t3 - t2).toInt → exec (.syncRsp n (BitVec.ofNat 8 x.seq) t2 t3 t4) s =
      .next (ejViolation ((s.modEjp n.val fun p => { p with exch := none, fails := 0 }).modEjp n.val fun p => { p with good := 0 }) n.val)) ∧
    (80 ≤ (t3 - t2).toInt → (t3 - t2).toInt ≤ 180 → (s.ejp n.val).pairs = [] → exec (.syncRsp n (BitVec.ofNat 8 x.seq) t2 t3 t4) s =
      .next (pairAccept (s.modEjp n.val fun p => { p with exch := none, fails := 0 }) n.val ((x.sent.toNat + t4.toNat) / 2)
        ((t2 + BitVec.ofInt 32 ((t3 - t2).toInt / 2)).toNat : Int)))) ∧
  (∀ (s : State) (n : Fin 4) (x : EjExch), s.live = true → (s.ejp n.val).exch = some x → x.kind ≠ .fire → x.cmds = [] →
    x.tries < s.rdf (Reg.EJ_PCFG n.val) 26 24 →
    let t := ejSend (((s.bump (Reg.EJ_PLATE n.val) 31 0 0).modEjp n.val fun p => { p with exch := none }).bump (Reg.EJ_PRETRY n.val) 31 0)
      n.val { x with tries := x.tries + 1 }
    exec (.exchangeTimeout n) s = .next t ∧ exec (.bankResponseDiscarded n false) s = .next t) ∧
  (∀ (s : State) (n : Fin 4) (x : EjExch), s.live = true → (s.ejp n.val).exch = some x →
    exec (.bankResponseDiscarded n true) s = .next (ejFail (ejViolation s n.val) n.val)) ∧
  (∀ (s : State) (n : Fin 4) (id : Half) (c : FireCmd), s.live = true →
    (s.ejp n.val).await.find? (fun c => c.id == id.toNat) = some c → c.tOn + 200 * c.width + 1000000 ≤ s.ct.toNat →
    exec (.ejNoconf n id) s = .next (raise ((s.bump (Reg.EJ_PNOCONF n.val) 31 0).modEjp n.val fun p =>
      { p with await := p.await.filter (·.id != c.id), unknown := c :: p.unknown }) Err.EJ_NOCONF 0x0F (BitVec.ofNat 64 (n.val * 65536 + id.toNat)))) ∧
  (∀ (s : State) (n : Fin 4), s.live = true →
    exec (.ejDriverHot n) s = .next (if s.rdb (Reg.EJ_PSTAT n.val) 29 then s
      else raise (s.wrb (Reg.EJ_PSTAT n.val) 29 true) Err.EJ_DRIVER_HOT 0x0F (BitVec.ofNat 64 n.val)) ∧
    exec (.driverCool n) s = .next (s.wrb (Reg.EJ_PSTAT n.val) 29 false))

/-- Training and link states (R335, R336), judging frames (R341, R345, R347), ACK and NAK (R343), replay (R344). The model's own
choices and readings in it: log 31 (link-layer processing). -/
def Obligations.RingLink : Prop :=
  (∀ (s : State) (p : Fin 2), s.live = true → frlState s p.val = 0 → s.rdb Reg.FRL_CTRL p.val = true →
    exec (.linkSignal p) s = .next ((setFrlState s p.val 1).emit (.frlTrain p.val (frlLetter p.val) 0))) ∧
  (∀ (s : State) (p : Fin 2), s.live = true → frlState s p.val = 1 ∨ frlState s p.val = 3 →
    exec (.signalLost p) s = .next (((setFrlState s p.val 0).bump (Reg.FRL_PDOWN p.val) 31 0).modFrl p.val fun q => { delays := q.delays })) ∧
  (∀ (s : State) (p : Fin 2) (x : Byte), s.live = true → frlState s p.val = 1 →
    exec (.trainReceived p (frlLetter p.val) x) s =
      .next (raise (setFrlState s p.val 3) Err.FRL_MISCABLED frlSrc (BitVec.ofNat 64 p.val)) ∧
    (∀ letter ≠ frlLetter p.val,
      ((s.frl p.val).sent < 15 → exec (.trainReceived p letter 2) s = .next ((s.modFrl p.val fun q =>
        { q with train := 2, sent := q.sent + 1, got := q.got + 1 }).emit (.frlTrain p.val (frlLetter p.val) 2))) ∧
      (15 ≤ (s.frl p.val).sent → 15 ≤ (s.frl p.val).got → ∃ t, exec (.trainReceived p letter 2) s = .next t ∧
        (t.frl p.val).txSeq = 0 ∧ (t.frl p.val).exp = 0 ∧ (t.frl p.val).unacked = [] ∧ (t.frl p.val).delays = (s.frl p.val).delays))) ∧
  (∀ (s : State) (p : Fin 2), s.live = true → frlUp s p.val = true → ∀ c ∈ [Instr.linkDown p, .linkIdleTimeout p],
    exec c s = .next (portDown s p.val) ∧ (portDown s p.val).frl p.val = { delays := (s.frl p.val).delays }) ∧
  (∀ (s : State) (p : Fin 2) (h : List Byte) (stamp : DWord), s.live = true → frlUp s p.val = true → (s.frl p.val).rx = none →
    let d := (numAt h 4 2 % 4096 + 4096 - (s.frl p.val).exp) % 4096
    (hcrcOk h = false → exec (.frameHeader p h stamp) s = .next (sendNak ((s.modFrl p.val fun q => { q with rx := none }).bump (Reg.FRL_PCRC p.val) 31 0) p.val)) ∧
    (hcrcOk h = true → 4032 ≤ d → exec (.frameHeader p h stamp) s = .next (sendAck (s.modFrl p.val fun q => { q with rx := none }) p.val)) ∧
    (hcrcOk h = true → 0 < d → d < 4032 →
      exec (.frameHeader p h stamp) s = .next (sendNak (s.modFrl p.val fun q => { q with rx := none }) p.val)) ∧
    (hcrcOk h = true → d = 0 → (frlParse h).typ = 0x01 → (frlParse h).hops < 65 →
      let f := { frlParse h with hops := (frlParse h).hops + 1 }
      let r : RxFrame := { hdr := h, frame := f, len := numAt h 8 2, stamp := stamp, deliver := true, forward := false, cut := false }
      exec (.frameHeader p h stamp) s = .next (s.modFrl p.val fun q => { q with rx := some r }))) ∧
  (∀ (s : State) (p : Fin 2) (r : RxFrame) (l : List Byte), s.live = true → (s.frl p.val).rx = some r → r.cut = false →
    let fcs := crc32 (r.hdr ++ l)
    (l.length = r.len → r.forward = false → r.deliver = true → r.frame.typ = 0x01 → r.frame.bcast = false → (s.frl p.val).good < 7 →
      exec (.frameEnd p l fcs true false) s = .next ((s.modFrl p.val fun q =>
        { q with rx := none, exp := (q.exp + 1) % 4096, nakSent := false, good := q.good + 1 }).modRing fun x =>
        { x with inbox := x.inbox ++ [(p.val, { r.frame with payload := l }, r.stamp)] })) ∧
    (l.length = r.len → r.forward = false → r.deliver = false → 7 ≤ (s.frl p.val).good →
      exec (.frameEnd p l fcs true false) s = .next (sendAck (s.modFrl p.val fun q =>
        { q with rx := none, exp := (q.exp + 1) % 4096, nakSent := false, good := q.good + 1 }) p.val)) ∧
    (∀ x ≠ fcs, exec (.frameEnd p l x true false) s =
      .next (sendNak ((s.bump (Reg.FRL_PCRC p.val) 31 0).modFrl p.val fun q => { q with rx := none }) p.val)) ∧
    (∀ x, exec (.frameEnd p l x false false) s =
      .next (sendNak ((s.bump (Reg.FRL_PABORT p.val) 31 0).modFrl p.val fun q => { q with rx := none }) p.val))) ∧
  (∀ (s : State) (p : Fin 2) (a b k : Byte), s.live = true → frlUp s p.val = true →
    let n := a.toNat + 256 * (b.toNat % 16)
    (k = a ^^^ b ^^^ 0xA5 → exec (.ack p a b k) s = .next (pumpPort (ackFrames s p.val n) p.val)) ∧
    (k = a ^^^ b ^^^ 0xA5 → bitOf b 7 = true →
      exec (.nak p a b k) s = .next ((ackFrames s p.val n).modFrl p.val fun q => { q with backoff := true })) ∧
    (k = a ^^^ b ^^^ 0xA5 → bitOf b 7 = false → ((ackFrames s p.val n).frl p.val).unacked ≠ [] →
      exec (.nak p a b k) s = .next (replay (ackFrames s p.val n) p.val)) ∧
    (k ≠ a ^^^ b ^^^ 0xA5 → exec (.ack p a b k) s = .next (s.bump (Reg.FRL_PBADOS p.val) 31 0) ∧
      exec (.nak p a b k) s = .next (s.bump (Reg.FRL_PBADOS p.val) 31 0))) ∧
  (∀ (s : State) (p : Fin 2), s.live = true → frlUp s p.val = true →
    (0 < (s.frl p.val).good → exec (.ackTimer p) s = .next (sendAck s p.val)) ∧
    ((s.frl p.val).backoff = true → exec (.busyBackoff p) s = .next (resendAll (s.modFrl p.val fun q => { q with backoff := false }) p.val)) ∧
    ((s.frl p.val).unacked ≠ [] → (s.frl p.val).replays < 7 → exec (.replayTimeout p) s =
      .next (resendAll ((s.bump (Reg.FRL_PREPLAY p.val) 31 0).modFrl p.val fun q => { q with replays := (s.frl p.val).replays + 1 }) p.val)) ∧
    ((s.frl p.val).unacked ≠ [] → (s.frl p.val).replays = 7 → exec (.replayTimeout p) s =
      .next (portDown (raise ((s.bump (Reg.FRL_PREPLAY p.val) 31 0).modFrl p.val fun q => { q with replays := 8 })
        Err.FRL_REPLAY_LIMIT frlSrc (BitVec.ofNat 64 p.val)) p.val)))

/-- The sending side of reliable transfer (R340, R343, R344). -/
def Obligations.ReplayWindow : Prop :=
  let window := fun (s : State) (p : Nat) => (s.frl p).unacked.length ≤ 64 ∧ (s.frl p).txSeq < 4096 ∧
    ∀ i < (s.frl p).unacked.length, ((s.frl p).unacked[i]?).map Prod.fst =
      some (((s.frl p).txSeq + 4096 + i - (s.frl p).unacked.length) % 4096)
  (∀ (s t : State) (p : Fin 2) (a b k : Byte), window s 0 → window s 1 →
    ∀ c ∈ [Instr.ack p a b k, .nak p a b k, .busyBackoff p, .replayTimeout p, .linkDown p, .linkIdleTimeout p],
      exec c s = .next t → window t 0 ∧ window t 1) ∧
  (∀ (s : State) (p : Fin 2) (k : Nat), window s p.val → k ≤ (s.frl p.val).unacked.length →
    let n := ((s.frl p.val).txSeq + 4096 + k - (s.frl p.val).unacked.length) % 4096
    ((ackFrames s p.val n).frl p.val).unacked = (s.frl p.val).unacked.drop k) ∧
  (∀ (s : State) (p : Fin 2) (n : Nat), window s p.val → n < 4096 →
    (∀ k ≤ (s.frl p.val).unacked.length, n ≠ ((s.frl p.val).txSeq + 4096 + k - (s.frl p.val).unacked.length) % 4096) →
    ackFrames s p.val n = s)

/-- Headers (R337), protected payloads (R349, R350) and their refusal (R351). -/
def Obligations.FramesRoundTrip : Prop :=
  (∀ (f : Frame) (n : Nat), f.typ < 256 → f.src < 256 → f.dst < 256 → f.hops < 256 → f.payload.length < 65536 → n < 4096 →
    frlParse (frlHeader f n) = { f with payload := [] } ∧ hcrcOk (frlHeader f n) = true ∧ numAt (frlHeader f n) 4 2 = n ∧
      numAt (frlHeader f n) 8 2 = f.payload.length) ∧
  (∀ key iv aad plain : List Byte, key.length = 16 ∨ key.length = 32 →
    gcmDecrypt key iv aad (gcmEncrypt key iv aad plain).1 (gcmEncrypt key iv aad plain).2 = some plain) ∧
  (∀ (s r : State) (f : Frame), s.isManager = true → r.isManager = false →
    let key := sessKey s r.position f.path
    let k := 2 * r.position + f.path
    let pseq := sget (fun _ => 0) s.ring.pseqTx k + 1
    (key.length = 16 ∨ key.length = 32) → sessKey r r.position f.path = key → pseq < 2 ^ 48 →
    (sget (fun _ => 0) r.ring.pseqRx k < pseq →
      (openFrame r (protectFrame s f r.position).1).1 = some { f with payload := pad4 f.payload } ∧
      sget (fun _ => 0) (openFrame r (protectFrame s f r.position).1).2.ring.pseqRx k = pseq) ∧
    (pseq ≤ sget (fun _ => 0) r.ring.pseqRx k →
      openFrame r (protectFrame s f r.position).1 =
        (none, (raise r Err.FRL_PSEQ_REPLAY frlSrc (BitVec.ofNat 64 (f.src * 256 + f.typ))).bump Reg.FRL_AUTHFAIL 31 0)))

/-- ENUM and ASSIGN (R357–R359), TIME (R361, R364, R366, R367, R369), link delay (R365). The model's own choices and readings in it:
log 31 (link-layer processing), log 33 (curtain time on the ring). -/
def Obligations.RingTimeAndPositions : Prop :=
  let took := fun (s : State) (rest : List (Nat × Frame × DWord)) => s.modRing fun r => { r with inbox := rest }
  (∀ (s : State) (p : Fin 2) (f : Frame) (stamp : DWord) (rest : List (Nat × Frame × DWord)), s.live = true →
    s.ring.inbox = (p.val, f, stamp) :: rest →
    let t := took s rest
    let tseq := numAt f.payload 16 4
    (f.typ = 0x03 → s.isManager = false →
      let u := sendOn t (otherPort p.val) .prio f [.add 8 (linkDelay t p.val - stamp)]
      let v := noteTime u f.path tseq f.hops
      exec (.time p) s = .next (if v.rdf Reg.FRL_STAT 17 16 = f.path + 1 then correctTime v (stamp - timeEstimate v p.val f).toInt else v)) ∧
    (f.typ = 0x03 → s.isManager = true → f.src = s.position → ∃ u, exec (.time p) s = .next u ∧
      (∀ h : f.path < 2, u.ring.back[f.path] = some tseq ∧ u.ring.miss[f.path] = 0) ∧ u.ring.inbox = rest) ∧
    (f.typ = 0x04 → exec (.pdelayReq p) s = .next (sendOn t p.val .prio
      { typ := 0x05, flags := frlFlags false false false false (portPath t p.val), src := t.position, dst := 0xFE,
        payload := slice f.payload 0 8 ++ bytesLE 8 stamp.toNat ++ List.replicate 8 0 } [.stamp 16])) ∧
    (f.typ = 0x05 →
      let turn := dwordIn f.payload 16 - dwordIn f.payload 8
      let l := ((((stamp - dwordIn f.payload 0) - turn).toInt / 2) :: (s.frl p.val).delays).take 16
      (turn.toNat ≤ 10 * 200 * 65536 → exec (.pdelayRsp p) s =
        .next ((t.modFrl p.val fun q => { q with delays := l }).wr (Reg.FRL_PDELAY p.val) (BitVec.ofInt 32 (meanDelay l)))) ∧
      (10 * 200 * 65536 < turn.toNat → exec (.pdelayRsp p) s = .next t)) ∧
    (f.typ = 0x02 → f.prot = true → exec (.assign p) s = .next (takePosition t (numAt f.payload 2 1))) ∧
    (f.typ = 0x02 → f.prot = false → s.isManager = false → s.position = 0xFF → f.hops = numAt f.payload 1 1 → frlUp s (otherPort p.val) = false →
      exec (.assign p) s = .next (t.wrf Reg.SYS_ROLE 23 16 (numAt f.payload 2 1))) ∧
    (f.typ = 0x01 → s.isManager = false → s.rdf Reg.SYS_ROLE 1 0 ≠ 1 → f.rsp = false → numAt f.payload 8 4 / 2 % 2 = 0 → armed s = false →
      frlUp s (otherPort p.val) = false →
      let l := putWord f.payload 12 ((numAt f.payload 12 4 + 1) % 2 ^ 32)
      let l := if l.length < 32 + 4 * 64 then l ++ enumRecord s else l
      let g := { f with payload := putWord l 8 (numAt l 8 4 ||| 1), flags := f.flags ||| 0x10, dst := 0 }
      exec (.enum p) s = .next (sendOn t p.val .fwd g)) ∧
    (f.typ = 0x01 → s.isManager = true → s.ring.duplicate = false → s.ring.nonce = some (f.payload.take 8) →
      let words := (List.range ((f.payload.length - 32) / 4)).map fun i => wordLE (f.payload.drop (32 + 4 * i))
      (∀ w ∈ words, fld w 9 8 ≠ 1) → numAt f.payload 8 4 / 2 % 2 = 0 →
      let e : EnumRes := { through := decide (p.val ≠ f.path), count := numAt f.payload 12 4, records := words,
                           hops := f.hops, adopt := none }
      exec (.enum p) s = .next (enumEvaluate (t.modRing fun r => { r with cur := if h : f.path < 2 then r.cur.set f.path (some e) else r.cur })))) ∧
  (∀ s : State, s.live = true → s.isManager = true → s.fwRuns = true → s.ring.duplicate = false →
    (s.ring.nonce = none → s.ring.due = true → ∃ t, exec .enumRound s = .next t ∧ t.ring.nonce.isSome = true ∧ t.ring.due = false ∧
      t.ring.prev = Vector.replicate 2 none) ∧
    (∀ n, s.ring.nonce = some n → exec .enumRound s =
      .next (enumEvaluate (sendRound (s.modRing fun r => { r with prev := r.cur, cur := Vector.replicate 2 none }) n)))) ∧
  (∀ (s : State) (a : EnumRes) (all : List RingNode) (n : RingNode), s.ring.renum = none →
    (n.pos ≠ 0xFF → decidePos s a all n = n.pos) ∧
    (takenOver s = false → a.through = true → s.ring.sticky = none → all = nodesOf false a → n ∈ all → n.pos = 0xFF → n.hop ≤ 64 →
      n.hop ≤ a.count → (∀ m ∈ all, m.pos ≠ n.hop) → decidePos s a all n = n.hop)) ∧
  (∀ (s : State) (pos : Nat), s.position ≠ 0xFF → s.position ≠ pos →
    takePosition s pos = setSess (setSess (s.wrf Reg.SYS_ROLE 23 16 pos) 0 []) 1 []) ∧
  (∀ (s : State) (off : Int), s.canon = true → ctValid s = true →
    (200 * 65536 < off.natAbs → s.ring.outliers < 15 →
      (correctTime s off).ct = s.ct ∧ (correctTime s off).ring.slew = s.ring.slew ∧ (correctTime s off).ring.outliers = s.ring.outliers + 1) ∧
    (off.natAbs ≤ 200 * 65536 →
      (correctTime s off).ct = s.ct ∧ (correctTime s off).ring.slew = -(Int.tdiv off 65536) ∧ (correctTime s off).ring.outliers = 0)) ∧
  (∀ (s : State) (a b : Nat × Nat), s.live = true → s.isManager = false →
    (s.rdf Reg.FRL_STAT 17 16 = 1 → s.ring.seen[0] = some a → s.ring.seen[1] = some b → a.1 + 4 ≤ b.1 → b.1 < 2 ^ 31 →
      exec .timeSourceSwitch s = .next ((s.wrf Reg.FRL_STAT 17 16 2).wrf Reg.FRL_STAT 30 24 b.2)) ∧
    (s.rdf Reg.FRL_STAT 17 16 = 2 → s.ring.seen[1] = some a → s.ring.seen[0] = some b → a.1 + 4 ≤ b.1 → b.1 < 2 ^ 31 →
      exec .timeSourceSwitch s = .next ((s.wrf Reg.FRL_STAT 17 16 1).wrf Reg.FRL_STAT 30 24 b.2)) ∧
    exec .timeLost s = .next (loseTime (s.wrb Reg.FRL_STAT 31 true))) ∧
  (∀ s : State, s.live = true → s.isManager = true → s.ring.known = true → s.ring.closed = false →
    exec .timePeriod s = .next (((List.range 2).foldl (fun t p => if frlUp t p then sendTime t p else t) s).modRing fun r =>
      { r with tseq := (r.tseq + 1) % 2 ^ 32, timeSent := true })) ∧
  (∀ s : State, s.live = true → exec .pdelayPeriod s = .next ((List.range 2).foldl (fun t p =>
    sendOn t p .prio { typ := 0x04, flags := frlFlags false false false false (portPath t p), src := t.position, dst := 0xFE,
                       payload := List.replicate 8 0 } [.stamp 0]) s))

/-- Transactions (R352–R354) and feature packets (R356). The model's own choices and readings in it: log 30 (the format of ring
messages), log 34 (transactions). -/
def Obligations.RingTransactions : Prop :=
  (∀ (s t : State) (p : Fin 2) (l : List QEntry), s.live = true → s.fwRuns = true → queuePacket s (frlQueue p.val) = (some l, t) →
    let f := wordsFrame l
    f.typ = 0x10 →
    (f.rsp = false → ownRow s f = false →
      (t.ring.done.find? (fun r => r.src == f.src && r.txn == f.txn.toNat) = none →
        exec (.txn p) s = .next (txnRun (t.modRing fun g =>
          { g with done := { src := f.src, txn := f.txn.toNat, port := p.val, toEn := f.toEn } :: g.done }) f)) ∧
      (∀ r b, t.ring.done.find? (fun r => r.src == f.src && r.txn == f.txn.toNat) = some r →
        (r.resp = none → exec (.txn p) s = .next t) ∧
        (r.resp = some b → exec (.txn p) s = .next (sendTxnResponse t { r with port := p.val } b)))) ∧
    (f.rsp = true → s.ring.pend.any (fun t => t.txn == f.txn.toNat && t.use == .delta) = false →
      (t.ring.pend.find? (fun x => x.txn == f.txn.toNat && x.pos == f.src) = none → exec (.txnResponse p) s = .next t) ∧
      (∀ x, t.ring.pend.find? (fun x => x.txn == f.txn.toNat && x.pos == f.src) = some x → x.use = .quiet →
        exec (.txnResponse p) s = .next (hostAdvance (admitAdvance (t.modRing fun r =>
          { r with pend := r.pend.filter fun y => y.txn != x.txn })))))) ∧
  (∀ (s : State) (p q : Nat) (f : Frame), (admitTxn s p f).1 = true → (admitTxn (admitTxn s p f).2 q f).1 = false ∧
    ∃ r ∈ (admitTxn s p f).2.ring.done, r.src = f.src ∧ r.txn = f.txn.toNat ∧ r.resp = none) ∧
  (∀ (l : List TxnRec) (src : Nat), ((trimRecs l src).filter fun r => r.src == src && r.resp.isSome).length ≤ 32 ∧
    (trimRecs l src).filter (fun r => !(r.src == src && r.resp.isSome)) = l.filter fun r => !(r.src == src && r.resp.isSome)) ∧
  (∀ (s : State) (txn : Word) (t : TxnPend), s.live = true → s.ring.pend.find? (fun t => t.txn == txn.toNat) = some t → s.fwRuns = true →
    t.use ≠ .delta → t.use ≠ .probe →
    (t.tries < 50 → exec (.txnRetry txn) s = .next (sendTxnFrame (s.modRing fun r =>
      { r with pend := r.pend.map fun y => if y.txn = t.txn then { y with tries := y.tries + 1 } else y }) t)) ∧
    (50 ≤ t.tries → t.use = .quiet → s.isManager = true → exec (.txnRetry txn) s = .next (hostAdvance (admitAdvance
      (raise (s.modRing fun r => { r with pend := r.pend.filter fun y => y.txn != t.txn }) Err.FRL_TXN_FAILED frlSrc (BitVec.ofNat 64 t.pos)))))) ∧
  (∀ (s t : State) (l : List QEntry), s.live = true → queuePacket s 15 = (some l, t) → t.isManager = false →
    (∀ path, featurePath t = some path → l.length ≤ 290 → featuresWaiting t (pathPort t path) < 16 →
      exec .featureSend s = .next ((sendParts t path t.ring.pkt l).modRing fun r => { r with pkt := (r.pkt + 1) % 65536 })) ∧
    (featurePath t = none → exec .featureSend s = .next (t.bump Reg.FRL_FEAT_DROP 31 0))) ∧
  (∀ (s t : State) (p : Fin 2) (l : List QEntry), s.live = true → s.isManager = true → s.fwRuns = true →
    queuePacket s (frlQueue p.val) = (some l, t) →
    let f := wordsFrame l
    f.typ = 0x30 → numAt f.payload 2 1 = 0 → numAt f.payload 3 1 = 1 → t.ring.joins = [] →
    exec (.feature p) s = .next (featureOut t f.src (partEntries f.payload))) ∧
  (∀ (s : State) (pos : BitVec 8) (j : FeatJoin), s.live = true → s.ring.joins = [j] → j.pos = pos.toNat →
    exec (.featureTimeout pos) s = .next ((s.bump Reg.HOST_FEAT_DROP 31 0).modRing fun r => { r with joins := [] }))

/-- Acceptance (R378), who serves the link (R19, R374, R386). The model's own choices and readings in it: log 38 (acceptance of host
commands), log 52 (takeover). -/
def Obligations.HostRefusals : Prop :=
  ∀ (s : State) (c : HostCmd), s.live = true →
    let rows : List (Instr × Half) := [(Instr.setTime c, (0x0003 : Half)), (.setUtc c, 0x0004), (.eventMask c, 0x0005), (.diagRead c, 0x0006), (.resetDevice c, 0x0007),
       (.reenumerate c, 0x0101), (.choreoLoad c, 0x0201), (.choreoUnload c, 0x0202), (.serviceFire c, 0x0203), (.shutterEvent c, 0x0204),
       (.inject c, 0x0205), (.loopSet c, 0x0206), (.loopStatus c, 0x0207)] ++
      [(.calBegin c, 0x0301), (.calPointReady c, 0x0302), (.calCommit c, 0x0303), (.calDiscard c, 0x0304), (.calAbort c, 0x0305),
       (.calStatus c, 0x0306), (.calExport c, 0x0307), (.calImport c, 0x0308)] ++
      [(.uploadOpen c, 0x0401), (.uploadData c, 0x0402), (.uploadClose c, 0x0403), (.downloadRead c, 0x0404), (.fwStage c, 0x0501),
       (.fwSchedule c, 0x0502), (.fwCancel c, 0x0503), (.fwStatus c, 0x0504), (.tenantKeys c false, 0x0601), (.appletLoad c, 0x0602),
       (.statementRead c, 0x0603), (.periodClose c, 0x0604), (.plantConfig c, 0x0701), (.plantStatus c, 0x0702)]
    ∀ e ∈ rows,
    let t := s.bump Reg.HOST_RXFRAMES 31 0
    (s.hostLink = false → exec e.1 s = .next s) ∧
    (s.hostLink = true → hostServed t = false → exec e.1 s = .next t) ∧
    (s.hostLink = true → hostServed t = true → t.isManager = false ∨ t.ring.duplicate = true → exec e.1 s = .next (answer t c e.2 0x8007 [])) ∧
    (s.hostLink = true → hostServed t = true → t.isManager = true → t.ring.duplicate = false →
      (c.epoch ≠ t.host.epoch → exec e.1 s = .next (answer t c e.2 0x8005 [])) ∧
      (c.epoch = t.host.epoch →
        (∀ r, t.host.records.find? (fun r => r.txn == c.txn) = some r →
          exec e.1 s = .next (if r.code = e.2 then answer t c e.2 r.status r.body else answer t c e.2 0x8006 [])) ∧
        (t.host.records.find? (fun r => r.txn == c.txn) = none →
          (t.host.jobs.any (fun j => j.txn == c.txn) = true → exec e.1 s = .next (answer t c e.2 0x8002 [])) ∧
          (t.host.jobs.any (fun j => j.txn == c.txn) = false →
            (txnStale t c.txn = true → exec e.1 s = .next (answer t c e.2 0x8006 [])) ∧
            (txnStale t c.txn = false → 16 ≤ t.host.jobs.length → exec e.1 s = .next (answer t c e.2 0x8004 [])) ∧
            (txnStale t c.txn = false → t.host.jobs.length < 16 → inRecovery t = true → recoveryCode e.2 = false →
              exec e.1 s = .next (hostDone (t.modHost fun h =>
                { h with highest := some c.txn.toNat, jobs := h.jobs ++ [hostJob c e.2] }) c e.2 0x800E []))))))

/-- Commands that name no lane (R383, R384), each at its own turn. The model's own choices and readings in it: log 38 (acceptance of
host commands), log 39 (buffers), log 63 (SET_TIME while another lane has left SORTING). -/
def Obligations.HostCommands : Prop :=
  (∀ (s : State) (c : HostCmd), hostServing s = true → c.body = [] →
    let t := s.bump Reg.HOST_RXFRAMES 31 0
    let u := answer (t.modHost fun h => { h with peer := some c.src }) c 0x0001 0 (helloBody t)
    exec (.hello c) s = .next (if t.host.peer = some c.src then u else sendEvents u) ∧
    exec (.status c) s = .next (answer t c 0x0002 0 (statusBody t))) ∧
  (∀ (s : State) (c : HostCmd), hostServing s = true → hostNew s c = true →
    let t := fun code => hostBegun s c code
    let b := c.body
    (b.length = 8 → ∀ u, ctSetBusy (t 0x0003) = (false, u) → exec (.setTime c) s =
      .next (hostDone (cancelSwitch (ctCtrlEffect (u.wr64 Reg.CLK_CT_SET_LO Reg.CLK_CT_SET_HI (numAt b 0 8)) 1)) c 0x0003 0 [])) ∧
    (b.length = 8 → ∀ u, ctSetBusy (t 0x0003) = (true, u) →
      exec (.setTime c) s = .next (hostDone (raise u Err.CT_SET_BUSY 0x01) c 0x0003 Err.CT_SET_BUSY [])) ∧
    (b.length = 8 → exec (.setUtc c) s = .next (hostDone (setUtc (t 0x0004) (numAt b 0 8)) c 0x0004 0 [])) ∧
    (b.length = 4 → exec (.eventMask c) s = .next (hostDone ((t 0x0005).modHost fun h =>
      { h with maskInfo := numAt b 0 1 % 2 == 1, maskCorr := numAt b 0 1 / 2 % 2 == 1 }) c 0x0005 0 [])) ∧
    (b.length = 8 → numAt b 0 1 < 2 → numAt b 4 4 ≤ 1474560 → bufBusy (t 0x0401) (numAt b 0 1) = false →
      exec (.uploadOpen c) s = .next (hostDone ((t 0x0401).setBuf (numAt b 0 1) { phase := .opened, size := numAt b 4 4, data := [] }) c 0x0401 0 [])) ∧
    (8 ≤ b.length → numAt b 0 1 < 2 →
      let k := numAt b 0 1
      let v := (t 0x0402).buf k
      v.phase = .opened → numAt b 4 4 + (b.length - 8) ≤ v.size →
      exec (.uploadData c) s = .next (hostDone ((t 0x0402).setBuf k { v with data := putBytes v.data (numAt b 4 4) (b.drop 8) }) c 0x0402 0 [])) ∧
    (b.length = 36 → numAt b 0 1 < 2 →
      let k := numAt b 0 1
      let v := (t 0x0403).buf k
      v.phase = .opened →
      (sha256 v.bytes = slice b 4 32 → exec (.uploadClose c) s = .next (hostDone ((t 0x0403).setBuf k { v with phase := .closed }) c 0x0403 0 [])) ∧
      (sha256 v.bytes ≠ slice b 4 32 → exec (.uploadClose c) s = .next (hostDone (t 0x0403) c 0x0403 0x800C []))) ∧
    (downloadOk b = true → numAt b 0 4 + numAt b 4 2 ≤ ((t 0x0404).buf 2).size → exec (.downloadRead c) s =
      .next (hostDone (t 0x0404) c 0x0404 0 (sparseBytes ((t 0x0404).buf 2).data (numAt b 0 4) (numAt b 4 2)))) ∧
    (b.length = 4 → takenOver (t 0x0501) = false → bufClosed (t 0x0501) (numAt b 0 1) = true →
      let x := fwStageRun (t 0x0501) ((t 0x0501).buf (numAt b 0 1)).bytes
      exec (.fwStage c) s = .next (hostDone x.2 c 0x0501 x.1 [])) ∧
    (b.length = 8 → takenOver (t 0x0502) = false →
      let x := fwScheduleRun (t 0x0502) (numAt b 0 8)
      exec (.fwSchedule c) s = .next (hostDone x.2 c 0x0502 x.1 [])) ∧
    (b = [] → ∀ w, (t 0x0503).fw.switch = some w → w.phase ≠ 4 → exec (.fwCancel c) s =
      .next (hostDone (fwState (endSwitch (t 0x0503) w) w.slot 0 ((readBoot (t 0x0503)).ver w.slot)) c 0x0503 0 [])) ∧
    (b = [] → exec (.fwStatus c) s = .next (hostDone (t 0x0504) c 0x0504 0 (fwStatusBody (t 0x0504)))) ∧
    (b.length = 4 → bufClosed (t 0x0601) (numAt b 0 1) = true →
      let l := ((t 0x0601).buf (numAt b 0 1)).bytes
      exec (.tenantKeys c false) s = .next (provision (tenantKeysRun false (t 0x0601) l (hostJob c 0x0601).reply) 0x0601 l)) ∧
    (b.length = 4 → bufClosed (t 0x0602) (numAt b 0 1) = true →
      let l := ((t 0x0602).buf (numAt b 0 1)).bytes
      exec (.appletLoad c) s = .next (provision (appletLoadRun (t 0x0602) l (hostJob c 0x0602).reply) 0x0602 l)) ∧
    (b.length = 8 → ∀ l, findStatement (t 0x0603) (numAt b 0 2) (numAt b 4 4) = some l →
      exec (.statementRead c) s = .next (hostDone (t 0x0603) c 0x0603 0 l)) ∧
    (b.length = 8 → findStatement (t 0x0603) (numAt b 0 2) (numAt b 4 4) = none →
      exec (.statementRead c) s = .next (hostDone (t 0x0603) c 0x0603 0xC022 [])) ∧
    (b.length = 4 → ∀ a, (t 0x0604).met.closing = none → accOf (t 0x0604) (numAt b 0 2) = some a →
      exec (.periodClose c) s = .next (if (meterKey (t 0x0604) (numAt b 0 2)).isSome then
          beginClose (t 0x0604) (numAt b 0 2) a (hostJob c 0x0604).reply none
        else afterClose (raise (t 0x0604) Err.MET_NO_KEY acsSrc (BitVec.ofNat 64 (numAt b 0 2))) (numAt b 0 2) none (hostJob c 0x0604).reply
          Err.MET_NO_KEY)) ∧
    (plantOk b = true → badAddr (plantOf b) (plantOf b).ip = false → badAddr (plantOf b) (plantOf b).dst = false →
      maskOk (plantOf b).mask = true → (plantOf b).gateway = 0 → numAt b 22 1 = 0 →
      exec (.plantConfig c) s = .next (hostDone ((((t 0x0701).modHost fun h => { h with plant := some (plantOf b) }).wrb Reg.PLANT_STAT 1
        false).wrb Reg.PLANT_STAT 2 false) c 0x0701 0 [])) ∧
    (b = [] →
      let x := regReads .cc 4 Reg.PLANT_STAT (t 0x0702)
      exec (.plantStatus c) s = .next (hostDone x.2 c 0x0702 0 x.1)) ∧
    (b = [] → s.host.jobs = [] → takenOver (t 0x0101) = false → s.ring.renum = none →
      (s.ring.closed = true → exec (.reenumerate c) s =
        .next ((t 0x0101).modRing fun r => { r with renum := some (hostJob c 0x0101).reply, due := true })) ∧
      (s.ring.closed = false → exec (.reenumerate c) s = .next (hostDone (t 0x0101) c 0x0101 Err.FRL_RING_OPEN []))) ∧
    (∀ code, knownCode code = false → exec (.unknownCommand c code) s = .next (hostDone (t code) c code 0x8003 [])) ∧
    (b.length = 3 → ∀ e ∈ [(Instr.setTime c, (0x0003 : Half)), (.setUtc c, 0x0004), (.eventMask c, 0x0005), (.uploadOpen c, 0x0401),
        (.uploadClose c, 0x0403), (.fwStage c, 0x0501), (.tenantKeys c false, 0x0601), (.plantConfig c, 0x0701)],
      exec e.1 s = .next (hostDone ((s.bump Reg.HOST_RXFRAMES 31 0).modHost fun h =>
        { h with highest := some c.txn.toNat, jobs := h.jobs ++ [hostJob c e.2] }) c e.2 0x8008 [])))

/-- Commands that name a lane (R381, R383), on the manager's own lane. The model's own choices and readings in it: log 15 (the image
of CAL_EXPORT and CAL_IMPORT), log 32 (the refusal of CAL_EXPORT), log 41 (lane commands of the host), log 62 (when a load or unload
frees its lane), log 66 (the partition of SERVICE_FIRE). -/
def Obligations.HostLaneCommands : Prop :=
  (∀ (s : State) (c : HostCmd), hostServing s = true → hostNew s c = true → s.host.jobs = [] →
    let b := c.body
    let t := fun code => hostBegun s c code
    let own := fun code => laneRefusal (t code) code c.lane.toNat = none ∧ c.lane.toNat = (t code).ownLane
    (∀ e ∈ [(Instr.diagRead c, (0x0006 : Half), diagOk b, laneDiagRead b (t 0x0006)),
        (.serviceFire c, 0x0203, lenIs 20 b && decide (numAt b 0 1 ≤ 3), laneServiceFire b (t 0x0203)),
        (.shutterEvent c, 0x0204, lenIs 0 b, laneShutterEvent (t 0x0204)),
        (.loopStatus c, 0x0207, lenIs 4 b && decide (numAt b 0 1 ≤ 1), loopStatusCmd b (t 0x0207)),
        (.calBegin c, 0x0301, lenIs 60 b && decide (numAt b 0 1 ≤ 7), calBeginCmd b (t 0x0301)),
        (.calPointReady c, 0x0302, lenIs 0 b, calPointReadyCmd (t 0x0302)), (.calCommit c, 0x0303, lenIs 0 b, calCommitCmd (t 0x0303)),
        (.calDiscard c, 0x0304, lenIs 0 b, calDiscardCmd (t 0x0304)), (.calAbort c, 0x0305, lenIs 0 b, calAbortCmd (t 0x0305)),
        (.calStatus c, 0x0306, lenIs 0 b, calStatusCmd (t 0x0306)),
        (.calExport c, 0x0307, lenIs 4 b && decide (numAt b 0 1 ≤ 7), laneCalExport b 2 (t 0x0307))],
      own e.2.1 → e.2.2.1 = true → exec e.1 s = .next (hostDone e.2.2.2.2.2 c e.2.1 e.2.2.2.1 e.2.2.2.2.1)) ∧
    (own 0x0308 → b.length = 4 → numAt b 0 1 ≤ 7 → bufClosed (t 0x0308) (numAt b 1 1) = true →
      let x := laneCalImport b ((t 0x0308).buf (numAt b 1 1)).bytes (t 0x0308)
      exec (.calImport c) s = .next (hostDone x.2.2 c 0x0308 x.1 x.2.1)) ∧
    (own 0x0007 → b.length = 4 → numAt b 0 4 = 0xD5E1 →
      exec (.resetDevice c) s = .next (resetSoon (hostDone (t 0x0007) c 0x0007 0 []))) ∧
    (own 0x0206 → b.length = 8 → numAt b 0 1 ≤ 1 → loopRangeOk (loopCfgOf b) = true →
      let u := loopStore (t 0x0206) c.lane.toNat b
      (u.lane c.lane.toNat).state ≠ .safe → c.lane.toNat = u.ownLane →
      exec (.loopSet c) s = .next (hostDone (loopApply u (if numAt b 0 1 = 0 then 0 else 1) (loopCfgOf b)) c 0x0206 0 [])) ∧
    (own 0x0205 → injectOk b = true → 4 < b.length →
      let words := wordsOf (numAt b 0 2) (b.drop 4)
      ((t 0x0205).fabLoaded && portEnabled (t 0x0205).fab.conf 5) = true →
      exec (.inject c) s = .next (injectDrain ((t 0x0205).host.injects.length + 1)
        ((t 0x0205).modHost fun h => { h with injects := h.injects ++ [(words, (hostJob c 0x0205).reply)] }))) ∧
    (own 0x0205 → injectOk b = true → (t 0x0205).fabLoaded = false → exec (.inject c) s = .next (hostDone (t 0x0205) c 0x0205 0x8009 [])) ∧
    (own 0x0201 → b.length = 12 → numAt b 0 1 ≤ 1 →
      let a := loadAskOf (t 0x0201) (hostJob c 0x0201)
      (bufClosed (t 0x0201) (numAt b 1 1) = false → exec (.choreoLoad c) s = .next (hostDone (t 0x0201) c 0x0201 0x800D [])) ∧
      (bufClosed (t 0x0201) (numAt b 1 1) = true → loadRefusal (t 0x0201) (a.mode == 1) a.tenant = none → appletOf (t 0x0201) a.tenant = none →
        exec (.choreoLoad c) s = .next (loadRequest (t 0x0201) (numAt b 0 1 == 1) (numAt b 1 1) (BitVec.ofNat 64 (numAt b 4 8))
          (hostJob c 0x0201).reply))) ∧
    (own 0x0202 → b = [] → (t 0x0202).fabLoaded = true → (t 0x0202).fab.load = none → (t 0x0202).fab.unload = none →
      let u : UnloadJob := { draining := false, reply := (hostJob c 0x0202).reply }
      let v := (t 0x0202).modFab fun f => { f with unload := some u }
      (t 0x0202).lanes.own.state = .idle → exec (.choreoUnload c) s = .next (if v.feRunning then v else unloadDrains v u)) ∧
    (((t 0x0204).lane c.lane.toNat).state = .vacant → c.lane.toNat ≤ 64 → b = [] →
      exec (.shutterEvent c) s = .next (hostDone (t 0x0204) c 0x0204 0x800B []))) ∧
  (∀ (s : State) (b : List Byte),
    (s.lanes.own.state = .idle → s.feRunning = true → calState s = 0 → 4663 * 65536 ≤ numAt b 4 4 * 20 → numAt b 8 4 * 20 ≤ 15463 * 65536 →
      numAt b 4 4 + 655360 ≤ numAt b 8 4 → numAt b 2 1 = 0 →
      let args : CalArgs := { slot := numAt b 0 1, drift := numAt b 1 1 ≠ 0, tLo := numAt b 4 4, tHi := numAt b 8 4, refId := slice b 12 16,
                              calTime := numAt b 28 8, validDays := numAt b 36 2, tauNom := numAt b 38 2 }
      calBeginCmd b s = (0, [], (s.setCal 9 0 1).modCal fun c => { loaded := c.loaded, args := args })) ∧
    (calState s = 1 ∨ calState s = 4 → calPointReadyCmd s =
      (0, [], ((calEnter s (calState s + 1)).setCal 9 8 0).modCal fun c => { c with win := [], cap := {}, skip := true })) ∧
    (calState s = 9 → calCommitCmd s = (0, [], openSlot (calEnter s 0xA) s.cal.args.slot) ∧ calDiscardCmd s = (0, [], calEnd s)) ∧
    (calState s ≠ 9 → let no := (Err.CAL_WRONG_STATE, [], raise s Err.CAL_WRONG_STATE calSrc)
      calCommitCmd s = no ∧ calDiscardCmd s = no) ∧
    (calState s ≠ 0 → calState s ≠ 0xA → calAbortCmd s = (0, [], calAbort s 0x01)) ∧
    (∀ l, exportBytes s (numAt b 0 1) = some l → laneCalExport b 2 s = (0, bytesLE 4 l.length, s.setBuf 2 (bufOf l))) ∧
    (shtRefusal s = none → laneShutterEvent s = (0, [], shtStart s .event)) ∧
    (∀ d, (s.ejp (numAt b 0 1)).state = .up → servicePart s = some d →
      let mask : DWord := BitVec.ofNat 64 (numAt b 4 8)
      let tOn : Int := Int.ofNat (numAt b 12 8)
      mask ≠ 0 → mask.toNat / 2 ^ (s.ejp (numAt b 0 1)).nvalves = 0 → 200 * (s.rdf (Reg.EJ_PLIM (numAt b 0 1)) 15 0 : Int) ≤ tOn - s.ct.toNat →
      tOn - s.ct.toNat ≤ 20000000 → partCount s d < 128 →
      laneServiceFire b s = (0, [], firePlace s (numAt b 0 1) d (numAt b 2 2) mask tOn.toNat none)))

/-- Frames and events (R374, R376, R387, R398), the plant port (R390–R393), the loops (R394–R396), INJECT (R385). The model's own
choices and readings in it: log 43 (events of the machine link), log 44 (the plant port), log 45 (loops). -/
def Obligations.HostPlantLoops : Prop :=
  let inForm := fun s : State => s.host.events.length ≤ 256 ∧ List.Pairwise (fun a b : HostEvent => a.eseq < b.eseq) s.host.events ∧
    ∀ e ∈ s.host.events, e.eseq < s.host.eseq
  (∀ s : State, s.live = true → s.hostLink = true →
    exec (.hostFrameInvalid true) s = .next (s.bump Reg.HOST_FOREIGN 31 0) ∧
    exec (.hostFrameInvalid false) s = .next (s.bump Reg.HOST_BADHDR 31 0)) ∧
  (∀ (s : State) (code : Half) (lane : Nat) (b : List Byte), inForm s → inForm (postEvent s code lane b) ∧
    (s.isManager = true → s.host.events.length < 256 → ∃ e, (postEvent s code lane b).host.events = s.host.events ++ [e] ∧
      e.eseq = s.host.eseq ∧ e.code = code ∧ e.lane = lane ∧ e.body = b)) ∧
  (∀ (s : State) (n : Word), hostServing s = true → inForm s → s.host.lost = 0 → ∃ t, exec (.eventAck s.host.epoch n) s = .next t ∧ inForm t ∧
    ∀ e : HostEvent, e ∈ t.host.events ↔ (e ∈ s.host.events ∧ n.toNat < e.eseq)) ∧
  (∀ s : State, s.live = true → s.isManager = true → s.fwRuns = true → s.hostReady = true → exec .eventResend s = .next (sendEvents s)) ∧
  (∀ s : State, s.live = true → s.hostLink = true →
    let t := (s.wrf Reg.HOST_STAT 2 0 0).wrb Reg.ERR_EVT 12 true
    t.isManager = true → exec .hostLinkDown s = .next (raise t Err.HOST_LINK_DOWN 0x11)) ∧
  (∀ s : State, s.live = true → s.hostLink = false → s.acting ≠ 0 →
    let t := (((s.wrb Reg.HOST_STAT 0 true).wrb Reg.HOST_STAT 1 true).wrb Reg.HOST_STAT 2 (s.rdb Reg.HOST_CTRL 0)).wrb Reg.ERR_EVT 12 true
    exec .hostLinkUp s = .next (if t.isManager && t.hostReady then sendEvents t else t)) ∧
  (∀ (s : State) (c : PlantCfg) (ip : Word) (l : List Byte), s.live = true → s.isManager = true → plantUp s = true → s.host.plant = some c →
    (c.ip = ip → exec (.arpRequest ip) s = .next (s.emit (.arp true ip))) ∧
    (nextHop c = ip → exec (.arpReply ip) s =
      .next (s.host.plantWait.foldl sendDatagram ((s.wrb Reg.PLANT_STAT 2 true).modHost fun h => { h with plantWait := [] }))) ∧
    exec .arpRefresh s = .next (s.emit (.arp false (nextHop c))) ∧
    (let recent := s.host.echoes.filter fun t => decide (s.ct.toNat - t.toNat < ticksPerSecond)
     (recent.length < 10 → exec (.icmpEcho l) s = .next ((s.modHost fun h => { h with echoes := s.ct :: recent }).emit (.echo l))) ∧
     (10 ≤ recent.length → exec (.icmpEcho l) s = .next (s.bump Reg.PLANT_RXDROP 31 0))) ∧
    exec .plantRxDiscard s = .next (s.bump Reg.PLANT_RXDROP 31 0)) ∧
  (∀ (s : State) (d : List Byte) (r : List (List Byte)), s.live = true → s.host.plantWait = d :: r →
    exec .plantNoarp s = .next (raise ((s.modHost fun h => { h with plantWait := r }).bump Reg.PLANT_NOARP 31 0) Err.PLANT_NOARP plantSrc)) ∧
  (∀ s : State, s.live = true →
    let t := (s.wrb Reg.PLANT_STAT 0 true).wrb Reg.ERR_EVT 12 true
    (s.isManager = true → plantUp s = false → s.host.plant = none → exec .plantLinkUp s = .next t) ∧
    (∀ c, s.isManager = true → plantUp s = false → s.host.plant = some c → exec .plantLinkUp s = .next (t.emit (.arp true c.ip))) ∧
    (plantUp s = true → exec .plantLinkDown s =
      .next (raise ((s.wrb Reg.PLANT_STAT 0 false).wrb Reg.ERR_EVT 12 true) Err.PLANT_LINK_DOWN plantSrc))) ∧
  (∀ s : State, s.live = true → s.isManager = true → s.fwRuns = true → s.host.plant.isSome = true →
    ∃ t, exec .plantStatusDatagram s = .next t ∧ t.host.dseq = s.host.dseq + 1) ∧
  (∀ (s : State) (r : StatementSet) (l : List StatementSet), s.live = true → s.host.repeats = r :: l →
    (1 < r.left → exec .statementResend s = .next ((sendSet s 2 r.dseq r.body).modHost fun h =>
      { h with repeats := l ++ [{ r with left := r.left - 1 }] })) ∧
    (r.left ≤ 1 → exec .statementResend s = .next ((sendSet s 2 r.dseq r.body).modHost fun h => { h with repeats := l }))) ∧
  (∀ (s : State) (n : Fin 2) (ua : BitVec 15), s.live = true →
    let t := s.wr (Reg.LOOP_MEAS n) (BitVec.ofNat 32 ua.toNat)
    loopTarget t n ≠ 0 →
    (ua.toNat + 100 < loopTarget t n → (s.loopEval n).short < 49 →
      exec (.loopMeasure n ua) s = .next (t.modLoop n fun e => { e with short := e.short + 1, fine := 0 })) ∧
    (ua.toNat + 100 < loopTarget t n → (s.loopEval n).short = 49 → loopShort t n = false →
      exec (.loopMeasure n ua) s = .next (raise (((t.modLoop n fun e => { e with short := 50, fine := 0 }).wrb Reg.LOOP_STAT (8 * n.val)
        true).wrb Reg.ERR_EVT 13 true) Err.LOOP_COMPLIANCE loopSrc (BitVec.ofNat 64 n.val))) ∧
    (loopTarget t n ≤ ua.toNat + 100 → (s.loopEval n).fine = 999 → loopShort t n = true →
      exec (.loopMeasure n ua) s = .next (((t.modLoop n fun e => { e with short := 0, fine := 1000 }).wrb Reg.LOOP_STAT (8 * n.val)
        false).wrb Reg.ERR_EVT 13 true))) ∧
  (∀ (s : State) (n : Fin 2), (s.rdb Reg.ERR_STAT 31 = true ∨ (s.loopEval n).configured = false → loopTarget s n = 3600) ∧
    (s.rdb Reg.ERR_STAT 31 = false → (s.loopEval n).configured = true → loopAlarm s n = false → s.rdf (Reg.LOOP_CTRL n) 1 0 = 1 →
      loopTarget s n = s.rdf (Reg.LOOP_CMD n) 14 0)) ∧
  (∀ (s : State) (w : List Word) (r : ReplyTo) (l : List (List Word × ReplyTo)), s.live = true → s.host.injects = (w, r) :: l →
    exec .injectTimeout s = .next (finishReply (s.modHost fun h => { h with injects := l }) r 0x800A []))

/-- The enclave (R402–R418) and the key store (R428–R430, R441). The model's own choices and readings in it: log 23 (key derivation
and the device record), log 27 (life-cycle transitions), log 67 (commands of the key store). -/
def Obligations.PavaneCommands : Prop :=
  (∀ (s : State) (m : Master) (v : Word), s.reaches m Reg.SYS_PAVMB_REQ = true → s.rdb Reg.SYS_PAVMB_RSP 31 = false →
    exec (.mailboxRequest m v) s = .next (((s.wr Reg.SYS_PAVMB_REQ v).wrb Reg.SYS_PAVMB_RSP 31 true).resp m [])) ∧
  (∀ (s : State) (st : Half) (r : Word), s.live = true → s.rdb Reg.SYS_PAVMB_RSP 31 = true →
    exec (.mailboxResponse st r) s = .next ((s.wr Reg.SYS_PAVMB_RADDR r).wr Reg.SYS_PAVMB_RSP (BitVec.ofNat 32 (2 ^ 30 + st.toNat)))) ∧
  (∀ (s : State) (m : Master) (v : Word),
    (s.reaches m Reg.PAV_CLKCFG = true →
      exec (.spreadMode m v) s = .next (((fieldWrite s Reg.PAV_CLKCFG v).wrb Reg.CLK_STAT 3 (bitOf v 0)).resp m [])) ∧
    (s.reaches m Reg.PAV_DBG_CLOSE = true → bitOf v 0 = true →
      exec (.dbgClose m v) s = .next (((s.wrf Reg.PAV_DBG 1 0 0).modPav fun p =>
        { p with slots := p.slots.map fun w => setFld w 11 10 0 }).resp m [])) ∧
    (s.reaches m Reg.PAV_CNT_ADD = true → v ≠ 0 → ∀ x, cntRead s (s.rdf Reg.PAV_CNT_IDX 9 0) = some x → x + v.toNat < 2 ^ 64 →
      let k := s.rdf Reg.PAV_CNT_IDX 9 0
      let w := bytesLE 8 (x + v.toNat)
      exec (.counterIncrement m v) s =
        .next ((mramStoreBytes (mramStoreBytes s (counterA k) w).2 (counterB k) w).2.resp m []))) ∧
  (∀ s : State, s.live = true → (cntRead s 0).isSome = true →
    (s.lcStored = 0 → exec (.lcTransition 1 true) s = .next (cntInc s 0 1).2) ∧
    (s.lcStored = 1 → exec (.lcTransition 2 true) s = .next (cntInc s 0 1).2) ∧
    (s.lcStored = 2 → exec (.lcTransition 3 true) s = .next (retire s)) ∧
    (s.lcStored = 0 → exec (.lcTransition 2 true) s = .next (raise s Err.PAV_LC_REFUSED (pavSrc 0) 2))) ∧
  (∀ (s : State) (n : Fin 6), s.power.phase = .running → s.lc ≠ 3 → s.rst.asserted = false → n ≠ 5 →
    (erases s n = false → exec (.tamperSensor n) s =
      .next (raise (s.wrb Reg.PAV_TAMPER_STAT n.val true) Err.PAV_TAMPER_ALERT (pavSrc 0) (BitVec.ofNat 64 n.val))) ∧
    (erases s n = true → exec (.tamperSensor n) s = .next (deviceReset
      ((cntInc (cntInc (zeroEnclave (zeroKeys (s.wrb Reg.PAV_TAMPER_STAT n.val true))) 1 1).2 2 1).2.modCore fun c => { c with owesErase := some n }) 4))) ∧
  (∀ s : State, s.live = true → s.rdf Reg.PAV_RNG_STAT 1 0 ≠ 2 →
    exec (.rngWindow true) s = .next ((s.modPav fun p => { p with rngFails := 0 }).wrf Reg.PAV_RNG_STAT 1 0 1) ∧
    (let t := (s.modPav fun p => { p with rngFails := p.rngFails + 1 }).bump Reg.PAV_RNG_STAT 15 8
     (s.pav.rngFails < 2 → exec (.rngWindow false) s = .next t) ∧
     (s.pav.rngFails = 2 → exec (.rngWindow false) s = .next (raise (t.wrf Reg.PAV_RNG_STAT 1 0 2) Err.PAV_RNG_FAIL (pavSrc 0))))) ∧
  (∀ s : State, s.live = true → s.rdb Reg.PAV_DBG 2 = false →
    (s.lc = 0 → exec (.dbgLevelWrite false) s = .next (s.wrb Reg.PAV_DBG 0 true)) ∧
    (s.lc = 1 ∨ s.lc = 2 → rngReady s = true → ∀ secure, ∃ t nonce, exec (.dbgLevelWrite secure) s = .next t ∧
      t.pav.dbgNonce = some (nonce, b2n secure) ∧ nonce.length = 32 ∧ t.rd Reg.PAV_DBG = s.rd Reg.PAV_DBG)) ∧
  (∀ (s : State) (nonce a b k : List Byte), s.live = true → s.pav.dbgNonce = some (nonce, 0) → s.lc = 2 → ownerKey s = some k →
    let t := s.modPav fun p => { p with dbgNonce := none }
    (p256Verify k (nonce ++ [0, 2]) b = true → exec (.dbgSignature a b) s = .next (t.wrb Reg.PAV_DBG 0 true)) ∧
    (p256Verify k (nonce ++ [0, 2]) b = false → s.pav.dbgFails < 2 → exec (.dbgSignature a b) s =
      .next (raise (t.modPav fun p => { p with dbgFails := p.dbgFails + 1 }) Err.PAV_DBG_FAIL (pavSrc 0))) ∧
    (p256Verify k (nonce ++ [0, 2]) b = false → s.pav.dbgFails = 2 → exec (.dbgSignature a b) s =
      .next (raise ((t.modPav fun p => { p with dbgFails := 3 }).wrb Reg.PAV_DBG 2 true) Err.PAV_DBG_FAIL (pavSrc 0)))) ∧
  (∀ (s : State) (m : Master) (slot : BitVec 9) (r : Fin 3), s.reaches m Reg.KEY_CMD = true → slot.toNat < 320 →
    exec (.clearWrite m slot) s = .next (((wipeClearData (clearWrite s slot.toNat).2).wr Reg.KEY_CMD_STAT ((clearWrite s slot.toNat).1.zeroExtend 32)).resp m []) ∧
    exec (.invalidate m slot) s = .next (((wipeClearData (invalidateKey s slot.toNat)).wr Reg.KEY_CMD_STAT 0).resp m []) ∧
    exec (.loadSess m r slot) s = .next (((wipeClearData ((loadSess s r.val slot.toNat).2)).wr Reg.KEY_CMD_STAT ((loadSess s r.val slot.toNat).1.zeroExtend 32)).resp m []) ∧
    exec (.zeroSess m r) s = .next (((wipeClearData (setSess s r.val [])).wr Reg.KEY_CMD_STAT 0).resp m [])) ∧
  (∀ (s : State) (n : Nat),
    ((s.slot n).valid = true → (clearWrite s n).1 = Err.KEY_SLOT_BUSY) ∧
    ((s.slot n).valid = false → s.lc < 2 → (clearWrite s n).1 = 0 ∧ ((clearWrite s n).2.slot n).valid = true ∧
      ((clearWrite s n).2.slot n).parent = fld (s.rd Reg.KEY_CLR_ATTR) 8 0)) ∧
  (∀ (s : State) (n : Nat), swf (fun _ => {}) s.key.slots = true → s.key.slots.length ≤ 320 →
    let t := invalidateKey s n
    (t.slot n).valid = false ∧ ∀ k, (t.slot k).valid = true →
      t.slot k = s.slot k ∧ (t.slot (s.slot k).parent).valid = (s.slot (s.slot k).parent).valid) ∧
  (∀ (s : State) (n : Nat), n < 320 → (useSlot s n [3] [] 21 true).1 = 0 →
    loadSess s 0 n = (0, invalidateKey (setSess (useSlot s n [3] [] 21 true).2 0 ((useSlot s n [3] [] 21 true).2.slot n).key) n)) ∧
  (∀ s : State, s.live = true → rngReady s = true → ∃ t, exec .keyRemask s = .next t ∧ (∀ n, t.slot n = s.slot n) ∧
    t.key.maskDraw = s.free) ∧
  (∀ s : State, s.live = true → rngReady s = false → s.rdb Reg.KEY_STAT 4 = false →
    exec .keyRemask s = .next (raise (s.wrb Reg.KEY_STAT 4 true) Err.KEY_REMASK_STALL (pavSrc 1))) ∧
  (∀ (s : State) (a : Nat) (l : List Nat), s.live = true → rngReady s = false → s.eng.pkaQ = a :: l → s.eng.pkaOut = none →
    descOp s a = 1 ∨ descOp s a = 3 → exec .rngRequestTimeout s = .next (setEngOut s 2 (some { code := Err.PKA_RNG })))

/-- SETUP exchanges (R438–R441), delivery of tenant keys (R435). The model's own choices and readings in it: log 23 (key derivation
and the device record), log 24 (which general slot is taken), log 30 (the format of ring messages), log 35 (session keys). -/
def Obligations.SetupExchange : Prop :=
  (∀ (s t : State) (p : Fin 2) (l : List QEntry), s.live = true → queuePacket s (frlQueue p.val) = (some l, t) →
    let f := wordsFrame l
    f.typ = 0x11 →
    (s.isManager = false → numAt f.payload 0 1 = 1 →
      let pathB := decide (numAt f.payload 1 1 = 1)
      (challengeAccepted t (b2n pathB) = false → exec (.setupChallenge p) s = .next (t.bump Reg.KEY_SETUP_IGN 31 0)) ∧
      (challengeAccepted t (b2n pathB) = true → t.core.rootFailed = true ∨ haveGroupKey t = false →
        exec (.setupChallenge p) s = .next (sendSetup t f.src pathB ([0x02, 1, 0, 0] ++ List.replicate 128 0))) ∧
      (challengeAccepted t (b2n pathB) = true → t.core.rootFailed = false → haveGroupKey t = true → rngReady t = false →
        exec (.setupChallenge p) s = .next (sendSetup t f.src pathB ([0x02, 2, 0, 0] ++ List.replicate 128 0))) ∧
      (challengeAccepted t (b2n pathB) = true → t.core.rootFailed = false → haveGroupKey t = true → rngReady t = true →
        ∃ u x, exec (.setupChallenge p) s = .next u ∧ findSetup u (numAt f.payload 2 1) pathB = some x ∧ x.nm = slice f.payload 4 32 ∧
          x.nw.length = 32)) ∧
    (s.isManager = true → numAt f.payload 0 1 = 2 → ∀ x0, findSetup t f.src (decide (f.path = 1)) = some x0 →
      let x := { x0 with nw := slice f.payload 4 32, peer := slice f.payload 36 64 }
      (numAt f.payload 1 1 ≠ 0 → exec (.setupResponse p) s = .next (abandonSetup t x)) ∧
      (numAt f.payload 1 1 = 0 → macW t x x.nw x.peer ≠ slice f.payload 100 32 → exec (.setupResponse p) s = .next (membershipFail t x)) ∧
      (numAt f.payload 1 1 = 0 → macW t x x.nw x.peer = slice f.payload 100 32 → rngReady t = true →
        ∀ k, sessionKey x (ephemeral t).1 x.peer = some k → ∃ u, exec (.setupResponse p) s = .next u ∧
          (u.slot (keySlotOf x.pos (decide (f.path = 1)))).key = k ∧ (u.slot (keySlotOf x.pos (decide (f.path = 1)))).valid = true)) ∧
    (s.isManager = false → numAt f.payload 0 1 = 3 → ∀ x, t.key.setups.find? (fun x => x.pathB == decide (f.path = 1)) = some x →
      let qm := slice f.payload 4 64
      (macM t x qm x.pub ≠ slice f.payload 68 32 → exec (.setupConfirm p) s = .next (membershipFail t x)) ∧
      (∀ k, macM t x qm x.pub = slice f.payload 68 32 → sessionKey x x.priv qm = some k →
        let pathB := decide (f.path = 1)
        exec (.setupConfirm p) s = .next (sendSetup ((restartPseq (setSess (dropSetup t x.pos pathB) (if pathB then 0 else 1) k)
          t.position pathB).modMet fun m => { m with keyRseq := m.rseq }) f.src pathB ([0x04, 0, 0, 0] ++ keyCheck k)))) ∧
    (s.isManager = true → numAt f.payload 0 1 = 4 → ∀ x, findSetup t f.src (decide (f.path = 1)) = some x → x.key ≠ [] →
      swf (fun _ => {}) t.met.applied = true →
      (keyCheck x.key ≠ slice f.payload 4 16 → exec (.setupDone p) s = .next (membershipFail t x)) ∧
      (keyCheck x.key = slice f.payload 4 16 → ∃ u, exec (.setupDone p) s = .next u ∧ findSetup u x.pos (decide (f.path = 1)) = none ∧
        sget (fun _ => {}) u.met.applied x.pos = {} ∧ ((t.lane x.pos).state = .listen → (u.lane x.pos).state = .admitting)))) ∧
  (∀ (s : State) (pos : BitVec 8) (b : Bool) (x : Setup), s.live = true → findSetup s pos.toNat b = some x →
    exec (.setupTimeout pos b) s = .next (abandonSetup s x) ∧
    (s.isManager = true → x.key = [] → x.tries < 3 →
      abandonSetup s x = (dropSetup s x.pos x.pathB).modKey fun k => { k with retries := k.retries ++ [(x.pos, x.pathB, x.tries + 1)] }) ∧
    (s.isManager = true → x.key = [] → 3 ≤ x.tries → abandonSetup s x = dropSetup s x.pos x.pathB)) ∧
  (∀ (s : State) (pos : BitVec 8) (b : Bool) (n : Nat) (l : List (Nat × Bool × Nat)), s.live = true → s.isManager = true →
    s.key.retries = (pos.toNat, b, n) :: l →
    exec (.setupRetry pos b) s = .next (startSetup (s.modKey fun k => { k with retries := l }) pos.toNat b n)) ∧
  (∀ (s t u : State) (p : Fin 2) (l : List QEntry) (ck : List Byte), s.live = true → s.isManager = false →
    queuePacket s (frlQueue p.val) = (some l, t) →
    let f := wordsFrame l
    f.typ = 0x10 → f.rsp = false → f.toEn = true → f.code = 0x0E08 → admitTxn t p.val f = (true, u) →
    keyUnwrap (sessKey u u.position f.path) (slice f.payload 8 40) = some ck →
    (∀ v, installTenant u (numAt f.payload 4 2) ck (slice f.payload 48 64) 0x1FF = some v →
      exec (.tenantKeyDelivery p) s = .next (respondTxn v f.src f.txn.toNat (ringReply 0 []))) ∧
    (installTenant u (numAt f.payload 4 2) ck (slice f.payload 48 64) 0x1FF = none →
      exec (.tenantKeyDelivery p) s = .next (respondTxn u f.src f.txn.toNat (ringReply Err.KEY_SLOT_BUSY []))))

/-- Submission and completion (R444, R445, R447), digests (R450, R454), ciphers (R458–R460), public keys (R461–R465). The model's
own choices and readings in it: log 26 (the crypto engines), log 29 (free values and random draws). -/
def Obligations.EngineCommands : Prop :=
  (∀ (s : State) (m : Master) (a : Word),
    ∀ e ∈ [((0 : Nat), Instr.digSubmit m a), (1, .cipSubmit m a), (2, .pkaSubmit m a)], s.reaches m (engBase e.1) = true →
    ((engQueue s e.1).length < 4 → descAddrOk a.toNat = true →
      exec e.2 s = .next ((setEngQueue s e.1 (engQueue s e.1 ++ [a.toNat])).resp m [] 0)) ∧
    ((engQueue s e.1).length < 4 → descAddrOk a.toNat = false → exec e.2 s = .next ((countDone s e.1 Err.ENG_DESC_BAD).resp m [] 0)) ∧
    (4 ≤ (engQueue s e.1).length → exec e.2 s = .next (s.resp m [] Err.ENG_QUEUE_FULL))) ∧
  (∀ (s : State) (e : Fin 3) (a : Nat) (r : List Nat) (o : EngOut), s.live = true → engQueue s e.val = a :: r →
    (engOut s e.val = some o → exec (.descriptorComplete e) s = .next (completeDesc s e.val a o)) ∧
    (engOut s e.val = none → opKnown e.val (descOp s a) = false →
      exec (.descriptorComplete e) s = .next (completeDesc s e.val a { code := Err.ENG_DESC_BAD }))) ∧
  (∀ (s t u v w : State) (a : Nat) (q : List Nat) (l m : List Byte), s.live = true → s.eng.digQ = a :: q → s.eng.digOut = none →
    sramRead s [] a 64 = (l, 0, t) →
    let d := descOf l
    digFieldsOk d = true → d.first = true → d.last = true → d.save = false → d.dest = 0 → d.decl = d.srcLen →
    ∀ e ∈ [(Instr.engSha256, (1 : Nat), HashAlg.sha256), (.engSha384, 2, .sha384), (.engSha512, 3, .sha512)],
      descOp s a = e.2.1 → d.op = e.2.1 → engRead (endDig t) d d.src d.srcLen = (m, 0, u) →
      v = (u.modEng fun x => { x with dig := none }) → engWrite v d d.dst ((hashOf e.2.2 m).take d.outLen) = (0, w) →
      exec e.1 s = .next (setEngOut w 0 (some { code := 0, result := BitVec.ofNat 32 d.srcLen }))) ∧
  (∀ (s t k u v w : State) (a : Nat) (q : List Nat) (l m : List Byte), s.live = true → s.eng.digQ = a :: q → s.eng.digOut = none →
    sramRead s [] a 64 = (l, 0, t) →
    let d := descOf l
    digFieldsOk d = true → d.first = true → d.last = true → d.save = false → d.dest = 0 → d.decl = d.srcLen →
    ∀ e ∈ [(Instr.engHmacSha256, (0x11 : Nat), HashAlg.sha256), (.engHmacSha384, 0x12, .sha384), (.engHmacSha512, 0x13, .sha512)],
      descOp s a = e.2.1 → d.op = e.2.1 → useSlot (endDig t) d.slot [4] [13] 20 d.secure = (0, k) → engRead k d d.src d.srcLen = (m, 0, u) →
      v = (u.modEng fun x => { x with dig := none }) → engWrite v d d.dst ((hmac e.2.2 (k.slot d.slot).key m).take d.outLen) = (0, w) →
      exec e.1 s = .next (setEngOut w 0 (some { code := 0, result := BitVec.ofNat 32 d.srcLen }))) ∧
  (∀ (s t k u v : State) (a : Nat) (q : List Nat) (l m : List Byte) (j : CipJob), s.live = true → s.eng.cipQ = a :: q → s.eng.cipOut = none →
    sramRead s [] a 64 = (l, 0, t) →
    let d := descOf l
    descOp s a = d.op → cipFieldsOk d = true → cipDestOk d = true → d.first = true → d.last = true → cipLenOk d d.srcLen = true →
    useSlot t d.slot [1, 2, 3] (cipUses d) 20 d.secure = (0, k) →
    openCip k d = .more j u → ctrWraps d j = false → engRead u d d.src d.srcLen = (m, 0, v) →
    ∀ e ∈ [((1 : Nat), Instr.engEcbEncrypt false), (2, .engEcbDecrypt false), (3, .engCbcEncrypt false), (4, .engCbcDecrypt false),
        (5, .engCtr false), (6, .engGcmEncrypt false), (7, .engGcmDecrypt false), (8, .engCmac false)], d.op = e.1 →
      let r := cipSegment v d j (k.slot d.slot).key m
      exec e.2 s = .next (setEngOut (endCip r.2) 1 (some r.1))) ∧
  (∀ (s u w : State) (d : EngDesc) (j : CipJob) (key m : List Byte), d.last = true →
    let done : EngOut := { code := 0, result := BitVec.ofNat 32 (j.count + m.length) }
    let n := (m.length + 15) / 16
    (d.op = 1 → engWrite s d d.dst (ecbEncrypt key m) = (0, u) → (cipSegment s d j key m).1 = done) ∧
    (d.op = 3 → engWrite s d d.dst (cbcEncBlocks key (blocks16 m) j.iv).1 = (0, u) → (cipSegment s d j key m).1 = done) ∧
    (d.op = 5 → engWrite s d d.dst (ctrCrypt key j.iv m) = (0, u) → (cipSegment s d j key m).1 = done) ∧
    (d.op = 6 → engWrite s d d.dst (ctrCrypt key j.iv m) = (0, u) →
      let c : CipJob := { j with iv := ctrAdd j.iv n, data := j.data ++ ctrCrypt key j.iv m, count := j.count + m.length }
      engWrite (u.modEng fun e => { e with cip := some c }) d d.tag (gcmTag key j.iv0 j.aad (j.data ++ ctrCrypt key j.iv m)) = (0, w) →
      cipSegment s d j key m = (done, w)) ∧
    (d.op = 8 → d.dest = 0 →
      engWrite (s.modEng fun e => { e with cip := some { j with data := j.data ++ m, count := j.count + m.length } }) d d.dst
        ((cmac key (j.data ++ m)).take d.outLen) = (0, w) → cipSegment s d j key m = (done, w))) ∧
  (∀ (s t k : State) (a : Nat) (q : List Nat) (l : List Byte), s.live = true → s.eng.cipQ = a :: q → s.eng.cipOut = none →
    sramRead s [] a 64 = (l, 0, t) →
    let d := descOf l
    descOp s a = d.op → cipFieldsOk d = true → cipDestOk d = true → d.first = true → cipLenOk d d.srcLen = true →
    useSlot t d.slot [1, 2, 3] (cipUses d) 20 d.secure = (0, k) →
    (d.op = 9 → exec (.engKeyWrap false) s = .next (setEngOut (runWrap k d (k.slot d.slot).key).2 1 (some (runWrap k d (k.slot d.slot).key).1))) ∧
    (d.op = 10 → exec (.engKeyUnwrap false) s =
      .next (setEngOut (runUnwrap k d (k.slot d.slot).key).2 1 (some (runUnwrap k d (k.slot d.slot).key).1))) ∧
    (d.op = 1 → exec (.engEcbEncrypt true) s = .next (setEngOut (engFault k 1 d d.srcLen).2 1 (some { code := Err.ENG_FAULT, withheld := true })))) ∧
  (∀ (s u : State) (d : EngDesc) (key m x : List Byte), d.dest = 2 → engRead s d d.src d.srcLen = (m, 0, u) → keyUnwrap key m = some x →
    (u.slot d.destSlot).valid = false → slotMaterial d.destAttr d.outLen x = some x →
    runUnwrap s d key = ({ code := 0, result := BitVec.ofNat 32 d.srcLen }, fillKey u d.destSlot d.destAttr false d.slot x)) ∧
  (∀ (s t : State) (a : Nat) (q : List Nat) (l : List Byte), s.live = true → s.eng.pkaQ = a :: q → s.eng.pkaOut = none →
    sramRead s [] a 64 = (l, 0, t) →
    let d := descOf l
    descOp s a = d.op → pkaFieldsOk d = true → rngReady s = true → rngFailed t = false →
    (d.op = 1 → d.dest = 2 → exec .engKeygen s = .next (setEngOut (runKeygen d t).2 2 (some (runKeygen d t).1))) ∧
    (d.op = 2 → exec .engPublic s = .next (setEngOut (runPublic d t).2 2 (some (runPublic d t).1))) ∧
    (d.op = 3 → ∀ f, exec (.engSign f) s = .next (setEngOut (runSign f d t).2 2 (some (runSign f d t).1))) ∧
    (d.op = 4 → exec .engVerify s = .next (setEngOut (runVerify d t).2 2 (some (runVerify d t).1))) ∧
    (d.op = 5 → d.dest = 2 → exec .engEcdh s = .next (setEngOut (runEcdh d t).2 2 (some (runEcdh d t).1)))) ∧
  (∀ (s k u v : State) (d : EngDesc) (h peer : List Byte),
    (fld d.destAttr 19 16 = 5 → (s.slot d.destSlot).valid = false →
      let x := (drawScalar s p256).1
      runKeygen d s = (engPut (drawScalar s p256).2 d d.dst (ecBytes p256 (ecMul p256 x (ecBase p256)))).andThen fun _ t =>
        ({ code := 0 }, fillKey t d.destSlot d.destAttr false 0x1FF (bytesBE p256.len x))) ∧
    (useSlot s d.slot [5, 6] [] 20 d.secure = (0, k) → (k.slot d.slot).kind = 5 →
      engWrite k d d.dst (ecBytes p256 (ecMul p256 (natBE (k.slot d.slot).key) (ecBase p256))) = (0, u) → runPublic d s = ({ code := 0 }, u)) ∧
    (useSlot s d.slot [5, 6] [13] 20 d.secure = (0, k) → (k.slot d.slot).kind = 5 → bitOf d.ctrl 14 = false → d.srcLen = 32 →
      engRead k d d.src 32 = (h, 0, u) → ∀ sig, signDraw p256 (natBE (k.slot d.slot).key) h 4 u = (sig, v) →
      runSign false d s = match sig with
        | some (x, y) => (engPut v d d.dst (bytesBE 32 x ++ bytesBE 32 y)).andThen fun _ t => ({ code := 0 }, t)
        | none => ({ code := Err.ENG_FAULT, withheld := true }, (raise v Err.ENG_FAULT (pavSrc 4)).bump Reg.PKA_FAULT_CNT 15 0)) ∧
    (d.key = 0x1FF → bitOf d.ctrl 16 = false → engRead s d d.aux 64 = (peer, 0, k) → bitOf d.ctrl 14 = false → d.srcLen = 32 →
      engRead k d d.src 32 = (h, 0, u) → ∀ sig, engRead u d (d.aux + 64) 64 = (sig, 0, v) → pkaValid p256 peer = true →
      runVerify d s = ({ code := 0, result := if ecdsaCheck p256 peer h sig then codePass else codeFail }, v)) ∧
    (fld d.destAttr 19 16 = 4 → fld d.destAttr 15 9 = 0x40 → useSlot s d.slot [5, 6] [15] 20 d.secure = (0, k) → (k.slot d.slot).kind = 5 →
      engRead k d d.aux 64 = (peer, 0, u) → pkaValid p256 peer = true → (u.slot d.destSlot).valid = false →
      ∀ z y, ecMul p256 (natBE (k.slot d.slot).key) (some (ecPoint p256 peer)) = some (z, y) →
      runEcdh d s = ({ code := 0 }, fillKey u d.destSlot d.destAttr false d.slot (bytesBE 32 z))))

/-- Delta reports (R471–R475), time (R477–R479), accumulators (R481), closes (R484), hooks (R490, R498). The model's own choices and
readings in it: log 46 (metering), log 47 (applets). -/
def Obligations.MeteringCommands : Prop :=
  (∀ s : State, s.live = true → haveStorageKey s = true →
    let r := s.met.rseq + 1
    let l := reportKeys s
    let t := (s.modMet fun m => { m with rseq := r, snaps := ((r, l) :: m.snaps).take 8 }).wr Reg.ACS_RSEQ (BitVec.ofNat 32 r)
    (s.isManager = false → exec .deltaReport s = .next (startTxn t 0 true (deltaBody s r l) .delta)) ∧
    (s.isManager = true → let u := applyReport t t.ownLane (deltaBody s r l)
      exec .deltaReport s = .next (takeAck u (appliedOf u u.ownLane).acked))) ∧
  (∀ (s t u : State) (p : Fin 2) (l : List QEntry), s.live = true → queuePacket s (frlQueue p.val) = (some l, t) →
    let f := wordsFrame l
    f.typ = 0x10 → f.toEn = true →
    (s.isManager = true → f.rsp = false → admitTxn t p.val f = (true, u) → let v := applyReport u f.src f.payload
      exec (.deltaReportApply p) s = .next (respondTxn v f.src f.txn.toNat (bytesLE 8 (appliedOf v f.src).acked))) ∧
    (f.rsp = true → (s.ring.pend.any fun t => t.txn == f.txn.toNat && t.use == .delta) = true →
      exec (.deltaAck p) s = .next (takeAck (t.modRing fun r => { r with pend := r.pend.filter fun x => x.txn != f.txn.toNat })
        (numAt f.payload 0 8)))) ∧
  (∀ (s : State) (pos : Nat) (b : List Byte), numAt b 0 8 ≤ (appliedOf s pos).last → applyReport s pos b = s) ∧
  (∀ (s : State) (r : Nat) (snap : List (TallyKey × Nat)), s.met.base < r → s.met.snaps.find? (fun e => e.1 == r) = some (r, snap) →
    (takeAck s r).met.base = r ∧ (∀ k v, snap.find? (fun e => e.1 == k) = some (k, v) → keyValue (takeAck s r).met.atBase k = v) ∧
    (∀ k, snap.find? (fun e => e.1 == k) = none → keyValue (takeAck s r).met.atBase k = keyValue s.met.atBase k)) ∧
  (∀ (a : Accum) (cls kind n : Nat), a.entries.length ≤ 11 →
    List.Pairwise (fun x y : (Nat × Nat) × Nat => x.1.1 < y.1.1 ∨ (x.1.1 = y.1.1 ∧ x.1.2 < y.1.2)) a.entries →
    let b := (accAdd a cls kind n).2
    b.entries.length ≤ 11 ∧ List.Pairwise (fun x y : (Nat × Nat) × Nat => x.1.1 < y.1.1 ∨ (x.1.1 = y.1.1 ∧ x.1.2 < y.1.2)) b.entries ∧
      (a.entries.length = 11 → (∀ e ∈ a.entries, e.1 ≠ (cls, kind)) → b.entries = a.entries ∧ b.overflow = satAdd 64 a.overflow n)) ∧
  (∀ s : State, s.live = true → s.isManager = true → haveStorageKey s = true →
    (∃ t, exec .persistenceRound s = .next t ∧ ∀ e ∈ t.met.applied, e.2.acked = e.2.last) ∧
    exec .highWaterUpdate s = .next (raiseCounter (s.modMet fun m => { m with high := enclaveTime s }) 6 (enclaveTime s))) ∧
  (∀ (s : State) (n : Nat), (setUtc s n).host.utc = some (n, s.ct) ∧ (setUtc s n).met.high = enclaveTime s ∧ (setUtc s n).met.timed = true ∧
    (enclaveTime s ≤ n → setUtc s n =
      (s.modMet fun m => { m with high := enclaveTime s, timed := true }).modHost fun h => { h with utc := some (n, s.ct) })) ∧
  (∀ (s : State) (t : Nat) (r : ReplyTo) (v : Option Nat),
    (s.met.closing.isSome = true → closePeriod s t r v = s.modMet fun m => { m with closeQ := m.closeQ ++ [(t, r, v)] }) ∧
    (s.met.closing = none → accOf s t = none → v = none → closePeriod s t r v = finishReply s r 0xC022 [])) ∧
  (∀ (s : State) (a : Applet) (i : Fin 8) (rest : List (Hook × Nat)), s.live = true → s.isManager = true → s.met.run = none →
    s.met.applets[i] = some a → a.faulted = false →
    ∀ e ∈ [(Instr.hookInit, Hook.init), (.hookClose, .close), (.hookLoadCheck, .loadCheck), (.hookTick i, .tick)],
      s.met.hooks = (e.2, i.val) :: rest → a.entry.toList.getD (hookIndex e.2) 0xFFFF ≠ 0xFFFF →
      ∃ t r, exec e.1 s = .next t ∧ t.met.run = some r ∧ r.slot = i.val ∧ r.hook = e.2 ∧ r.stack = [] ∧ r.calls = [] ∧ r.count = 0 ∧
        r.pc = a.entry.toList.getD (hookIndex e.2) 0xFFFF ∧ t.met.hooks = rest ∧ (e.2 = .init → (runApplet t r).data = []) ∧
        (e.2 ≠ .init → (runApplet t r).data = a.data)) ∧
  (∀ (s : State) (a : Applet) (ask : LoadAsk) (i : Fin 8) (rest : List (Hook × Nat)) (l : List LoadAsk), s.live = true → s.met.run = none →
    s.met.hooks = (.loadCheck, i.val) :: rest → s.met.applets[i] = some a → a.faulted = false → a.entry.toList.getD 1 0xFFFF = 0xFFFF →
    s.met.loads = ask :: l →
    exec .hookLoadCheck s = .next (nextClose (loadGo (s.modMet fun m => { m with hooks := rest, loads := l }) ask)))

/-- The instruction set of applets (R490–R493). The model's own choices and readings in it: log 47 (applets). -/
def Obligations.AcsisInstructions : Prop :=
  (∀ (s : State) (r : AcsRun), s.live = true → s.met.run = some r → r.count < 200000 →
    let code := (runApplet s r).code
    r.pc < code.length →
    let op := codeByte code r.pc
    let imm := fun n => codeImm code r.pc n
    let moved := fun (n : Nat) (st : List Word) => { r with pc := r.pc + 1 + n, count := r.count + 1, stack := st }
    let run := fun (t : State) (x : AcsRun) => t.modMet fun m => { m with run := some x }
    let trap := fun (c : Nat) => acsTrap s { r with count := r.count + 1 } c
    (r.stack.length < 64 → ∀ e ∈ [(Instr.acsPush8, (0x01 : Nat), (1 : Nat), signExtend 8 (imm 1)), (.acsPush16, 0x02, 2, signExtend 16 (imm 2)),
        (.acsPush32, 0x03, 4, BitVec.ofNat 32 (imm 4))], op = e.2.1 → exec e.1 s = .next (run s (moved e.2.2.1 (e.2.2.2 :: r.stack)))) ∧
    (r.stack.length = 64 → ∀ e ∈ [(Instr.acsPush8, (0x01 : Nat)), (.acsPush16, 0x02), (.acsPush32, 0x03)], op = e.2 → exec e.1 s = .next (trap 2)) ∧
    (∀ (a : Word) (st : List Word), r.stack = a :: st →
      (op = 0x05 → exec .acsDrop s = .next (run s (moved 0 st))) ∧
      (op = 0x1A → st.length < 64 → exec .acsNot s = .next (run s (moved 0 (~~~a :: st)))) ∧
      (op = 0x04 → st.length < 63 → exec .acsDup s = .next (run s (moved 0 (a :: a :: st))))) ∧
    (∀ a, op = 0x08 → r.stack[imm 1]? = some a → r.stack.length < 64 → exec .acsPick s = .next (run s (moved 1 (a :: r.stack)))) ∧
    (∀ (a b : Word) (st : List Word), r.stack = b :: a :: st → st.length < 62 →
      (∀ e ∈ [(Instr.acsAdd, (0x10 : Nat), a + b), (.acsSub, 0x11, a - b), (.acsMul, 0x12, a * b), (.acsAnd, 0x17, a &&& b),
          (.acsOr, 0x18, a ||| b), (.acsXor, 0x19, a ^^^ b), (.acsShl, 0x1B, a <<< (b.toNat % 32)), (.acsShr, 0x1C, a >>> (b.toNat % 32)),
          (.acsSar, 0x1D, a.sshiftRight (b.toNat % 32)), (.acsEq, 0x1E, if a = b then 1 else 0), (.acsLtu, 0x1F, if a.toNat < b.toNat then 1 else 0),
          (.acsLts, 0x20, if a.toInt < b.toInt then 1 else 0)], op = e.2.1 → exec e.1 s = .next (run s (moved 0 (e.2.2 :: st)))) ∧
      (∀ e ∈ [(Instr.acsDivu, (0x13 : Nat), a / b), (.acsRemu, 0x14, a % b), (.acsDivs, 0x15, a.sdiv b), (.acsRems, 0x16, a.srem b)], op = e.2.1 →
        (b ≠ 0 → exec e.1 s = .next (run s (moved 0 (e.2.2 :: st)))) ∧ (b = 0 → exec e.1 s = .next (trap 6))) ∧
      (op = 0x06 → exec .acsSwap s = .next (run s (moved 0 (a :: b :: st)))) ∧
      (op = 0x07 → exec .acsOver s = .next (run s (moved 0 (a :: b :: a :: st)))) ∧
      (op = 0x24 → exec .acsMulu64 s = .next (run s (moved 0 (BitVec.ofNat 32 (a.toNat * b.toNat / 2 ^ 32) ::
        BitVec.ofNat 32 (a.toNat * b.toNat) :: st))))) ∧
    (∀ (al ah bl bh : Word) (st : List Word), r.stack = bh :: bl :: ah :: al :: st → st.length < 62 →
      (op = 0x21 → exec .acsAdd64 s = .next (run s (moved 0 (((ah ++ al) + (bh ++ bl)).extractLsb' 32 32 ::
        ((ah ++ al) + (bh ++ bl)).extractLsb' 0 32 :: st)))) ∧
      (op = 0x22 → exec .acsSub64 s = .next (run s (moved 0 (((ah ++ al) - (bh ++ bl)).extractLsb' 32 32 ::
        ((ah ++ al) - (bh ++ bl)).extractLsb' 0 32 :: st)))) ∧
      (op = 0x23 → exec .acsLtu64 s = .next (run s (moved 0 ((if (ah ++ al).toNat < (bh ++ bl).toNat then 1 else 0) :: st))))) ∧
    (∀ (a : Word) (st : List Word), r.stack = a :: st → st.length < 64 → a.toNat < 4096 →
      (op = 0x30 → a.toNat % 4 = 0 → exec .acsLdw s = .next (run s (moved 0 (wordLE (acsData s r a.toNat 4) :: st)))) ∧
      (op = 0x30 → a.toNat % 4 ≠ 0 → exec .acsLdw s = .next (trap 4)) ∧
      (op = 0x32 → exec .acsLdb s = .next (run s (moved 0 (wordLE (acsData s r a.toNat 1) :: st)))) ∧
      (∀ (v : Word) (tl : List Word), st = v :: tl →
        (op = 0x31 → a.toNat % 4 = 0 → exec .acsStw s = .next (run (acsStore s r a.toNat (bytesLE 4 v.toNat)) (moved 0 tl))) ∧
        (op = 0x33 → exec .acsStb s = .next (run (acsStore s r a.toNat [v.truncate 8]) (moved 0 tl))))) ∧
    (let target : Int := r.pc + 3 + (signExtend 16 (imm 2)).toInt
     let there := fun (st : List Word) => { moved 2 st with pc := target.toNat }
     (0 ≤ target → target < code.length →
       (op = 0x40 → exec .acsJmp s = .next (run s (there r.stack))) ∧
       (∀ a st, r.stack = a :: st → (op = 0x41 → exec .acsJz s = .next (run s (if a = 0 then there st else moved 2 st))) ∧
         (op = 0x42 → exec .acsJnz s = .next (run s (if a = 0 then moved 2 st else there st))))) ∧
     (target < 0 ∨ code.length ≤ target → op = 0x40 → exec .acsJmp s = .next (trap 5))) ∧
    (op = 0x43 → r.calls.length < 16 → imm 2 < code.length →
      exec .acsCall s = .next (run s { moved 2 r.stack with pc := imm 2, calls := (r.pc + 3) :: r.calls })) ∧
    (op = 0x43 → 16 ≤ r.calls.length → exec .acsCall s = .next (trap 3)) ∧
    (op = 0x44 → ∀ a l, r.calls = a :: l → a < code.length → exec .acsRet s = .next (run s { moved 0 r.stack with pc := a, calls := l })) ∧
    (op = 0x44 → r.calls = [] → exec .acsRet s = .next (acsFinish s (moved 0 r.stack))) ∧
    (op = 0x45 → exec .acsEnd s = .next (acsFinish s (moved 0 r.stack))) ∧
    (op = 0x09 ∨ op = 0x60 ∨ op = 0 → exec .acsBadOpcode s = .next (acsTrap s r 1)) ∧
    (op = 0x50 → imm 1 = 0x0C ∨ imm 1 = 0 → exec .acsBadOpcode s = .next (acsTrap s r 8)) ∧
    (op = 0x50 → r.stack.length < 62 →
      let a := runApplet s r
      (imm 1 = 1 → exec .acsSysTime s = .next (run s (moved 1 ((if s.met.timed then 1 else 0) ::
        BitVec.ofNat 32 (enclaveTime s % 2 ^ 64 / 2 ^ 32) :: BitVec.ofNat 32 (enclaveTime s) :: r.stack)))) ∧
      (imm 1 = 2 → exec .acsPeriod s = .next (run s (moved 1 (BitVec.ofNat 32 (((accOf s a.tenant).map (·.period)).getD 0) :: r.stack)))) ∧
      (imm 1 = 3 → ∀ id kind st, r.stack = kind :: id :: st → accOf s a.tenant = none → exec .acsTally s = .next (run s (moved 1 (0 :: 0 :: st)))) ∧
      (imm 1 = 4 → ∀ v, cntRead s (0x200 + a.tenant) = some v → v < 2 ^ 64 →
        exec .acsFloor s = .next (run s (moved 1 (BitVec.ofNat 32 (v / 2 ^ 32) :: BitVec.ofNat 32 v :: r.stack)))) ∧
      (imm 1 = 5 → ∀ lo hi st v, r.stack = hi :: lo :: st → cntRead s (0x200 + a.tenant) = some v →
        let w := lo.toNat + 2 ^ 32 * hi.toNat
        (w ≤ v → exec .acsRaiseFloor s = .next (run s (moved 1 (1 :: st)))) ∧
        (v < w → exec .acsRaiseFloor s = .next (run (cntInc s (0x200 + a.tenant) (w - v)).2 (moved 1 (0 :: st))))) ∧
      (imm 1 = 6 → ∀ at' len out st, r.stack = out :: len :: at' :: st → at'.toNat + len.toNat ≤ 4096 → out.toNat + 32 ≤ 4096 →
        let mac := fun k => hmac .sha256 k (ascii [0x41, 0x50, 0x50, 0x4C] ++ bytesLE 2 a.tenant ++ acsData s r at'.toNat len.toNat)
        exec .acsHmac s = .next (match meterKey s a.tenant with
          | some k => run (acsStore s r out.toNat (mac k)) (moved 1 (0 :: st))
          | none => run s (moved 1 (1 :: st)))) ∧
      (imm 1 = 7 → rngReady s = true → exec .acsRandom s = .next (run s.drawWord.2 (moved 1 (s.drawWord.1 :: r.stack)))) ∧
      (imm 1 = 8 → exec .acsCloseReq s = .next (run s { moved 1 r.stack with closeReq := true })) ∧
      (imm 1 = 9 → r.hook = .close → ∀ at' len st, r.stack = len :: at' :: st → len.toNat % 4 = 0 → len.toNat ≤ 64 → at'.toNat + len.toNat ≤ 4096 →
        exec .acsOut s = .next (run s { moved 1 (0 :: st) with out := acsData s r at'.toNat len.toNat })) ∧
      (imm 1 = 9 → r.hook ≠ .close → exec .acsOut s = .next (trap 8)) ∧
      (imm 1 = 10 → r.hook = .loadCheck → ∀ x l, s.met.loads = x :: l → exec .acsLoadInfo s = .next (run s (moved 1
        (BitVec.ofNat 32 x.lane :: BitVec.ofNat 32 x.version :: BitVec.ofNat 32 x.recipe :: r.stack)))) ∧
      (imm 1 = 11 → exec .acsLanes s = .next (run s (moved 1 (BitVec.ofNat 32 (tenantLanes s a.tenant) :: r.stack)))))) ∧
  (let bounded := fun s : State => ∀ r, s.met.run = some r → r.stack.length ≤ 64 ∧ r.calls.length ≤ 16 ∧ r.count ≤ 200000
   ∀ s t : State, bounded s → ∀ c ∈ [Instr.acsPush8, .acsPush16, .acsPush32, .acsDup, .acsDrop, .acsSwap, .acsOver, .acsPick, .acsAdd, .acsSub,
      .acsMul, .acsDivu, .acsRemu, .acsDivs, .acsRems, .acsAnd, .acsOr, .acsXor, .acsNot, .acsShl, .acsShr, .acsSar, .acsEq, .acsLtu, .acsLts,
      .acsAdd64, .acsSub64, .acsLtu64, .acsMulu64, .acsLdw, .acsStw, .acsLdb, .acsStb, .acsJmp, .acsJz, .acsJnz, .acsCall, .acsRet, .acsEnd,
      .acsSysTime, .acsPeriod, .acsTally, .acsFloor, .acsRaiseFloor, .acsHmac, .acsRandom, .acsCloseReq, .acsOut, .acsLoadInfo, .acsLanes],
    exec c s = .next t → bounded t)

/-- Chain loads (R511–R515), switchover (R516, R517, R519), probation (R521, R522). The model's own choices and readings in it: log
30 (the format of ring messages), log 49 (chain loading), log 50 (switchover), log 51 (image areas). -/
def Obligations.FirmwareCommands : Prop :=
  (∀ (s : State) (w : Switch), s.live = true → s.fw.switch = some w →
    (w.phase = 1 → exec .copyDone s = .next (
      let (held, t) := checkStaging s
      if held then
        match (storedBundle t stagingAddr).map (copyToSlot t w.slot) with
        | some (true, u) => setSwitch (modBoot u fun b => b.setSt w.slot 2) (some { w with phase := 2 })
        | some (false, u) => cancelSwitch (raise u Err.FW_STORE fwSrc)
        | none => cancelSwitch (raise t Err.FW_STORE fwSrc)
      else cancelSwitch t)) ∧
    (w.at' ≤ s.ct.toNat + ticksPerSecond → w.asking = false →
      (w.phase < 3 → exec .switchCommit s = .next (cancelSwitch s)) ∧
      (w.phase = 3 → w.waiting = [] → admitted s = [] → exec .switchCommit s = .next (commitSwitch s w)) ∧
      (w.phase = 3 → w.waiting = [] → admitted s ≠ [] → exec .switchCommit s =
        .next ((admitted s).foldl (fun t p => sendFwQuery t 0 p) (setSwitch s (some { w with asking := true, waiting := admitted s })))))) ∧
  (∀ (s : State) (l : ChainLoad) (h : List Byte), s.live = true → s.isManager = true → s.fwRuns = true → s.fw.load = some l →
    loadHead s l.source = some h →
    let m := { l with sent := l.sent + 1 }
    (l.phase = .sending → l.sent + 1 < headChunks h + 8 * headBlocks h →
      exec .chunkSend s = .next (putLoad (sendChunk s l h (chunkAt h l.sent)) m)) ∧
    (l.phase = .sending → headChunks h + 8 * headBlocks h ≤ l.sent + 1 →
      exec .chunkSend s = .next (askAll (sendChunk s l h (chunkAt h l.sent)) m)) ∧
    (∀ p c r, l.phase = .repairing → l.repair = (p, c) :: r → r ≠ [] →
      exec .chunkSend s = .next (putLoad (sendRepair s l h p c) { l with repair := r })) ∧
    (∀ p c, l.phase = .repairing → l.repair = [(p, c)] → exec .chunkSend s = .next (askAll (sendRepair s l h p c) l))) ∧
  (∀ (s : State) (src : Nat), s.live = true → s.isManager = true → s.fwRuns = true → s.fw.load = none → s.fw.switch = none →
    runSource s = some src → s.fw.want = [] → s.fw.behind ≠ [] → exec .chunkSend s = .next (openLoad s true true src s.fw.behind)) ∧
  (∀ (s t : State) (p : Fin 2) (l : List QEntry), s.live = true → s.isManager = false → s.core.mode = .firmware →
    queuePacket s (frlQueue p.val) = (some l, t) → (wordsFrame l).typ = 0x20 → (takeChunk t (wordsFrame l).payload).core.mode ≠ .listen →
    exec (.fwBlock p) s = .next (takeChunk t (wordsFrame l).payload)) ∧
  (∀ (s : State) (b : List Byte), (s.area (areaIndex s (numAt b 8 1))).session ≠ some (wordLE b) → takeChunk s b = s) ∧
  (∀ (k : Nat) (h : List Byte) (s : State) (b : Nat) (c : Fin 8 → List Byte), k < 2 →
    (∀ i : Fin 8, (s.area k).chunks.find? (fun e => e.1 == (b, i.val)) = some ((b, i.val), c i)) → b ∉ (s.area k).good →
    let block := c 0 ++ c 1 ++ c 2 ++ c 3 ++ c 4 ++ c 5 ++ c 6 ++ c 7
    (blockOk (h.drop 256) block b = true → b ∈ ((takeBlock k h s b).area k).good ∧
      ∀ e ∈ ((takeBlock k h s b).area k).chunks, e.1.1 ≠ b) ∧
    (blockOk (h.drop 256) block b = false → ((takeBlock k h s b).area k).good = (s.area k).good ∧ (takeBlock k h s b).mem = s.mem)) ∧
  (∀ (s t u : State) (p : Fin 2) (l : List QEntry), s.live = true → s.isManager = false → s.core.mode = .firmware →
    queuePacket s (frlQueue p.val) = (some l, t) →
    let f := wordsFrame l
    f.typ = 0x10 → f.rsp = false → f.toEn = false → admitTxn t p.val f = (true, u) →
    let b := f.payload
    let say := fun (v : State) (r : List Byte) => respondTxn v f.src f.txn.toNat r
    (f.code = 0x0F01 → numAt b 8 1 = 1 → (u.area (areaIndex u 1)).session ≠ some (wordLE (slice b 4 4)) →
      exec (.fwOpen p) s = .next (say (u.setArea (areaIndex u 1) { session := some (wordLE (slice b 4 4)), digest := slice b 12 16 }) [0, 0, 0, 0])) ∧
    (f.code = 0x0F02 → exec (.fwQuery p) s = .next (say u (fwQueryRun u b))) ∧
    (f.code = 0x0F03 → areaComplete u (1 - runArea u) = true → u.bytesAt (areaBase (1 - runArea u) + 0x60) 16 = slice b 12 16 →
      exec (.fwArm p) s = .next (say ((u.wr64 Reg.FW_SWITCH_AT_LO Reg.FW_SWITCH_AT_HI (numAt b 4 8)).wrb Reg.FW_SWITCH_CTRL 0 true) [0, 0, 0, 0])) ∧
    (f.code = 0x0F03 → areaComplete u (1 - runArea u) = false → exec (.fwArm p) s = .next (say u [1, 0, 0, 0])) ∧
    (f.code = 0x0F04 → exec (.fwDisarm p) s = .next (say (u.wrb Reg.FW_SWITCH_CTRL 0 false) [0, 0, 0, 0]))) ∧
  (∀ s : State, s.live = true → s.isManager = true → ∃ t, exec .chainLoadRetry s = .next t ∧ t.fw.failed = [] ∧
    (∀ p, p ∈ t.fw.want ↔ p ∈ s.fw.want ∨ p ∈ s.fw.failed)) ∧
  (∀ (s : State) (m : Master), s.reaches m Reg.FW_READY = true → s.fw.owesBad = [] → s.fw.owesStart = false → s.fw.owesRevert = false →
    let t := (setStartCount s 0).modFw fun f => { f with ready := true, owesBad := [], owesStart := false, owesRevert := false }
    exec (.fwReady m 0x00004EAD) s = .next ((fwState t (runSlot t) 0 (t.rd Reg.FW_VERSION).toNat).resp m [])) ∧
  (∀ (s : State) (m : Master), s.reaches m Reg.FW_CONFIRM = true →
    exec (.healthConfirm m 0x0000C0F1) s = .next ((fwConfirmEffect s 0x0000C0F1).resp m []) ∧
    (∀ v : Word, v ≠ 0x0000C0F1 → exec (.healthConfirm m v) s = .next (s.resp m []))) ∧
  (∀ s : State, inProbation s = true →
    let k := runSlot s
    let t := modBoot s fun b => { (if b.st (1 - k) = 4 then b.setSt (1 - k) 5 else b).setSt k 4 with prob := false }
    let u := (((raiseCounter t 7 (slotFloor t k)).modFw fun f => { f with probEnd := none }).wrb Reg.FW_STAT 0 false).wr Reg.FW_PROB_LEFT 0
    fwConfirmEffect s 0x0000C0F1 = fwState (raise u Err.FW_CONFIRMED fwSrc) k Err.FW_CONFIRMED (u.rd Reg.FW_VERSION).toNat) ∧
  (∀ s : State, s.live = true → s.isManager = true → s.fwRuns = true →
    (healthy s = true → s.fw.healthy < 3 → exec .healthCheck s = .next (s.modFw fun f => { f with healthy := f.healthy + 1 })) ∧
    (healthy s = true → s.fw.healthy = 3 → exec .healthCheck s = .next (fwConfirmEffect (s.modFw fun f => { f with healthy := 4 }) 0x0000C0F1)) ∧
    (healthy s = false → exec .healthCheck s = .next (s.modFw fun f => { f with healthy := 0 })))

/-- Latches (R531, R532), the safe state (R535, R536), reports (R538, R539), admission (R30, R270, R547), takeover (R549, R550),
powered hours (R117). The model's own choices and readings in it: log 30 (the format of ring messages), log 36 (admission and lane
states), log 45 (loops), log 52 (takeover), log 53 (the error controller). -/
def Obligations.ErrorsAndService : Prop :=
  (∀ (s : State) (code : Half) (src : Byte) (d : DWord) (k : Nat), s.canon = true → k < 5 → s.rdb Reg.ERR_STAT (16 + k) = true → errClass code ≠ 3 →
    (raise s code src d).rdb Reg.ERR_STAT (16 + k) = true ∧
    (raise s code src d).rd (Reg.ERR_LATCH_CODE k) = s.rd (Reg.ERR_LATCH_CODE k) ∧
    (raise s code src d).rd64 (Reg.ERR_LATCH_DETAIL_LO k) (Reg.ERR_LATCH_DETAIL_HI k) = s.rd64 (Reg.ERR_LATCH_DETAIL_LO k) (Reg.ERR_LATCH_DETAIL_HI k) ∧
    (raise s code src d).rd64 (Reg.ERR_LATCH_TIME_LO k) (Reg.ERR_LATCH_TIME_HI k) = s.rd64 (Reg.ERR_LATCH_TIME_LO k) (Reg.ERR_LATCH_TIME_HI k)) ∧
  (∀ (s t : State) (l : List Raise), s.canon = true → s.rdb Reg.ERR_STAT 31 = true → exec (.errorRaise l) s = .next t →
    t.rdb Reg.ERR_STAT 31 = true ∧ t.rdf Reg.ERR_STAT 15 0 = s.rdf Reg.ERR_STAT 15 0) ∧
  (∀ (s : State) (code : Half) (src : Byte) (d : DWord), s.canon = true → errClass code = 3 → s.rdb Reg.ERR_STAT 19 = true →
    s.rdb Reg.ERR_STAT 31 = false →
    (raise s code src d).rdb Reg.ERR_STAT 31 = true ∧ (raise s code src d).rdf Reg.ERR_STAT 15 0 = Err.SAFE_NESTED.toNat) ∧
  (∀ (s : State) (cause : Half), s.canon = true → s.rdb Reg.ERR_STAT 31 = false →
    let t := enterSafe s cause
    t.lanes.own.state = .safe ∧ t.rdb Reg.ERR_STAT 31 = true ∧ t.rdf Reg.ERR_STAT 15 0 = cause.toNat ∧ t.rdb Reg.EJ_CTRL 1 = false ∧
    t.rdb Reg.FAB_STAT 30 = false ∧ ∀ c < 32, t.rdb (Reg.CELL_STAT c) 31 = false) ∧
  (∀ (s : State) (l : List Raise), s.live = true → exec (.errorRaise l) s = .next (raiseMany s l)) ∧
  (∀ s : State, s.live = true → s.rdb Reg.ERR_STAT 19 = true → exec .safeTimeout s = .next (enterSafe s Err.SAFE_TIMEOUT)) ∧
  (∀ (s : State) (m : Master), s.reaches m Reg.ERR_SAFE_REQ = true →
    exec (.safeRequest m 0x00005AFE) s = .next ((enterSafe s Err.SAFE_REQUESTED).resp m []) ∧
    ∀ v : Word, v ≠ 0x00005AFE → exec (.safeRequest m v) s = .next (s.resp m [])) ∧
  (∀ (s : State) (m : Master), s.reaches m Reg.ERR_DONE = true → s.canon = true → m ≠ .cc → ∀ v : Word,
    ∃ t, exec (.errDone m v) s = .next t ∧ ∀ k < 5, t.rdb Reg.ERR_STAT (16 + k) = (s.rdb Reg.ERR_STAT (16 + k) && !bitOf v k)) ∧
  (∀ (s : State) (k : Fin 5), s.reaches .cc Reg.ERR_DONE = true → s.rdb Reg.ERR_STAT (16 + k.val) = true →
    exec (.errDone .cc (BitVec.ofNat 32 (2 ^ k.val))) s = .next (((handleLatch s k.val).wrb Reg.ERR_STAT (16 + k.val) false).resp .cc [])) ∧
  (∀ (s t u : State) (p : Fin 2) (l : List QEntry), s.live = true → s.isManager = true → s.fwRuns = true →
    queuePacket s (frlQueue p.val) = (some l, t) →
    let f := wordsFrame l
    f.typ = 0x10 → f.rsp = false → f.toEn = false → f.code = 0x0E01 → admitTxn t p.val f = (true, u) →
    let r := reportOf (f.payload.drop 4)
    exec (.errReport p) s = .next (respondTxn (reportAction (reportEvent (errLog u f.src r) f.src r) f.src r) f.src f.txn.toNat (ringReply 0 []))) ∧
  (∀ (s : State) (lane : BitVec 7), s.live = true → s.isManager = true → s.fwRuns = true → s.ring.duplicate = false → admitAsked s lane.toNat = true →
    (lane.toNat = s.ownLane → admitReady s = true → exec (.admitLane lane) s =
      .next ((setPermit (s.wrb Reg.EJ_CTRL 1 true)).modLanes fun l => { l with admitPending := true })) ∧
    (lane.toNat ≠ s.ownLane → exec (.admitLane lane) s = .next (startTxn s lane.toNat false [0x03, 0x0E, 0, 0] (.enterLane lane.toNat)))) ∧
  (∀ (s : State) (lane : BitVec 7), s.live = true → s.isManager = true → s.fwRuns = true →
    ((s.lane lane.toNat).state = .admitting → (s.lane lane.toNat).faults.flag = true →
      exec (.admittingShutterRetry lane) s = .next (orderShutter s lane.toNat .none)) ∧
    (s.svc.shutterRetry.contains lane.toNat = true → exec (.admissionShutterRetry lane) s =
      .next (orderShutter (s.modSvc fun v => { v with shutterRetry := nsDel v.shutterRetry lane.toNat }) lane.toNat .none))) ∧
  (∀ s : State, s.live = true → s.isStandby = true → s.fwRuns = true →
    (s.position ≠ 0xFF → s.svc.probes < 5 → ∃ t, exec .takeoverProbe s = .next t ∧ t.svc.probes = s.svc.probes + 1) ∧
    (s.svc.probes = 5 → exec .takeover s = .next (takeOver s))) ∧
  (∀ s : State, s.live = true →
    let n := (s.rd Reg.SVC_RUNHRS).toNat + 1
    exec .runhrsUpdate s = .next (mramStoreBytes (s.wr Reg.SVC_RUNHRS (BitVec.ofNat 32 n)) 0x20002010 (bytesLE 8 (n % 2 ^ 32))).2)
end

