-- ==== Sys2Proof/Laws/Access.lean ====
section
/-! SUPPORT. What an access does when its gate permits it, and when its gate refuses it. -/

namespace Sys2Proof.Machine

/-- With nothing in the pair buffer, an access ends no held write. -/
theorem flushPairs_nil (s : State) (m : Master) (a : Nat) (h : s.ms.pairs = []) : flushPairs s m a = s := by
  simp [flushPairs, State.modMs, h]
  simp [← h]

/-- A permitted access has its effect. -/
theorem gated_permitted {s : State} {acc : Access} (f : State → State) (h : s.permits acc = true) : gated s acc f = f s := by
  simp [State.permits] at h
  simp [gated, h]

/-- A permitted access is a live device's, with an empty pair buffer, of a master that can issue it. -/
theorem permits_parts {s : State} {acc : Access} (h : s.permits acc = true) :
    s.live = true ∧ canAccess s acc.master = true ∧ s.ms.pairs = [] ∧ gateRefusal s acc = none := by
  simpa [State.permits, and_assoc] using h

/-- A refused access changes nothing in its target: the fault record, the errors and the response are its whole effect. -/
theorem gated_refused {s : State} {acc : Access} {c : Half} (f : State → State) (hc : canAccess s acc.master = true)
    (h : gateRefusal s acc = some c) : gated s acc f = refusedResp (refuseAccess s acc c) acc c := by
  simp [gated, hc, h]

/-- A row that is a write of one register, when the write reaches the register. -/
theorem writeRow_reaches {s : State} {m : Master} {a : Nat} (v : Word) (eff : State → Word → State) (h : s.reaches m a = true) :
    writeRow m a v eff s = .next ((eff s v).resp m []) := by
  obtain ⟨h1, h2, h3, h4⟩ := permits_parts h
  have h' : s.permits { master := m, write := true, addr := a, len := 4 } = true := h
  simp only at h2
  simp [writeRow, whenLive, h1, regWrite, h2, flushPairs_nil s m a h3, gated_permitted _ h', completeWrite]

/-- A row that is a write of one register, when the gate refuses the write. -/
theorem writeRow_refused {s : State} {m : Master} {a : Nat} {c : Half} (v : Word) (eff : State → Word → State) (hl : s.live = true)
    (hc : canAccess s m = true) (hp : s.ms.pairs = [])
    (h : gateRefusal s { master := m, write := true, addr := a, len := 4 } = some c) :
    writeRow m a v eff s = .next (refusedResp (refuseAccess s { master := m, write := true, addr := a, len := 4 } c)
      { master := m, write := true, addr := a, len := 4 } c) := by
  simp [writeRow, whenLive, hl, regWrite, hc, flushPairs_nil s m a hp, gated, h]

/-- A device that is in reset ignores a row that is a write of one register. -/
theorem writeRow_dead {s : State} {m : Master} {a : Nat} (v : Word) (eff : State → Word → State) (h : s.live = false) :
    writeRow m a v eff s = .next s := by
  simp [writeRow, whenLive, h]

theorem whenLive_live {s : State} (f : State → State) (h : s.live = true) : whenLive s f = f s := by simp [whenLive, h]

theorem whenLive_dead {s : State} (f : State → State) (h : s.live = false) : whenLive s f = s := by simp [whenLive, h]

end Sys2Proof.Machine
end

