-- ==== Sys2Proof/Laws/Commands.lean ====
section
/-! SUPPORT. What the shared operations of four families can do, each said once: an instruction of a cell, a machine-link command, a
ring port and an applet instruction. -/

set_option linter.unusedTactic false
set_option linter.unreachableTactic false

namespace Sys2Proof.Machine

/-! ## Cells -/

/-- What a ready cell is. -/
theorem cellReady_parts {s : State} {i : Issue} {w : Word} (h : cellReady s i w = true) :
    s.live = true ∧ cellRuns s i.cell.val = true ∧ codeAt s i.cell.val (s.cell i.cell.val).pc = w ∧ (s.cell i.cell.val).dsu = none ∧
      i.fetchBits = 0 := by
  simpa [cellReady, and_assoc] using h

@[simp] theorem cell_modCell (s : State) (c : Fin 32) (f : CellSt → CellSt) : (s.modCell c.val f).cell c.val = f (s.cell c.val) := by
  simp [State.cell, State.modCell, State.modFab, c.isLt]

@[simp] theorem modCell_modCell (s : State) (c : Nat) (f g : CellSt → CellSt) :
    (s.modCell c f).modCell c g = s.modCell c (fun x => g (f x)) := by
  by_cases h : c < 32 <;> simp [State.modCell, State.modFab, h]

theorem modCell_congr (s : State) (c : Fin 32) (f g : CellSt → CellSt) (h : f (s.cell c.val) = g (s.cell c.val)) :
    s.modCell c.val f = s.modCell c.val g := by
  simp [State.cell, c.isLt] at h
  simp [State.modCell, State.modFab, c.isLt, h]

/-- Everything that an instruction of a ready cell can do. -/
theorem cellIssue_ready {s : State} {i : Issue} {w : Word} (u : Uses) (f : State → CellOut) (h : cellReady s i w = true) :
    cellIssue i w u f s = .next (match f (s.modCell i.cell.val fun x => { x with cyc := x.cyc + BitVec.ofNat 32 i.cycles }) with
      | .done t => t.modCell i.cell.val fun x => { x with pc := x.pc + 1, lateReg := u.late }
      | .jump t target => t.modCell i.cell.val fun x => { x with pc := target, lateReg := none }
      | .stallPop =>
        (s.modCell i.cell.val fun x => { x with cyc := x.cyc + BitVec.ofNat 32 i.cycles }).bump (Reg.CELL_POPSTALL i.cell.val) 31 0 i.cycles
      | .stallPush =>
        (s.modCell i.cell.val fun x => { x with cyc := x.cyc + BitVec.ofNat 32 i.cycles }).bump (Reg.CELL_PUSHSTALL i.cell.val) 31 0 i.cycles
      | .fault cause => cellFault (s.modCell i.cell.val fun x => { x with cyc := x.cyc + BitVec.ofNat 32 i.cycles }) i.cell.val cause) := by
  obtain ⟨h1, h2, h3, h4, h5⟩ := cellReady_parts h
  simp [cellIssue, whenLive, h1, h2, h3, cellRun, h5, cell_modCell, dsuBlocks, h4]
  all_goals (cases f _ <;> rfl)

/-! ## Ring ports -/

@[simp] theorem modFrl_modFrl (s : State) (p : Fin 2) (f g) : (s.modFrl p.val f).modFrl p.val g = s.modFrl p.val (fun q => g (f q)) := by
  simp [State.modFrl, State.modRing, p.2]

@[simp] theorem frl_modFrl (s : State) (p : Fin 2) (f) : (s.modFrl p.val f).frl p.val = f (s.frl p.val) := by
  simp [State.modFrl, State.modRing, State.frl, p.2]

/-! ## Machine link -/

/-- A new command whose manager serves the link: it runs as a job, or a malformed body is answered 0x8008 (R378). -/
theorem hostCmd_new (c : HostCmd) (code) (ok : List Byte → Bool) (run) (s : State) (h1 : hostServing s = true) (h2 : hostNew s c = true) :
  hostCmd c code ok run s = .next (
    let t := ((s.bump Reg.HOST_RXFRAMES 31 0).modHost fun h => { h with highest := some c.txn.toNat, jobs := h.jobs ++ [hostJob c code] })
    if ok c.body then run t (hostJob c code) else hostDone t c code 0x8008 []) := by
  simp only [hostServing, Bool.and_eq_true, Bool.not_eq_true'] at h1
  obtain ⟨⟨⟨⟨⟨a1,a2⟩,a3⟩,a4⟩,a5⟩,a6⟩ := h1
  simp only [hostNew, Bool.and_eq_true, Bool.not_eq_true', beq_iff_eq, decide_eq_true_eq, List.all_eq_true, bne_iff_ne, ne_eq] at h2
  obtain ⟨⟨⟨⟨b1,b2⟩,b3⟩,b4⟩,b5⟩ := h2
  have hd : (s.bump Reg.HOST_RXFRAMES 31 0).ring.duplicate = false := a6
  have hf : s.host.records.find? (fun r => r.txn == c.txn) = none := by
    simp; intro r hr; exact b2 r hr
  have hj : s.host.jobs.any (fun j => j.txn == c.txn) = false := by
    simp; intro r hr; exact b3 r hr
  have hh : (s.bump Reg.HOST_RXFRAMES 31 0).host = s.host := rfl
  have hst : txnStale (s.bump Reg.HOST_RXFRAMES 31 0) c.txn = false := b4
  have hir : ∀ f, inRecovery ((s.bump Reg.HOST_RXFRAMES 31 0).modHost f) = false := fun _ => a5
  have hn : ¬ 16 ≤ s.host.jobs.length := by omega
  simp only [hostCmd, whenLive, a1, if_true, hostFrame, a2, hostServed, a3, a4, Bool.true_or, hd, hostJudge, hh, b1,hf,hj,hst,hn]
  simp only [hir, hostJob, hostDone]
  cases ok c.body <;> simp [← b1]

/-! ## Applets -/

/-- Everything that an applet instruction of a running applet can do, within its code and its count. -/
theorem acsRow_go (op imm sys f) (s : State) (r : AcsRun) (h1 : s.live = true) (h2 : s.met.run = some r) (h3 : r.count < 200000)
  (h4 : r.pc < (runApplet s r).code.length) (h5 : codeByte (runApplet s r).code r.pc = op)
  (h6 : sys.isSome = true → sys = some (codeImm (runApplet s r).code r.pc imm)) :
  acsRow op imm sys f s = .next (match f (codeImm (runApplet s r).code r.pc imm) { r with pc := r.pc + 1 + imm, count := r.count + 1 } s with
        | .go r' s' => s'.modMet fun m => { m with run := some r' }
        | .stop r' s' => acsFinish s' r'
        | .trap c => acsTrap s { r with count := r.count + 1 } c
        | .wait => s) := by
  have a1 : ¬ (runApplet s r).code.length ≤ r.pc := by omega
  have a2 : ¬ 200000 ≤ r.count := by omega
  have a3 : ¬ ((sys.isSome = true) ∧ sys ≠ some (codeImm (runApplet s r).code r.pc imm)) := by
    intro ⟨x,y⟩; exact y (h6 x)
  simp only [acsRow, whenLive, h1, if_true, h2]
  simp only [a1, a2, h5, a3, ne_eq, not_true_eq_false, false_or, if_false]
  all_goals (cases f _ _ _ <;> rfl)

end Sys2Proof.Machine
end

