-- ==== Sys2Proof/Laws/Memory.lean ====
section
/-! SUPPORT. The laws of sparse maps, memory and registers: reading after writing, and the canonical form that every operation keeps. -/

namespace Sys2Proof.Machine

variable {α : Type} [DecidableEq α]

/-! ## Sparse maps -/

theorem swfFrom_weaken (d : Nat → α) : ∀ (m : Sparse α) (lo lo' : Nat), lo' ≤ lo → swfFrom d lo m = true → swfFrom d lo' m = true
  | [], _, _, _, _ => rfl
  | (k, v) :: r, lo, lo', h, w => by
    simp [swfFrom] at w ⊢
    exact ⟨⟨by omega, w.1.2⟩, w.2⟩

/-- A key below every key of a canonical map reads as the default. -/
theorem sget_below (d : Nat → α) : ∀ (m : Sparse α) (lo k : Nat), swfFrom d lo m = true → k < lo → sget d m k = d k
  | [], _, _, _, _ => rfl
  | (k', v) :: r, lo, k, w, h => by
    simp [swfFrom] at w
    rw [sget, if_neg (by omega)]
    exact sget_below d r (k' + 1) k w.2 (by omega)

/-- Setting a key keeps the canonical form. -/
theorem swfFrom_sset (d : Nat → α) : ∀ (m : Sparse α) (lo k : Nat) (v : α), lo ≤ k → swfFrom d lo m = true →
    swfFrom d lo (sset d m k v) = true
  | [], lo, k, v, h, _ => by
    by_cases hv : v = d k <;> simp [sset, swfFrom, hv, h]
  | (k', v') :: r, lo, k, v, h, w => by
    simp [swfFrom] at w
    rw [sset]
    by_cases h1 : k < k'
    · rw [if_pos h1]
      by_cases hv : v = d k
      · rw [if_pos hv]; simp [swfFrom, w]
      · rw [if_neg hv]; simp [swfFrom, w, hv, h]; omega
    · rw [if_neg h1]
      by_cases h2 : k = k'
      · rw [if_pos h2]
        subst h2
        by_cases hv : v = d k
        · rw [if_pos hv]; exact swfFrom_weaken d r _ _ (by omega) w.2
        · rw [if_neg hv]; simp [swfFrom, w, hv]
      · rw [if_neg h2]
        simp [swfFrom, w]
        exact swfFrom_sset d r (k' + 1) k v (by omega) w.2

theorem swf_sset (d : Nat → α) (m : Sparse α) (k : Nat) (v : α) (w : swf d m = true) : swf d (sset d m k v) = true :=
  swfFrom_sset d m 0 k v (Nat.zero_le _) w

theorem sget_ssetFrom (d : Nat → α) : ∀ (m : Sparse α) (lo k k2 : Nat) (v : α), swfFrom d lo m = true →
    sget d (sset d m k v) k2 = if k2 = k then v else sget d m k2
  | [], lo, k, k2, v, _ => by
    by_cases hv : v = d k
    · simp only [sset, hv, if_true, sget]
      by_cases h : k2 = k <;> simp [h]
    · simp only [sset, hv, if_false, sget]
      by_cases h : k = k2 <;> simp [h, eq_comm]
  | (k', v') :: r, lo, k, k2, v, w => by
    simp [swfFrom] at w
    rw [sset]
    by_cases h1 : k < k'
    · rw [if_pos h1]
      by_cases hv : v = d k
      · rw [if_pos hv]
        by_cases h : k2 = k
        · subst h
          rw [if_pos rfl, hv, sget, if_neg (by omega)]
          exact sget_below d r (k' + 1) k2 w.2 (by omega)
        · rw [if_neg h]
      · rw [if_neg hv]
        by_cases h : k2 = k
        · subst h; simp [sget]
        · rw [sget, if_neg (by omega), if_neg h]
    · rw [if_neg h1]
      by_cases h2 : k = k'
      · rw [if_pos h2]
        subst h2
        by_cases hv : v = d k
        · rw [if_pos hv]
          by_cases h : k2 = k
          · subst h
            rw [if_pos rfl, hv]
            exact sget_below d r (k2 + 1) k2 w.2 (by omega)
          · rw [if_neg h, sget, if_neg (by omega)]
        · rw [if_neg hv]
          by_cases h : k2 = k
          · subst h; simp [sget]
          · rw [sget, if_neg (by omega), if_neg h, sget, if_neg (by omega)]
      · rw [if_neg h2, sget]
        by_cases h : k' = k2
        · rw [if_pos h, if_neg (by omega), sget, if_pos h]
        · rw [if_neg h, sget_ssetFrom d r (k' + 1) k k2 v w.2, sget, if_neg h]

/-- Reading a canonical map after setting a key. -/
theorem sget_sset (d : Nat → α) (m : Sparse α) (k k2 : Nat) (v : α) (w : swf d m = true) :
    sget d (sset d m k v) k2 = if k2 = k then v else sget d m k2 :=
  sget_ssetFrom d m 0 k k2 v w

/-- Dropping entries keeps the canonical form. -/
theorem swfFrom_filter (d : Nat → α) (f : Nat × α → Bool) : ∀ (m : Sparse α) (lo : Nat), swfFrom d lo m = true →
    swfFrom d lo (m.filter f) = true
  | [], _, _ => rfl
  | (k, v) :: r, lo, w => by
    simp [swfFrom] at w
    have ih := swfFrom_filter d f r (k + 1) w.2
    by_cases h : f (k, v) = true
    · simp [h, swfFrom, w, ih]
    · simp [h]
      exact swfFrom_weaken d _ _ _ (by omega) ih

theorem swf_sclear (d : Nat → α) (m : Sparse α) (lo hi : Nat) (w : swf d m = true) : swf d (sclear m lo hi) = true :=
  swfFrom_filter d _ m 0 w

theorem sget_filterFrom (d : Nat → α) (f : Nat × α → Bool) (k : Nat) : ∀ (m : Sparse α) (lo : Nat), swfFrom d lo m = true →
    sget d (m.filter f) k = if f (k, sget d m k) = true then sget d m k else d k
  | [], _, _ => (ite_self (d k)).symm
  | (k', v) :: r, lo, w => by
    simp [swfFrom] at w
    have ih := sget_filterFrom d f k r (k' + 1) w.2
    by_cases hk : k' = k
    · subst hk
      by_cases h : f (k', v) = true
      · simp [h, sget]
      · simp only [h, List.filter_cons, sget, if_true]
        simp only [Bool.false_eq_true, if_false]
        exact sget_below d _ (k' + 1) k' (swfFrom_filter d f r _ w.2) (by omega)
    · by_cases h : f (k', v) = true
      · simp only [List.filter_cons, h, if_true, sget, hk, if_false, ih]
      · rw [List.filter_cons, if_neg h, ih, sget, if_neg hk]

/-- Reading a canonical map after a range of its keys has been cleared. -/
theorem sget_sclear (d : Nat → α) (m : Sparse α) (lo hi k : Nat) (w : swf d m = true) :
    sget d (sclear m lo hi) k = if lo ≤ k ∧ k < hi then d k else sget d m k := by
  rw [sclear, sget_filterFrom d _ k m 0 w]
  by_cases h : lo ≤ k ∧ k < hi
  · simp [h]
  · rw [if_neg h, if_pos]
    simp only [Bool.not_eq_true', Bool.and_eq_false_iff, decide_eq_false_iff_not]
    omega

/-! ## Memory -/

/-- Storing bytes keeps the canonical form of memory. -/
theorem wf_putBytes : ∀ (l : List Byte) (m : Memory) (a : Nat), m.wf = true → Memory.wf (putBytes m a l) = true
  | [], _, _, w => w
  | b :: r, m, a, w => wf_putBytes r _ (a + 1) (swf_sset memDefault m a b w)

/-- Clearing a range keeps the canonical form of memory. -/
theorem wf_sclear (m : Memory) (lo hi : Nat) (w : m.wf = true) : Memory.wf (sclear m lo hi) = true :=
  swf_sclear memDefault m lo hi w

/-- What a byte reads as after bytes have been stored: the stored byte inside, the old one outside. -/
theorem sget_putBytes : ∀ (l : List Byte) (m : Memory) (a k : Nat), m.wf = true →
    sget memDefault (putBytes m a l) k = if h : a ≤ k ∧ k < a + l.length then l[k - a] else sget memDefault m k
  | [], m, a, k, w => by
    have h : ¬(a ≤ k ∧ k < a + ([] : List Byte).length) := by simp only [List.length_nil]; omega
    rw [dif_neg h]; rfl
  | b :: r, m, a, k, w => by
    rw [putBytes, sget_putBytes r _ (a + 1) k (swf_sset memDefault m a b w), sget_sset memDefault m a k b w]
    by_cases h1 : k = a
    · subst h1
      have h3 : ¬(k + 1 ≤ k ∧ k < k + 1 + r.length) := by omega
      rw [dif_neg h3, if_pos rfl]; simp
    · by_cases h2 : a ≤ k ∧ k < a + (b :: r).length
      · have h3 : a + 1 ≤ k ∧ k < a + 1 + r.length := by simp at h2; omega
        rw [dif_pos h2, dif_pos h3]
        obtain ⟨j, rfl⟩ : ∃ j, k = a + 1 + j := ⟨k - (a + 1), by omega⟩
        have : a + 1 + j - a = j + 1 := by omega
        simp [this]
      · have h3 : ¬(a + 1 ≤ k ∧ k < a + 1 + r.length) := by simp at h2; omega
        rw [dif_neg h2, dif_neg h3, if_neg h1]

/-- Reading a byte after bytes have been stored in a state whose memory is canonical. -/
theorem byteAt_setBytes (s : State) (a k : Nat) (l : List Byte) (w : s.mem.wf = true) :
    (s.setBytes a l).byteAt k = if h : a ≤ k ∧ k < a + l.length then l[k - a] else s.byteAt k :=
  sget_putBytes l s.mem a k w

theorem byteAt_zeroRange (s : State) (lo hi k : Nat) (w : s.mem.wf = true) :
    (s.zeroRange lo hi).byteAt k = if lo ≤ k ∧ k < hi then 0 else s.byteAt k :=
  sget_sclear memDefault s.mem lo hi k w

/-- Reading back bytes just stored. -/
theorem bytesAt_setBytes_same (s : State) (a : Nat) (l : List Byte) (w : s.mem.wf = true) : (s.setBytes a l).bytesAt a l.length = l := by
  have key : ∀ (n : Nat) (t : State) (b : Nat) (l' : List Byte), n = l'.length →
      (∀ i (h : i < l'.length), t.byteAt (b + i) = l'[i]) → t.bytesAt b n = l' := by
    intro n
    induction n with
    | zero => intro t b l' hl _; simp [State.bytesAt, List.length_eq_zero_iff.mp hl.symm]
    | succ n ih =>
      intro t b l' hl hb
      cases l' with
      | nil => simp at hl
      | cons x r =>
        rw [State.bytesAt, ih t (b + 1) r (by simpa using hl)]
        · have := hb 0 (by simp)
          simp at this
          rw [this]
        · intro i hi
          have := hb (i + 1) (by simpa using hi)
          simpa [Nat.add_assoc, Nat.add_comm 1 i] using this
  exact key l.length _ a l rfl fun i hi => by simp [byteAt_setBytes s a (a + i) l w, hi]

/-! ## Registers -/

/-- Reading a register after the hardware has set one. -/
theorem rd_wr (s : State) (a b : Nat) (v : Word) (w : swf resetWord s.regs = true) : (s.wr a v).rd b = if b = a then v else s.rd b :=
  sget_sset resetWord s.regs a b v w

theorem rd_wr_same (s : State) (a : Nat) (v : Word) (w : swf resetWord s.regs = true) : (s.wr a v).rd a = v := by
  rw [rd_wr s a a v w, if_pos rfl]

theorem rd_wr_other (s : State) (a b : Nat) (v : Word) (w : swf resetWord s.regs = true) (h : b ≠ a) : (s.wr a v).rd b = s.rd b := by
  rw [rd_wr s a b v w, if_neg h]

theorem regs_wr (s : State) (a : Nat) (v : Word) (w : swf resetWord s.regs = true) : swf resetWord (s.wr a v).regs = true :=
  swf_sset resetWord s.regs a v w

/-! ## The canonical form of a state -/

theorem canon_parts {s : State} (h : s.canon = true) : s.mem.wf = true ∧ swf resetWord s.regs = true := by
  simpa [State.canon] using h

theorem canon_wr (s : State) (a : Nat) (v : Word) (h : s.canon = true) : (s.wr a v).canon = true := by
  obtain ⟨h1, h2⟩ := canon_parts h
  simp only [State.canon, Bool.and_eq_true]
  exact ⟨h1, regs_wr s a v h2⟩

theorem canon_setBytes (s : State) (a : Nat) (l : List Byte) (h : s.canon = true) : (s.setBytes a l).canon = true := by
  obtain ⟨h1, h2⟩ := canon_parts h
  simp only [State.canon, Bool.and_eq_true]
  exact ⟨wf_putBytes l s.mem a h1, h2⟩

theorem canon_zeroRange (s : State) (lo hi : Nat) (h : s.canon = true) : (s.zeroRange lo hi).canon = true := by
  obtain ⟨h1, h2⟩ := canon_parts h
  simp only [State.canon, Bool.and_eq_true]
  exact ⟨wf_sclear s.mem lo hi h1, h2⟩

/-- Memory as a reset keeps it is canonical. -/
theorem wf_keptMemory (s : State) (h : s.mem.wf = true) : (keptMemory s).wf = true := by
  unfold keptMemory
  refine swfFrom_filter memDefault _ _ 0 ?_
  split
  · exact wf_putBytes _ _ _ h
  · exact h

/-! ## Bit fields -/

theorem bitOf_setFld (w : Word) (hi lo v k : Nat) (hh : hi < 32) (hl : lo ≤ hi) :
    bitOf (setFld w hi lo v) k = if lo ≤ k ∧ k ≤ hi then v.testBit (k - lo) else bitOf w k := by
  by_cases hk : k < 32
  · simp only [bitOf, setFld, BitVec.getLsbD_or, BitVec.getLsbD_and, BitVec.getLsbD_not, BitVec.getLsbD_ofNat, hk, decide_true,
      Bool.true_and, Nat.testBit_mul_two_pow, Nat.testBit_two_pow_sub_one]
    by_cases h : lo ≤ k ∧ k ≤ hi
    · have h1 : k - lo < hi + 1 - lo := by omega
      simp [h, h1]
    · rw [if_neg h]
      by_cases h2 : lo ≤ k
      · have h1 : ¬ (k - lo < hi + 1 - lo) := by omega
        simp [h1]
      · simp [h2]
  · have h : ¬ (lo ≤ k ∧ k ≤ hi) := by omega
    rw [if_neg h]
    simp only [bitOf]
    rw [BitVec.getLsbD_of_ge _ _ (by omega), BitVec.getLsbD_of_ge _ _ (by omega)]

theorem testBit_fld (w : Word) (hi lo k : Nat) : (fld w hi lo).testBit k = (decide (k < hi + 1 - lo) && bitOf w (lo + k)) := by
  simp only [fld, bitOf, BitVec.getLsbD, Nat.testBit_mod_two_pow, Nat.testBit_div_two_pow]
  rw [Nat.add_comm k lo]

/-- The field just set. -/
theorem fld_setFld (w : Word) (hi lo v : Nat) (hh : hi < 32) (hl : lo ≤ hi) : fld (setFld w hi lo v) hi lo = v % 2 ^ (hi + 1 - lo) := by
  refine Nat.eq_of_testBit_eq fun k => ?_
  rw [testBit_fld, bitOf_setFld w hi lo v _ hh hl, Nat.testBit_mod_two_pow]
  by_cases h : k < hi + 1 - lo
  · rw [if_pos (by omega)]; simp
  · simp [h]

/-- A field apart from the one just set. -/
theorem fld_setFld_other (w : Word) (hi lo v hi2 lo2 : Nat) (hh : hi < 32) (hl : lo ≤ hi) (h : hi2 < lo ∨ hi < lo2) :
    fld (setFld w hi lo v) hi2 lo2 = fld w hi2 lo2 := by
  refine Nat.eq_of_testBit_eq fun k => ?_
  rw [testBit_fld, testBit_fld, bitOf_setFld w hi lo v _ hh hl]
  by_cases hk : k < hi2 + 1 - lo2
  · rw [if_neg (by omega)]
  · simp [hk]

/-! ## The bytes of a buffer -/

/-- Bytes read back from a sparse list are those that stand there. -/
theorem sparseBytes_eq (m : Memory) : ∀ (n off : Nat) (l : List Byte), l.length = n →
    (∀ k, k < n → sget memDefault m (off + k) = l.getD k 0) → sparseBytes m off n = l
  | 0, _, [], _, _ => rfl
  | n + 1, off, b :: r, hl, h => by
    rw [sparseBytes, sparseBytes_eq m n (off + 1) r (by simpa using hl) fun k hk => ?_]
    · simpa using h 0 (by omega)
    · simpa [Nat.add_assoc, Nat.add_comm 1 k] using h (k + 1) (by omega)

/-- A buffer filled with some bytes holds them. -/
theorem bytes_bufOf (l : List Byte) : (bufOf l).bytes = l := by
  refine sparseBytes_eq _ _ 0 l rfl fun k h => ?_
  have h' : k < l.length := h
  rw [bufOf, sget_putBytes l [] 0 _ rfl]
  simp [h']

end Sys2Proof.Machine
end

