-- ==== Sys2Proof/Laws/Keeps/Base.lean ====
section
/-! SUPPORT. The relation that every function of the model establishes between the state it takes and the state it answers: the queue of
commands is the same, and memory and registers that were in canonical form still are. -/

namespace Sys2Proof.Machine

/-- The queue is as it was, and the canonical form is kept. -/
structure Keeps (s t : State) : Prop where
  pending : t.pending = s.pending
  canon   : s.canon = true → t.canon = true

theorem Keeps.refl (s : State) : Keeps s s := ⟨rfl, id⟩

theorem Keeps.trans {r s t : State} (h : Keeps r s) (k : Keeps s t) : Keeps r t :=
  ⟨k.pending.trans h.pending, fun c => k.canon (h.canon c)⟩

/-- An outcome is a next state that keeps both. -/
def KeepsO (s : State) (r : Host.Outcome State Fault Refusal) : Prop := ∃ t, r = .next t ∧ Keeps s t

theorem keepsO_next {s t : State} (h : Keeps s t) : KeepsO s (.next t) := ⟨t, rfl, h⟩

theorem keepsO_ite {r : State} {a b : Host.Outcome State Fault Refusal} {c : Prop} [Decidable c] (h : c → KeepsO r a)
    (k : ¬c → KeepsO r b) : KeepsO r (if c then a else b) := by
  by_cases hc : c
  · rw [if_pos hc]; exact h hc
  · rw [if_neg hc]; exact k hc

theorem keeps_of_eq {α : Type} {r t : State} {p : α × State} {a : α} (h : p = (a, t)) (k : Keeps r p.2) : Keeps r t := by
  subst h; exact k

theorem keeps_of_eq3 {α β : Type} {r t : State} {p : α × β × State} {a : α} {b : β} (h : p = (a, b, t)) (k : Keeps r p.2.2) :
    Keeps r t := by
  subst h; exact k

theorem keeps_ite {r a b : State} {c : Prop} [Decidable c] (h : c → Keeps r a) (k : ¬c → Keeps r b) : Keeps r (if c then a else b) := by
  by_cases hc : c
  · rw [if_pos hc]; exact h hc
  · rw [if_neg hc]; exact k hc

theorem keeps_ite2 {α : Type} {r : State} {a b : α × State} {c : Prop} [Decidable c] (h : c → Keeps r a.2) (k : ¬c → Keeps r b.2) :
    Keeps r (if c then a else b).2 := by
  by_cases hc : c
  · rw [if_pos hc]; exact h hc
  · rw [if_neg hc]; exact k hc

theorem keeps_ite3 {α β : Type} {r : State} {a b : α × β × State} {c : Prop} [Decidable c] (h : c → Keeps r a.2.2)
    (k : ¬c → Keeps r b.2.2) : Keeps r (if c then a else b).2.2 := by
  by_cases hc : c
  · rw [if_pos hc]; exact h hc
  · rw [if_neg hc]; exact k hc

theorem keeps_foldl {α : Type} {r : State} (f : State → α → State) (l : List α) (s : State) (hf : ∀ t x, Keeps t (f t x))
    (h : Keeps r s) : Keeps r (l.foldl f s) := by
  induction l generalizing s with
  | nil => exact h
  | cons x l ih => exact ih _ (h.trans (hf s x))

theorem keeps_foldl2 {α β : Type} {r : State} (f : β × State → α → β × State) (l : List α) (p : β × State)
    (hf : ∀ q x, Keeps q.2 (f q x).2) (h : Keeps r p.2) : Keeps r (l.foldl f p).2 := by
  induction l generalizing p with
  | nil => exact h
  | cons x l ih => exact ih _ (h.trans (hf p x))

theorem keeps_modCt {r s : State} {f} (h : Keeps r s) : Keeps r (s.modCt f) := ⟨h.pending, h.canon⟩
theorem keeps_modCtArmed {r s : State} {f} (h : Keeps r s) : Keeps r (s.modCtArmed f) := ⟨h.pending, h.canon⟩
theorem keeps_modFree {r s : State} {f} (h : Keeps r s) : Keeps r (s.modFree f) := ⟨h.pending, h.canon⟩
theorem keeps_modOut {r s : State} {f} (h : Keeps r s) : Keeps r (s.modOut f) := ⟨h.pending, h.canon⟩
theorem keeps_modPower {r s : State} {f} (h : Keeps r s) : Keeps r (s.modPower f) := ⟨h.pending, h.canon⟩
theorem keeps_modRst {r s : State} {f} (h : Keeps r s) : Keeps r (s.modRst f) := ⟨h.pending, h.canon⟩
theorem keeps_modCore {r s : State} {f} (h : Keeps r s) : Keeps r (s.modCore f) := ⟨h.pending, h.canon⟩
theorem keeps_modMs {r s : State} {f} (h : Keeps r s) : Keeps r (s.modMs f) := ⟨h.pending, h.canon⟩
theorem keeps_modMram {r s : State} {f} (h : Keeps r s) : Keeps r (s.modMram f) := ⟨h.pending, h.canon⟩
theorem keeps_modQueues {r s : State} {f} (h : Keeps r s) : Keeps r (s.modQueues f) := ⟨h.pending, h.canon⟩
theorem keeps_modGate {r s : State} {f} (h : Keeps r s) : Keeps r (s.modGate f) := ⟨h.pending, h.canon⟩
theorem keeps_modErr {r s : State} {f} (h : Keeps r s) : Keeps r (s.modErr f) := ⟨h.pending, h.canon⟩
theorem keeps_modLanes {r s : State} {f} (h : Keeps r s) : Keeps r (s.modLanes f) := ⟨h.pending, h.canon⟩
theorem keeps_modHost {r s : State} {f} (h : Keeps r s) : Keeps r (s.modHost f) := ⟨h.pending, h.canon⟩
theorem keeps_modPav {r s : State} {f} (h : Keeps r s) : Keeps r (s.modPav f) := ⟨h.pending, h.canon⟩
theorem keeps_modFe {r s : State} {f} (h : Keeps r s) : Keeps r (s.modFe f) := ⟨h.pending, h.canon⟩
theorem keeps_modSht {r s : State} {f} (h : Keeps r s) : Keeps r (s.modSht f) := ⟨h.pending, h.canon⟩
theorem keeps_modNuc {r s : State} {f} (h : Keeps r s) : Keeps r (s.modNuc f) := ⟨h.pending, h.canon⟩
theorem keeps_modTdi {r s : State} {f} (h : Keeps r s) : Keeps r (s.modTdi f) := ⟨h.pending, h.canon⟩
theorem keeps_modCal {r s : State} {f} (h : Keeps r s) : Keeps r (s.modCal f) := ⟨h.pending, h.canon⟩
theorem keeps_modFab {r s : State} {f} (h : Keeps r s) : Keeps r (s.modFab f) := ⟨h.pending, h.canon⟩
theorem keeps_modVis {r s : State} {f} (h : Keeps r s) : Keeps r (s.modVis f) := ⟨h.pending, h.canon⟩
theorem keeps_modKey {r s : State} {f} (h : Keeps r s) : Keeps r (s.modKey f) := ⟨h.pending, h.canon⟩
theorem keeps_modEng {r s : State} {f} (h : Keeps r s) : Keeps r (s.modEng f) := ⟨h.pending, h.canon⟩
theorem keeps_modEj {r s : State} {f} (h : Keeps r s) : Keeps r (s.modEj f) := ⟨h.pending, h.canon⟩
theorem keeps_modRing {r s : State} {f} (h : Keeps r s) : Keeps r (s.modRing f) := ⟨h.pending, h.canon⟩
theorem keeps_modMet {r s : State} {f} (h : Keeps r s) : Keeps r (s.modMet f) := ⟨h.pending, h.canon⟩
theorem keeps_modFw {r s : State} {f} (h : Keeps r s) : Keeps r (s.modFw f) := ⟨h.pending, h.canon⟩
theorem keeps_modSvc {r s : State} {f} (h : Keeps r s) : Keeps r (s.modSvc f) := ⟨h.pending, h.canon⟩

theorem keeps_State_wr {r : State} (s : State) (a : Nat) (v : Word) (h : Keeps r s) : Keeps r (s.wr a v) :=
  ⟨h.pending, fun c => canon_wr s a v (h.canon c)⟩

theorem keeps_State_setBytes {r : State} (s : State) (a : Nat) (l : List Byte) (h : Keeps r s) : Keeps r (s.setBytes a l) :=
  ⟨h.pending, fun c => canon_setBytes s a l (h.canon c)⟩

theorem keeps_State_zeroRange {r : State} (s : State) (lo hi : Nat) (h : Keeps r s) : Keeps r (s.zeroRange lo hi) :=
  ⟨h.pending, fun c => canon_zeroRange s lo hi (h.canon c)⟩

end Sys2Proof.Machine
end

