-- ==== Sys2Proof/Laws/Keeps/Ops.lean ====
section
/-! SUPPORT. What the functions of `Machine/Ops.lean` keep: the queue of commands, and the canonical form of memory and registers. -/

set_option linter.unusedTactic false
set_option linter.unreachableTactic false

namespace Sys2Proof.Machine

theorem keeps_State_wrf {z0 : State} (s : State) (a : Nat) (hi : Nat) (lo : Nat) (v : Nat) (hk : Keeps z0 s) : Keeps z0
    (State.wrf s a hi lo v) := by
  delta State.wrf
  repeat' first
    | with_reducible
        first
          | assumption | exact Keeps.refl _ | apply keeps_State_wr
    | intro _
    | split
    | dsimp only

theorem keeps_State_wrb {z0 : State} (s : State) (a : Nat) (k : Nat) (b : Bool) (hk : Keeps z0 s) : Keeps z0 (State.wrb s
    a k b) := by
  delta State.wrb
  repeat' first
    | with_reducible
        first
          | assumption | exact Keeps.refl _ | apply keeps_State_wrf
    | intro _
    | split
    | dsimp only

theorem keeps_State_bump {z0 : State} (s : State) (a : Nat) (hi : Nat) (lo : Nat) (by' : Nat) (hk : Keeps z0 s) : Keeps z0
    (State.bump s a hi lo by') := by
  delta State.bump
  repeat' first
    | with_reducible
        first
          | assumption | exact Keeps.refl _ | apply keeps_State_wrf
    | intro _
    | split
    | dsimp only

theorem keeps_State_wr64 {z0 : State} (s : State) (lo : Nat) (hi : Nat) (v : Nat) (hk : Keeps z0 s) : Keeps z0 (State.wr64
    s lo hi v) := by
  delta State.wr64
  repeat' first
    | with_reducible
        first
          | assumption | exact Keeps.refl _ | apply keeps_State_wr
    | intro _
    | split
    | dsimp only

theorem keeps_State_emit {z0 : State} (s : State) (o : Output) (hk : Keeps z0 s) : Keeps z0 (State.emit s o) := by
  delta State.emit
  repeat' first
    | with_reducible
        first
          | assumption | exact Keeps.refl _ | apply keeps_modOut
    | intro _
    | split
    | dsimp only

theorem keeps_State_resp {z0 : State} (s : State) (m : Master) (data : List Byte) (err : Half) (hk : Keeps z0 s) : Keeps
    z0 (State.resp s m data err) := by
  delta State.resp
  repeat' first
    | with_reducible
        first
          | assumption | exact Keeps.refl _ | apply keeps_State_emit
    | intro _
    | split
    | dsimp only

theorem keeps_State_drawWord {z0 : State} (s : State) (hk : Keeps z0 s) : Keeps z0 (State.drawWord s).2 := by
  delta State.drawWord
  repeat' first
    | with_reducible
        first
          | assumption | exact Keeps.refl _ | apply keeps_modFree
    | intro _
    | split
    | dsimp only

theorem keeps_State_drawDWord {z0 : State} (s : State) (hk : Keeps z0 s) : Keeps z0 (State.drawDWord s).2 := by
  delta State.drawDWord
  repeat' first
    | with_reducible
        first
          | assumption | exact Keeps.refl _ | apply keeps_modFree
    | intro _
    | split
    | dsimp only

theorem keeps_State_drawNat {z0 : State} (s : State) (hk : Keeps z0 s) : Keeps z0 (State.drawNat s).2 := by
  delta State.drawNat
  repeat' first
    | with_reducible
        first
          | assumption | exact Keeps.refl _ | apply keeps_modFree
    | intro _
    | split
    | dsimp only

theorem keeps_State_drawBytes {z0 : State} (s : State) (n : Nat) (hk : Keeps z0 s) : Keeps z0 (State.drawBytes s n).2 :=
    by
  delta State.drawBytes
  repeat' first
    | with_reducible
        first
          | assumption | exact Keeps.refl _ | apply keeps_modFree
    | intro _
    | split
    | dsimp only

theorem keeps_State_stepCt {z0 : State} (s : State) (f : CTime → CTime) (hk : Keeps z0 s) : Keeps z0 (State.stepCt s f) :=
    by
  delta State.stepCt
  repeat' first
    | with_reducible
        first
          | assumption | exact Keeps.refl _ | apply keeps_modCt | apply keeps_modHost
    | intro _
    | split
    | dsimp only

theorem keeps_whenLive {z0 : State} (s : State) (f : State → State) (hf : ∀ x0, Keeps x0 (f x0)) (hk : Keeps z0 s) : Keeps
    z0 (whenLive s f) := by
  delta whenLive
  repeat' first
    | with_reducible
        first
          | assumption | exact Keeps.refl _ | apply keeps_ite | apply keeps_ite2 | apply keeps_ite3
          | refine Keeps.trans ?_ (hf _)
    | intro _
    | split
    | dsimp only

theorem keeps_whenB {z0 : State} (c : Bool) (s : State) (f : State → State) (hf : ∀ x0, Keeps x0 (f x0)) (hk : Keeps z0 s)
    : Keeps z0 (whenB c s f) := by
  delta whenB
  repeat' first
    | with_reducible
        first
          | assumption | exact Keeps.refl _ | apply keeps_ite | apply keeps_ite2 | apply keeps_ite3
          | refine Keeps.trans ?_ (hf _)
    | intro _
    | split
    | dsimp only

end Sys2Proof.Machine
end

