-- ==== Sys2Proof/Laws/Keeps/Errors.lean ====
section
/-! SUPPORT. What the functions of `Machine/Errors.lean` keep: the queue of commands, and the canonical form of memory and registers. -/

set_option linter.unusedTactic false
set_option linter.unreachableTactic false

namespace Sys2Proof.Machine

theorem keeps_postEvent {z0 : State} (s : State) (code : Half) (lane : Nat) (body : List Byte) (hk : Keeps z0 s) : Keeps
    z0 (postEvent s code lane body) := by
  delta postEvent
  repeat' first
    | with_reducible
        first
          | assumption | exact Keeps.refl _ | apply keeps_ite | apply keeps_ite2 | apply keeps_ite3
          | apply keeps_modHost | apply keeps_modRing | apply keeps_State_emit
    | intro _
    | split
    | dsimp only

theorem keeps_latchError {z0 : State} (s : State) (code : Half) (src : Byte) (detail : DWord) (hk : Keeps z0 s) : Keeps z0
    (latchError s code src detail) := by
  delta latchError
  repeat' first
    | with_reducible
        first
          | assumption | exact Keeps.refl _ | apply keeps_ite | apply keeps_ite2 | apply keeps_ite3
          | apply keeps_modFw | apply keeps_State_wr | apply keeps_State_wrb | apply keeps_State_bump
          | apply keeps_State_wr64
    | intro _
    | split
    | dsimp only

theorem keeps_State_modLane {z0 : State} (s : State) (p : Nat) (f : Lane → Lane) (hk : Keeps z0 s) : Keeps z0
    (State.modLane s p f) := by
  delta State.modLane
  repeat' first
    | with_reducible
        first
          | assumption | exact Keeps.refl _ | apply keeps_ite | apply keeps_ite2 | apply keeps_ite3
          | apply keeps_modLanes
    | intro _
    | split
    | dsimp only

theorem keeps_setLane {z0 : State} (s : State) (p : Nat) (st : LaneState) (cause : Half) (hk : Keeps z0 s) : Keeps z0
    (setLane s p st cause) := by
  delta setLane
  repeat' first
    | with_reducible
        first
          | assumption | exact Keeps.refl _ | apply keeps_ite | apply keeps_ite2 | apply keeps_ite3
          | apply keeps_modLanes | apply keeps_modRing | apply keeps_modFw | apply keeps_postEvent
          | apply keeps_State_modLane
    | intro _
    | split
    | dsimp only

theorem keeps_ownLaneFault {z0 : State} (s : State) (cause : Half) (f : LaneFaults → LaneFaults) (hk : Keeps z0 s) : Keeps
    z0 (ownLaneFault s cause f) := by
  delta ownLaneFault
  repeat' first
    | with_reducible
        first
          | assumption | exact Keeps.refl _ | apply keeps_ite | apply keeps_ite2 | apply keeps_ite3
          | apply keeps_State_modLane | apply keeps_setLane
    | intro _
    | split
    | dsimp only

theorem keeps_State_modEjp {z0 : State} (s : State) (n : Nat) (f : EjPort → EjPort) (hk : Keeps z0 s) : Keeps z0
    (State.modEjp s n f) := by
  delta State.modEjp
  repeat' first
    | with_reducible
        first
          | assumption | exact Keeps.refl _ | apply keeps_ite | apply keeps_ite2 | apply keeps_ite3
          | apply keeps_modEj
    | intro _
    | split
    | dsimp only

theorem keeps_ejDiscard {z0 : State} (s : State) (n : Nat) (hk : Keeps z0 s) : Keeps z0 (ejDiscard s n) := by
  delta ejDiscard
  repeat' first
    | with_reducible
        first
          | assumption | exact Keeps.refl _ | apply keeps_modEj | apply keeps_State_bump | apply keeps_State_modEjp
    | intro _
    | split
    | dsimp only

theorem keeps_setPermit {z0 : State} (s : State) (hk : Keeps z0 s) : Keeps z0 (setPermit s) := by
  delta setPermit
  repeat' first
    | with_reducible
        first
          | assumption | exact Keeps.refl _ | apply keeps_ite | apply keeps_ite2 | apply keeps_ite3
          | apply keeps_modPower
    | intro _
    | split
    | dsimp only

theorem keeps_ejDisarm {z0 : State} (s : State) (hk : Keeps z0 s) : Keeps z0 (ejDisarm s) := by
  delta ejDisarm
  repeat' first
    | with_reducible
        first
          | assumption | exact Keeps.refl _ | apply keeps_foldl | apply keeps_foldl2 | apply keeps_modEj
          | apply keeps_State_wrb | apply keeps_State_modEjp | apply keeps_ejDiscard | apply keeps_setPermit
    | intro _
    | split
    | dsimp only

theorem keeps_cellsStop {z0 : State} (s : State) (hk : Keeps z0 s) : Keeps z0 (cellsStop s) := by
  delta cellsStop
  repeat' first
    | with_reducible
        first
          | assumption | exact Keeps.refl _ | apply keeps_foldl | apply keeps_foldl2 | apply keeps_modFab
          | apply keeps_State_wrb
    | intro _
    | split
    | dsimp only

theorem keeps_loadAbandon {z0 : State} (s : State) (hk : Keeps z0 s) : Keeps z0 (loadAbandon s) := by
  delta loadAbandon
  repeat' first
    | with_reducible
        first
          | assumption | exact Keeps.refl _ | apply keeps_ite | apply keeps_ite2 | apply keeps_ite3
          | apply keeps_modFab | apply keeps_State_wrf
    | intro _
    | split
    | refine keeps_of_eq (by assumption) ?_
    | refine keeps_of_eq3 (by assumption) ?_
    | dsimp only

theorem keeps_safeEffects {z0 : State} (s : State) (cause : Half) (hk : Keeps z0 s) : Keeps z0 (safeEffects s cause) := by
  delta safeEffects
  repeat' first
    | with_reducible
        first
          | assumption | exact Keeps.refl _ | apply keeps_setLane | apply keeps_ejDisarm | apply keeps_cellsStop
          | apply keeps_loadAbandon
    | intro _
    | split
    | dsimp only

theorem keeps_enterSafe {z0 : State} (s : State) (cause : Half) (hk : Keeps z0 s) : Keeps z0 (enterSafe s cause) := by
  delta enterSafe
  repeat' first
    | with_reducible
        first
          | assumption | exact Keeps.refl _ | apply keeps_ite | apply keeps_ite2 | apply keeps_ite3
          | apply keeps_State_wrf | apply keeps_State_wrb | apply keeps_latchError | apply keeps_safeEffects
    | intro _
    | split
    | dsimp only

theorem keeps_countSecurity {z0 : State} (s : State) (hk : Keeps z0 s) : Keeps z0 (countSecurity s) := by
  delta countSecurity
  repeat' first
    | with_reducible
        first
          | assumption | exact Keeps.refl _ | apply keeps_modPav
    | intro _
    | split
    | dsimp only

theorem keeps_raise {z0 : State} (s : State) (code : Half) (src : Byte) (detail : DWord) (hk : Keeps z0 s) : Keeps z0
    (raise s code src detail) := by
  delta raise
  repeat' first
    | with_reducible
        first
          | assumption | exact Keeps.refl _ | apply keeps_ite | apply keeps_ite2 | apply keeps_ite3
          | apply keeps_latchError | apply keeps_enterSafe | apply keeps_countSecurity
    | intro _
    | split
    | dsimp only

theorem keeps_raiseMany {z0 : State} (s : State) (l : List Raise) (hk : Keeps z0 s) : Keeps z0 (raiseMany s l) := by
  delta raiseMany
  repeat' first
    | with_reducible
        first
          | assumption | exact Keeps.refl _ | apply keeps_foldl | apply keeps_foldl2 | apply keeps_ite
          | apply keeps_ite2 | apply keeps_ite3 | apply keeps_modFree | apply keeps_State_wrf | apply keeps_State_wrb
          | apply keeps_latchError | apply keeps_safeEffects | apply keeps_countSecurity
    | intro _
    | split
    | dsimp only

end Sys2Proof.Machine
end

