-- ==== Sys2Proof/Laws/Keeps/Gates.lean ====
section
/-! SUPPORT. What the functions of `Machine/Gates.lean` keep: the queue of commands, and the canonical form of memory and registers. -/

set_option linter.unusedTactic false
set_option linter.unreachableTactic false

namespace Sys2Proof.Machine

theorem keeps_recordFault {z0 : State} (s : State) (g : Nat) (addr : Nat) (info : Nat) (hk : Keeps z0 s) : Keeps z0
    (recordFault s g addr info) := by
  delta recordFault
  repeat' first
    | with_reducible
        first
          | assumption | exact Keeps.refl _ | apply keeps_ite | apply keeps_ite2 | apply keeps_ite3
          | apply keeps_modPav | apply keeps_State_wr | apply keeps_State_bump
    | intro _
    | split
    | dsimp only

theorem keeps_refuseAccess {z0 : State} (s : State) (acc : Access) (code : Half) (hk : Keeps z0 s) : Keeps z0
    (refuseAccess s acc code) := by
  delta refuseAccess
  repeat' first
    | with_reducible
        first
          | assumption | exact Keeps.refl _ | apply keeps_ite | apply keeps_ite2 | apply keeps_ite3
          | apply keeps_raise | apply keeps_recordFault
    | intro _
    | split
    | dsimp only

theorem keeps_impreciseNotice {z0 : State} (s : State) (acc : Access) (code : Half) (src : Byte) (hk : Keeps z0 s) : Keeps
    z0 (impreciseNotice s acc code src) := by
  delta impreciseNotice
  repeat' first | (with_reducible first | assumption | exact Keeps.refl _ | apply keeps_raise) | intro _ | split | dsimp only

theorem keeps_refusedResp {z0 : State} (s : State) (acc : Access) (code : Half) (hk : Keeps z0 s) : Keeps z0 (refusedResp
    s acc code) := by
  delta refusedResp
  repeat' first
    | with_reducible
        first
          | assumption | exact Keeps.refl _ | apply keeps_ite | apply keeps_ite2 | apply keeps_ite3
          | apply keeps_State_resp
    | intro _
    | split
    | dsimp only

theorem keeps_gated {z0 : State} (s : State) (acc : Access) (f : State → State) (hf : ∀ x0, Keeps x0 (f x0)) (hk : Keeps
    z0 s) : Keeps z0 (gated s acc f) := by
  delta gated
  repeat' first
    | with_reducible
        first
          | assumption | exact Keeps.refl _ | apply keeps_ite | apply keeps_ite2 | apply keeps_ite3
          | apply keeps_refuseAccess | apply keeps_refusedResp | refine Keeps.trans ?_ (hf _)
    | intro _
    | split
    | refine keeps_of_eq (by assumption) ?_
    | refine keeps_of_eq3 (by assumption) ?_
    | dsimp only

end Sys2Proof.Machine
end

