-- ==== Sys2Proof/Laws/Keeps/Sram.lean ====
section
/-! SUPPORT. What the functions of `Machine/Sram.lean` keep: the queue of commands, and the canonical form of memory and registers. -/

set_option linter.unusedTactic false
set_option linter.unreachableTactic false

namespace Sys2Proof.Machine

theorem keeps_sramCorrected {z0 : State} (s : State) (w : Nat) (hk : Keeps z0 s) : Keeps z0 (sramCorrected s w) := by
  delta sramCorrected
  repeat' first
    | with_reducible
        first
          | assumption | exact Keeps.refl _ | apply keeps_ite | apply keeps_ite2 | apply keeps_ite3
          | apply keeps_State_bump | apply keeps_raise
    | intro _
    | split
    | dsimp only

theorem keeps_sramPoison {z0 : State} (s : State) (w : Nat) (hk : Keeps z0 s) : Keeps z0 (sramPoison s w) := by
  delta sramPoison
  repeat' first
    | with_reducible
        first
          | assumption | exact Keeps.refl _ | apply keeps_ite | apply keeps_ite2 | apply keeps_ite3
          | apply keeps_modMs | apply keeps_State_wr | apply keeps_raise
    | intro _
    | split
    | dsimp only

theorem keeps_sramCheck {z0 : State} (s : State) (w : Nat) (bits : Nat) (hk : Keeps z0 s) : Keeps z0 (sramCheck s w bits)
    := by
  delta sramCheck
  repeat' first
    | with_reducible
        first
          | assumption | exact Keeps.refl _ | apply keeps_ite | apply keeps_ite2 | apply keeps_ite3
          | apply keeps_sramCorrected | apply keeps_sramPoison
    | intro _
    | split
    | dsimp only

theorem keeps_sramReadWord {z0 : State} (s : State) (w : Nat) (bits : Nat) (hk : Keeps z0 s) : Keeps z0 (sramReadWord s w
    bits).2.2 := by
  delta sramReadWord
  repeat' first
    | with_reducible
        first
          | assumption | exact Keeps.refl _ | apply keeps_ite | apply keeps_ite3 | apply keeps_State_bump
          | apply keeps_sramCheck
    | intro _
    | split
    | dsimp only

theorem keeps_sramReadWords {z0 : State} (s : State) (found : List Upset) (y0 : Nat) (y1 : Nat) (hk : Keeps z0 s) : Keeps
    z0 (sramReadWords s found y0 y1).2.2 := by
  induction y1 generalizing s y0 with
  | zero =>
    unfold sramReadWords
    repeat' first
      | with_reducible
          first
            | assumption | exact Keeps.refl _ | apply keeps_ite | apply keeps_ite3 | apply keeps_sramReadWord
      | intro _
      | split
      | refine keeps_of_eq (by assumption) ?_
      | refine keeps_of_eq3 (by assumption) ?_
      | dsimp only
  | succ n ih =>
    unfold sramReadWords
    repeat' first
      | with_reducible
          first
            | assumption | exact Keeps.refl _ | apply keeps_ite | apply keeps_ite3 | apply keeps_sramReadWord | apply ih
      | intro _
      | split
      | refine keeps_of_eq (by assumption) ?_
      | refine keeps_of_eq3 (by assumption) ?_
      | dsimp only

theorem keeps_sramRead {z0 : State} (s : State) (found : List Upset) (addr : Nat) (len : Nat) (hk : Keeps z0 s) : Keeps z0
    (sramRead s found addr len).2.2 := by
  delta sramRead
  repeat' first
    | with_reducible
        first
          | assumption | exact Keeps.refl _ | apply keeps_sramReadWords
    | intro _
    | split
    | refine keeps_of_eq (by assumption) ?_
    | refine keeps_of_eq3 (by assumption) ?_
    | dsimp only

theorem keeps_sramWriteWord {z0 : State} (s : State) (w : Nat) (off : Nat) (data : List Byte) (bits : Nat) (hk : Keeps z0
    s) : Keeps z0 (sramWriteWord s w off data bits).2 := by
  delta sramWriteWord
  repeat' first
    | with_reducible
        first
          | assumption | exact Keeps.refl _ | apply keeps_ite | apply keeps_ite2 | apply keeps_modMs
          | apply keeps_State_setBytes | apply keeps_sramCheck
    | intro _
    | split
    | dsimp only

theorem keeps_sramWriteWords {z0 : State} (s : State) (found : List Upset) (y0 : Nat) (y1 : Nat) (y2 : List Byte) (hk :
    Keeps z0 s) : Keeps z0 (sramWriteWords s found y0 y1 y2).2 := by
  induction y0 generalizing s y1 y2 with
  | zero =>
    unfold sramWriteWords
    repeat' first
      | with_reducible
          first
            | assumption | exact Keeps.refl _ | apply keeps_ite | apply keeps_ite2 | apply keeps_sramWriteWord
      | intro _
      | split
      | refine keeps_of_eq (by assumption) ?_
      | refine keeps_of_eq3 (by assumption) ?_
      | dsimp only
  | succ n ih =>
    unfold sramWriteWords
    repeat' first
      | with_reducible
          first
            | assumption | exact Keeps.refl _ | apply keeps_ite | apply keeps_ite2 | apply keeps_sramWriteWord
            | apply ih
      | intro _
      | split
      | refine keeps_of_eq (by assumption) ?_
      | refine keeps_of_eq3 (by assumption) ?_
      | dsimp only

theorem keeps_sramWrite {z0 : State} (s : State) (m : Master) (found : List Upset) (addr : Nat) (data : List Byte) (hk :
    Keeps z0 s) : Keeps z0 (sramWrite s m found addr data) := by
  delta sramWrite
  repeat' first
    | with_reducible
        first
          | assumption | exact Keeps.refl _ | apply keeps_ite | apply keeps_ite2 | apply keeps_ite3
          | apply keeps_State_resp | apply keeps_impreciseNotice | apply keeps_sramWriteWords
    | intro _
    | split
    | refine keeps_of_eq (by assumption) ?_
    | refine keeps_of_eq3 (by assumption) ?_
    | dsimp only

theorem keeps_performHeld {z0 : State} (s : State) (h : PairHold) (hk : Keeps z0 s) : Keeps z0 (performHeld s h) := by
  delta performHeld
  repeat' first
    | with_reducible
        first
          | assumption | exact Keeps.refl _ | apply keeps_ite | apply keeps_ite2 | apply keeps_ite3
          | apply keeps_State_resp | apply keeps_sramWrite
    | intro _
    | split
    | dsimp only

theorem keeps_flushPairs {z0 : State} (s : State) (m : Master) (addr : Nat) (hk : Keeps z0 s) : Keeps z0 (flushPairs s m
    addr) := by
  delta flushPairs
  repeat' first
    | with_reducible
        first
          | assumption | exact Keeps.refl _ | apply keeps_foldl | apply keeps_foldl2 | apply keeps_modMs
          | apply keeps_performHeld
    | intro _
    | split
    | dsimp only

theorem keeps_holdPair {z0 : State} (s : State) (m : Master) (addr : Nat) (data : List Byte) (hk : Keeps z0 s) : Keeps z0
    (holdPair s m addr data) := by
  delta holdPair
  repeat' first | (with_reducible first | assumption | exact Keeps.refl _ | apply keeps_modMs) | intro _ | split | dsimp only

theorem keeps_dropPair {z0 : State} (s : State) (h : PairHold) (hk : Keeps z0 s) : Keeps z0 (dropPair s h) := by
  delta dropPair
  repeat' first | (with_reducible first | assumption | exact Keeps.refl _ | apply keeps_modMs) | intro _ | split | dsimp only

theorem keeps_sramStore {z0 : State} (s : State) (m : Master) (found : List Upset) (addr : Nat) (data : List Byte) (hk :
    Keeps z0 s) : Keeps z0 (sramStore s m found addr data) := by
  delta sramStore
  repeat' first
    | with_reducible
        first
          | assumption | exact Keeps.refl _ | apply keeps_ite | apply keeps_ite2 | apply keeps_ite3
          | apply keeps_sramWrite | apply keeps_flushPairs | apply keeps_holdPair | apply keeps_dropPair
    | intro _
    | split
    | refine keeps_of_eq (by assumption) ?_
    | refine keeps_of_eq3 (by assumption) ?_
    | dsimp only

theorem keeps_scrubOne {z0 : State} (s : State) (w : Nat) (bits : Nat) (hk : Keeps z0 s) : Keeps z0 (scrubOne s w bits) :=
    by
  delta scrubOne
  repeat' first
    | with_reducible
        first
          | assumption | exact Keeps.refl _ | apply keeps_sramCheck
    | intro _
    | split
    | dsimp only

theorem keeps_scrubBanks {z0 : State} (s : State) (i : Nat) (bits : List Nat) (y0 : Nat) (hk : Keeps z0 s) : Keeps z0
    (scrubBanks s i bits y0) := by
  induction y0 generalizing s with
  | zero =>
    unfold scrubBanks
    repeat' first
      | with_reducible
          first
            | assumption | exact Keeps.refl _ | apply keeps_scrubOne
      | intro _
      | split
      | dsimp only
  | succ n ih =>
    unfold scrubBanks
    repeat' first
      | with_reducible
          first
            | assumption | exact Keeps.refl _ | apply keeps_scrubOne | apply ih
      | intro _
      | split
      | dsimp only

end Sys2Proof.Machine
end

