-- ==== Sys2Proof/Laws/Keeps/Mram.lean ====
section
/-! SUPPORT. What the functions of `Machine/Mram.lean` keep: the queue of commands, and the canonical form of memory and registers. -/

set_option linter.unusedTactic false
set_option linter.unreachableTactic false

namespace Sys2Proof.Machine

theorem keeps_setSectorStatus {z0 : State} (s : State) (sec : Nat) (code : Nat) (hk : Keeps z0 s) : Keeps z0
    (setSectorStatus s sec code) := by
  delta setSectorStatus
  repeat' first
    | with_reducible
        first
          | assumption | exact Keeps.refl _ | apply keeps_modMram
    | intro _
    | split
    | dsimp only

theorem keeps_retireSector {z0 : State} (s : State) (sec : Nat) (hk : Keeps z0 s) : Keeps z0 (retireSector s sec) := by
  delta retireSector
  repeat' first
    | with_reducible
        first
          | assumption | exact Keeps.refl _ | apply keeps_ite | apply keeps_ite2 | apply keeps_ite3
          | apply keeps_modMram | apply keeps_raise
    | intro _
    | split
    | dsimp only

theorem keeps_wearEvaluate {z0 : State} (s : State) (sec : Nat) (corrected : Nat) (hk : Keeps z0 s) : Keeps z0
    (wearEvaluate s sec corrected) := by
  delta wearEvaluate
  repeat' first
    | with_reducible
        first
          | assumption | exact Keeps.refl _ | apply keeps_ite | apply keeps_ite2 | apply keeps_ite3
          | apply keeps_State_wr | apply keeps_raise | apply keeps_retireSector
    | intro _
    | split
    | dsimp only

theorem keeps_wearCount {z0 : State} (s : State) (sec : Nat) (corrected : Nat) (hk : Keeps z0 s) : Keeps z0 (wearCount s
    sec corrected) := by
  delta wearCount
  repeat' first
    | with_reducible
        first
          | assumption | exact Keeps.refl _ | apply keeps_ite | apply keeps_ite2 | apply keeps_ite3
          | apply keeps_modMram | apply keeps_wearEvaluate
    | intro _
    | split
    | refine keeps_of_eq (by assumption) ?_
    | refine keeps_of_eq3 (by assumption) ?_
    | dsimp only

theorem keeps_mramCheck {z0 : State} (s : State) (w : Nat) (bits : Nat) (hk : Keeps z0 s) : Keeps z0 (mramCheck s w
    bits).2 := by
  delta mramCheck
  repeat' first
    | with_reducible
        first
          | assumption | exact Keeps.refl _ | apply keeps_ite | apply keeps_ite2 | apply keeps_modMram
          | apply keeps_State_bump | apply keeps_raise | apply keeps_retireSector | apply keeps_wearCount
    | intro _
    | split
    | dsimp only

theorem keeps_mramReadWord {z0 : State} (s : State) (w : Nat) (bits : Nat) (hk : Keeps z0 s) : Keeps z0 (mramReadWord s w
    bits).2.2 := by
  delta mramReadWord
  repeat' first
    | with_reducible
        first
          | assumption | exact Keeps.refl _ | apply keeps_ite | apply keeps_ite3 | apply keeps_mramCheck
    | intro _
    | split
    | refine keeps_of_eq (by assumption) ?_
    | refine keeps_of_eq3 (by assumption) ?_
    | dsimp only

theorem keeps_mramReadWords {z0 : State} (s : State) (found : List Upset) (y0 : Nat) (y1 : Nat) (hk : Keeps z0 s) : Keeps
    z0 (mramReadWords s found y0 y1).2.2 := by
  induction y1 generalizing s y0 with
  | zero =>
    unfold mramReadWords
    repeat' first
      | with_reducible
          first
            | assumption | exact Keeps.refl _ | apply keeps_ite | apply keeps_ite3 | apply keeps_mramReadWord
      | intro _
      | split
      | refine keeps_of_eq (by assumption) ?_
      | refine keeps_of_eq3 (by assumption) ?_
      | dsimp only
  | succ n ih =>
    unfold mramReadWords
    repeat' first
      | with_reducible
          first
            | assumption | exact Keeps.refl _ | apply keeps_ite | apply keeps_ite3 | apply keeps_mramReadWord | apply ih
      | intro _
      | split
      | refine keeps_of_eq (by assumption) ?_
      | refine keeps_of_eq3 (by assumption) ?_
      | dsimp only

theorem keeps_mramWrite {z0 : State} (s : State) (m : Master) (a : Nat) (data : List Byte) (hk : Keeps z0 s) : Keeps z0
    (mramWrite s m a data) := by
  delta mramWrite
  repeat' first
    | with_reducible
        first
          | assumption | exact Keeps.refl _ | apply keeps_modMram | apply keeps_State_resp
    | intro _
    | split
    | refine keeps_of_eq (by assumption) ?_
    | refine keeps_of_eq3 (by assumption) ?_
    | dsimp only

theorem keeps_mramStoreBytes {z0 : State} (s : State) (a : Nat) (data : List Byte) (hk : Keeps z0 s) : Keeps z0
    (mramStoreBytes s a data).2 := by
  delta mramStoreBytes
  repeat' first
    | with_reducible
        first
          | assumption | exact Keeps.refl _ | apply keeps_ite | apply keeps_ite2 | apply keeps_modMram
          | apply keeps_State_setBytes
    | intro _
    | split
    | dsimp only

theorem keeps_mramEvent {z0 : State} (s : State) (hk : Keeps z0 s) : Keeps z0 (mramEvent s) := by
  delta mramEvent
  repeat' first
    | with_reducible
        first
          | assumption | exact Keeps.refl _ | apply keeps_State_wrb
    | intro _
    | split
    | dsimp only

theorem keeps_startClear {z0 : State} (s : State) (sec : Nat) (m : Master) (hk : Keeps z0 s) : Keeps z0 (startClear s sec
    m) := by
  delta startClear
  repeat' first
    | with_reducible
        first
          | assumption | exact Keeps.refl _ | apply keeps_modMram | apply keeps_setSectorStatus
    | intro _
    | split
    | dsimp only

theorem keeps_clearCommand {z0 : State} (s : State) (m : Master) (cmd : Nat) (sec : Nat) (hk : Keeps z0 s) : Keeps z0
    (clearCommand s m cmd sec) := by
  delta clearCommand
  repeat' first
    | with_reducible
        first
          | assumption | exact Keeps.refl _ | apply keeps_ite | apply keeps_ite2 | apply keeps_ite3
          | apply keeps_modMram | apply keeps_State_resp | apply keeps_setSectorStatus | apply keeps_startClear
    | intro _
    | split
    | refine keeps_of_eq (by assumption) ?_
    | refine keeps_of_eq3 (by assumption) ?_
    | dsimp only

theorem keeps_mramClrWrite {z0 : State} (s : State) (m : Master) (v : Word) (hk : Keeps z0 s) : Keeps z0 (mramClrWrite s m
    v) := by
  delta mramClrWrite
  repeat' first
    | with_reducible
        first
          | assumption | exact Keeps.refl _ | apply keeps_gated | apply keeps_flushPairs | apply keeps_clearCommand
    | intro _
    | split
    | dsimp only

theorem keeps_clearSectorWhole {z0 : State} (s : State) (sec : Nat) (hk : Keeps z0 s) : Keeps z0 (clearSectorWhole s sec)
    := by
  delta clearSectorWhole
  repeat' first
    | with_reducible
        first
          | assumption | exact Keeps.refl _ | apply keeps_modMram | apply keeps_State_zeroRange
          | apply keeps_setSectorStatus
    | intro _
    | split
    | dsimp only

theorem keeps_sparesCheck {z0 : State} (s : State) (hk : Keeps z0 s) : Keeps z0 (sparesCheck s) := by
  delta sparesCheck
  repeat' first
    | with_reducible
        first
          | assumption | exact Keeps.refl _ | apply keeps_ite | apply keeps_ite2 | apply keeps_ite3
          | apply keeps_modCore | apply keeps_raise
    | intro _
    | split
    | dsimp only

end Sys2Proof.Machine
end

