-- ==== Sys2Proof/Laws/Keeps/Queues.lean ====
section
/-! SUPPORT. What the functions of `Machine/Queues.lean` keep: the queue of commands, and the canonical form of memory and registers. -/

set_option linter.unusedTactic false
set_option linter.unreachableTactic false

namespace Sys2Proof.Machine

theorem keeps_State_modQueue {z0 : State} (s : State) (q : Fin 24) (f : Queue → Queue) (hk : Keeps z0 s) : Keeps z0
    (State.modQueue s q f) := by
  delta State.modQueue
  repeat' first
    | with_reducible
        first
          | assumption | exact Keeps.refl _ | apply keeps_modQueues
    | intro _
    | split
    | dsimp only

theorem keeps_seesFull {z0 : State} (s : State) (q : Fin 24) (hk : Keeps z0 s) : Keeps z0 (seesFull s q).2 := by
  delta seesFull
  repeat' first
    | with_reducible
        first
          | assumption | exact Keeps.refl _ | apply keeps_ite | apply keeps_ite2 | apply keeps_State_drawNat
    | intro _
    | split
    | refine keeps_of_eq (by assumption) ?_
    | refine keeps_of_eq3 (by assumption) ?_
    | dsimp only

theorem keeps_visibleCount {z0 : State} (s : State) (q : Fin 24) (hk : Keeps z0 s) : Keeps z0 (visibleCount s q).2 := by
  delta visibleCount
  repeat' first
    | with_reducible
        first
          | assumption | exact Keeps.refl _ | apply keeps_ite | apply keeps_ite2 | apply keeps_State_drawNat
    | intro _
    | split
    | refine keeps_of_eq (by assumption) ?_
    | refine keeps_of_eq3 (by assumption) ?_
    | dsimp only

theorem keeps_pushSlot {z0 : State} (s : State) (q : Fin 24) (e : QEntry) (hk : Keeps z0 s) : Keeps z0 (pushSlot s q e) :=
    by
  delta pushSlot
  repeat' first
    | with_reducible
        first
          | assumption | exact Keeps.refl _ | apply keeps_State_modQueue
    | intro _
    | split
    | dsimp only

theorem keeps_pushAbort {z0 : State} (s : State) (q : Fin 24) (hk : Keeps z0 s) : Keeps z0 (pushAbort s q) := by
  delta pushAbort
  repeat' first
    | with_reducible
        first
          | assumption | exact Keeps.refl _ | apply keeps_State_drawWord | apply keeps_State_modQueue
          | apply keeps_pushSlot
    | intro _
    | split
    | refine keeps_of_eq (by assumption) ?_
    | refine keeps_of_eq3 (by assumption) ?_
    | dsimp only

theorem keeps_countDrop {z0 : State} (s : State) (q : Fin 24) (hk : Keeps z0 s) : Keeps z0 (countDrop s q) := by
  delta countDrop
  repeat' first
    | with_reducible
        first
          | assumption | exact Keeps.refl _ | apply keeps_State_bump | apply keeps_raise
    | intro _
    | split
    | dsimp only

theorem keeps_writeStall {z0 : State} (s : State) (q : Fin 24) (e : QEntry) (hk : Keeps z0 s) : Keeps z0 (writeStall s q
    e) := by
  delta writeStall
  repeat' first
    | with_reducible
        first
          | assumption | exact Keeps.refl _ | apply keeps_ite | apply keeps_ite2 | apply keeps_ite3
          | apply keeps_State_modQueue | apply keeps_seesFull | apply keeps_pushSlot
    | intro _
    | split
    | refine keeps_of_eq (by assumption) ?_
    | refine keeps_of_eq3 (by assumption) ?_
    | dsimp only

theorem keeps_writeDrop {z0 : State} (s : State) (q : Fin 24) (e : QEntry) (hk : Keeps z0 s) : Keeps z0 (writeDrop s q e)
    := by
  delta writeDrop
  repeat' first
    | with_reducible
        first
          | assumption | exact Keeps.refl _ | apply keeps_ite | apply keeps_ite2 | apply keeps_ite3
          | apply keeps_State_modQueue | apply keeps_seesFull | apply keeps_pushSlot | apply keeps_pushAbort
          | apply keeps_countDrop
    | intro _
    | split
    | refine keeps_of_eq (by assumption) ?_
    | refine keeps_of_eq3 (by assumption) ?_
    | dsimp only

theorem keeps_queueWrite {z0 : State} (s : State) (q : Fin 24) (e : QEntry) (hk : Keeps z0 s) : Keeps z0 (queueWrite s q
    e) := by
  delta queueWrite
  repeat' first
    | with_reducible
        first
          | assumption | exact Keeps.refl _ | apply keeps_ite | apply keeps_ite2 | apply keeps_ite3
          | apply keeps_writeStall | apply keeps_writeDrop
    | intro _
    | split
    | dsimp only

theorem keeps_queueWriteAll {z0 : State} (s : State) (q : Fin 24) (l : List QEntry) (hk : Keeps z0 s) : Keeps z0
    (queueWriteAll s q l) := by
  delta queueWriteAll
  repeat' first
    | with_reducible
        first
          | assumption | exact Keeps.refl _ | apply keeps_foldl | apply keeps_foldl2 | apply keeps_queueWrite
    | intro _
    | split
    | dsimp only

theorem keeps_queuePop {z0 : State} (s : State) (q : Fin 24) (hk : Keeps z0 s) : Keeps z0 (queuePop s q).2 := by
  delta queuePop
  repeat' first
    | with_reducible
        first
          | assumption | exact Keeps.refl _ | apply keeps_ite | apply keeps_ite2 | apply keeps_State_modQueue
    | intro _
    | split
    | refine keeps_of_eq (by assumption) ?_
    | refine keeps_of_eq3 (by assumption) ?_
    | dsimp only

theorem keeps_queuePacket {z0 : State} (s : State) (q : Fin 24) (hk : Keeps z0 s) : Keeps z0 (queuePacket s q).2 := by
  delta queuePacket
  repeat' first
    | with_reducible
        first
          | assumption | exact Keeps.refl _ | apply keeps_ite | apply keeps_ite2 | apply keeps_State_modQueue
    | intro _
    | split
    | refine keeps_of_eq (by assumption) ?_
    | refine keeps_of_eq3 (by assumption) ?_
    | dsimp only

theorem keeps_releaseStalled {z0 : State} (s : State) (q : Fin 24) (y0 : List QEntry) (hk : Keeps z0 s) : Keeps z0
    (releaseStalled s q y0) := by
  induction y0 generalizing s with
  | nil =>
    unfold releaseStalled
    repeat' first
      | with_reducible
          first
            | assumption | exact Keeps.refl _ | apply keeps_ite | apply keeps_ite2 | apply keeps_ite3
            | apply keeps_State_modQueue | apply keeps_pushSlot
      | intro _
      | split
      | dsimp only
  | cons hd tl ih =>
    unfold releaseStalled
    repeat' first
      | with_reducible
          first
            | assumption | exact Keeps.refl _ | apply keeps_ite | apply keeps_ite2 | apply keeps_ite3
            | apply keeps_State_modQueue | apply keeps_pushSlot | apply ih
      | intro _
      | split
      | dsimp only

theorem keeps_queueEmpty {z0 : State} (s : State) (q : Fin 24) (hk : Keeps z0 s) : Keeps z0 (queueEmpty s q) := by
  delta queueEmpty
  repeat' first
    | with_reducible
        first
          | assumption | exact Keeps.refl _ | apply keeps_State_modQueue
    | intro _
    | split
    | dsimp only

theorem keeps_qDropEffect {z0 : State} (s : State) (v : Word) (hk : Keeps z0 s) : Keeps z0 (qDropEffect s v) := by
  delta qDropEffect
  repeat' first
    | with_reducible
        first
          | assumption | exact Keeps.refl _ | apply keeps_ite | apply keeps_ite2 | apply keeps_ite3
          | apply keeps_State_modQueue | apply keeps_visibleCount
    | intro _
    | split
    | refine keeps_of_eq (by assumption) ?_
    | refine keeps_of_eq3 (by assumption) ?_
    | dsimp only

theorem keeps_qStatView {z0 : State} (s : State) (q : Fin 24) (hk : Keeps z0 s) : Keeps z0 (qStatView s q).2 := by
  delta qStatView
  repeat' first
    | with_reducible
        first
          | assumption | exact Keeps.refl _ | apply keeps_ite | apply keeps_ite2 | apply keeps_seesFull
          | apply keeps_visibleCount
    | intro _
    | split
    | refine keeps_of_eq (by assumption) ?_
    | refine keeps_of_eq3 (by assumption) ?_
    | dsimp only

end Sys2Proof.Machine
end

