-- ==== Sys2Proof/Laws/Keeps/Ports.lean ====
section
/-! SUPPORT. What the functions of `Machine/Ports.lean` keep: the queue of commands, and the canonical form of memory and registers. -/

set_option linter.unusedTactic false
set_option linter.unreachableTactic false

namespace Sys2Proof.Machine

theorem keeps_State_modCell {z0 : State} (s : State) (c : Nat) (f : CellSt → CellSt) (hk : Keeps z0 s) : Keeps z0
    (State.modCell s c f) := by
  delta State.modCell
  repeat' first
    | with_reducible
        first
          | assumption | exact Keeps.refl _ | apply keeps_ite | apply keeps_ite2 | apply keeps_ite3
          | apply keeps_modFab
    | intro _
    | split
    | dsimp only

theorem keeps_deliver {z0 : State} (s : State) (slots : List (Nat × Nat)) (e : SlotEntry) (hk : Keeps z0 s) : Keeps z0
    (deliver s slots e) := by
  delta deliver
  repeat' first
    | with_reducible
        first
          | assumption | exact Keeps.refl _ | apply keeps_foldl | apply keeps_foldl2 | apply keeps_State_modCell
    | intro _
    | split
    | dsimp only

theorem keeps_recordEntry {z0 : State} (s : State) (p : Nat) (stamp : Word) (hk : Keeps z0 s) : Keeps z0 (recordEntry s p
    stamp) := by
  delta recordEntry
  repeat' first
    | with_reducible
        first
          | assumption | exact Keeps.refl _ | apply keeps_modFab
    | intro _
    | split
    | refine keeps_of_eq (by assumption) ?_
    | refine keeps_of_eq3 (by assumption) ?_
    | dsimp only

theorem keeps_setPortMode {z0 : State} (s : State) (p : Nat) (m : Option Bool) (hk : Keeps z0 s) : Keeps z0 (setPortMode s
    p m) := by
  delta setPortMode
  repeat' first
    | with_reducible
        first
          | assumption | exact Keeps.refl _ | apply keeps_ite | apply keeps_ite2 | apply keeps_ite3
          | apply keeps_modFab
    | intro _
    | split
    | dsimp only

theorem keeps_beginPacket {z0 : State} (s : State) (p : Nat) (e : QEntry) (hk : Keeps z0 s) : Keeps z0 (beginPacket s p e)
    := by
  delta beginPacket
  repeat' first
    | with_reducible
        first
          | assumption | exact Keeps.refl _ | apply keeps_ite | apply keeps_ite2 | apply keeps_ite3
          | apply keeps_State_bump | apply keeps_recordEntry | apply keeps_setPortMode
    | intro _
    | split
    | dsimp only

theorem keeps_portTake {z0 : State} (s : State) (p : Nat) (e : QEntry) (hk : Keeps z0 s) : Keeps z0 (portTake s p e).2 :=
    by
  delta portTake
  repeat' first
    | with_reducible
        first
          | assumption | exact Keeps.refl _ | apply keeps_ite | apply keeps_ite2 | apply keeps_deliver
          | apply keeps_setPortMode | apply keeps_beginPacket
    | intro _
    | split
    | refine keeps_of_eq (by assumption) ?_
    | refine keeps_of_eq3 (by assumption) ?_
    | dsimp only

theorem keeps_pumpQueue {z0 : State} (q : Fin 24) (p : Nat) (y0 : Nat) (y1 : State) (hk : Keeps z0 y1) : Keeps z0
    (pumpQueue q p y0 y1) := by
  induction y0 generalizing y1 with
  | zero =>
    unfold pumpQueue
    repeat' first
      | with_reducible
          first
            | assumption | exact Keeps.refl _ | apply keeps_ite | apply keeps_ite2 | apply keeps_ite3
            | apply keeps_queuePop | apply keeps_releaseStalled | apply keeps_portTake
      | intro _
      | split
      | refine keeps_of_eq (by assumption) ?_
      | refine keeps_of_eq3 (by assumption) ?_
      | dsimp only
  | succ n ih =>
    unfold pumpQueue
    repeat' first
      | with_reducible
          first
            | assumption | exact Keeps.refl _ | apply keeps_ite | apply keeps_ite2 | apply keeps_ite3
            | apply keeps_queuePop | apply keeps_releaseStalled | apply keeps_portTake | apply ih
      | intro _
      | split
      | refine keeps_of_eq (by assumption) ?_
      | refine keeps_of_eq3 (by assumption) ?_
      | dsimp only

theorem keeps_setVisHeld {z0 : State} (s : State) (v : Nat) (l : List QEntry) (hk : Keeps z0 s) : Keeps z0 (setVisHeld s v
    l) := by
  delta setVisHeld
  repeat' first
    | with_reducible
        first
          | assumption | exact Keeps.refl _ | apply keeps_ite | apply keeps_ite2 | apply keeps_ite3
          | apply keeps_modFab
    | intro _
    | split
    | dsimp only

theorem keeps_pumpVis {z0 : State} (v : Nat) (y0 : List QEntry) (y1 : State) (hk : Keeps z0 y1) : Keeps z0 (pumpVis v y0
    y1) := by
  induction y0 generalizing y1 with
  | nil =>
    unfold pumpVis
    repeat' first
      | with_reducible
          first
            | assumption | exact Keeps.refl _ | apply keeps_portTake | apply keeps_setVisHeld
      | intro _
      | split
      | refine keeps_of_eq (by assumption) ?_
      | refine keeps_of_eq3 (by assumption) ?_
      | dsimp only
  | cons hd tl ih =>
    unfold pumpVis
    repeat' first
      | with_reducible
          first
            | assumption | exact Keeps.refl _ | apply keeps_portTake | apply keeps_setVisHeld | apply ih
      | intro _
      | split
      | refine keeps_of_eq (by assumption) ?_
      | refine keeps_of_eq3 (by assumption) ?_
      | dsimp only

theorem keeps_pumpPorts {z0 : State} (s : State) (hk : Keeps z0 s) : Keeps z0 (pumpPorts s) := by
  delta pumpPorts
  repeat' first
    | with_reducible
        first
          | assumption | exact Keeps.refl _ | apply keeps_pumpQueue | apply keeps_pumpVis
    | intro _
    | split
    | dsimp only

theorem keeps_fabricWrite {z0 : State} (s : State) (q : Fin 24) (e : QEntry) (hk : Keeps z0 s) : Keeps z0 (fabricWrite s q
    e) := by
  delta fabricWrite
  repeat' first
    | with_reducible
        first
          | assumption | exact Keeps.refl _ | apply keeps_queueWrite | apply keeps_pumpQueue
    | intro _
    | split
    | refine keeps_of_eq (by assumption) ?_
    | refine keeps_of_eq3 (by assumption) ?_
    | dsimp only

theorem keeps_fabricWriteAll {z0 : State} (s : State) (q : Fin 24) (l : List QEntry) (hk : Keeps z0 s) : Keeps z0
    (fabricWriteAll s q l) := by
  delta fabricWriteAll
  repeat' first
    | with_reducible
        first
          | assumption | exact Keeps.refl _ | apply keeps_foldl | apply keeps_foldl2 | apply keeps_fabricWrite
    | intro _
    | split
    | dsimp only

theorem keeps_flushPorts {z0 : State} (s : State) (hk : Keeps z0 s) : Keeps z0 (flushPorts s) := by
  delta flushPorts
  repeat' first
    | with_reducible
        first
          | assumption | exact Keeps.refl _ | apply keeps_modFab
    | intro _
    | split
    | dsimp only

theorem keeps_qDropPort {z0 : State} (s : State) (v : Word) (hk : Keeps z0 s) : Keeps z0 (qDropPort s v) := by
  delta qDropPort
  repeat' first
    | with_reducible
        first
          | assumption | exact Keeps.refl _ | apply keeps_qDropEffect | apply keeps_pumpPorts
    | intro _
    | split
    | dsimp only

end Sys2Proof.Machine
end

