-- ==== Sys2Proof/Laws/Keeps/RegIo.lean ====
section
/-! SUPPORT. What the functions of `Machine/RegIo.lean` keep: the queue of commands, and the canonical form of memory and registers. -/

set_option linter.unusedTactic false
set_option linter.unreachableTactic false

namespace Sys2Proof.Machine

theorem keeps_fieldWrite {z0 : State} (s : State) (a : Nat) (v : Word) (hk : Keeps z0 s) : Keeps z0 (fieldWrite s a v) :=
    by
  delta fieldWrite
  repeat' first
    | with_reducible
        first
          | assumption | exact Keeps.refl _ | apply keeps_State_wr
    | intro _
    | split
    | refine keeps_of_eq (by assumption) ?_
    | refine keeps_of_eq3 (by assumption) ?_
    | dsimp only

theorem keeps_completeWrite {z0 : State} (s : State) (m : Master) (hk : Keeps z0 s) : Keeps z0 (completeWrite s m) := by
  delta completeWrite
  repeat' first
    | with_reducible
        first
          | assumption | exact Keeps.refl _ | apply keeps_State_resp
    | intro _
    | split
    | dsimp only

theorem keeps_regWrite {z0 : State} (s : State) (m : Master) (a : Nat) (v : Word) (effect : State → Word → State) (heffect
    : ∀ x0 x1, Keeps x0 (effect x0 x1)) (hk : Keeps z0 s) : Keeps z0 (regWrite s m a v effect) := by
  delta regWrite
  repeat' first
    | with_reducible
        first
          | assumption | exact Keeps.refl _ | apply keeps_ite | apply keeps_ite2 | apply keeps_ite3
          | apply keeps_gated | apply keeps_flushPairs | apply keeps_completeWrite
          | refine Keeps.trans ?_ (heffect _ _)
    | intro _
    | split
    | dsimp only

theorem keeps_writeRow {z0 : State} (m : Master) (a : Nat) (v : Word) (effect : State → Word → State) (s : State) (heffect
    : ∀ x0 x1, Keeps x0 (effect x0 x1)) (hk : Keeps z0 s) : KeepsO z0 (writeRow m a v effect s) := by
  delta writeRow
  repeat' first
    | with_reducible
        first
          | refine keepsO_next ?_ | assumption | exact Keeps.refl _ | apply keeps_whenLive | apply keeps_regWrite
          | refine Keeps.trans ?_ (heffect _ _)
    | intro _
    | split
    | dsimp only

theorem keeps_ruleTaken {z0 : State} (s : State) (hk : Keeps z0 s) : Keeps z0 (ruleTaken s) := by
  delta ruleTaken
  repeat' first
    | with_reducible
        first
          | assumption | exact Keeps.refl _ | apply keeps_modGate | apply keeps_State_wr
    | intro _
    | split
    | dsimp only

theorem keeps_ruleWrite {z0 : State} (m : Master) (a : Nat) (s : State) (v : Word) (hk : Keeps z0 s) : Keeps z0 (ruleWrite
    m a s v) := by
  delta ruleWrite
  repeat' first
    | with_reducible
        first
          | assumption | exact Keeps.refl _ | apply keeps_ite | apply keeps_ite2 | apply keeps_ite3
          | apply keeps_fieldWrite | apply keeps_ruleTaken
    | intro _
    | split
    | dsimp only

theorem keeps_claimCarve {z0 : State} (s : State) (g : Nat) (e : Nat) (base : Nat) (limit : Nat) (perm : Word) (hk : Keeps
    z0 s) : Keeps z0 (claimCarve s g e base limit perm) := by
  delta claimCarve
  repeat' first
    | with_reducible
        first
          | assumption | exact Keeps.refl _ | apply keeps_State_wr | apply keeps_ruleTaken
    | intro _
    | split
    | refine keeps_of_eq (by assumption) ?_
    | refine keeps_of_eq3 (by assumption) ?_
    | dsimp only

end Sys2Proof.Machine
end

