-- ==== Sys2Proof/Laws/Keeps/Gpio.lean ====
section
/-! SUPPORT. What the functions of `Machine/Gpio.lean` keep: the queue of commands, and the canonical form of memory and registers. -/

set_option linter.unusedTactic false
set_option linter.unreachableTactic false

namespace Sys2Proof.Machine

theorem keeps_takeClaims {z0 : State} (s : State) (l : List Claim) (hk : Keeps z0 s) : Keeps z0 (takeClaims s l) := by
  delta takeClaims
  repeat' first
    | with_reducible
        first
          | assumption | exact Keeps.refl _ | apply keeps_foldl | apply keeps_foldl2 | apply keeps_ite
          | apply keeps_ite2 | apply keeps_ite3 | apply keeps_modFab | apply keeps_State_wrb
    | intro _
    | split
    | dsimp only

theorem keeps_gpioWrite {z0 : State} (a : Nat) (width : Nat) (s : State) (v : Word) (hk : Keeps z0 s) : Keeps z0
    (gpioWrite a width s v) := by
  delta gpioWrite
  repeat' first
    | with_reducible
        first
          | assumption | exact Keeps.refl _ | apply keeps_foldl | apply keeps_foldl2 | apply keeps_ite
          | apply keeps_ite2 | apply keeps_ite3 | apply keeps_State_wr | apply keeps_fieldWrite
    | intro _
    | split
    | dsimp only

end Sys2Proof.Machine
end

