-- ==== Sys2Proof/Laws/Keeps/Cells.lean ====
section
/-! SUPPORT. What the functions of `Machine/Cells.lean` keep: the queue of commands, and the canonical form of memory and registers. -/

set_option linter.unusedTactic false
set_option linter.unreachableTactic false

namespace Sys2Proof.Machine

/-- What an instruction in E comes to keeps what every function keeps. -/
def KeepsOut (s : State) : CellOut → Prop
  | .done t => Keeps s t
  | .jump t _ => Keeps s t
  | _ => True

theorem keepsOut_done {s t : State} (h : Keeps s t) : KeepsOut s (.done t) := h

theorem keepsOut_jump {s t : State} {x : BitVec 11} (h : Keeps s t) : KeepsOut s (.jump t x) := h

theorem keepsOut_stallPop {s : State} : KeepsOut s .stallPop := trivial

theorem keepsOut_stallPush {s : State} : KeepsOut s .stallPush := trivial

theorem keepsOut_fault {s : State} {n : Nat} : KeepsOut s (.fault n) := trivial

theorem keepsOut_ite {s : State} {a b : CellOut} {c : Prop} [Decidable c] (h : c → KeepsOut s a) (k : ¬c → KeepsOut s b) :
    KeepsOut s (if c then a else b) := by
  by_cases hc : c
  · rw [if_pos hc]; exact h hc
  · rw [if_neg hc]; exact k hc

theorem keeps_cellFault {z0 : State} (s : State) (c : Nat) (cause : Nat) (hk : Keeps z0 s) : Keeps z0 (cellFault s c
    cause) := by
  delta cellFault
  repeat' first
    | with_reducible
        first
          | assumption | exact Keeps.refl _ | apply keeps_ite | apply keeps_ite2 | apply keeps_ite3
          | apply keeps_State_wr | apply keeps_State_wrb | apply keeps_ownLaneFault | apply keeps_cellsStop
          | apply keeps_raise | apply keepsOut_done | apply keepsOut_jump | apply keepsOut_stallPop
          | apply keepsOut_stallPush | apply keepsOut_fault | apply keepsOut_ite
    | intro _
    | split
    | dsimp only

theorem keeps_cellCorrected {z0 : State} (s : State) (c : Nat) (hk : Keeps z0 s) : Keeps z0 (cellCorrected s c) := by
  delta cellCorrected
  repeat' first
    | with_reducible
        first
          | assumption | exact Keeps.refl _ | apply keeps_State_bump | apply keeps_raise
    | intro _
    | split
    | dsimp only

theorem keeps_squashNext {z0 : State} (s : State) (c : Nat) (link : Option Nat) (hk : Keeps z0 s) : Keeps z0 (squashNext s
    c link) := by
  delta squashNext
  repeat' first
    | with_reducible
        first
          | assumption | exact Keeps.refl _ | apply keeps_ite | apply keeps_ite2 | apply keeps_ite3
          | apply keeps_State_bump | apply keeps_State_drawNat | apply keeps_State_modCell | apply keepsOut_done
          | apply keepsOut_jump | apply keepsOut_stallPop | apply keepsOut_stallPush | apply keepsOut_fault
          | apply keepsOut_ite
    | intro _
    | split
    | refine keeps_of_eq (by assumption) ?_
    | refine keeps_of_eq3 (by assumption) ?_
    | dsimp only

theorem keeps_cellRun {z0 : State} (i : Issue) (u : Uses) (f : State → CellOut) (s : State) (hf : ∀ x0, KeepsOut x0 (f x0))
    (hk : Keeps z0 s) : Keeps z0 (cellRun i u f s) := by
  have h0 := keeps_State_modCell s i.cell.val (fun x => { x with cyc := x.cyc + BitVec.ofNat 32 i.cycles }) hk
  unfold cellRun
  dsimp only
  generalize s.modCell i.cell.val (fun x => { x with cyc := x.cyc + BitVec.ofNat 32 i.cycles }) = s0 at h0 ⊢
  refine keeps_ite (fun _ => keeps_cellFault _ _ _ h0) fun _ => ?_
  have h1 : Keeps z0 (if i.fetchBits = 1 then cellCorrected s0 i.cell.val else s0) :=
    keeps_ite (fun _ => keeps_cellCorrected _ _ h0) fun _ => h0
  generalize (if i.fetchBits = 1 then cellCorrected s0 i.cell.val else s0) = s1 at h1 ⊢
  refine keeps_ite (fun _ => keeps_State_bump _ _ _ _ _ (keeps_State_modCell _ _ _ h1)) fun _ => ?_
  have hf1 := hf s1
  revert hf1
  cases f s1 with
  | done t => exact fun h => keeps_State_modCell _ _ _ (h1.trans h)
  | jump t target => exact fun h => keeps_State_modCell _ _ _ (h1.trans h)
  | stallPop => exact fun _ => keeps_State_bump _ _ _ _ _ h1
  | stallPush => exact fun _ => keeps_State_bump _ _ _ _ _ h1
  | fault cause => exact fun _ => keeps_cellFault _ _ _ h1

theorem keeps_cellIssue {z0 : State} (i : Issue) (w : Word) (u : Uses) (f : State → CellOut) (s : State) (hf : ∀ x0,
    KeepsOut x0 (f x0)) (hk : Keeps z0 s) : KeepsO z0 (cellIssue i w u f s) := by
  delta cellIssue
  repeat' first
    | with_reducible
        first
          | refine keepsO_next ?_ | assumption | exact Keeps.refl _ | apply keeps_ite | apply keepsO_ite
          | apply keeps_ite2 | apply keeps_ite3 | apply keeps_whenLive | apply keeps_cellRun | apply keepsOut_done
          | apply keepsOut_jump | apply keepsOut_stallPop | apply keepsOut_stallPush | apply keepsOut_fault
          | apply keepsOut_ite | apply hf
    | intro _
    | split
    | dsimp only

theorem keeps_writeAlu {z0 : State} (c : Nat) (d : Fin 16) (f : Bool) (r : Arith 32) (s : State) (hk : Keeps z0 s) :
    KeepsOut z0 (writeAlu c d f r s) := by
  delta writeAlu
  repeat' first
    | with_reducible
        first
          | assumption | exact Keeps.refl _ | apply keeps_ite | apply keeps_ite2 | apply keeps_ite3
          | apply keeps_State_modCell | apply keepsOut_done | apply keepsOut_jump | apply keepsOut_stallPop
          | apply keepsOut_stallPush | apply keepsOut_fault | apply keepsOut_ite
    | intro _
    | split
    | dsimp only

theorem keeps_aluRow {z0 : State} (i : Issue) (fn : Nat) (lanes : Bool) (d : Fin 16) (a : Fin 16) (b : Fin 16) (f : Bool)
    (late : Bool) (op32 : Word → Word → Arith 32) (op16 : BitVec 16 → BitVec 16 → Arith 16) (s : State) (hk : Keeps z0 s) :
    KeepsO z0 (aluRow i fn lanes d a b f late op32 op16 s) := by
  delta aluRow
  repeat' first
    | with_reducible
        first
          | refine keepsO_next ?_ | assumption | exact Keeps.refl _ | apply keeps_ite | apply keepsO_ite
          | apply keeps_ite2 | apply keeps_ite3 | apply keeps_cellIssue | apply keeps_writeAlu | apply keepsOut_done
          | apply keepsOut_jump | apply keepsOut_stallPop | apply keepsOut_stallPush | apply keepsOut_fault
          | apply keepsOut_ite
    | intro _
    | split
    | dsimp only

theorem keeps_aluRow32 {z0 : State} (i : Issue) (fn : Nat) (d : Fin 16) (a : Fin 16) (b : Fin 16) (f : Bool) (late : Bool)
    (op : Word → Word → Arith 32) (s : State) (hk : Keeps z0 s) : KeepsO z0 (aluRow32 i fn d a b f late op s) := by
  delta aluRow32
  repeat' first
    | with_reducible
        first
          | refine keepsO_next ?_ | assumption | exact Keeps.refl _ | apply keeps_ite | apply keepsO_ite
          | apply keeps_ite2 | apply keeps_ite3 | apply keeps_cellIssue | apply keeps_writeAlu | apply keepsOut_done
          | apply keepsOut_jump | apply keepsOut_stallPop | apply keepsOut_stallPush | apply keepsOut_fault
          | apply keepsOut_ite
    | intro _
    | split
    | dsimp only

theorem keeps_macRow {z0 : State} (i : Issue) (fn : Nat) (d : Fin 16) (a : Fin 16) (b : Fin 16) (f : Bool) (op : Word →
    Word → Word → Arith 32) (s : State) (hk : Keeps z0 s) : KeepsO z0 (macRow i fn d a b f op s) := by
  delta macRow
  repeat' first
    | with_reducible
        first
          | refine keepsO_next ?_ | assumption | exact Keeps.refl _ | apply keeps_cellIssue | apply keeps_writeAlu
          | apply keepsOut_done | apply keepsOut_jump | apply keepsOut_stallPop | apply keepsOut_stallPush
          | apply keepsOut_fault | apply keepsOut_ite
    | intro _
    | split
    | dsimp only

theorem keeps_flagRow {z0 : State} (i : Issue) (w : Word) (regs : List Nat) (op : CellSt → Arith 32) (s : State) (hk :
    Keeps z0 s) : KeepsO z0 (flagRow i w regs op s) := by
  delta flagRow
  repeat' first
    | with_reducible
        first
          | refine keepsO_next ?_ | assumption | exact Keeps.refl _ | apply keeps_State_modCell
          | apply keeps_cellIssue | apply keepsOut_done | apply keepsOut_jump | apply keepsOut_stallPop
          | apply keepsOut_stallPush | apply keepsOut_fault | apply keepsOut_ite
    | intro _
    | split
    | dsimp only

theorem keeps_immRow {z0 : State} (i : Issue) (op : Nat) (d : Fin 16) (a : Fin 16) (f : Bool) (imm : Half) (g : Word →
    Arith 32) (s : State) (hk : Keeps z0 s) : KeepsO z0 (immRow i op d a f imm g s) := by
  delta immRow
  repeat' first
    | with_reducible
        first
          | refine keepsO_next ?_ | assumption | exact Keeps.refl _ | apply keeps_cellIssue | apply keeps_writeAlu
          | apply keepsOut_done | apply keepsOut_jump | apply keepsOut_stallPop | apply keepsOut_stallPush
          | apply keepsOut_fault | apply keepsOut_ite
    | intro _
    | split
    | dsimp only

theorem keeps_dsuRow {z0 : State} (i : Issue) (fn : Nat) (d : Fin 16) (a : Fin 16) (b : Fin 16) (two : Bool) (s : State)
    (hk : Keeps z0 s) : KeepsO z0 (dsuRow i fn d a b two s) := by
  delta dsuRow
  repeat' first
    | with_reducible
        first
          | refine keepsO_next ?_ | assumption | exact Keeps.refl _ | apply keeps_ite | apply keepsO_ite
          | apply keeps_ite2 | apply keeps_ite3 | apply keeps_State_modCell | apply keeps_cellIssue
          | apply keepsOut_done | apply keepsOut_jump | apply keepsOut_stallPop | apply keepsOut_stallPush
          | apply keepsOut_fault | apply keepsOut_ite
    | intro _
    | split
    | dsimp only

theorem keeps_loadRow {z0 : State} (i : Issue) (op : Nat) (n : Nat) (signed : Bool) (d : Fin 16) (a : Fin 4) (p : Bool)
    (off : Half) (ecc : Nat) (s : State) (hk : Keeps z0 s) : KeepsO z0 (loadRow i op n signed d a p off ecc s) := by
  delta loadRow
  repeat' first
    | with_reducible
        first
          | refine keepsO_next ?_ | assumption | exact Keeps.refl _ | apply keeps_ite | apply keepsO_ite
          | apply keeps_ite2 | apply keeps_ite3 | apply keeps_State_modCell | apply keeps_cellCorrected
          | apply keeps_cellIssue | apply keepsOut_done | apply keepsOut_jump | apply keepsOut_stallPop
          | apply keepsOut_stallPush | apply keepsOut_fault | apply keepsOut_ite
    | intro _
    | split
    | refine keeps_of_eq (by assumption) ?_
    | refine keeps_of_eq3 (by assumption) ?_
    | dsimp only

theorem keeps_storeRow {z0 : State} (i : Issue) (op : Nat) (n : Nat) (d : Fin 16) (a : Fin 4) (p : Bool) (off : Half) (ecc
    : Nat) (s : State) (hk : Keeps z0 s) : KeepsO z0 (storeRow i op n d a p off ecc s) := by
  delta storeRow
  repeat' first
    | with_reducible
        first
          | refine keepsO_next ?_ | assumption | exact Keeps.refl _ | apply keeps_ite | apply keepsO_ite
          | apply keeps_ite2 | apply keeps_ite3 | apply keeps_State_setBytes | apply keeps_State_modCell
          | apply keeps_cellCorrected | apply keeps_cellIssue | apply keepsOut_done | apply keepsOut_jump
          | apply keepsOut_stallPop | apply keepsOut_stallPush | apply keepsOut_fault | apply keepsOut_ite
    | intro _
    | split
    | refine keeps_of_eq (by assumption) ?_
    | refine keeps_of_eq3 (by assumption) ?_
    | dsimp only

theorem keeps_recordResidence {z0 : State} (s : State) (ref : Word) (hk : Keeps z0 s) : Keeps z0 (recordResidence s ref)
    := by
  delta recordResidence
  repeat' first
    | with_reducible
        first
          | assumption | exact Keeps.refl _ | apply keeps_ite | apply keeps_ite2 | apply keeps_ite3
          | apply keeps_State_wrf | apply keeps_State_bump
    | intro _
    | split
    | refine keeps_of_eq (by assumption) ?_
    | refine keeps_of_eq3 (by assumption) ?_
    | dsimp only

theorem keeps_portPush {z0 : State} (e : QEntry) (s : State) (p : Nat) (hk : Keeps z0 s) : Keeps z0 (portPush e s p) := by
  delta portPush
  repeat' first
    | with_reducible
        first
          | assumption | exact Keeps.refl _ | apply keeps_ite | apply keeps_ite2 | apply keeps_ite3
          | apply keeps_queueWrite | apply keeps_recordResidence
    | intro _
    | split
    | dsimp only

theorem keeps_availCount {z0 : State} (s : State) (q : InSlot) (hk : Keeps z0 s) : Keeps z0 (availCount s q).2 := by
  delta availCount
  repeat' first
    | with_reducible
        first
          | assumption | exact Keeps.refl _ | apply keeps_ite | apply keeps_ite2 | apply keeps_State_drawNat
    | intro _
    | split
    | refine keeps_of_eq (by assumption) ?_
    | refine keeps_of_eq3 (by assumption) ?_
    | dsimp only

end Sys2Proof.Machine
end

