-- ==== Sys2Proof/Laws/Keeps/Ejection.lean ====
section
/-! SUPPORT. What the functions of `Machine/Ejection.lean` keep: the queue of commands, and the canonical form of memory and registers. -/

set_option linter.unusedTactic false
set_option linter.unreachableTactic false

namespace Sys2Proof.Machine

theorem keeps_setEjState {z0 : State} (s : State) (n : Nat) (st : EjState) (hk : Keeps z0 s) : Keeps z0 (setEjState s n
    st) := by
  delta setEjState
  repeat' first
    | with_reducible
        first
          | assumption | exact Keeps.refl _ | apply keeps_modEj | apply keeps_State_wrf | apply keeps_State_wrb
          | apply keeps_postEvent | apply keeps_State_modEjp
    | intro _
    | split
    | dsimp only

theorem keeps_ejUnknown {z0 : State} (s : State) (n : Nat) (hk : Keeps z0 s) : Keeps z0 (ejUnknown s n) := by
  delta ejUnknown
  repeat' first
    | with_reducible
        first
          | assumption | exact Keeps.refl _ | apply keeps_modEj | apply keeps_State_bump | apply keeps_State_modEjp
    | intro _
    | split
    | refine keeps_of_eq (by assumption) ?_
    | refine keeps_of_eq3 (by assumption) ?_
    | dsimp only

theorem keeps_ejDown {z0 : State} (s : State) (n : Nat) (code : Half) (hk : Keeps z0 s) : Keeps z0 (ejDown s n code) := by
  delta ejDown
  repeat' first
    | with_reducible
        first
          | assumption | exact Keeps.refl _ | apply keeps_ite | apply keeps_ite2 | apply keeps_ite3
          | apply keeps_ownLaneFault | apply keeps_ejDiscard | apply keeps_raise | apply keeps_setEjState
          | apply keeps_ejUnknown
    | intro _
    | split
    | dsimp only

theorem keeps_ejUp {z0 : State} (s : State) (n : Nat) (nvalves : Nat) (hk : Keeps z0 s) : Keeps z0 (ejUp s n nvalves) :=
    by
  delta ejUp
  repeat' first
    | with_reducible
        first
          | assumption | exact Keeps.refl _ | apply keeps_modEj | apply keeps_State_wrf | apply keeps_State_modLane
          | apply keeps_State_modEjp | apply keeps_raise | apply keeps_setEjState
    | intro _
    | split
    | dsimp only

theorem keeps_ejPortCfg {z0 : State} (s : State) (n : Nat) (hk : Keeps z0 s) : Keeps z0 (ejPortCfg s n) := by
  delta ejPortCfg
  repeat' first
    | with_reducible
        first
          | assumption | exact Keeps.refl _ | apply keeps_modEj | apply keeps_State_modEjp | apply keeps_ejDiscard
          | apply keeps_setEjState | apply keeps_ejUnknown
    | intro _
    | split
    | refine keeps_of_eq (by assumption) ?_
    | refine keeps_of_eq3 (by assumption) ?_
    | dsimp only

theorem keeps_ejViolation {z0 : State} (s : State) (n : Nat) (hk : Keeps z0 s) : Keeps z0 (ejViolation s n) := by
  delta ejViolation
  repeat' first
    | with_reducible
        first
          | assumption | exact Keeps.refl _ | apply keeps_ite | apply keeps_ite2 | apply keeps_ite3
          | apply keeps_modEj | apply keeps_State_bump | apply keeps_State_modEjp | apply keeps_ejDown
    | intro _
    | split
    | dsimp only

theorem keeps_ejCtrlEffect {z0 : State} (s : State) (v : Word) (hk : Keeps z0 s) : Keeps z0 (ejCtrlEffect s v) := by
  delta ejCtrlEffect
  repeat' first
    | with_reducible
        first
          | assumption | exact Keeps.refl _ | apply keeps_foldl | apply keeps_foldl2 | apply keeps_ite
          | apply keeps_ite2 | apply keeps_ite3 | apply keeps_State_wr | apply keeps_setPermit | apply keeps_ejDisarm
          | apply keeps_ejPortCfg
    | intro _
    | split
    | dsimp only

theorem keeps_ejCfgEffect {z0 : State} (n : Nat) (s : State) (v : Word) (hk : Keeps z0 s) : Keeps z0 (ejCfgEffect n s v)
    := by
  delta ejCfgEffect
  repeat' first
    | with_reducible
        first
          | assumption | exact Keeps.refl _ | apply keeps_fieldWrite | apply keeps_ejPortCfg
    | intro _
    | split
    | dsimp only

theorem keeps_ejRaise {z0 : State} (s : State) (code : Half) (port : Nat) (hk : Keeps z0 s) : Keeps z0 (ejRaise s code
    port) := by
  delta ejRaise
  repeat' first
    | with_reducible
        first
          | assumption | exact Keeps.refl _ | apply keeps_ite | apply keeps_ite2 | apply keeps_ite3
          | apply keeps_modEj | apply keeps_raise
    | intro _
    | split
    | refine keeps_of_eq (by assumption) ?_
    | refine keeps_of_eq3 (by assumption) ?_
    | dsimp only

theorem keeps_firePlace {z0 : State} (s : State) (n : Nat) (part : Nat) (width : Nat) (mask : DWord) (tOn : Nat) (cls :
    Option Nat) (hk : Keeps z0 s) : Keeps z0 (firePlace s n part width mask tOn cls) := by
  delta firePlace
  repeat' first
    | with_reducible
        first
          | assumption | exact Keeps.refl _ | apply keeps_ite | apply keeps_ite2 | apply keeps_ite3
          | apply keeps_modEj | apply keeps_State_modEjp
    | intro _
    | split
    | dsimp only

theorem keeps_ejRefuse {z0 : State} (s : State) (count : Nat) (code : Half) (port : Nat) (hk : Keeps z0 s) : Keeps z0
    (ejRefuse s count code port).2 := by
  delta ejRefuse
  repeat' first
    | with_reducible
        first
          | assumption | exact Keeps.refl _ | apply keeps_State_bump | apply keeps_ejRaise
    | intro _
    | split
    | dsimp only

theorem keeps_fireJudge {z0 : State} (s : State) (n : Nat) (part : Nat) (width : Nat) (mask : DWord) (tOn : Int) (cls :
    Option Nat) (hk : Keeps z0 s) : Keeps z0 (fireJudge s n part width mask tOn cls).2 := by
  delta fireJudge
  repeat' first
    | with_reducible
        first
          | assumption | exact Keeps.refl _ | apply keeps_ite | apply keeps_ite2 | apply keeps_State_bump
          | apply keeps_firePlace | apply keeps_ejRefuse
    | intro _
    | split
    | dsimp only

theorem keeps_recordJudge {z0 : State} (s : State) (l : List QEntry) (hk : Keeps z0 s) : Keeps z0 (recordJudge s l) := by
  delta recordJudge
  repeat' first
    | with_reducible
        first
          | assumption | exact Keeps.refl _ | apply keeps_ite | apply keeps_ite2 | apply keeps_ite3
          | apply keeps_State_bump | apply keeps_ejRefuse | apply keeps_fireJudge
    | intro _
    | split
    | dsimp only

theorem keeps_ejSend {z0 : State} (s : State) (n : Nat) (x : EjExch) (hk : Keeps z0 s) : Keeps z0 (ejSend s n x) := by
  delta ejSend
  repeat' first
    | with_reducible
        first
          | assumption | exact Keeps.refl _ | apply keeps_ite | apply keeps_ite2 | apply keeps_ite3
          | apply keeps_modEj | apply keeps_State_wrf | apply keeps_State_emit | apply keeps_State_modEjp
    | intro _
    | split
    | dsimp only

theorem keeps_ejStart {z0 : State} (s : State) (n : Nat) (k : EjFrame) (cmds : List FireCmd) (hk : Keeps z0 s) : Keeps z0
    (ejStart s n k cmds) := by
  delta ejStart
  repeat' first
    | with_reducible
        first
          | assumption | exact Keeps.refl _ | apply keeps_modEj | apply keeps_State_modEjp | apply keeps_ejSend
    | intro _
    | split
    | dsimp only

theorem keeps_ejTurn {z0 : State} (s : State) (n : Nat) (f : State → State) (hf : ∀ x0, Keeps x0 (f x0)) (hk : Keeps z0 s)
    : Keeps z0 (ejTurn s n f) := by
  delta ejTurn
  repeat' first
    | with_reducible
        first
          | assumption | exact Keeps.refl _ | apply keeps_ite | apply keeps_ite2 | apply keeps_ite3
          | apply keeps_modEj | apply keeps_State_modEjp | apply keeps_ejStart | refine Keeps.trans ?_ (hf _)
    | intro _
    | split
    | dsimp only

theorem keeps_ejExhausted {z0 : State} (s : State) (n : Nat) (hk : Keeps z0 s) : Keeps z0 (ejExhausted s n) := by
  delta ejExhausted
  repeat' first
    | with_reducible
        first
          | assumption | exact Keeps.refl _ | apply keeps_ite | apply keeps_ite2 | apply keeps_ite3
          | apply keeps_modEj | apply keeps_State_modEjp | apply keeps_ejUnknown | apply keeps_ejDown
    | intro _
    | split
    | dsimp only

theorem keeps_ejFail {z0 : State} (s : State) (n : Nat) (hk : Keeps z0 s) : Keeps z0 (ejFail s n) := by
  delta ejFail
  repeat' first
    | with_reducible
        first
          | assumption | exact Keeps.refl _ | apply keeps_ite | apply keeps_ite2 | apply keeps_ite3
          | apply keeps_modEj | apply keeps_State_bump | apply keeps_State_modEjp | apply keeps_ejSend
          | apply keeps_ejExhausted
    | intro _
    | split
    | refine keeps_of_eq (by assumption) ?_
    | refine keeps_of_eq3 (by assumption) ?_
    | dsimp only

theorem keeps_ejAnswer {z0 : State} (s : State) (n : Nat) (seq : Nat) (kinds : List EjFrame) (f : State → EjExch → State)
    (hf : ∀ x0 x1, Keeps x0 (f x0 x1)) (hk : Keeps z0 s) : Keeps z0 (ejAnswer s n seq kinds f) := by
  delta ejAnswer
  repeat' first
    | with_reducible
        first
          | assumption | exact Keeps.refl _ | apply keeps_ite | apply keeps_ite2 | apply keeps_ite3
          | apply keeps_modEj | apply keeps_State_modEjp | apply keeps_ejViolation | apply keeps_ejFail
          | refine Keeps.trans ?_ (hf _ _)
    | intro _
    | split
    | refine keeps_of_eq (by assumption) ?_
    | refine keeps_of_eq3 (by assumption) ?_
    | dsimp only

theorem keeps_ejOutcome {z0 : State} (s : State) (n : Nat) (c : FireCmd) (fired : Bool) (hk : Keeps z0 s) : Keeps z0
    (ejOutcome s n c fired) := by
  delta ejOutcome
  repeat' first
    | with_reducible
        first
          | assumption | exact Keeps.refl _ | apply keeps_ite | apply keeps_ite2 | apply keeps_ite3
          | apply keeps_State_bump
    | intro _
    | split
    | refine keeps_of_eq (by assumption) ?_
    | refine keeps_of_eq3 (by assumption) ?_
    | dsimp only

theorem keeps_confKnown {z0 : State} (s : State) (n : Nat) (c : FireCmd) (e : EjConf) (hk : Keeps z0 s) : Keeps z0
    (confKnown s n c e) := by
  delta confKnown
  repeat' first
    | with_reducible
        first
          | assumption | exact Keeps.refl _ | apply keeps_ite | apply keeps_ite2 | apply keeps_ite3
          | apply keeps_modEj | apply keeps_State_modEjp | apply keeps_raise | apply keeps_ejViolation
          | apply keeps_ejOutcome
    | intro _
    | split
    | refine keeps_of_eq (by assumption) ?_
    | refine keeps_of_eq3 (by assumption) ?_
    | dsimp only

theorem keeps_confOne {z0 : State} (s : State) (n : Nat) (e : EjConf) (hk : Keeps z0 s) : Keeps z0 (confOne s n e) := by
  delta confOne
  repeat' first
    | with_reducible
        first
          | assumption | exact Keeps.refl _ | apply keeps_ite | apply keeps_ite2 | apply keeps_ite3
          | apply keeps_modEj | apply keeps_State_wrf | apply keeps_State_modEjp | apply keeps_ejViolation
          | apply keeps_confKnown
    | intro _
    | split
    | refine keeps_of_eq (by assumption) ?_
    | refine keeps_of_eq3 (by assumption) ?_
    | dsimp only

theorem keeps_fireResult {z0 : State} (s : State) (n : Nat) (x : EjExch) (c : FireCmd) (res : Option Byte) (hk : Keeps z0
    s) : Keeps z0 (fireResult s n x c res) := by
  delta fireResult
  repeat' first
    | with_reducible
        first
          | assumption | exact Keeps.refl _ | apply keeps_ite | apply keeps_ite2 | apply keeps_ite3
          | apply keeps_modEj | apply keeps_State_bump | apply keeps_State_modEjp | apply keeps_ejViolation
          | apply keeps_ejOutcome
    | intro _
    | split
    | refine keeps_of_eq (by assumption) ?_
    | refine keeps_of_eq3 (by assumption) ?_
    | dsimp only

theorem keeps_fireResults {z0 : State} (n : Nat) (x : EjExch) (y0 : List FireCmd) (y1 : List Byte) (y2 : State) (hk :
    Keeps z0 y2) : Keeps z0 (fireResults n x y0 y1 y2) := by
  induction y0 generalizing y1 y2 with
  | nil =>
    unfold fireResults
    repeat' first
      | with_reducible
          first
            | assumption | exact Keeps.refl _ | apply keeps_fireResult
      | intro _
      | split
      | dsimp only
  | cons hd tl ih =>
    unfold fireResults
    repeat' first
      | with_reducible
          first
            | assumption | exact Keeps.refl _ | apply keeps_fireResult | apply ih
      | intro _
      | split
      | dsimp only

theorem keeps_pairAccept {z0 : State} (s : State) (n : Nat) (cm : Nat) (bm : Int) (hk : Keeps z0 s) : Keeps z0 (pairAccept
    s n cm bm) := by
  delta pairAccept
  repeat' first
    | with_reducible
        first
          | assumption | exact Keeps.refl _ | apply keeps_ite | apply keeps_ite2 | apply keeps_ite3
          | apply keeps_modEj | apply keeps_State_wr | apply keeps_State_modEjp | apply keeps_ejDown
          | apply keeps_ejUp
    | intro _
    | split
    | dsimp only

end Sys2Proof.Machine
end

