-- ==== Sys2Proof/Laws/Keeps/KeyStore.lean ====
section
/-! SUPPORT. What the functions of `Machine/KeyStore.lean` keep: the queue of commands, and the canonical form of memory and registers. -/

set_option linter.unusedTactic false
set_option linter.unreachableTactic false

namespace Sys2Proof.Machine

theorem keeps_State_putSlot {z0 : State} (s : State) (n : Nat) (k : KeySlot) (hk : Keeps z0 s) : Keeps z0 (State.putSlot s
    n k) := by
  delta State.putSlot
  repeat' first
    | with_reducible
        first
          | assumption | exact Keeps.refl _ | apply keeps_modKey
    | intro _
    | split
    | dsimp only

theorem keeps_fillKey {z0 : State} (s : State) (n : Nat) (attr : Word) (origin : Bool) (parent : Nat) (key : List Byte)
    (hk : Keeps z0 s) : Keeps z0 (fillKey s n attr origin parent key) := by
  delta fillKey
  repeat' first
    | with_reducible
        first
          | assumption | exact Keeps.refl _ | apply keeps_State_putSlot
    | intro _
    | split
    | dsimp only

theorem keeps_invalidateKey {z0 : State} (s : State) (n : Nat) (hk : Keeps z0 s) : Keeps z0 (invalidateKey s n) := by
  delta invalidateKey
  repeat' first
    | with_reducible
        first
          | assumption | exact Keeps.refl _ | apply keeps_foldl | apply keeps_foldl2 | apply keeps_State_putSlot
    | intro _
    | split
    | dsimp only

theorem keeps_useSlot {z0 : State} (s : State) (n : Nat) (kinds : List Nat) (uses : List Nat) (master : Nat) (secure :
    Bool) (hk : Keeps z0 s) : Keeps z0 (useSlot s n kinds uses master secure).2 := by
  delta useSlot
  repeat' first
    | with_reducible
        first
          | assumption | exact Keeps.refl _ | apply keeps_ite | apply keeps_ite2 | apply keeps_raise
          | apply keeps_invalidateKey
    | intro _
    | split
    | dsimp only

theorem keeps_zeroKeys {z0 : State} (s : State) (hk : Keeps z0 s) : Keeps z0 (zeroKeys s) := by
  delta zeroKeys
  repeat' first
    | with_reducible
        first
          | assumption | exact Keeps.refl _ | apply keeps_foldl | apply keeps_foldl2 | apply keeps_modKey
          | apply keeps_modEng | apply keeps_State_wr | apply keeps_State_wrf
    | intro _
    | split
    | dsimp only

theorem keeps_clearWrite {z0 : State} (s : State) (n : Nat) (hk : Keeps z0 s) : Keeps z0 (clearWrite s n).2 := by
  delta clearWrite
  repeat' first
    | with_reducible
        first
          | assumption | exact Keeps.refl _ | apply keeps_ite | apply keeps_ite2 | apply keeps_raise
          | apply keeps_fillKey
    | intro _
    | split
    | dsimp only

theorem keeps_wipeClearData {z0 : State} (s : State) (hk : Keeps z0 s) : Keeps z0 (wipeClearData s) := by
  delta wipeClearData
  repeat' first
    | with_reducible
        first
          | assumption | exact Keeps.refl _ | apply keeps_foldl | apply keeps_foldl2 | apply keeps_State_wr
    | intro _
    | split
    | dsimp only

theorem keeps_setSess {z0 : State} (s : State) (r : Nat) (key : List Byte) (hk : Keeps z0 s) : Keeps z0 (setSess s r key)
    := by
  delta setSess
  repeat' first
    | with_reducible
        first
          | assumption | exact Keeps.refl _ | apply keeps_modKey | apply keeps_State_wrb
    | intro _
    | split
    | refine keeps_of_eq (by assumption) ?_
    | refine keeps_of_eq3 (by assumption) ?_
    | dsimp only

theorem keeps_loadSess {z0 : State} (s : State) (r : Nat) (n : Nat) (hk : Keeps z0 s) : Keeps z0 (loadSess s r n).2 := by
  delta loadSess
  repeat' first
    | with_reducible
        first
          | assumption | exact Keeps.refl _ | apply keeps_ite | apply keeps_ite2 | apply keeps_invalidateKey
          | apply keeps_useSlot | apply keeps_setSess
    | intro _
    | split
    | refine keeps_of_eq (by assumption) ?_
    | refine keeps_of_eq3 (by assumption) ?_
    | dsimp only

theorem keeps_keyCmdEffect {z0 : State} (s : State) (v : Word) (hk : Keeps z0 s) : Keeps z0 (keyCmdEffect s v) := by
  delta keyCmdEffect
  repeat' first
    | with_reducible
        first
          | assumption | exact Keeps.refl _ | apply keeps_ite | apply keeps_ite2 | apply keeps_ite3
          | apply keeps_State_wr | apply keeps_invalidateKey | apply keeps_clearWrite | apply keeps_wipeClearData
          | apply keeps_setSess | apply keeps_loadSess
    | intro _
    | split
    | refine keeps_of_eq (by assumption) ?_
    | refine keeps_of_eq3 (by assumption) ?_
    | dsimp only

theorem keeps_installRoot {z0 : State} (s : State) (hk : Keeps z0 s) : Keeps z0 (installRoot s) := by
  delta installRoot
  repeat' first
    | with_reducible
        first
          | assumption | exact Keeps.refl _ | apply keeps_modKey | apply keeps_fillKey
    | intro _
    | split
    | refine keeps_of_eq (by assumption) ?_
    | refine keeps_of_eq3 (by assumption) ?_
    | dsimp only

theorem keeps_dropTenantSlots {z0 : State} (s : State) (t : Nat) (hk : Keeps z0 s) : Keeps z0 (dropTenantSlots s t) := by
  delta dropTenantSlots
  repeat' first
    | with_reducible
        first
          | assumption | exact Keeps.refl _ | apply keeps_modKey | apply keeps_invalidateKey
    | intro _
    | split
    | refine keeps_of_eq (by assumption) ?_
    | refine keeps_of_eq3 (by assumption) ?_
    | dsimp only

theorem keeps_installTenant {z0 : State} (s : State) (t : Nat) (ck : List Byte) (vk : List Byte) (parent : Nat) (hk : Keeps z0 s) :
    ∀ u0, installTenant s t ck vk parent = some u0 → Keeps z0 u0 := by
  intro u0 h
  unfold installTenant at h
  have h0 := keeps_dropTenantSlots s t hk
  generalize dropTenantSlots s t = s0 at h h0
  dsimp only at h
  split at h
  · cases h
  · split at h
    · cases h
    · cases h
      exact keeps_modKey (keeps_fillKey _ _ _ _ _ _ (keeps_fillKey _ _ _ _ _ _ h0))

end Sys2Proof.Machine
end

