-- ==== Sys2Proof/Laws/Keeps/Link.lean ====
section
/-! SUPPORT. What the functions of `Machine/Link.lean` keep: the queue of commands, and the canonical form of memory and registers. -/

set_option linter.unusedTactic false
set_option linter.unreachableTactic false

namespace Sys2Proof.Machine

theorem keeps_State_modFrl {z0 : State} (s : State) (p : Nat) (f : FrlPort → FrlPort) (hk : Keeps z0 s) : Keeps z0
    (State.modFrl s p f) := by
  delta State.modFrl
  repeat' first
    | with_reducible
        first
          | assumption | exact Keeps.refl _ | apply keeps_ite | apply keeps_ite2 | apply keeps_ite3
          | apply keeps_modRing
    | intro _
    | split
    | dsimp only

theorem keeps_setFrlState {z0 : State} (s : State) (p : Nat) (st : Nat) (hk : Keeps z0 s) : Keeps z0 (setFrlState s p st)
    := by
  delta setFrlState
  repeat' first
    | with_reducible
        first
          | assumption | exact Keeps.refl _ | apply keeps_State_wrf | apply keeps_State_wrb
    | intro _
    | split
    | dsimp only

theorem keeps_emitFrame {z0 : State} (s : State) (p : Nat) (lseq : Nat) (f : Frame) (hk : Keeps z0 s) : Keeps z0
    (emitFrame s p lseq f) := by
  delta emitFrame
  repeat' first
    | with_reducible
        first
          | assumption | exact Keeps.refl _ | apply keeps_State_emit
    | intro _
    | split
    | dsimp only

theorem keeps_drawStamp {z0 : State} (s : State) (hk : Keeps z0 s) : Keeps z0 (drawStamp s).2 := by
  delta drawStamp
  repeat' first
    | with_reducible
        first
          | assumption | exact Keeps.refl _ | apply keeps_State_drawNat
    | intro _
    | split
    | refine keeps_of_eq (by assumption) ?_
    | refine keeps_of_eq3 (by assumption) ?_
    | dsimp only

theorem keeps_emitNew {z0 : State} (s : State) (p : Nat) (q : QFrame) (hk : Keeps z0 s) : Keeps z0 (emitNew s p q) := by
  delta emitNew
  repeat' first
    | with_reducible
        first
          | assumption | exact Keeps.refl _ | apply keeps_foldl | apply keeps_foldl2 | apply keeps_ite
          | apply keeps_ite2 | apply keeps_ite3 | apply keeps_State_modFrl | apply keeps_emitFrame
          | apply keeps_drawStamp
    | intro _
    | split
    | refine keeps_of_eq (by assumption) ?_
    | refine keeps_of_eq3 (by assumption) ?_
    | dsimp only

theorem keeps_frlPump {z0 : State} (p : Nat) (y0 : Nat) (y1 : State) (hk : Keeps z0 y1) : Keeps z0 (frlPump p y0 y1) := by
  induction y0 generalizing y1 with
  | zero =>
    unfold frlPump
    repeat' first
      | with_reducible
          first
            | assumption | exact Keeps.refl _ | apply keeps_ite | apply keeps_ite2 | apply keeps_ite3
            | apply keeps_State_modFrl | apply keeps_emitNew
      | intro _
      | split
      | refine keeps_of_eq (by assumption) ?_
      | refine keeps_of_eq3 (by assumption) ?_
      | dsimp only
  | succ n ih =>
    unfold frlPump
    repeat' first
      | with_reducible
          first
            | assumption | exact Keeps.refl _ | apply keeps_ite | apply keeps_ite2 | apply keeps_ite3
            | apply keeps_State_modFrl | apply keeps_emitNew | apply ih
      | intro _
      | split
      | refine keeps_of_eq (by assumption) ?_
      | refine keeps_of_eq3 (by assumption) ?_
      | dsimp only

theorem keeps_pumpPort {z0 : State} (s : State) (p : Nat) (hk : Keeps z0 s) : Keeps z0 (pumpPort s p) := by
  delta pumpPort
  repeat' first
    | with_reducible
        first
          | assumption | exact Keeps.refl _ | apply keeps_frlPump
    | intro _
    | split
    | dsimp only

theorem keeps_sendOn {z0 : State} (s : State) (p : Nat) (c : FrlClass) (f : Frame) (fix : List Fix) (hk : Keeps z0 s) :
    Keeps z0 (sendOn s p c f fix) := by
  delta sendOn
  repeat' first
    | with_reducible
        first
          | assumption | exact Keeps.refl _ | apply keeps_ite | apply keeps_ite2 | apply keeps_ite3
          | apply keeps_State_modFrl | apply keeps_pumpPort
    | intro _
    | split
    | refine keeps_of_eq (by assumption) ?_
    | refine keeps_of_eq3 (by assumption) ?_
    | dsimp only

theorem keeps_emitAck {z0 : State} (s : State) (p : Nat) (nak : Bool) (busy : Bool) (hk : Keeps z0 s) : Keeps z0 (emitAck
    s p nak busy) := by
  delta emitAck
  repeat' first
    | with_reducible
        first
          | assumption | exact Keeps.refl _ | apply keeps_State_emit
    | intro _
    | split
    | dsimp only

theorem keeps_sendAck {z0 : State} (s : State) (p : Nat) (hk : Keeps z0 s) : Keeps z0 (sendAck s p) := by
  delta sendAck
  repeat' first
    | with_reducible
        first
          | assumption | exact Keeps.refl _ | apply keeps_State_modFrl | apply keeps_emitAck
    | intro _
    | split
    | dsimp only

theorem keeps_sendNak {z0 : State} (s : State) (p : Nat) (hk : Keeps z0 s) : Keeps z0 (sendNak s p) := by
  delta sendNak
  repeat' first
    | with_reducible
        first
          | assumption | exact Keeps.refl _ | apply keeps_ite | apply keeps_ite2 | apply keeps_ite3
          | apply keeps_State_bump | apply keeps_State_modFrl | apply keeps_emitAck
    | intro _
    | split
    | dsimp only

theorem keeps_abortCut {z0 : State} (s : State) (p : Nat) (hk : Keeps z0 s) : Keeps z0 (abortCut s p) := by
  delta abortCut
  repeat' first
    | with_reducible
        first
          | assumption | exact Keeps.refl _ | apply keeps_ite | apply keeps_ite2 | apply keeps_ite3
          | apply keeps_State_emit | apply keeps_State_modFrl | apply keeps_pumpPort
    | intro _
    | split
    | refine keeps_of_eq (by assumption) ?_
    | refine keeps_of_eq3 (by assumption) ?_
    | dsimp only

theorem keeps_ringOpen {z0 : State} (s : State) (hk : Keeps z0 s) : Keeps z0 (ringOpen s) := by
  delta ringOpen
  repeat' first
    | with_reducible
        first
          | assumption | exact Keeps.refl _ | apply keeps_ite | apply keeps_ite2 | apply keeps_ite3
          | apply keeps_modRing | apply keeps_raise
    | intro _
    | split
    | dsimp only

theorem keeps_portDown {z0 : State} (s : State) (p : Nat) (hk : Keeps z0 s) : Keeps z0 (portDown s p) := by
  delta portDown
  repeat' first
    | with_reducible
        first
          | assumption | exact Keeps.refl _ | apply keeps_ite | apply keeps_ite2 | apply keeps_ite3
          | apply keeps_State_bump | apply keeps_raise | apply keeps_queueEmpty | apply keeps_State_modFrl
          | apply keeps_setFrlState | apply keeps_abortCut | apply keeps_ringOpen
    | intro _
    | split
    | dsimp only

theorem keeps_portUp {z0 : State} (s : State) (p : Nat) (hk : Keeps z0 s) : Keeps z0 (portUp s p) := by
  delta portUp
  repeat' first
    | with_reducible
        first
          | assumption | exact Keeps.refl _ | apply keeps_ite | apply keeps_ite2 | apply keeps_ite3
          | apply keeps_modRing | apply keeps_State_modFrl | apply keeps_setFrlState
    | intro _
    | split
    | dsimp only

theorem keeps_trainStep {z0 : State} (s : State) (p : Nat) (state : Byte) (hk : Keeps z0 s) : Keeps z0 (trainStep s p
    state) := by
  delta trainStep
  repeat' first
    | with_reducible
        first
          | assumption | exact Keeps.refl _ | apply keeps_ite | apply keeps_ite2 | apply keeps_ite3
          | apply keeps_State_emit | apply keeps_State_modFrl | apply keeps_portUp
    | intro _
    | split
    | dsimp only

theorem keeps_ackFrames {z0 : State} (s : State) (p : Nat) (n : Nat) (hk : Keeps z0 s) : Keeps z0 (ackFrames s p n) := by
  delta ackFrames
  repeat' first
    | with_reducible
        first
          | assumption | exact Keeps.refl _ | apply keeps_ite | apply keeps_ite2 | apply keeps_ite3
          | apply keeps_State_modFrl
    | intro _
    | split
    | refine keeps_of_eq (by assumption) ?_
    | refine keeps_of_eq3 (by assumption) ?_
    | dsimp only

theorem keeps_resendAll {z0 : State} (s : State) (p : Nat) (hk : Keeps z0 s) : Keeps z0 (resendAll s p) := by
  delta resendAll
  repeat' first
    | with_reducible
        first
          | assumption | exact Keeps.refl _ | apply keeps_foldl | apply keeps_foldl2 | apply keeps_emitFrame
          | apply keeps_pumpPort
    | intro _
    | split
    | dsimp only

theorem keeps_replay {z0 : State} (s : State) (p : Nat) (hk : Keeps z0 s) : Keeps z0 (replay s p) := by
  delta replay
  repeat' first
    | with_reducible
        first
          | assumption | exact Keeps.refl _ | apply keeps_ite | apply keeps_ite2 | apply keeps_ite3
          | apply keeps_State_bump | apply keeps_raise | apply keeps_State_modFrl | apply keeps_portDown
          | apply keeps_resendAll
    | intro _
    | split
    | dsimp only

theorem keeps_protectFrame {z0 : State} (s : State) (f : Frame) (worker : Nat) (hk : Keeps z0 s) : Keeps z0 (protectFrame
    s f worker).2 := by
  delta protectFrame
  repeat' first
    | with_reducible
        first
          | assumption | exact Keeps.refl _ | apply keeps_modRing
    | intro _
    | split
    | dsimp only

theorem keeps_unprotected {z0 : State} (s : State) (f : Frame) (hk : Keeps z0 s) : Keeps z0 (unprotected s f) := by
  delta unprotected
  repeat' first | (with_reducible first | assumption | exact Keeps.refl _ | apply keeps_raise) | intro _ | split | dsimp only

theorem keeps_openFrame {z0 : State} (s : State) (f : Frame) (fault : Bool) (hk : Keeps z0 s) : Keeps z0 (openFrame s f
    fault).2 := by
  delta openFrame
  repeat' first
    | with_reducible
        first
          | assumption | exact Keeps.refl _ | apply keeps_ite | apply keeps_ite2 | apply keeps_modRing
          | apply keeps_State_bump | apply keeps_raise | apply keeps_unprotected
    | intro _
    | split
    | refine keeps_of_eq (by assumption) ?_
    | refine keeps_of_eq3 (by assumption) ?_
    | dsimp only

theorem keeps_deliverFrame {z0 : State} (s : State) (p : Nat) (f : Frame) (stamp : DWord) (fault : Bool) (hk : Keeps z0 s)
    : Keeps z0 (deliverFrame s p f stamp fault) := by
  delta deliverFrame
  repeat' first
    | with_reducible
        first
          | assumption | exact Keeps.refl _ | apply keeps_ite | apply keeps_ite2 | apply keeps_ite3
          | apply keeps_modRing | apply keeps_queueWriteAll | apply keeps_unprotected | apply keeps_openFrame
    | intro _
    | split
    | refine keeps_of_eq (by assumption) ?_
    | refine keeps_of_eq3 (by assumption) ?_
    | dsimp only

theorem keeps_acceptHeader {z0 : State} (s : State) (p : Nat) (hdr : List Byte) (stamp : DWord) (hk : Keeps z0 s) : Keeps
    z0 (acceptHeader s p hdr stamp) := by
  delta acceptHeader
  repeat' first
    | with_reducible
        first
          | assumption | exact Keeps.refl _ | apply keeps_ite | apply keeps_ite2 | apply keeps_ite3
          | apply keeps_State_bump | apply keeps_State_emit | apply keeps_deliver | apply keeps_State_modFrl
          | apply keeps_emitAck
    | intro _
    | split
    | dsimp only

theorem keeps_finishCut {z0 : State} (s : State) (o : Nat) (f : Frame) (hk : Keeps z0 s) : Keeps z0 (finishCut s o f) :=
    by
  delta finishCut
  repeat' first
    | with_reducible
        first
          | assumption | exact Keeps.refl _ | apply keeps_State_emit | apply keeps_State_modFrl | apply keeps_pumpPort
    | intro _
    | split
    | dsimp only

theorem keeps_noteBcast {z0 : State} (s : State) (f : Frame) (hk : Keeps z0 s) : Keeps z0 (noteBcast s f) := by
  delta noteBcast
  repeat' first
    | with_reducible
        first
          | assumption | exact Keeps.refl _ | apply keeps_ite | apply keeps_ite2 | apply keeps_ite3
          | apply keeps_modRing
    | intro _
    | split
    | dsimp only

theorem keeps_acceptEnd {z0 : State} (s : State) (p : Nat) (r : RxFrame) (payload : List Byte) (fault : Bool) (hk : Keeps
    z0 s) : Keeps z0 (acceptEnd s p r payload fault) := by
  delta acceptEnd
  repeat' first
    | with_reducible
        first
          | assumption | exact Keeps.refl _ | apply keeps_ite | apply keeps_ite2 | apply keeps_ite3
          | apply keeps_State_modFrl | apply keeps_sendOn | apply keeps_sendAck | apply keeps_deliverFrame
          | apply keeps_finishCut | apply keeps_noteBcast
    | intro _
    | split
    | dsimp only

end Sys2Proof.Machine
end

