-- ==== Sys2Proof/Laws/Keeps/Txn.lean ====
section
/-! SUPPORT. What the functions of `Machine/Txn.lean` keep: the queue of commands, and the canonical form of memory and registers. -/

set_option linter.unusedTactic false
set_option linter.unreachableTactic false

namespace Sys2Proof.Machine

theorem keeps_sendPlain {z0 : State} (s : State) (f : Frame) (path : Nat) (c : FrlClass) (fix : List Fix) (hk : Keeps z0
    s) : Keeps z0 (sendPlain s f path c fix) := by
  delta sendPlain
  repeat' first
    | with_reducible
        first
          | assumption | exact Keeps.refl _ | apply keeps_sendOn
    | intro _
    | split
    | dsimp only

theorem keeps_sendProtected {z0 : State} (s : State) (typ : Nat) (dst : Nat) (worker : Nat) (toEn : Bool) (rsp : Bool)
    (txn : Word) (plain : List Byte) (path : Nat) (hk : Keeps z0 s) : Keeps z0 (sendProtected s typ dst worker toEn rsp txn
    plain path) := by
  delta sendProtected
  repeat' first
    | with_reducible
        first
          | assumption | exact Keeps.refl _ | apply keeps_ite | apply keeps_ite2 | apply keeps_ite3
          | apply keeps_sendOn | apply keeps_protectFrame
    | intro _
    | split
    | refine keeps_of_eq (by assumption) ?_
    | refine keeps_of_eq3 (by assumption) ?_
    | dsimp only

theorem keeps_sendTxnFrame {z0 : State} (s : State) (t : TxnPend) (hk : Keeps z0 s) : Keeps z0 (sendTxnFrame s t) := by
  delta sendTxnFrame
  repeat' first
    | with_reducible
        first
          | assumption | exact Keeps.refl _ | apply keeps_sendProtected
    | intro _
    | split
    | dsimp only

theorem keeps_startTxn {z0 : State} (s : State) (pos : Nat) (toEn : Bool) (body : List Byte) (use : TxnUse) (hk : Keeps z0
    s) : Keeps z0 (startTxn s pos toEn body use) := by
  delta startTxn
  repeat' first
    | with_reducible
        first
          | assumption | exact Keeps.refl _ | apply keeps_ite | apply keeps_ite2 | apply keeps_ite3
          | apply keeps_modRing | apply keeps_sendTxnFrame
    | intro _
    | split
    | dsimp only

theorem keeps_sendTxnResponse {z0 : State} (s : State) (r : TxnRec) (body : List Byte) (hk : Keeps z0 s) : Keeps z0
    (sendTxnResponse s r body) := by
  delta sendTxnResponse
  repeat' first
    | with_reducible
        first
          | assumption | exact Keeps.refl _ | apply keeps_ite | apply keeps_ite2 | apply keeps_ite3
          | apply keeps_sendProtected
    | intro _
    | split
    | dsimp only

theorem keeps_respondTxn {z0 : State} (s : State) (src : Nat) (txn : Nat) (body : List Byte) (hk : Keeps z0 s) : Keeps z0
    (respondTxn s src txn body) := by
  delta respondTxn
  repeat' first
    | with_reducible
        first
          | assumption | exact Keeps.refl _ | apply keeps_modRing | apply keeps_State_resp
          | apply keeps_sendTxnResponse
    | intro _
    | split
    | refine keeps_of_eq (by assumption) ?_
    | refine keeps_of_eq3 (by assumption) ?_
    | dsimp only

theorem keeps_takeFrame {z0 : State} (s : State) (p : Nat) (test : Frame → Bool) (hk : Keeps z0 s) : Keeps z0 (takeFrame s
    p test).2 := by
  delta takeFrame
  repeat' first
    | with_reducible
        first
          | assumption | exact Keeps.refl _ | apply keeps_ite | apply keeps_ite2 | apply keeps_queuePacket
    | intro _
    | split
    | refine keeps_of_eq (by assumption) ?_
    | refine keeps_of_eq3 (by assumption) ?_
    | dsimp only

theorem keeps_admitTxn {z0 : State} (s : State) (p : Nat) (f : Frame) (hk : Keeps z0 s) : Keeps z0 (admitTxn s p f).2 :=
    by
  delta admitTxn
  repeat' first
    | with_reducible
        first
          | assumption | exact Keeps.refl _ | apply keeps_modRing | apply keeps_State_resp
          | apply keeps_sendTxnResponse
    | intro _
    | split
    | refine keeps_of_eq (by assumption) ?_
    | refine keeps_of_eq3 (by assumption) ?_
    | dsimp only

theorem keeps_takeTxn {z0 : State} (s : State) (p : Nat) (test : Nat → Bool) (hk : Keeps z0 s) : Keeps z0 (takeTxn s p
    test).2 := by
  delta takeTxn
  repeat' first
    | with_reducible
        first
          | assumption | exact Keeps.refl _ | apply keeps_takeFrame | apply keeps_admitTxn
    | intro _
    | split
    | refine keeps_of_eq (by assumption) ?_
    | refine keeps_of_eq3 (by assumption) ?_
    | dsimp only

end Sys2Proof.Machine
end

