-- ==== Sys2Proof/Laws/Keeps/HostBase.lean ====
section
/-! SUPPORT. What the functions of `Machine/HostBase.lean` keep: the queue of commands, and the canonical form of memory and registers. -/

set_option linter.unusedTactic false
set_option linter.unreachableTactic false

namespace Sys2Proof.Machine

theorem keeps_emitResponse {z0 : State} (s : State) (dst : BitVec 48) (code : Half) (txn : Word) (st : Half) (lane : Nat)
    (body : List Byte) (hk : Keeps z0 s) : Keeps z0 (emitResponse s dst code txn st lane body) := by
  delta emitResponse
  repeat' first
    | with_reducible
        first
          | assumption | exact Keeps.refl _ | apply keeps_ite | apply keeps_ite2 | apply keeps_ite3
          | apply keeps_State_emit
    | intro _
    | split
    | dsimp only

theorem keeps_recordCommand {z0 : State} (s : State) (txn : Word) (code : Half) (st : Half) (body : List Byte) (hk : Keeps
    z0 s) : Keeps z0 (recordCommand s txn code st body) := by
  delta recordCommand
  repeat' first
    | with_reducible
        first
          | assumption | exact Keeps.refl _ | apply keeps_modHost
    | intro _
    | split
    | dsimp only

theorem keeps_finishReply {z0 : State} (s : State) (r : ReplyTo) (st : Half) (body : List Byte) (hk : Keeps z0 s) : Keeps
    z0 (finishReply s r st body) := by
  delta finishReply
  repeat' first
    | with_reducible
        first
          | assumption | exact Keeps.refl _ | apply keeps_ite | apply keeps_ite2 | apply keeps_ite3
          | apply keeps_modSvc | apply keeps_State_resp | apply keeps_raise | apply keeps_respondTxn
          | apply keeps_emitResponse | apply keeps_recordCommand
    | intro _
    | split
    | refine keeps_of_eq (by assumption) ?_
    | refine keeps_of_eq3 (by assumption) ?_
    | dsimp only

theorem keeps_State_setBuf {z0 : State} (s : State) (b : Nat) (v : BulkBuf) (hk : Keeps z0 s) : Keeps z0 (State.setBuf s b
    v) := by
  delta State.setBuf
  repeat' first
    | with_reducible
        first
          | assumption | exact Keeps.refl _ | apply keeps_ite | apply keeps_ite2 | apply keeps_ite3
          | apply keeps_modHost
    | intro _
    | split
    | dsimp only

end Sys2Proof.Machine
end

