-- ==== Sys2Proof/Laws/Keeps/Setup.lean ====
section
/-! SUPPORT. What the functions of `Machine/Setup.lean` keep: the queue of commands, and the canonical form of memory and registers. -/

set_option linter.unusedTactic false
set_option linter.unreachableTactic false

namespace Sys2Proof.Machine

theorem keeps_ephemeral {z0 : State} (s : State) (hk : Keeps z0 s) : Keeps z0 (ephemeral s).2.2 := by
  delta ephemeral
  repeat' first
    | with_reducible
        first
          | assumption | exact Keeps.refl _ | apply keeps_State_drawBytes
    | intro _
    | split
    | refine keeps_of_eq (by assumption) ?_
    | refine keeps_of_eq3 (by assumption) ?_
    | dsimp only

theorem keeps_dropSetup {z0 : State} (s : State) (pos : Nat) (pathB : Bool) (hk : Keeps z0 s) : Keeps z0 (dropSetup s pos
    pathB) := by
  delta dropSetup
  repeat' first
    | with_reducible
        first
          | assumption | exact Keeps.refl _ | apply keeps_modKey
    | intro _
    | split
    | dsimp only

theorem keeps_putSetup {z0 : State} (s : State) (x : Setup) (hk : Keeps z0 s) : Keeps z0 (putSetup s x) := by
  delta putSetup
  repeat' first
    | with_reducible
        first
          | assumption | exact Keeps.refl _ | apply keeps_modKey | apply keeps_dropSetup
    | intro _
    | split
    | dsimp only

theorem keeps_sendSetup {z0 : State} (s : State) (dst : Nat) (pathB : Bool) (body : List Byte) (hk : Keeps z0 s) : Keeps
    z0 (sendSetup s dst pathB body) := by
  delta sendSetup
  repeat' first
    | with_reducible
        first
          | assumption | exact Keeps.refl _ | apply keeps_sendPlain
    | intro _
    | split
    | dsimp only

theorem keeps_abandonSetup {z0 : State} (s : State) (x : Setup) (hk : Keeps z0 s) : Keeps z0 (abandonSetup s x) := by
  delta abandonSetup
  repeat' first
    | with_reducible
        first
          | assumption | exact Keeps.refl _ | apply keeps_ite | apply keeps_ite2 | apply keeps_ite3
          | apply keeps_modKey | apply keeps_invalidateKey | apply keeps_dropSetup
    | intro _
    | split
    | dsimp only

theorem keeps_membershipFail {z0 : State} (s : State) (x : Setup) (hk : Keeps z0 s) : Keeps z0 (membershipFail s x) := by
  delta membershipFail
  repeat' first
    | with_reducible
        first
          | assumption | exact Keeps.refl _ | apply keeps_raise | apply keeps_abandonSetup
    | intro _
    | split
    | dsimp only

theorem keeps_startSetup {z0 : State} (s : State) (pos : Nat) (pathB : Bool) (tries : Nat) (hk : Keeps z0 s) : Keeps z0
    (startSetup s pos pathB tries) := by
  delta startSetup
  repeat' first
    | with_reducible
        first
          | assumption | exact Keeps.refl _ | apply keeps_ite | apply keeps_ite2 | apply keeps_ite3
          | apply keeps_State_drawBytes | apply keeps_putSetup | apply keeps_sendSetup | apply keeps_abandonSetup
    | intro _
    | split
    | refine keeps_of_eq (by assumption) ?_
    | refine keeps_of_eq3 (by assumption) ?_
    | dsimp only

theorem keeps_restartPseq {z0 : State} (s : State) (worker : Nat) (pathB : Bool) (hk : Keeps z0 s) : Keeps z0 (restartPseq
    s worker pathB) := by
  delta restartPseq
  repeat' first
    | with_reducible
        first
          | assumption | exact Keeps.refl _ | apply keeps_modRing
    | intro _
    | split
    | dsimp only

theorem keeps_takeSetup {z0 : State} (s : State) (p : Nat) (msg : Nat) (hk : Keeps z0 s) : Keeps z0 (takeSetup s p msg).2
    := by
  delta takeSetup
  repeat' first
    | with_reducible
        first
          | assumption | exact Keeps.refl _ | apply keeps_takeFrame
    | intro _
    | split
    | dsimp only

end Sys2Proof.Machine
end

