-- ==== Sys2Proof/Laws/Keeps/Store.lean ====
section
/-! SUPPORT. What the functions of `Machine/Store.lean` keep: the queue of commands, and the canonical form of memory and registers. -/

set_option linter.unusedTactic false
set_option linter.unreachableTactic false

namespace Sys2Proof.Machine

theorem keeps_writeCopy {z0 : State} (s : State) (a : Nat) (b : Nat) (magic : Nat) (words : Nat) (body : List Byte) (hk :
    Keeps z0 s) : Keeps z0 (writeCopy s a b magic words body) := by
  delta writeCopy
  repeat' first
    | with_reducible
        first
          | assumption | exact Keeps.refl _ | apply keeps_ite | apply keeps_ite2 | apply keeps_ite3
          | apply keeps_mramStoreBytes
    | intro _
    | split
    | refine keeps_of_eq (by assumption) ?_
    | refine keeps_of_eq3 (by assumption) ?_
    | dsimp only

theorem keeps_writeSticky {z0 : State} (s : State) (b : List Byte) (hk : Keeps z0 s) : Keeps z0 (writeSticky s b) := by
  delta writeSticky
  repeat' first
    | with_reducible
        first
          | assumption | exact Keeps.refl _ | apply keeps_writeCopy
    | intro _
    | split
    | dsimp only

theorem keeps_saveSticky {z0 : State} (s : State) (hk : Keeps z0 s) : Keeps z0 (saveSticky s) := by
  delta saveSticky
  repeat' first
    | with_reducible
        first
          | assumption | exact Keeps.refl _ | apply keeps_writeSticky
    | intro _
    | split
    | dsimp only

theorem keeps_loadSticky {z0 : State} (s : State) (hk : Keeps z0 s) : Keeps z0 (loadSticky s) := by
  delta loadSticky
  repeat' first
    | with_reducible
        first
          | assumption | exact Keeps.refl _ | apply keeps_ite | apply keeps_ite2 | apply keeps_ite3
          | apply keeps_modRing
    | intro _
    | split
    | refine keeps_of_eq (by assumption) ?_
    | refine keeps_of_eq3 (by assumption) ?_
    | dsimp only

theorem keeps_savePlant {z0 : State} (s : State) (c : PlantCfg) (hk : Keeps z0 s) : Keeps z0 (savePlant s c) := by
  delta savePlant
  repeat' first
    | with_reducible
        first
          | assumption | exact Keeps.refl _ | apply keeps_writeCopy
    | intro _
    | split
    | dsimp only

theorem keeps_drawEpoch {z0 : State} (s : State) (hk : Keeps z0 s) : Keeps z0 (drawEpoch s) := by
  delta drawEpoch
  repeat' first
    | with_reducible
        first
          | assumption | exact Keeps.refl _ | apply keeps_ite | apply keeps_ite2 | apply keeps_ite3
          | apply keeps_modHost | apply keeps_State_drawWord | apply keeps_writeCopy
    | intro _
    | split
    | refine keeps_of_eq (by assumption) ?_
    | refine keeps_of_eq3 (by assumption) ?_
    | dsimp only

theorem keeps_savePosition {z0 : State} (s : State) (p : Nat) (hk : Keeps z0 s) : Keeps z0 (savePosition s p) := by
  delta savePosition
  repeat' first
    | with_reducible
        first
          | assumption | exact Keeps.refl _ | apply keeps_ite | apply keeps_ite2 | apply keeps_ite3
          | apply keeps_writeCopy
    | intro _
    | split
    | dsimp only

theorem keeps_loadPosition {z0 : State} (s : State) (p : Nat) (hk : Keeps z0 s) : Keeps z0 (loadPosition s p) := by
  delta loadPosition
  repeat' first
    | with_reducible
        first
          | assumption | exact Keeps.refl _ | apply keeps_modHost | apply keeps_modSvc | apply keeps_loopStore
    | intro _
    | split
    | refine keeps_of_eq (by assumption) ?_
    | refine keeps_of_eq3 (by assumption) ?_
    | dsimp only

theorem keeps_loadStore {z0 : State} (s : State) (hk : Keeps z0 s) : Keeps z0 (loadStore s) := by
  delta loadStore
  repeat' first
    | with_reducible
        first
          | assumption | exact Keeps.refl _ | apply keeps_foldl | apply keeps_foldl2 | apply keeps_modHost
          | apply keeps_State_wrb | apply keeps_loadSticky | apply keeps_loadPosition
    | intro _
    | split
    | refine keeps_of_eq (by assumption) ?_
    | refine keeps_of_eq3 (by assumption) ?_
    | dsimp only

end Sys2Proof.Machine
end

