-- ==== Sys2Proof/Laws/Keeps/Ring.lean ====
section
/-! SUPPORT. What the functions of `Machine/Ring.lean` keep: the queue of commands, and the canonical form of memory and registers. -/

set_option linter.unusedTactic false
set_option linter.unreachableTactic false

namespace Sys2Proof.Machine

theorem keeps_takeLink {z0 : State} (s : State) (p : Nat) (typ : Nat) (hk : Keeps z0 s) : Keeps z0 (takeLink s p typ).2 :=
    by
  delta takeLink
  repeat' first
    | with_reducible
        first
          | assumption | exact Keeps.refl _ | apply keeps_modRing
    | intro _
    | split
    | refine keeps_of_eq (by assumption) ?_
    | refine keeps_of_eq3 (by assumption) ?_
    | dsimp only

theorem keeps_setCtValid {z0 : State} (s : State) (b : Bool) (hk : Keeps z0 s) : Keeps z0 (setCtValid s b) := by
  delta setCtValid
  repeat' first
    | with_reducible
        first
          | assumption | exact Keeps.refl _ | apply keeps_State_wrb
    | intro _
    | split
    | dsimp only

theorem keeps_loseTime {z0 : State} (s : State) (hk : Keeps z0 s) : Keeps z0 (loseTime s) := by
  delta loseTime
  repeat' first
    | with_reducible
        first
          | assumption | exact Keeps.refl _ | apply keeps_ite | apply keeps_ite2 | apply keeps_ite3
          | apply keeps_raise | apply keeps_setCtValid
    | intro _
    | split
    | dsimp only

theorem keeps_correctTime {z0 : State} (s : State) (off : Int) (hk : Keeps z0 s) : Keeps z0 (correctTime s off) := by
  delta correctTime
  repeat' first
    | with_reducible
        first
          | assumption | exact Keeps.refl _ | apply keeps_ite | apply keeps_ite2 | apply keeps_ite3
          | apply keeps_modRing | apply keeps_State_wr | apply keeps_State_wrb | apply keeps_State_bump
          | apply keeps_State_stepCt | apply keeps_setCtValid | apply keeps_loseTime
    | intro _
    | split
    | dsimp only

theorem keeps_noteTime {z0 : State} (s : State) (path : Nat) (tseq : Nat) (hops : Nat) (hk : Keeps z0 s) : Keeps z0
    (noteTime s path tseq hops) := by
  delta noteTime
  repeat' first
    | with_reducible
        first
          | assumption | exact Keeps.refl _ | apply keeps_ite | apply keeps_ite2 | apply keeps_ite3
          | apply keeps_modRing | apply keeps_modSvc | apply keeps_State_wrf
    | intro _
    | split
    | dsimp only

theorem keeps_takeBcast {z0 : State} (s : State) (hk : Keeps z0 s) : Keeps z0 (takeBcast s).2 := by
  delta takeBcast
  repeat' first
    | with_reducible
        first
          | assumption | exact Keeps.refl _ | apply keeps_modRing
    | intro _
    | split
    | dsimp only

theorem keeps_checkReturn {z0 : State} (s : State) (p : Nat) (hk : Keeps z0 s) : Keeps z0 (checkReturn s p) := by
  delta checkReturn
  repeat' first
    | with_reducible
        first
          | assumption | exact Keeps.refl _ | apply keeps_ite | apply keeps_ite2 | apply keeps_ite3
          | apply keeps_modRing | apply keeps_ringOpen
    | intro _
    | split
    | dsimp only

theorem keeps_sendTime {z0 : State} (s : State) (p : Nat) (hk : Keeps z0 s) : Keeps z0 (sendTime s p) := by
  delta sendTime
  repeat' first
    | with_reducible
        first
          | assumption | exact Keeps.refl _ | apply keeps_sendOn | apply keeps_takeBcast
    | intro _
    | split
    | refine keeps_of_eq (by assumption) ?_
    | refine keeps_of_eq3 (by assumption) ?_
    | dsimp only

theorem keeps_enumNode {z0 : State} (s : State) (p : Nat) (f : Frame) (stamp : DWord) (hk : Keeps z0 s) : Keeps z0
    (enumNode s p f stamp) := by
  delta enumNode
  repeat' first
    | with_reducible
        first
          | assumption | exact Keeps.refl _ | apply keeps_ite | apply keeps_ite2 | apply keeps_ite3
          | apply keeps_sendOn
    | intro _
    | split
    | dsimp only

theorem keeps_sendEnum {z0 : State} (s : State) (p : Nat) (nonce : List Byte) (hk : Keeps z0 s) : Keeps z0 (sendEnum s p
    nonce) := by
  delta sendEnum
  repeat' first
    | with_reducible
        first
          | assumption | exact Keeps.refl _ | apply keeps_ite | apply keeps_ite2 | apply keeps_ite3
          | apply keeps_modRing | apply keeps_sendOn
    | intro _
    | split
    | dsimp only

theorem keeps_sendRound {z0 : State} (s : State) (nonce : List Byte) (hk : Keeps z0 s) : Keeps z0 (sendRound s nonce) :=
    by
  delta sendRound
  repeat' first
    | with_reducible
        first
          | assumption | exact Keeps.refl _ | apply keeps_ite | apply keeps_ite2 | apply keeps_ite3
          | apply keeps_sendEnum
    | intro _
    | split
    | dsimp only

theorem keeps_sendAssign {z0 : State} (s : State) (n : RingNode) (pos : Nat) (hk : Keeps z0 s) : Keeps z0 (sendAssign s n
    pos) := by
  delta sendAssign
  repeat' first
    | with_reducible
        first
          | assumption | exact Keeps.refl _ | apply keeps_ite | apply keeps_ite2 | apply keeps_ite3
          | apply keeps_sendPlain | apply keeps_sendProtected
    | intro _
    | split
    | dsimp only

theorem keeps_lanePresent {z0 : State} (s : State) (n : RingNode) (hk : Keeps z0 s) : Keeps z0 (lanePresent s n) := by
  delta lanePresent
  repeat' first
    | with_reducible
        first
          | assumption | exact Keeps.refl _ | apply keeps_ite | apply keeps_ite2 | apply keeps_ite3
          | apply keeps_modFw | apply keeps_setLane
    | intro _
    | split
    | dsimp only

theorem keeps_nodeLost {z0 : State} (s : State) (pos : Nat) (hk : Keeps z0 s) : Keeps z0 (nodeLost s pos) := by
  delta nodeLost
  repeat' first
    | with_reducible
        first
          | assumption | exact Keeps.refl _ | apply keeps_modFw | apply keeps_setLane | apply keeps_raise
          | apply keeps_invalidateKey
    | intro _
    | split
    | dsimp only

theorem keeps_agreeKeys {z0 : State} (s : State) (n : RingNode) (hk : Keeps z0 s) : Keeps z0 (agreeKeys s n) := by
  delta agreeKeys
  repeat' first
    | with_reducible
        first
          | assumption | exact Keeps.refl _ | apply keeps_foldl | apply keeps_foldl2 | apply keeps_ite
          | apply keeps_ite2 | apply keeps_ite3 | apply keeps_invalidateKey | apply keeps_startSetup
    | intro _
    | split
    | dsimp only

theorem keeps_provisionMap {z0 : State} (s : State) (hk : Keeps z0 s) : Keeps z0 (provisionMap s) := by
  delta provisionMap
  repeat' first
    | with_reducible
        first
          | assumption | exact Keeps.refl _ | apply keeps_ite | apply keeps_ite2 | apply keeps_ite3
          | apply keeps_startTxn
    | intro _
    | split
    | refine keeps_of_eq (by assumption) ?_
    | refine keeps_of_eq3 (by assumption) ?_
    | dsimp only

theorem keeps_provisionRecord {z0 : State} (s : State) (pos : Nat) (hk : Keeps z0 s) : Keeps z0 (provisionRecord s pos) :=
    by
  delta provisionRecord
  repeat' first
    | with_reducible
        first
          | assumption | exact Keeps.refl _ | apply keeps_ite | apply keeps_ite2 | apply keeps_ite3
          | apply keeps_startTxn
    | intro _
    | split
    | refine keeps_of_eq (by assumption) ?_
    | refine keeps_of_eq3 (by assumption) ?_
    | dsimp only

theorem keeps_moveLane {z0 : State} (before : State) (s : State) (n : RingNode) (pos : Nat) (hk : Keeps z0 s) : Keeps z0
    (moveLane before s n pos) := by
  delta moveLane
  repeat' first
    | with_reducible
        first
          | assumption | exact Keeps.refl _ | apply keeps_ite | apply keeps_ite2 | apply keeps_ite3
          | apply keeps_modLanes | apply keeps_modHost | apply keeps_modSvc | apply keeps_postEvent
          | apply keeps_invalidateKey | apply keeps_loopStore
    | intro _
    | split
    | dsimp only

theorem keeps_dropLane {z0 : State} (s : State) (olds : List Nat) (news : List Nat) (hk : Keeps z0 s) : Keeps z0 (dropLane
    s olds news) := by
  delta dropLane
  repeat' first
    | with_reducible
        first
          | assumption | exact Keeps.refl _ | apply keeps_foldl | apply keeps_foldl2 | apply keeps_modLanes
    | intro _
    | split
    | dsimp only

theorem keeps_adoptTime {z0 : State} (s : State) (res : List EnumRes) (hk : Keeps z0 s) : Keeps z0 (adoptTime s res) := by
  delta adoptTime
  repeat' first
    | with_reducible
        first
          | assumption | exact Keeps.refl _ | apply keeps_foldl | apply keeps_foldl2 | apply keeps_ite
          | apply keeps_ite2 | apply keeps_ite3 | apply keeps_modRing | apply keeps_State_stepCt
    | intro _
    | split
    | refine keeps_of_eq (by assumption) ?_
    | refine keeps_of_eq3 (by assumption) ?_
    | dsimp only

theorem keeps_enumDecide {z0 : State} (s : State) (a : EnumRes) (b : Option EnumRes) (hk : Keeps z0 s) :
    Keeps z0 (enumDecide s a b) := by
  delta enumDecide
  extract_lets all final renum mismatch s1 over1 over2 s2 openEmpty s3 s4 moved t0 s5 found occ n' s6 s7 s8 s9 known s10 s11 s12 s13 s14
  have h1 : Keeps z0 s1 := keeps_ite (fun _ => keeps_raise _ _ _ _ hk) fun _ => hk
  clear_value s1
  have h2 : Keeps z0 s2 := by
    clear_value over2
    cases over2
    · exact h1
    · exact keeps_raise _ _ _ _ h1
  clear_value s2
  have h3 : Keeps z0 s3 := keeps_ite (fun _ => keeps_modRing (keeps_raise _ _ _ _ h2)) fun _ => h2
  clear_value s3
  have h4 : Keeps z0 s4 := keeps_foldl _ _ _ (fun t x => keeps_sendAssign _ _ _ (Keeps.refl t)) h3
  have h5 : Keeps z0 s5 := by
    refine keeps_ite (fun _ => ?_) fun _ => h4
    have ht : Keeps z0 t0 := keeps_foldl _ _ _ (fun t x => keeps_moveLane _ _ _ _ (Keeps.refl t)) h4
    exact keeps_raise _ _ _ _ (keeps_dropLane _ _ _ ht)
  clear_value s5
  have h6 : Keeps z0 s6 := keeps_modRing h5
  clear_value s6
  have h7 : Keeps z0 s7 := keeps_State_wr _ _ _ h6
  clear_value s7
  have h8 : Keeps z0 s8 := keeps_foldl _ _ _ (fun t x => keeps_lanePresent _ _ (Keeps.refl t)) h7
  clear_value s8
  have h9 : Keeps z0 s9 := keeps_ite (fun _ => h8) fun _ => keeps_foldl _ _ _ (fun t x => keeps_nodeLost t x (Keeps.refl t)) h8
  clear_value s9
  have h10 : Keeps z0 s10 := keeps_foldl _ _ _ (fun t x => keeps_raise _ _ _ _ (Keeps.refl t)) h9
  clear_value s10
  have h11 : Keeps z0 s11 := keeps_adoptTime _ _ h10
  clear_value s11
  have h12 : Keeps z0 s12 := keeps_ite (fun _ => h11) fun _ => keeps_saveSticky _ h11
  clear_value s12
  have h13 : Keeps z0 s13 := by
    refine keeps_ite (fun _ => ?_) fun _ => h12
    exact keeps_foldl _ _ _ (fun t x => keeps_ite (fun _ => Keeps.refl t) fun _ => keeps_provisionRecord _ _ (keeps_savePosition _ _ (Keeps.refl t))) h12
  clear_value s13
  have h14 : Keeps z0 s14 := by
    refine keeps_foldl _ _ _ (fun t x => keeps_agreeKeys _ _ (Keeps.refl t)) ?_
    exact keeps_ite (fun _ => h13) fun _ => keeps_provisionMap _ h13
  clear_value s14
  split
  · exact keeps_finishReply _ _ _ _ h14
  · exact h14

theorem keeps_enumEvaluate {z0 : State} (s : State) (hk : Keeps z0 s) : Keeps z0 (enumEvaluate s) := by
  delta enumEvaluate
  repeat' first
    | with_reducible
        first
          | assumption | exact Keeps.refl _ | apply keeps_ite | apply keeps_ite2 | apply keeps_ite3
          | apply keeps_modRing | apply keeps_finishReply | apply keeps_enumDecide
    | intro _
    | split
    | refine keeps_of_eq (by assumption) ?_
    | refine keeps_of_eq3 (by assumption) ?_
    | dsimp only

theorem keeps_duplicateManager {z0 : State} (s : State) (hk : Keeps z0 s) : Keeps z0 (duplicateManager s) := by
  delta duplicateManager
  repeat' first
    | with_reducible
        first
          | assumption | exact Keeps.refl _ | apply keeps_ite | apply keeps_ite2 | apply keeps_ite3
          | apply keeps_modRing | apply keeps_setLane | apply keeps_ejDisarm | apply keeps_raise
    | intro _
    | split
    | dsimp only

theorem keeps_enumManager {z0 : State} (s : State) (p : Nat) (f : Frame) (stamp : DWord) (hk : Keeps z0 s) : Keeps z0
    (enumManager s p f stamp) := by
  delta enumManager
  repeat' first
    | with_reducible
        first
          | assumption | exact Keeps.refl _ | apply keeps_ite | apply keeps_ite2 | apply keeps_ite3
          | apply keeps_modRing | apply keeps_sendOn | apply keeps_enumEvaluate | apply keeps_duplicateManager
    | intro _
    | split
    | dsimp only

theorem keeps_startEnum {z0 : State} (s : State) (hk : Keeps z0 s) : Keeps z0 (startEnum s) := by
  delta startEnum
  repeat' first
    | with_reducible
        first
          | assumption | exact Keeps.refl _ | apply keeps_ite | apply keeps_ite2 | apply keeps_ite3
          | apply keeps_modRing | apply keeps_State_wrf | apply keeps_State_drawBytes | apply keeps_sendRound
    | intro _
    | split
    | refine keeps_of_eq (by assumption) ?_
    | refine keeps_of_eq3 (by assumption) ?_
    | dsimp only

theorem keeps_takePosition {z0 : State} (s : State) (pos : Nat) (hk : Keeps z0 s) : Keeps z0 (takePosition s pos) := by
  delta takePosition
  repeat' first
    | with_reducible
        first
          | assumption | exact Keeps.refl _ | apply keeps_ite | apply keeps_ite2 | apply keeps_ite3
          | apply keeps_State_wrf | apply keeps_setSess
    | intro _
    | split
    | dsimp only

end Sys2Proof.Machine
end

