-- ==== Sys2Proof/Laws/Keeps/FrontEnd.lean ====
section
/-! SUPPORT. What the functions of `Machine/FrontEnd.lean` keep: the queue of commands, and the canonical form of memory and registers. -/

set_option linter.unusedTactic false
set_option linter.unreachableTactic false

namespace Sys2Proof.Machine

theorem keeps_startRun {z0 : State} (s : State) (hk : Keeps z0 s) : Keeps z0 (startRun s) := by
  delta startRun
  repeat' first
    | with_reducible
        first
          | assumption | exact Keeps.refl _ | apply keeps_modFe | apply keeps_modNuc | apply keeps_modTdi
          | apply keeps_State_wr | apply keeps_State_wrb
    | intro _
    | split
    | dsimp only

theorem keeps_feCtrlEffect {z0 : State} (s : State) (v : Word) (hk : Keeps z0 s) : Keeps z0 (feCtrlEffect s v) := by
  delta feCtrlEffect
  repeat' first
    | with_reducible
        first
          | assumption | exact Keeps.refl _ | apply keeps_ite | apply keeps_ite2 | apply keeps_ite3
          | apply keeps_State_wrb | apply keeps_raise | apply keeps_startRun
    | intro _
    | split
    | dsimp only

theorem keeps_feConfigEffect {z0 : State} (a : Nat) (s : State) (v : Word) (hk : Keeps z0 s) : Keeps z0 (feConfigEffect a
    s v) := by
  delta feConfigEffect
  repeat' first
    | with_reducible
        first
          | assumption | exact Keeps.refl _ | apply keeps_ite | apply keeps_ite2 | apply keeps_ite3
          | apply keeps_raise | apply keeps_fieldWrite
    | intro _
    | split
    | dsimp only

theorem keeps_feOutEffect {z0 : State} (s : State) (v : Word) (hk : Keeps z0 s) : Keeps z0 (feOutEffect s v) := by
  delta feOutEffect
  repeat' first
    | with_reducible
        first
          | assumption | exact Keeps.refl _ | apply keeps_ite | apply keeps_ite2 | apply keeps_ite3
          | apply keeps_modFe | apply keeps_State_wr | apply keeps_raise | apply keeps_fieldWrite
    | intro _
    | split
    | dsimp only

theorem keeps_biasEffect {z0 : State} (n : Fin 6) (s : State) (v : Word) (hk : Keeps z0 s) : Keeps z0 (biasEffect n s v)
    := by
  delta biasEffect
  repeat' first
    | with_reducible
        first
          | assumption | exact Keeps.refl _ | apply keeps_ite | apply keeps_ite2 | apply keeps_ite3
          | apply keeps_modFe | apply keeps_State_wrb | apply keeps_raise | apply keeps_fieldWrite
    | intro _
    | split
    | dsimp only

theorem keeps_fptConvert {z0 : State} (s : State) (raw : Nat) (hk : Keeps z0 s) : Keeps z0 (fptConvert s raw).2.2 := by
  delta fptConvert
  repeat' first
    | with_reducible
        first
          | assumption | exact Keeps.refl _ | apply keeps_ite | apply keeps_ite3 | apply keeps_State_drawWord
    | intro _
    | split
    | refine keeps_of_eq (by assumption) ?_
    | refine keeps_of_eq3 (by assumption) ?_
    | dsimp only

theorem keeps_fptFault {z0 : State} (s : State) (bit : Nat) (already : Bool) (code : Half) (hk : Keeps z0 s) : Keeps z0
    (fptFault s bit already code) := by
  delta fptFault
  repeat' first
    | with_reducible
        first
          | assumption | exact Keeps.refl _ | apply keeps_ite | apply keeps_ite2 | apply keeps_ite3
          | apply keeps_State_wrb | apply keeps_raise
    | intro _
    | split
    | dsimp only

theorem keeps_fptCfgEffect {z0 : State} (s : State) (v : Word) (hk : Keeps z0 s) : Keeps z0 (fptCfgEffect s v) := by
  delta fptCfgEffect
  repeat' first
    | with_reducible
        first
          | assumption | exact Keeps.refl _ | apply keeps_ite | apply keeps_ite2 | apply keeps_ite3
          | apply keeps_State_wr | apply keeps_fieldWrite
    | intro _
    | split
    | dsimp only

end Sys2Proof.Machine
end

