-- ==== Sys2Proof/Laws/Keeps/Shutter.lean ====
section
/-! SUPPORT. What the functions of `Machine/Shutter.lean` keep: the queue of commands, and the canonical form of memory and registers. -/

set_option linter.unusedTactic false
set_option linter.unreachableTactic false

namespace Sys2Proof.Machine

theorem keeps_startPulse {z0 : State} (s : State) (closing : Bool) (hk : Keeps z0 s) : Keeps z0 (startPulse s closing) :=
    by
  delta startPulse
  repeat' first
    | with_reducible
        first
          | assumption | exact Keeps.refl _ | apply keeps_modPower | apply keeps_modSht
    | intro _
    | split
    | dsimp only

theorem keeps_flagOpened {z0 : State} (s : State) (hk : Keeps z0 s) : Keeps z0 (flagOpened s) := by
  delta flagOpened
  repeat' first
    | with_reducible
        first
          | assumption | exact Keeps.refl _ | apply keeps_ite | apply keeps_ite2 | apply keeps_ite3
          | apply keeps_modSht | apply keeps_modNuc
    | intro _
    | split
    | dsimp only

theorem keeps_startOpenPulse {z0 : State} (s : State) (hk : Keeps z0 s) : Keeps z0 (startOpenPulse s) := by
  delta startOpenPulse
  repeat' first
    | with_reducible
        first
          | assumption | exact Keeps.refl _ | apply keeps_ite | apply keeps_ite2 | apply keeps_ite3
          | apply keeps_modSht | apply keeps_modNuc | apply keeps_startPulse | apply keeps_flagOpened
    | intro _
    | split
    | dsimp only

theorem keeps_seqTryOpen {z0 : State} (s : State) (hk : Keeps z0 s) : Keeps z0 (seqTryOpen s) := by
  delta seqTryOpen
  repeat' first
    | with_reducible
        first
          | assumption | exact Keeps.refl _ | apply keeps_ite | apply keeps_ite2 | apply keeps_ite3
          | apply keeps_modSht | apply keeps_startOpenPulse
    | intro _
    | split
    | dsimp only

theorem keeps_eventEnded {z0 : State} (s : State) (ok : Bool) (hk : Keeps z0 s) : Keeps z0 (eventEnded s ok) := by
  delta eventEnded
  repeat' first
    | with_reducible
        first
          | assumption | exact Keeps.refl _ | apply keeps_ite | apply keeps_ite2 | apply keeps_ite3
          | apply keeps_modSvc | apply keeps_State_wrb | apply keeps_State_bump
    | intro _
    | split
    | dsimp only

theorem keeps_shtStart {z0 : State} (s : State) (r : ShtRequest) (hk : Keeps z0 s) : Keeps z0 (shtStart s r) := by
  delta shtStart
  repeat' first
    | with_reducible
        first
          | assumption | exact Keeps.refl _ | apply keeps_modSht | apply keeps_modNuc | apply keeps_startPulse
          | apply keeps_startOpenPulse
    | intro _
    | split
    | refine keeps_of_eq (by assumption) ?_
    | refine keeps_of_eq3 (by assumption) ?_
    | dsimp only

theorem keeps_shtRequest {z0 : State} (s : State) (r : ShtRequest) (hk : Keeps z0 s) : Keeps z0 (shtRequest s r).2 := by
  delta shtRequest
  repeat' first
    | with_reducible
        first
          | assumption | exact Keeps.refl _ | apply keeps_raise | apply keeps_shtStart
    | intro _
    | split
    | refine keeps_of_eq (by assumption) ?_
    | refine keeps_of_eq3 (by assumption) ?_
    | dsimp only

theorem keeps_shtCmdEffect {z0 : State} (s : State) (v : Word) (hk : Keeps z0 s) : Keeps z0 (shtCmdEffect s v) := by
  delta shtCmdEffect
  repeat' first
    | with_reducible
        first
          | assumption | exact Keeps.refl _ | apply keeps_shtRequest
    | intro _
    | split
    | refine keeps_of_eq (by assumption) ?_
    | refine keeps_of_eq3 (by assumption) ?_
    | dsimp only

theorem keeps_flagUncommanded {z0 : State} (s : State) (hk : Keeps z0 s) : Keeps z0 (flagUncommanded s) := by
  delta flagUncommanded
  repeat' first
    | with_reducible
        first
          | assumption | exact Keeps.refl _ | apply keeps_modSht | apply keeps_raise | apply keeps_seqTryOpen
    | intro _
    | split
    | dsimp only

theorem keeps_positionChanged {z0 : State} (s : State) (old : ShtPos) (new : ShtPos) (hk : Keeps z0 s) : Keeps z0
    (positionChanged s old new) := by
  delta positionChanged
  repeat' first
    | with_reducible
        first
          | assumption | exact Keeps.refl _ | apply keeps_ite | apply keeps_ite2 | apply keeps_ite3
          | apply keeps_modSht | apply keeps_modNuc | apply keeps_flagOpened | apply keeps_flagUncommanded
    | intro _
    | split
    | refine keeps_of_eq (by assumption) ?_
    | refine keeps_of_eq3 (by assumption) ?_
    | dsimp only

theorem keeps_settleNoClose {z0 : State} (s : State) (hk : Keeps z0 s) : Keeps z0 (settleNoClose s) := by
  delta settleNoClose
  repeat' first
    | with_reducible
        first
          | assumption | exact Keeps.refl _ | apply keeps_modSht | apply keeps_raise | apply keeps_seqTryOpen
    | intro _
    | split
    | dsimp only

theorem keeps_settleNoOpen {z0 : State} (s : State) (hk : Keeps z0 s) : Keeps z0 (settleNoOpen s) := by
  delta settleNoOpen
  repeat' first
    | with_reducible
        first
          | assumption | exact Keeps.refl _ | apply keeps_ite | apply keeps_ite2 | apply keeps_ite3
          | apply keeps_modSht | apply keeps_ownLaneFault | apply keeps_raise | apply keeps_seqTryOpen
          | apply keeps_eventEnded
    | intro _
    | split
    | dsimp only

theorem keeps_shtBankLost {z0 : State} (s : State) (hk : Keeps z0 s) : Keeps z0 (shtBankLost s) := by
  delta shtBankLost
  repeat' first
    | with_reducible
        first
          | assumption | exact Keeps.refl _ | apply keeps_ite | apply keeps_ite2 | apply keeps_ite3
          | apply keeps_modSht | apply keeps_modNuc | apply keeps_eventEnded
    | intro _
    | split
    | dsimp only

theorem keeps_readFlag {z0 : State} (s : State) (hk : Keeps z0 s) : Keeps z0 (readFlag s) := by
  delta readFlag
  repeat' first
    | with_reducible
        first
          | assumption | exact Keeps.refl _ | apply keeps_ite | apply keeps_ite2 | apply keeps_ite3
          | apply keeps_modSht | apply keeps_shtStart
    | intro _
    | split
    | dsimp only

end Sys2Proof.Machine
end

