-- ==== Sys2Proof/Laws/Keeps/Pipeline.lean ====
section
/-! SUPPORT. What the functions of `Machine/Pipeline.lean` keep: the queue of commands, and the canonical form of memory and registers. -/

set_option linter.unusedTactic false
set_option linter.unreachableTactic false

namespace Sys2Proof.Machine

theorem keeps_coefError {z0 : State} (s : State) (p : Nat) (e : Fin 4 × Bool) (hk : Keeps z0 s) : Keeps z0 (coefError s p
    e) := by
  delta coefError
  repeat' first
    | with_reducible
        first
          | assumption | exact Keeps.refl _ | apply keeps_ite | apply keeps_ite2 | apply keeps_ite3
          | apply keeps_modNuc | apply keeps_State_wr | apply keeps_State_bump | apply keeps_raise
    | intro _
    | split
    | dsimp only

theorem keeps_nextCaddr {z0 : State} (s : State) (hk : Keeps z0 s) : Keeps z0 (nextCaddr s) := by
  delta nextCaddr
  repeat' first
    | with_reducible
        first
          | assumption | exact Keeps.refl _ | apply keeps_State_wrf
    | intro _
    | split
    | dsimp only

theorem keeps_coefWriteEffect {z0 : State} (s : State) (v : Word) (hk : Keeps z0 s) : Keeps z0 (coefWriteEffect s v) := by
  delta coefWriteEffect
  repeat' first
    | with_reducible
        first
          | assumption | exact Keeps.refl _ | apply keeps_ite | apply keeps_ite2 | apply keeps_ite3
          | apply keeps_modNuc | apply keeps_State_wr | apply keeps_raise | apply keeps_nextCaddr
    | intro _
    | split
    | dsimp only

theorem keeps_coefReadEffect {z0 : State} (s : State) (hk : Keeps z0 s) : Keeps z0 (coefReadEffect s).2 := by
  delta coefReadEffect
  repeat' first
    | with_reducible
        first
          | assumption | exact Keeps.refl _ | apply keeps_State_wr | apply keeps_nextCaddr
    | intro _
    | split
    | dsimp only

theorem keeps_setselEffect {z0 : State} (s : State) (v : Word) (hk : Keeps z0 s) : Keeps z0 (setselEffect s v) := by
  delta setselEffect
  repeat' first
    | with_reducible
        first
          | assumption | exact Keeps.refl _ | apply keeps_ite | apply keeps_ite2 | apply keeps_ite3
          | apply keeps_modNuc | apply keeps_raise | apply keeps_fieldWrite
    | intro _
    | split
    | dsimp only

theorem keeps_applySelection {z0 : State} (s : State) (hk : Keeps z0 s) : Keeps z0 (applySelection s) := by
  delta applySelection
  repeat' first
    | with_reducible
        first
          | assumption | exact Keeps.refl _ | apply keeps_ite | apply keeps_ite2 | apply keeps_ite3
          | apply keeps_modNuc | apply keeps_raise
    | intro _
    | split
    | refine keeps_of_eq (by assumption) ?_
    | refine keeps_of_eq3 (by assumption) ?_
    | dsimp only

theorem keeps_startRow {z0 : State} (s : State) (hk : Keeps z0 s) : Keeps z0 (startRow s) := by
  delta startRow
  repeat' first
    | with_reducible
        first
          | assumption | exact Keeps.refl _ | apply keeps_ite | apply keeps_ite2 | apply keeps_ite3
          | apply keeps_modNuc | apply keeps_State_wrb | apply keeps_raise
    | intro _
    | split
    | dsimp only

theorem keeps_modStuck {z0 : State} (s : State) (ch : Nat) (f : ChStuck → ChStuck) (hk : Keeps z0 s) : Keeps z0 (modStuck
    s ch f) := by
  delta modStuck
  repeat' first
    | with_reducible
        first
          | assumption | exact Keeps.refl _ | apply keeps_ite | apply keeps_ite2 | apply keeps_ite3
          | apply keeps_modFe
    | intro _
    | split
    | dsimp only

theorem keeps_emitRow {z0 : State} (s : State) (vals : List (Nat × Nat)) (hk : Keeps z0 s) : Keeps z0 (emitRow s vals) :=
    by
  delta emitRow
  repeat' first
    | with_reducible
        first
          | assumption | exact Keeps.refl _ | apply keeps_ite | apply keeps_ite2 | apply keeps_ite3
          | apply keeps_fabricWriteAll
    | intro _
    | split
    | dsimp only

theorem keeps_finishLine {z0 : State} (s : State) (l : TdiLine) (hk : Keeps z0 s) : Keeps z0 (finishLine s l) := by
  delta finishLine
  repeat' first
    | with_reducible
        first
          | assumption | exact Keeps.refl _ | apply keeps_ite | apply keeps_ite2 | apply keeps_ite3
          | apply keeps_modFree | apply keeps_State_bump | apply keeps_fabricWriteAll
    | intro _
    | split
    | dsimp only

theorem keeps_tdiRow {z0 : State} (s : State) (vals : List (Nat × Nat)) (hk : Keeps z0 s) : Keeps z0 (tdiRow s vals) := by
  delta tdiRow
  repeat' first
    | with_reducible
        first
          | assumption | exact Keeps.refl _ | apply keeps_foldl | apply keeps_foldl2 | apply keeps_modTdi
          | apply keeps_finishLine
    | intro _
    | split
    | dsimp only

theorem keeps_tdiOpen {z0 : State} (s : State) (hk : Keeps z0 s) : Keeps z0 (tdiOpen s) := by
  delta tdiOpen
  repeat' first
    | with_reducible
        first
          | assumption | exact Keeps.refl _ | apply keeps_foldl | apply keeps_foldl2 | apply keeps_ite
          | apply keeps_ite2 | apply keeps_ite3 | apply keeps_modTdi | apply keeps_finishLine
    | intro _
    | split
    | dsimp only

theorem keeps_tdiStop {z0 : State} (s : State) (hk : Keeps z0 s) : Keeps z0 (tdiStop s) := by
  delta tdiStop
  repeat' first
    | with_reducible
        first
          | assumption | exact Keeps.refl _ | apply keeps_modTdi | apply keeps_State_bump
    | intro _
    | split
    | dsimp only

theorem keeps_finishRow {z0 : State} (s : State) (hk : Keeps z0 s) : Keeps z0 (finishRow s) := by
  delta finishRow
  repeat' first
    | with_reducible
        first
          | assumption | exact Keeps.refl _ | apply keeps_modNuc | apply keeps_State_bump | apply keeps_emitRow
          | apply keeps_tdiRow
    | intro _
    | split
    | dsimp only

theorem keeps_pipelineSample {z0 : State} (s : State) (row : Nat) (code : Nat) (clip : Bool) (ecc : List (Fin 4 × Bool))
    (hk : Keeps z0 s) : Keeps z0 (pipelineSample s row code clip ecc) := by
  delta pipelineSample
  repeat' first
    | with_reducible
        first
          | assumption | exact Keeps.refl _ | apply keeps_foldl | apply keeps_foldl2 | apply keeps_ite
          | apply keeps_ite2 | apply keeps_ite3 | apply keeps_modFe | apply keeps_modNuc | apply keeps_State_bump
          | apply keeps_coefError | apply keeps_startRow | apply keeps_modStuck | apply keeps_finishRow
    | intro _
    | split
    | dsimp only

theorem keeps_tdiApply {z0 : State} (s : State) (hk : Keeps z0 s) : Keeps z0 (tdiApply s) := by
  delta tdiApply
  repeat' first
    | with_reducible
        first
          | assumption | exact Keeps.refl _ | apply keeps_foldl | apply keeps_foldl2 | apply keeps_ite
          | apply keeps_ite2 | apply keeps_ite3 | apply keeps_modFree | apply keeps_modTdi | apply keeps_State_wr
          | apply keeps_raise
    | intro _
    | split
    | dsimp only

theorem keeps_tdiCtrlEffect {z0 : State} (s : State) (v : Word) (hk : Keeps z0 s) : Keeps z0 (tdiCtrlEffect s v) := by
  delta tdiCtrlEffect
  repeat' first
    | with_reducible
        first
          | assumption | exact Keeps.refl _ | apply keeps_ite | apply keeps_ite2 | apply keeps_ite3
          | apply keeps_tdiApply
    | intro _
    | split
    | dsimp only

end Sys2Proof.Machine
end

