-- ==== Sys2Proof/Laws/Keeps/Calibration.lean ====
section
/-! SUPPORT. What the functions of `Machine/Calibration.lean` keep: the queue of commands, and the canonical form of memory and registers. -/

set_option linter.unusedTactic false
set_option linter.unreachableTactic false

namespace Sys2Proof.Machine

theorem keeps_State_setCal {z0 : State} (s : State) (hi : Nat) (lo : Nat) (v : Nat) (hk : Keeps z0 s) : Keeps z0
    (State.setCal s hi lo v) := by
  delta State.setCal
  repeat' first
    | with_reducible
        first
          | assumption | exact Keeps.refl _ | apply keeps_ite | apply keeps_ite2 | apply keeps_ite3
          | apply keeps_State_wrf | apply keeps_State_wrb | apply keeps_postEvent
    | intro _
    | split
    | dsimp only

theorem keeps_calEnter {z0 : State} (s : State) (st : Nat) (hk : Keeps z0 s) : Keeps z0 (calEnter s st) := by
  delta calEnter
  repeat' first
    | with_reducible
        first
          | assumption | exact Keeps.refl _ | apply keeps_State_setCal
    | intro _
    | split
    | dsimp only

theorem keeps_calEnd {z0 : State} (s : State) (hk : Keeps z0 s) : Keeps z0 (calEnd s) := by
  delta calEnd
  repeat' first
    | with_reducible
        first
          | assumption | exact Keeps.refl _ | apply keeps_modCal | apply keeps_State_setCal
    | intro _
    | split
    | dsimp only

theorem keeps_calAbort {z0 : State} (s : State) (cause : Nat) (hk : Keeps z0 s) : Keeps z0 (calAbort s cause) := by
  delta calAbort
  repeat' first
    | with_reducible
        first
          | assumption | exact Keeps.refl _ | apply keeps_ite | apply keeps_ite2 | apply keeps_ite3
          | apply keeps_State_wrf | apply keeps_raise | apply keeps_calEnd
    | intro _
    | split
    | dsimp only

theorem keeps_calFrontEndLost {z0 : State} (s : State) (hk : Keeps z0 s) : Keeps z0 (calFrontEndLost s) := by
  delta calFrontEndLost
  repeat' first
    | with_reducible
        first
          | assumption | exact Keeps.refl _ | apply keeps_calAbort
    | intro _
    | split
    | dsimp only

theorem keeps_captureFailed {z0 : State} (s : State) (hk : Keeps z0 s) : Keeps z0 (captureFailed s) := by
  delta captureFailed
  repeat' first
    | with_reducible
        first
          | assumption | exact Keeps.refl _ | apply keeps_ite | apply keeps_ite2 | apply keeps_ite3
          | apply keeps_modCal | apply keeps_State_setCal | apply keeps_calAbort
    | intro _
    | split
    | dsimp only

theorem keeps_calRow {z0 : State} (s : State) (hk : Keeps z0 s) : Keeps z0 (calRow s) := by
  delta calRow
  repeat' first
    | with_reducible
        first
          | assumption | exact Keeps.refl _ | apply keeps_ite | apply keeps_ite2 | apply keeps_ite3
          | apply keeps_modCal | apply keeps_captureFailed
    | intro _
    | split
    | refine keeps_of_eq (by assumption) ?_
    | refine keeps_of_eq3 (by assumption) ?_
    | dsimp only

theorem keeps_settleFrame {z0 : State} (s : State) (f : CalFrame) (hk : Keeps z0 s) : Keeps z0 (settleFrame s f) := by
  delta settleFrame
  repeat' first
    | with_reducible
        first
          | assumption | exact Keeps.refl _ | apply keeps_foldl | apply keeps_foldl2 | apply keeps_ite
          | apply keeps_ite2 | apply keeps_ite3 | apply keeps_modCal | apply keeps_calEnter
    | intro _
    | split
    | dsimp only

theorem keeps_captureDone {z0 : State} (s : State) (c : Capture) (hk : Keeps z0 s) : Keeps z0 (captureDone s c) := by
  delta captureDone
  repeat' first
    | with_reducible
        first
          | assumption | exact Keeps.refl _ | apply keeps_ite | apply keeps_ite2 | apply keeps_ite3
          | apply keeps_modCal | apply keeps_State_setCal
    | intro _
    | split
    | dsimp only

theorem keeps_captureFrame {z0 : State} (s : State) (f : FrameRec) (hk : Keeps z0 s) : Keeps z0 (captureFrame s f) := by
  delta captureFrame
  repeat' first
    | with_reducible
        first
          | assumption | exact Keeps.refl _ | apply keeps_ite | apply keeps_ite2 | apply keeps_ite3
          | apply keeps_modCal | apply keeps_captureFailed | apply keeps_captureDone
    | intro _
    | split
    | dsimp only

theorem keeps_driftFrame {z0 : State} (s : State) (f : FrameRec) (hk : Keeps z0 s) : Keeps z0 (driftFrame s f) := by
  delta driftFrame
  repeat' first
    | with_reducible
        first
          | assumption | exact Keeps.refl _ | apply keeps_ite | apply keeps_ite2 | apply keeps_ite3
          | apply keeps_modCal | apply keeps_calEnter
    | intro _
    | split
    | refine keeps_of_eq (by assumption) ?_
    | refine keeps_of_eq3 (by assumption) ?_
    | dsimp only

theorem keeps_calFrame {z0 : State} (s : State) (f : FrameRec) (hk : Keeps z0 s) : Keeps z0 (calFrame s f) := by
  delta calFrame
  repeat' first
    | with_reducible
        first
          | assumption | exact Keeps.refl _ | apply keeps_ite | apply keeps_ite2 | apply keeps_ite3
          | apply keeps_modCal | apply keeps_settleFrame | apply keeps_captureFrame | apply keeps_driftFrame
    | intro _
    | split
    | refine keeps_of_eq (by assumption) ?_
    | refine keeps_of_eq3 (by assumption) ?_
    | dsimp only

theorem keeps_calCompute {z0 : State} (s : State) (hk : Keeps z0 s) : Keeps z0 (calCompute s) := by
  delta calCompute
  repeat' first
    | with_reducible
        first
          | assumption | exact Keeps.refl _ | apply keeps_ite | apply keeps_ite2 | apply keeps_ite3
          | apply keeps_modCal | apply keeps_State_wr | apply keeps_calEnter | apply keeps_calAbort
    | intro _
    | split
    | dsimp only

theorem keeps_openSlot {z0 : State} (s : State) (slot : Nat) (hk : Keeps z0 s) : Keeps z0 (openSlot s slot) := by
  rw [openSlot]
  repeat' first
    | with_reducible
        first
          | assumption | exact Keeps.refl _ | apply keeps_mramStoreBytes
    | intro _
    | split
    | dsimp only

theorem keeps_fillSlot {z0 : State} (s : State) (slot : Nat) (hdr : List Byte) (data : List Byte) (hk : Keeps z0 s) :
    ∀ u0, fillSlot s slot hdr data = some u0 → Keeps z0 u0 := by
  intro u0 h
  unfold fillSlot at h
  split at h
  · cases h
  · cases h
    repeat' first
      | with_reducible assumption
      | with_reducible apply keeps_modCal
      | with_reducible apply keeps_mramStoreBytes
      | exact keeps_foldl _ _ _ (fun t x => keeps_clearSectorWhole t x (Keeps.refl t)) hk

theorem keeps_reportSlot {z0 : State} (s : State) (slot : Nat) (code : Nat) (hk : Keeps z0 s) : Keeps z0 (reportSlot s
    slot code) := by
  delta reportSlot
  repeat' first
    | with_reducible
        first
          | assumption | exact Keeps.refl _ | apply keeps_ite | apply keeps_ite2 | apply keeps_ite3
          | apply keeps_raise
    | intro _
    | split
    | refine keeps_of_eq (by assumption) ?_
    | refine keeps_of_eq3 (by assumption) ?_
    | dsimp only

theorem keeps_evaluateSlots {z0 : State} (s : State) (hk : Keeps z0 s) : Keeps z0 (evaluateSlots s) := by
  delta evaluateSlots
  repeat' first
    | with_reducible
        first
          | assumption | exact Keeps.refl _ | apply keeps_foldl | apply keeps_foldl2 | apply keeps_State_wr
          | apply keeps_reportSlot
    | intro _
    | split
    | dsimp only

theorem keeps_markCorrupt {z0 : State} (s : State) (slot : Nat) (hk : Keeps z0 s) : Keeps z0 (markCorrupt s slot) := by
  delta markCorrupt
  repeat' first
    | with_reducible
        first
          | assumption | exact Keeps.refl _ | apply keeps_State_wrf | apply keeps_raise
    | intro _
    | split
    | dsimp only

theorem keeps_loadSlot {z0 : State} (s : State) (slot : Nat) (keep : List Nat) (hk : Keeps z0 s) : Keeps z0 (loadSlot s
    slot keep).2 := by
  delta loadSlot
  generalize slotRecords s slot = o
  generalize bankOf s slot = p
  generalize (List.range 3).find? _ = q
  cases p with
  | some b => exact hk
  | none =>
    cases q with
    | none => exact hk
    | some b =>
      cases o with
      | none => exact keeps_markCorrupt _ _ hk
      | some l =>
        dsimp only
        exact keeps_modCal (keeps_modNuc hk)

theorem keeps_setDead {z0 : State} (s : State) (unfit : List Nat) (hk : Keeps z0 s) : Keeps z0 (setDead s unfit) := by
  delta setDead
  repeat' first
    | with_reducible
        first
          | assumption | exact Keeps.refl _ | apply keeps_foldl | apply keeps_foldl2 | apply keeps_ite
          | apply keeps_ite2 | apply keeps_ite3 | apply keeps_modNuc
    | intro _
    | split
    | dsimp only

theorem keeps_nominalTau {z0 : State} (s : State) (hk : Keeps z0 s) : Keeps z0 (nominalTau s) := by
  delta nominalTau
  repeat' first
    | with_reducible
        first
          | assumption | exact Keeps.refl _ | apply keeps_foldl | apply keeps_foldl2 | apply keeps_ite
          | apply keeps_ite2 | apply keeps_ite3 | apply keeps_modNuc | apply keeps_State_wr
    | intro _
    | split
    | dsimp only

theorem keeps_selectPair {z0 : State} (s : State) (lo : Nat) (hi : Nat) (bLo : Nat) (bHi : Nat) (hk : Keeps z0 s) : Keeps
    z0 (selectPair s lo hi bLo bHi) := by
  delta selectPair
  repeat' first
    | with_reducible
        first
          | assumption | exact Keeps.refl _ | apply keeps_State_wr | apply keeps_setselEffect | apply keeps_setDead
          | apply keeps_nominalTau
    | intro _
    | split
    | dsimp only

theorem keeps_installPair {z0 : State} (s : State) (lo : Nat) (hi : Nat) (hk : Keeps z0 s) : Keeps z0 (installPair s lo
    hi).2 := by
  delta installPair
  repeat' first
    | with_reducible
        first
          | assumption | exact Keeps.refl _ | apply keeps_loadSlot | apply keeps_selectPair
    | intro _
    | split
    | refine keeps_of_eq (by assumption) ?_
    | refine keeps_of_eq3 (by assumption) ?_
    | dsimp only

theorem keeps_loadSets {z0 : State} (y0 : Nat) (y1 : State) (hk : Keeps z0 y1) : Keeps z0 (loadSets y0 y1) := by
  induction y0 generalizing y1 with
  | zero =>
    unfold loadSets
    repeat' first
      | with_reducible
          first
            | assumption | exact Keeps.refl _ | apply keeps_installPair
      | intro _
      | split
      | refine keeps_of_eq (by assumption) ?_
      | refine keeps_of_eq3 (by assumption) ?_
      | dsimp only
  | succ n ih =>
    unfold loadSets
    repeat' first
      | with_reducible
          first
            | assumption | exact Keeps.refl _ | apply keeps_installPair | apply ih
      | intro _
      | split
      | refine keeps_of_eq (by assumption) ?_
      | refine keeps_of_eq3 (by assumption) ?_
      | dsimp only

theorem keeps_calStart {z0 : State} (s : State) (hk : Keeps z0 s) : Keeps z0 (calStart s) := by
  delta calStart
  repeat' first
    | with_reducible
        first
          | assumption | exact Keeps.refl _ | apply keeps_evaluateSlots | apply keeps_loadSets
    | intro _
    | split
    | dsimp only

theorem keeps_calRenewed {z0 : State} (s : State) (hk : Keeps z0 s) : Keeps z0 (calRenewed s) := by
  delta calRenewed
  repeat' first
    | with_reducible
        first
          | assumption | exact Keeps.refl _ | apply keeps_modSvc | apply keeps_State_wrb | apply keeps_evaluateSlots
          | apply keeps_loadSets
    | intro _
    | split
    | dsimp only

theorem keeps_reselect {z0 : State} (s : State) (hk : Keeps z0 s) : Keeps z0 (reselect s) := by
  delta reselect
  repeat' first
    | with_reducible
        first
          | assumption | exact Keeps.refl _ | apply keeps_ite | apply keeps_ite2 | apply keeps_ite3
          | apply keeps_installPair | apply keeps_loadSets
    | intro _
    | split
    | refine keeps_of_eq (by assumption) ?_
    | refine keeps_of_eq3 (by assumption) ?_
    | dsimp only

theorem keeps_refuse {z0 : State} (s : State) (code : Half) (src : Byte) (hk : Keeps z0 s) : Keeps z0 (refuse s code
    src).2.2 := by
  delta refuse
  repeat' first | (with_reducible first | assumption | exact Keeps.refl _ | apply keeps_raise) | intro _ | split | dsimp only

theorem keeps_calBeginCmd {z0 : State} (b : List Byte) (s : State) (hk : Keeps z0 s) : Keeps z0 (calBeginCmd b s).2.2 :=
    by
  delta calBeginCmd
  repeat' first
    | with_reducible
        first
          | assumption | exact Keeps.refl _ | apply keeps_foldl | apply keeps_foldl2 | apply keeps_ite
          | apply keeps_ite3 | apply keeps_modCal | apply keeps_fieldWrite | apply keeps_State_setCal
          | apply keeps_refuse
    | intro _
    | split
    | dsimp only

theorem keeps_calPointReadyCmd {z0 : State} (s : State) (hk : Keeps z0 s) : Keeps z0 (calPointReadyCmd s).2.2 := by
  delta calPointReadyCmd
  repeat' first
    | with_reducible
        first
          | assumption | exact Keeps.refl _ | apply keeps_ite | apply keeps_ite3 | apply keeps_modCal
          | apply keeps_State_setCal | apply keeps_calEnter | apply keeps_refuse
    | intro _
    | split
    | dsimp only

theorem keeps_calCommitCmd {z0 : State} (s : State) (hk : Keeps z0 s) : Keeps z0 (calCommitCmd s).2.2 := by
  delta calCommitCmd
  repeat' first
    | with_reducible
        first
          | assumption | exact Keeps.refl _ | apply keeps_ite | apply keeps_ite3 | apply keeps_calEnter
          | apply keeps_openSlot | apply keeps_refuse
    | intro _
    | split
    | dsimp only

theorem keeps_calDiscardCmd {z0 : State} (s : State) (hk : Keeps z0 s) : Keeps z0 (calDiscardCmd s).2.2 := by
  delta calDiscardCmd
  repeat' first
    | with_reducible
        first
          | assumption | exact Keeps.refl _ | apply keeps_ite | apply keeps_ite3 | apply keeps_calEnd
          | apply keeps_refuse
    | intro _
    | split
    | dsimp only

theorem keeps_calAbortCmd {z0 : State} (s : State) (hk : Keeps z0 s) : Keeps z0 (calAbortCmd s).2.2 := by
  delta calAbortCmd
  repeat' first
    | with_reducible
        first
          | assumption | exact Keeps.refl _ | apply keeps_ite | apply keeps_ite3 | apply keeps_calAbort
          | apply keeps_refuse
    | intro _
    | split
    | dsimp only

theorem keeps_calStatusCmd {z0 : State} (s : State) (hk : Keeps z0 s) : Keeps z0 (calStatusCmd s).2.2 := by
  delta calStatusCmd
  repeat' first | (with_reducible first | assumption | exact Keeps.refl _) | intro _ | split | dsimp only

theorem keeps_calImportCmd {z0 : State} (slot : Nat) (l : List Byte) (s : State) (hk : Keeps z0 s) :
    Keeps z0 (calImportCmd slot l s).2.2 := by
  unfold calImportCmd
  refine keeps_ite3 (fun _ => keeps_refuse _ _ _ hk) fun _ => ?_
  dsimp only
  refine keeps_ite3 (fun _ => keeps_refuse _ _ _ hk) fun _ => ?_
  split
  · split
    · rename_i u h
      exact keeps_calRenewed _ (keeps_fillSlot _ _ _ _ (keeps_openSlot _ _ hk) u h)
    · exact hk
  · exact keeps_refuse _ _ _ hk
  · exact keeps_refuse _ _ _ hk

theorem keeps_calWriteDone {z0 : State} (s : State) (hk : Keeps z0 s) : Keeps z0 (calWriteDone s).2 := by
  unfold calWriteDone
  dsimp only
  split
  · exact keeps_calAbort _ _ hk
  · rename_i u h
    exact keeps_calRenewed _ (keeps_calEnd _ (keeps_fillSlot _ _ _ _ (keeps_modFree hk) u h))

theorem keeps_feConfigTau {z0 : State} (a : Nat) (s : State) (v : Word) (hk : Keeps z0 s) : Keeps z0 (feConfigTau a s v)
    := by
  delta feConfigTau
  repeat' first
    | with_reducible
        first
          | assumption | exact Keeps.refl _ | apply keeps_ite | apply keeps_ite2 | apply keeps_ite3
          | apply keeps_feConfigEffect | apply keeps_nominalTau
    | intro _
    | split
    | dsimp only

theorem keeps_feCtrlFull {z0 : State} (s : State) (v : Word) (hk : Keeps z0 s) : Keeps z0 (feCtrlFull s v) := by
  delta feCtrlFull
  repeat' first
    | with_reducible
        first
          | assumption | exact Keeps.refl _ | apply keeps_ite | apply keeps_ite2 | apply keeps_ite3
          | apply keeps_feCtrlEffect | apply keeps_readFlag | apply keeps_calFrontEndLost
    | intro _
    | split
    | dsimp only

end Sys2Proof.Machine
end

