-- ==== Sys2Proof/Laws/Keeps/Visible.lean ====
section
/-! SUPPORT. What the functions of `Machine/Visible.lean` keep: the queue of commands, and the canonical form of memory and registers. -/

set_option linter.unusedTactic false
set_option linter.unreachableTactic false

namespace Sys2Proof.Machine

theorem keeps_visCtrlEffect {z0 : State} (s : State) (v : Word) (hk : Keeps z0 s) : Keeps z0 (visCtrlEffect s v) := by
  delta visCtrlEffect
  repeat' first
    | with_reducible
        first
          | assumption | exact Keeps.refl _ | apply keeps_ite | apply keeps_ite2 | apply keeps_ite3
          | apply keeps_modVis | apply keeps_State_wr | apply keeps_State_wrb | apply keeps_raise
          | apply keeps_fieldWrite
    | intro _
    | split
    | dsimp only

theorem keeps_visFormatEffect {z0 : State} (a : Nat) (s : State) (v : Word) (hk : Keeps z0 s) : Keeps z0 (visFormatEffect
    a s v) := by
  delta visFormatEffect
  repeat' first
    | with_reducible
        first
          | assumption | exact Keeps.refl _ | apply keeps_ite | apply keeps_ite2 | apply keeps_ite3
          | apply keeps_raise | apply keeps_fieldWrite
    | intro _
    | split
    | dsimp only

theorem keeps_visLineLost {z0 : State} (s : State) (hk : Keeps z0 s) : Keeps z0 (visLineLost s) := by
  delta visLineLost
  repeat' first
    | with_reducible
        first
          | assumption | exact Keeps.refl _ | apply keeps_modVis | apply keeps_State_wr
    | intro _
    | split
    | dsimp only

theorem keeps_visDeliver {z0 : State} (s : State) (v : Nat) (l : List QEntry) (hk : Keeps z0 s) : Keeps z0 (visDeliver s v
    l) := by
  delta visDeliver
  repeat' first
    | with_reducible
        first
          | assumption | exact Keeps.refl _ | apply keeps_ite | apply keeps_ite2 | apply keeps_ite3
          | apply keeps_modVis | apply keeps_State_bump | apply keeps_State_drawNat | apply keeps_raise
          | apply keeps_setVisHeld | apply keeps_pumpPorts
    | intro _
    | split
    | refine keeps_of_eq (by assumption) ?_
    | refine keeps_of_eq3 (by assumption) ?_
    | dsimp only

theorem keeps_visAccept {z0 : State} (s : State) (stamp : CTime) (clocks : List PixClock) (hk : Keeps z0 s) : Keeps z0
    (visAccept s stamp clocks) := by
  delta visAccept
  repeat' first
    | with_reducible
        first
          | assumption | exact Keeps.refl _ | apply keeps_ite | apply keeps_ite2 | apply keeps_ite3
          | apply keeps_modVis | apply keeps_State_wr | apply keeps_visDeliver
    | intro _
    | split
    | dsimp only

theorem keeps_visSwapEffect {z0 : State} (s : State) (v : Word) (hk : Keeps z0 s) : Keeps z0 (visSwapEffect s v) := by
  delta visSwapEffect
  repeat' first
    | with_reducible
        first
          | assumption | exact Keeps.refl _ | apply keeps_ite | apply keeps_ite2 | apply keeps_ite3
          | apply keeps_modVis
    | intro _
    | split
    | dsimp only

theorem keeps_visRegEffect {z0 : State} (a : Nat) (s : State) (v : Word) (hk : Keeps z0 s) : Keeps z0 (visRegEffect a s v)
    := by
  delta visRegEffect
  repeat' first
    | with_reducible
        first
          | assumption | exact Keeps.refl _ | apply keeps_ite | apply keeps_ite2 | apply keeps_ite3
          | apply keeps_raise | apply keeps_fieldWrite
    | intro _
    | split
    | dsimp only

theorem keeps_visTrigEffect {z0 : State} (s : State) (v : Word) (hk : Keeps z0 s) : Keeps z0 (visTrigEffect s v) := by
  delta visTrigEffect
  repeat' first
    | with_reducible
        first
          | assumption | exact Keeps.refl _ | apply keeps_ite | apply keeps_ite2 | apply keeps_ite3
          | apply keeps_modVis | apply keeps_State_wrb | apply keeps_raise | apply keeps_fieldWrite
    | intro _
    | split
    | dsimp only

end Sys2Proof.Machine
end

