-- ==== Sys2Proof/Laws/Keeps/Choreo.lean ====
section
/-! SUPPORT. What the functions of `Machine/Choreo.lean` keep: the queue of commands, and the canonical form of memory and registers. -/

set_option linter.unusedTactic false
set_option linter.unreachableTactic false

namespace Sys2Proof.Machine

theorem keeps_takeWindows {z0 : State} (s : State) (l : List Claim) (hk : Keeps z0 s) : Keeps z0 (takeWindows s l) := by
  delta takeWindows
  repeat' first
    | with_reducible
        first
          | assumption | exact Keeps.refl _ | apply keeps_foldl | apply keeps_foldl2 | apply keeps_claimCarve
    | intro _
    | split
    | refine keeps_of_eq (by assumption) ?_
    | refine keeps_of_eq3 (by assumption) ?_
    | dsimp only

theorem keeps_dropWindows {z0 : State} (s : State) (hk : Keeps z0 s) : Keeps z0 (dropWindows s) := by
  delta dropWindows
  repeat' first
    | with_reducible
        first
          | assumption | exact Keeps.refl _ | apply keeps_foldl | apply keeps_foldl2 | apply keeps_ite
          | apply keeps_ite2 | apply keeps_ite3 | apply keeps_claimCarve
    | intro _
    | split
    | dsimp only

theorem keeps_dropClaims {z0 : State} (s : State) (hk : Keeps z0 s) : Keeps z0 (dropClaims s) := by
  delta dropClaims
  repeat' first
    | with_reducible
        first
          | assumption | exact Keeps.refl _ | apply keeps_modFab | apply keeps_dropWindows
    | intro _
    | split
    | dsimp only

theorem keeps_foldTally {z0 : State} (s : State) (hk : Keeps z0 s) : Keeps z0 (foldTally s) := by
  delta foldTally
  repeat' first
    | with_reducible
        first
          | assumption | exact Keeps.refl _ | apply keeps_foldl | apply keeps_foldl2 | apply keeps_modMet
          | apply keeps_State_wr64
    | intro _
    | split
    | dsimp only

theorem keeps_fabOutcome {z0 : State} (s : State) (code : Half) (hk : Keeps z0 s) : Keeps z0 (fabOutcome s code) := by
  delta fabOutcome
  repeat' first
    | with_reducible
        first
          | assumption | exact Keeps.refl _ | apply keeps_ite | apply keeps_ite2 | apply keeps_ite3
          | apply keeps_State_wr | apply keeps_State_wrb | apply keeps_raise
    | intro _
    | split
    | dsimp only

theorem keeps_fabFail {z0 : State} (s : State) (r : ReplyTo) (code : Half) (hk : Keeps z0 s) : Keeps z0 (fabFail s r code)
    := by
  delta fabFail
  repeat' first
    | with_reducible
        first
          | assumption | exact Keeps.refl _ | apply keeps_finishReply | apply keeps_fabOutcome
    | intro _
    | split
    | dsimp only

theorem keeps_loadRequest {z0 : State} (s : State) (replace : Bool) (buf : Nat) (swapAt : CTime) (r : ReplyTo) (hk : Keeps
    z0 s) : Keeps z0 (loadRequest s replace buf swapAt r) := by
  delta loadRequest
  repeat' first
    | with_reducible
        first
          | assumption | exact Keeps.refl _ | apply keeps_modFab | apply keeps_State_wrf | apply keeps_fabFail
    | intro _
    | split
    | refine keeps_of_eq (by assumption) ?_
    | refine keeps_of_eq3 (by assumption) ?_
    | dsimp only

theorem keeps_loadEnd {z0 : State} (s : State) (j : LoadJob) (code : Half) (hk : Keeps z0 s) : Keeps z0 (loadEnd s j code)
    := by
  delta loadEnd
  repeat' first
    | with_reducible
        first
          | assumption | exact Keeps.refl _ | apply keeps_modFab | apply keeps_State_wrf | apply keeps_fabFail
    | intro _
    | split
    | dsimp only

theorem keeps_loadAbandoned {z0 : State} (s : State) (hk : Keeps z0 s) : Keeps z0 (loadAbandoned s) := by
  delta loadAbandoned
  repeat' first
    | with_reducible
        first
          | assumption | exact Keeps.refl _ | apply keeps_ite | apply keeps_ite2 | apply keeps_ite3
          | apply keeps_loadEnd
    | intro _
    | split
    | refine keeps_of_eq (by assumption) ?_
    | refine keeps_of_eq3 (by assumption) ?_
    | dsimp only

theorem keeps_swapBoundary {z0 : State} (s : State) (j : LoadJob) (hk : Keeps z0 s) : Keeps z0 (swapBoundary s j) := by
  delta swapBoundary
  repeat' first
    | with_reducible
        first
          | assumption | exact Keeps.refl _ | apply keeps_modFab | apply keeps_State_wrb
    | intro _
    | split
    | dsimp only

theorem keeps_applyBegins {z0 : State} (s : State) (j : LoadJob) (hk : Keeps z0 s) : Keeps z0 (applyBegins s j) := by
  delta applyBegins
  repeat' first
    | with_reducible
        first
          | assumption | exact Keeps.refl _ | apply keeps_modFab | apply keeps_State_wrf | apply keeps_cellsStop
    | intro _
    | split
    | dsimp only

theorem keeps_checkPassed {z0 : State} (s : State) (j : LoadJob) (b : Body) (hk : Keeps z0 s) : Keeps z0 (checkPassed s j
    b) := by
  delta checkPassed
  repeat' first
    | with_reducible
        first
          | assumption | exact Keeps.refl _ | apply keeps_ite | apply keeps_ite2 | apply keeps_ite3
          | apply keeps_modFab | apply keeps_State_wrf | apply keeps_takeClaims | apply keeps_takeWindows
          | apply keeps_loadEnd | apply keeps_swapBoundary | apply keeps_applyBegins
    | intro _
    | split
    | dsimp only

theorem keeps_clearCellRegs {z0 : State} (s : State) (hk : Keeps z0 s) : Keeps z0 (clearCellRegs s) := by
  delta clearCellRegs
  repeat' first
    | with_reducible
        first
          | assumption | exact Keeps.refl _ | apply keeps_foldl | apply keeps_foldl2 | apply keeps_State_wr
    | intro _
    | split
    | dsimp only

theorem keeps_clearFabric {z0 : State} (s : State) (hk : Keeps z0 s) : Keeps z0 (clearFabric s) := by
  delta clearFabric
  repeat' first
    | with_reducible
        first
          | assumption | exact Keeps.refl _ | apply keeps_modFab | apply keeps_State_zeroRange | apply keeps_State_wr
          | apply keeps_clearCellRegs
    | intro _
    | split
    | dsimp only

theorem keeps_writeFabric {z0 : State} (s : State) (b : Body) (hk : Keeps z0 s) : Keeps z0 (writeFabric s b) := by
  delta writeFabric
  repeat' first
    | with_reducible
        first
          | assumption | exact Keeps.refl _ | apply keeps_foldl | apply keeps_foldl2 | apply keeps_ite
          | apply keeps_ite2 | apply keeps_ite3 | apply keeps_modFab | apply keeps_State_setBytes
          | apply keeps_State_wr | apply keeps_State_wrb | apply keeps_clearFabric
    | intro _
    | split
    | dsimp only

theorem keeps_applyFailed {z0 : State} (s : State) (j : LoadJob) (hk : Keeps z0 s) : Keeps z0 (applyFailed s j) := by
  delta applyFailed
  repeat' first
    | with_reducible
        first
          | assumption | exact Keeps.refl _ | apply keeps_ite | apply keeps_ite2 | apply keeps_ite3
          | apply keeps_modFab | apply keeps_setLane | apply keeps_dropClaims | apply keeps_fabFail
          | apply keeps_clearFabric
    | intro _
    | split
    | dsimp only

theorem keeps_applyPassed {z0 : State} (s : State) (j : LoadJob) (b : Body) (hk : Keeps z0 s) : Keeps z0 (applyPassed s j
    b) := by
  delta applyPassed
  repeat' first
    | with_reducible
        first
          | assumption | exact Keeps.refl _ | apply keeps_ite | apply keeps_ite2 | apply keeps_ite3
          | apply keeps_modFab | apply keeps_State_modLane | apply keeps_takeClaims | apply keeps_finishReply
          | apply keeps_takeWindows | apply keeps_dropWindows | apply keeps_foldTally | apply keeps_fabOutcome
          | apply keeps_writeFabric
    | intro _
    | split
    | dsimp only

theorem keeps_unloadDone {z0 : State} (s : State) (u : UnloadJob) (hk : Keeps z0 s) : Keeps z0 (unloadDone s u) := by
  delta unloadDone
  repeat' first
    | with_reducible
        first
          | assumption | exact Keeps.refl _ | apply keeps_ite | apply keeps_ite2 | apply keeps_ite3
          | apply keeps_modFab | apply keeps_setLane | apply keeps_finishReply | apply keeps_dropClaims
          | apply keeps_foldTally | apply keeps_fabOutcome | apply keeps_clearFabric
    | intro _
    | split
    | dsimp only

theorem keeps_unloadDrains {z0 : State} (s : State) (u : UnloadJob) (hk : Keeps z0 s) : Keeps z0 (unloadDrains s u) := by
  delta unloadDrains
  repeat' first
    | with_reducible
        first
          | assumption | exact Keeps.refl _ | apply keeps_modFab | apply keeps_State_wrb
    | intro _
    | split
    | dsimp only

theorem keeps_unloadRequest {z0 : State} (s : State) (r : ReplyTo) (hk : Keeps z0 s) : Keeps z0 (unloadRequest s r) := by
  delta unloadRequest
  repeat' first
    | with_reducible
        first
          | assumption | exact Keeps.refl _ | apply keeps_ite | apply keeps_ite2 | apply keeps_ite3
          | apply keeps_modFab | apply keeps_fabFail | apply keeps_loadEnd | apply keeps_unloadDrains
    | intro _
    | split
    | refine keeps_of_eq (by assumption) ?_
    | refine keeps_of_eq3 (by assumption) ?_
    | dsimp only

theorem keeps_fabRowBoundary {z0 : State} (s : State) (hk : Keeps z0 s) : Keeps z0 (fabRowBoundary s) := by
  delta fabRowBoundary
  repeat' first
    | with_reducible
        first
          | assumption | exact Keeps.refl _ | apply keeps_ite | apply keeps_ite2 | apply keeps_ite3
          | apply keeps_swapBoundary | apply keeps_unloadDrains
    | intro _
    | split
    | refine keeps_of_eq (by assumption) ?_
    | refine keeps_of_eq3 (by assumption) ?_
    | dsimp only

theorem keeps_admitOwn {z0 : State} (s : State) (hk : Keeps z0 s) : Keeps z0 (admitOwn s) := by
  delta admitOwn
  repeat' first
    | with_reducible
        first
          | assumption | exact Keeps.refl _ | apply keeps_ite | apply keeps_ite2 | apply keeps_ite3
          | apply keeps_modLanes | apply keeps_State_wrb | apply keeps_setPermit
    | intro _
    | split
    | dsimp only

theorem keeps_admitBoundary {z0 : State} (s : State) (hk : Keeps z0 s) : Keeps z0 (admitBoundary s) := by
  delta admitBoundary
  repeat' first
    | with_reducible
        first
          | assumption | exact Keeps.refl _ | apply keeps_ite | apply keeps_ite2 | apply keeps_ite3
          | apply keeps_modLanes | apply keeps_State_wrb | apply keeps_setLane
    | intro _
    | split
    | dsimp only

theorem keeps_openBoundary {z0 : State} (s : State) (hk : Keeps z0 s) : Keeps z0 (openBoundary s) := by
  delta openBoundary
  repeat' first
    | with_reducible
        first
          | assumption | exact Keeps.refl _ | apply keeps_ite | apply keeps_ite2 | apply keeps_ite3
          | apply keeps_modFab | apply keeps_State_wrb
    | intro _
    | split
    | dsimp only

end Sys2Proof.Machine
end

