-- ==== Sys2Proof/Laws/Keeps/Reset.lean ====
section
/-! SUPPORT. What the functions of `Machine/Reset.lean` keep: the queue of commands, and the canonical form of memory and registers. -/

set_option linter.unusedTactic false
set_option linter.unreachableTactic false

namespace Sys2Proof.Machine

theorem keeps_keptRegs {z0 : State} (s : State) (t : State) (hk : Keeps z0 t) : Keeps z0 (keptRegs s t) := by
  delta keptRegs
  repeat' first
    | with_reducible
        first
          | assumption | exact Keeps.refl _ | apply keeps_State_wr | apply keeps_State_wrf
    | intro _
    | split
    | dsimp only

theorem keeps_afterReset {z0 : State} (s : State) (hk : Keeps z0 s) : Keeps z0 (afterReset s) := by
  refine keeps_keptRegs _ _ ⟨hk.pending, fun c => ?_⟩
  have h := canon_parts (hk.canon c)
  simp only [State.canon, Bool.and_eq_true]
  exact ⟨wf_keptMemory s h.1, rfl⟩

theorem keeps_deviceReset {z0 : State} (s : State) (cause : Nat) (hk : Keeps z0 s) : Keeps z0 (deviceReset s cause) := by
  delta deviceReset
  repeat' first
    | with_reducible
        first
          | assumption | exact Keeps.refl _ | apply keeps_ite | apply keeps_ite2 | apply keeps_ite3
          | apply keeps_modRst | apply keeps_State_wrf | apply keeps_afterReset
    | intro _
    | split
    | dsimp only

theorem keeps_powerOnReset {z0 : State} (s : State) (event : Nat) (phase : PowerPhase) (hk : Keeps z0 s) : Keeps z0
    (powerOnReset s event phase) := by
  delta powerOnReset
  repeat' first
    | with_reducible
        first
          | assumption | exact Keeps.refl _ | apply keeps_modPower | apply keeps_modRst | apply keeps_modCore
          | apply keeps_State_wrf | apply keeps_afterReset
    | intro _
    | split
    | dsimp only

end Sys2Proof.Machine
end

