-- ==== Sys2Proof/Laws/Keeps/Pavane.lean ====
section
/-! SUPPORT. What the functions of `Machine/Pavane.lean` keep: the queue of commands, and the canonical form of memory and registers. -/

set_option linter.unusedTactic false
set_option linter.unreachableTactic false

namespace Sys2Proof.Machine

theorem keeps_mailboxEffect {z0 : State} (s : State) (v : Word) (hk : Keeps z0 s) : Keeps z0 (mailboxEffect s v) := by
  delta mailboxEffect
  repeat' first
    | with_reducible
        first
          | assumption | exact Keeps.refl _ | apply keeps_ite | apply keeps_ite2 | apply keeps_ite3
          | apply keeps_State_wr | apply keeps_State_wrb
    | intro _
    | split
    | dsimp only

theorem keeps_spreadEffect {z0 : State} (s : State) (v : Word) (hk : Keeps z0 s) : Keeps z0 (spreadEffect s v) := by
  delta spreadEffect
  repeat' first
    | with_reducible
        first
          | assumption | exact Keeps.refl _ | apply keeps_State_wrb | apply keeps_fieldWrite
    | intro _
    | split
    | dsimp only

theorem keeps_cntInc {z0 : State} (s : State) (k : Nat) (n : Nat) (hk : Keeps z0 s) : Keeps z0 (cntInc s k n).2 := by
  delta cntInc
  repeat' first
    | with_reducible
        first
          | assumption | exact Keeps.refl _ | apply keeps_ite | apply keeps_ite2 | apply keeps_raise
          | apply keeps_mramStoreBytes
    | intro _
    | split
    | refine keeps_of_eq (by assumption) ?_
    | refine keeps_of_eq3 (by assumption) ?_
    | dsimp only

theorem keeps_cntAddEffect {z0 : State} (s : State) (v : Word) (hk : Keeps z0 s) : Keeps z0 (cntAddEffect s v) := by
  delta cntAddEffect
  repeat' first
    | with_reducible
        first
          | assumption | exact Keeps.refl _ | apply keeps_ite | apply keeps_ite2 | apply keeps_ite3
          | apply keeps_cntInc
    | intro _
    | split
    | dsimp only

theorem keeps_cntLoRead {z0 : State} (s : State) (hk : Keeps z0 s) : Keeps z0 (cntLoRead s).2 := by
  delta cntLoRead
  repeat' first
    | with_reducible
        first
          | assumption | exact Keeps.refl _ | apply keeps_State_wr | apply keeps_raise
    | intro _
    | split
    | refine keeps_of_eq (by assumption) ?_
    | refine keeps_of_eq3 (by assumption) ?_
    | dsimp only

theorem keeps_retire {z0 : State} (s : State) (hk : Keeps z0 s) : Keeps z0 (retire s) := by
  delta retire
  repeat' first
    | with_reducible
        first
          | assumption | exact Keeps.refl _ | apply keeps_foldl | apply keeps_foldl2 | apply keeps_ite
          | apply keeps_ite2 | apply keeps_ite3 | apply keeps_clearSectorWhole | apply keeps_deviceReset
          | apply keeps_cntInc
    | intro _
    | split
    | refine keeps_of_eq (by assumption) ?_
    | refine keeps_of_eq3 (by assumption) ?_
    | dsimp only

theorem keeps_lcRequest {z0 : State} (s : State) (lc : Nat) (met : Bool) (hk : Keeps z0 s) : Keeps z0 (lcRequest s lc
    met).2 := by
  delta lcRequest
  repeat' first
    | with_reducible
        first
          | assumption | exact Keeps.refl _ | apply keeps_ite | apply keeps_ite2 | apply keeps_raise
          | apply keeps_cntInc | apply keeps_retire
    | intro _
    | split
    | dsimp only

theorem keeps_zeroEnclave {z0 : State} (s : State) (hk : Keeps z0 s) : Keeps z0 (zeroEnclave s) := by
  delta zeroEnclave
  repeat' first
    | with_reducible
        first
          | assumption | exact Keeps.refl _ | apply keeps_modMs | apply keeps_State_zeroRange
    | intro _
    | split
    | dsimp only

theorem keeps_eraseResponse {z0 : State} (s : State) (sensor : Fin 6) (hk : Keeps z0 s) : Keeps z0 (eraseResponse s
    sensor) := by
  delta eraseResponse
  repeat' first
    | with_reducible
        first
          | assumption | exact Keeps.refl _ | apply keeps_ite | apply keeps_ite2 | apply keeps_ite3
          | apply keeps_modCore | apply keeps_zeroKeys | apply keeps_deviceReset | apply keeps_cntInc
          | apply keeps_zeroEnclave
    | intro _
    | split
    | dsimp only

theorem keeps_alertResponse {z0 : State} (s : State) (sensor : Fin 6) (hk : Keeps z0 s) : Keeps z0 (alertResponse s
    sensor) := by
  delta alertResponse
  repeat' first
    | with_reducible
        first
          | assumption | exact Keeps.refl _ | apply keeps_ite | apply keeps_ite2 | apply keeps_ite3
          | apply keeps_State_wrb | apply keeps_raise
    | intro _
    | split
    | dsimp only

end Sys2Proof.Machine
end

