-- ==== Sys2Proof/Laws/Keeps/Plant.lean ====
section
/-! SUPPORT. What the functions of `Machine/Plant.lean` keep: the queue of commands, and the canonical form of memory and registers. -/

set_option linter.unusedTactic false
set_option linter.unreachableTactic false

namespace Sys2Proof.Machine

theorem keeps_sendDatagram {z0 : State} (s : State) (bytes : List Byte) (hk : Keeps z0 s) : Keeps z0 (sendDatagram s
    bytes) := by
  delta sendDatagram
  repeat' first
    | with_reducible
        first
          | assumption | exact Keeps.refl _ | apply keeps_ite | apply keeps_ite2 | apply keeps_ite3
          | apply keeps_modHost | apply keeps_State_bump | apply keeps_State_emit
    | intro _
    | split
    | refine keeps_of_eq (by assumption) ?_
    | refine keeps_of_eq3 (by assumption) ?_
    | dsimp only

theorem keeps_sendSet {z0 : State} (s : State) (kind : Nat) (dseq : Nat) (body : List Byte) (hk : Keeps z0 s) : Keeps z0
    (sendSet s kind dseq body) := by
  delta sendSet
  repeat' first
    | with_reducible
        first
          | assumption | exact Keeps.refl _ | apply keeps_foldl | apply keeps_foldl2 | apply keeps_sendDatagram
    | intro _
    | split
    | dsimp only

theorem keeps_newSet {z0 : State} (s : State) (kind : Nat) (body : List Byte) (hk : Keeps z0 s) : Keeps z0 (newSet s kind
    body) := by
  delta newSet
  repeat' first
    | with_reducible
        first
          | assumption | exact Keeps.refl _ | apply keeps_modHost | apply keeps_sendSet
    | intro _
    | split
    | dsimp only

theorem keeps_issueStatement {z0 : State} (s : State) (body : List Byte) (hk : Keeps z0 s) : Keeps z0 (issueStatement s
    body) := by
  delta issueStatement
  repeat' first
    | with_reducible
        first
          | assumption | exact Keeps.refl _ | apply keeps_modHost | apply keeps_newSet
    | intro _
    | split
    | dsimp only

theorem keeps_plantConfig {z0 : State} (s : State) (b : List Byte) (hk : Keeps z0 s) : Keeps z0 (plantConfig s b).2 := by
  delta plantConfig
  repeat' first
    | with_reducible
        first
          | assumption | exact Keeps.refl _ | apply keeps_ite | apply keeps_ite2 | apply keeps_modHost
          | apply keeps_State_wrb | apply keeps_raise | apply keeps_savePlant
    | intro _
    | split
    | dsimp only

end Sys2Proof.Machine
end

