-- ==== Sys2Proof/Laws/Keeps/Metering.lean ====
section
/-! SUPPORT. What the functions of `Machine/Metering.lean` keep: the queue of commands, and the canonical form of memory and registers. -/

set_option linter.unusedTactic false
set_option linter.unreachableTactic false

namespace Sys2Proof.Machine

theorem keeps_raiseCounter {z0 : State} (s : State) (k : Nat) (v : Nat) (hk : Keeps z0 s) : Keeps z0 (raiseCounter s k v)
    := by
  delta raiseCounter
  repeat' first
    | with_reducible
        first
          | assumption | exact Keeps.refl _ | apply keeps_ite | apply keeps_ite2 | apply keeps_ite3
          | apply keeps_cntInc
    | intro _
    | split
    | refine keeps_of_eq (by assumption) ?_
    | refine keeps_of_eq3 (by assumption) ?_
    | dsimp only

theorem keeps_raiseHigh {z0 : State} (s : State) (hk : Keeps z0 s) : Keeps z0 (raiseHigh s) := by
  delta raiseHigh
  repeat' first
    | with_reducible
        first
          | assumption | exact Keeps.refl _ | apply keeps_modMet | apply keeps_raiseCounter
    | intro _
    | split
    | dsimp only

theorem keeps_setAcc {z0 : State} (s : State) (t : Nat) (a : Option Accum) (hk : Keeps z0 s) : Keeps z0 (setAcc s t a) :=
    by
  delta setAcc
  repeat' first
    | with_reducible
        first
          | assumption | exact Keeps.refl _ | apply keeps_modMet
    | intro _
    | split
    | dsimp only

theorem keeps_setUtc {z0 : State} (s : State) (u : Nat) (hk : Keeps z0 s) : Keeps z0 (setUtc s u) := by
  delta setUtc
  repeat' first
    | with_reducible
        first
          | assumption | exact Keeps.refl _ | apply keeps_ite | apply keeps_ite2 | apply keeps_ite3
          | apply keeps_modHost | apply keeps_modMet | apply keeps_State_bump | apply keeps_raise
    | intro _
    | split
    | dsimp only

theorem keeps_accWrite {z0 : State} (s : State) (t : Nat) (a : Accum) (hk : Keeps z0 s) : Keeps z0 (accWrite s t a) := by
  delta accWrite
  repeat' first
    | with_reducible
        first
          | assumption | exact Keeps.refl _ | apply keeps_writeCopy | apply keeps_setAcc
    | intro _
    | split
    | dsimp only

theorem keeps_addUsage {z0 : State} (s : State) (k : TallyKey) (n : Nat) (carry : Bool) (hk : Keeps z0 s) : Keeps z0
    (addUsage s k n carry) := by
  delta addUsage
  repeat' first
    | with_reducible
        first
          | assumption | exact Keeps.refl _ | apply keeps_ite | apply keeps_ite2 | apply keeps_ite3
          | apply keeps_raise | apply keeps_setAcc
    | intro _
    | split
    | refine keeps_of_eq (by assumption) ?_
    | refine keeps_of_eq3 (by assumption) ?_
    | dsimp only

theorem keeps_takeAck {z0 : State} (s : State) (r : Nat) (hk : Keeps z0 s) : Keeps z0 (takeAck s r) := by
  delta takeAck
  repeat' first
    | with_reducible
        first
          | assumption | exact Keeps.refl _ | apply keeps_ite | apply keeps_ite2 | apply keeps_ite3
          | apply keeps_modMet | apply keeps_State_wr
    | intro _
    | split
    | refine keeps_of_eq (by assumption) ?_
    | refine keeps_of_eq3 (by assumption) ?_
    | dsimp only

theorem keeps_setApplied {z0 : State} (s : State) (pos : Nat) (a : Applied) (hk : Keeps z0 s) : Keeps z0 (setApplied s pos
    a) := by
  delta setApplied
  repeat' first
    | with_reducible
        first
          | assumption | exact Keeps.refl _ | apply keeps_modMet
    | intro _
    | split
    | dsimp only

theorem keeps_applyEntry {z0 : State} (pos : Nat) (r : Nat) (carry : Bool) (s : State) (e : TallyKey × Nat × Nat) (hk :
    Keeps z0 s) : Keeps z0 (applyEntry pos r carry s e) := by
  delta applyEntry
  repeat' first
    | with_reducible
        first
          | assumption | exact Keeps.refl _ | apply keeps_ite | apply keeps_ite2 | apply keeps_ite3
          | apply keeps_addUsage | apply keeps_setApplied
    | intro _
    | split
    | refine keeps_of_eq (by assumption) ?_
    | refine keeps_of_eq3 (by assumption) ?_
    | dsimp only

theorem keeps_applyReport {z0 : State} (s : State) (pos : Nat) (b : List Byte) (hk : Keeps z0 s) : Keeps z0 (applyReport s
    pos b) := by
  delta applyReport
  repeat' first
    | with_reducible
        first
          | assumption | exact Keeps.refl _ | apply keeps_foldl | apply keeps_foldl2 | apply keeps_ite
          | apply keeps_ite2 | apply keeps_ite3 | apply keeps_setApplied | apply keeps_applyEntry
    | intro _
    | split
    | dsimp only

theorem keeps_logWrite {z0 : State} (s : State) (st : List Byte) (hk : Keeps z0 s) : Keeps z0 (logWrite s st) := by
  delta logWrite
  repeat' first
    | with_reducible
        first
          | assumption | exact Keeps.refl _ | apply keeps_modMet | apply keeps_mramStoreBytes
    | intro _
    | split
    | dsimp only

theorem keeps_dropApplet {z0 : State} (s : State) (i : Nat) (hk : Keeps z0 s) : Keeps z0 (dropApplet s i) := by
  delta dropApplet
  repeat' first
    | with_reducible
        first
          | assumption | exact Keeps.refl _ | apply keeps_ite | apply keeps_ite2 | apply keeps_ite3
          | apply keeps_modMet | apply keeps_mramStoreBytes
    | intro _
    | split
    | dsimp only

theorem keeps_tellWorkers {z0 : State} (s : State) (t : Nat) (hk : Keeps z0 s) : Keeps z0 (tellWorkers s t) := by
  delta tellWorkers
  repeat' first
    | with_reducible
        first
          | assumption | exact Keeps.refl _ | apply keeps_foldl | apply keeps_foldl2 | apply keeps_startTxn
    | intro _
    | split
    | dsimp only

theorem keeps_revokeTenant {z0 : State} (s : State) (t : Nat) (seq : Nat) (hk : Keeps z0 s) : Keeps z0 (revokeTenant s t
    seq) := by
  delta revokeTenant
  repeat' first
    | with_reducible
        first
          | assumption | exact Keeps.refl _ | apply keeps_foldl | apply keeps_foldl2 | apply keeps_mramStoreBytes
          | apply keeps_dropTenantSlots | apply keeps_raiseCounter | apply keeps_dropApplet | apply keeps_tellWorkers
    | intro _
    | split
    | dsimp only

theorem keeps_afterClose {z0 : State} (s : State) (t : Nat) (revoke : Option Nat) (r : ReplyTo) (code : Half) (hk : Keeps
    z0 s) : Keeps z0 (afterClose s t revoke r code) := by
  delta afterClose
  repeat' first
    | with_reducible
        first
          | assumption | exact Keeps.refl _ | apply keeps_finishReply | apply keeps_revokeTenant
    | intro _
    | split
    | refine keeps_of_eq (by assumption) ?_
    | refine keeps_of_eq3 (by assumption) ?_
    | dsimp only

theorem keeps_finishClose {z0 : State} (s : State) (c : Closing) (out : List Byte) (fault : Bool) (hk : Keeps z0 s) :
    Keeps z0 (finishClose s c out fault) := by
  delta finishClose
  repeat' first
    | with_reducible
        first
          | assumption | exact Keeps.refl _ | apply keeps_modMet | apply keeps_issueStatement
          | apply keeps_raiseCounter | apply keeps_accWrite | apply keeps_logWrite | apply keeps_afterClose
    | intro _
    | split
    | refine keeps_of_eq (by assumption) ?_
    | refine keeps_of_eq3 (by assumption) ?_
    | dsimp only

theorem keeps_beginClose {z0 : State} (s : State) (t : Nat) (a : Accum) (r : ReplyTo) (revoke : Option Nat) (hk : Keeps z0
    s) : Keeps z0 (beginClose s t a r revoke) := by
  delta beginClose
  repeat' first
    | with_reducible
        first
          | assumption | exact Keeps.refl _ | apply keeps_ite | apply keeps_ite2 | apply keeps_ite3
          | apply keeps_modMet | apply keeps_raiseHigh | apply keeps_setAcc | apply keeps_finishClose
    | intro _
    | split
    | refine keeps_of_eq (by assumption) ?_
    | refine keeps_of_eq3 (by assumption) ?_
    | dsimp only

theorem keeps_closePeriod {z0 : State} (s : State) (t : Nat) (r : ReplyTo) (revoke : Option Nat) (hk : Keeps z0 s) : Keeps
    z0 (closePeriod s t r revoke) := by
  delta closePeriod
  repeat' first
    | with_reducible
        first
          | assumption | exact Keeps.refl _ | apply keeps_ite | apply keeps_ite2 | apply keeps_ite3
          | apply keeps_modMet | apply keeps_raise | apply keeps_afterClose | apply keeps_beginClose
    | intro _
    | split
    | refine keeps_of_eq (by assumption) ?_
    | refine keeps_of_eq3 (by assumption) ?_
    | dsimp only

theorem keeps_nextClose {z0 : State} (s : State) (hk : Keeps z0 s) : Keeps z0 (nextClose s) := by
  delta nextClose
  repeat' first
    | with_reducible
        first
          | assumption | exact Keeps.refl _ | apply keeps_modMet | apply keeps_closePeriod
    | intro _
    | split
    | refine keeps_of_eq (by assumption) ?_
    | refine keeps_of_eq3 (by assumption) ?_
    | dsimp only

theorem keeps_startTenant {z0 : State} (erased : Bool) (e : Bool × State) (t : Nat) (hk : Keeps z0 e.2) :
    Keeps z0 (startTenant erased e t).2 := by
  unfold startTenant
  repeat' first
    | with_reducible
        first
          | assumption | exact Keeps.refl _ | apply keeps_ite | apply keeps_ite2 | apply keeps_raiseCounter
          | apply keeps_setAcc | apply keeps_accWrite
    | intro _
    | split
    | refine keeps_of_eq (by assumption) ?_
    | refine keeps_of_eq3 (by assumption) ?_
    | dsimp only

theorem keeps_meterStart {z0 : State} (s : State) (erased : Bool) (hk : Keeps z0 s) : Keeps z0 (meterStart s erased) := by
  delta meterStart
  repeat' first
    | with_reducible
        first
          | assumption | exact Keeps.refl _ | apply keeps_foldl | apply keeps_foldl2 | apply keeps_ite
          | apply keeps_ite2 | apply keeps_ite3 | apply keeps_modMet | apply keeps_raise | apply keeps_startTenant
    | intro _
    | split
    | refine keeps_of_eq (by assumption) ?_
    | refine keeps_of_eq3 (by assumption) ?_
    | dsimp only

end Sys2Proof.Machine
end

