-- ==== Sys2Proof/Laws/Keeps/Carry.lean ====
section
/-! SUPPORT. What the functions of `Machine/Carry.lean` keep: the queue of commands, and the canonical form of memory and registers. -/

set_option linter.unusedTactic false
set_option linter.unreachableTactic false

namespace Sys2Proof.Machine

theorem keeps_putCarry {z0 : State} (s : State) (c : Carry) (hk : Keeps z0 s) : Keeps z0 (putCarry s c) := by
  delta putCarry
  repeat' first
    | with_reducible
        first
          | assumption | exact Keeps.refl _ | apply keeps_ite | apply keeps_ite2 | apply keeps_ite3
          | apply keeps_modHost
    | intro _
    | split
    | dsimp only

theorem keeps_ensureTenant {z0 : State} (s : State) (t : Nat) (hk : Keeps z0 s) : Keeps z0 (ensureTenant s t) := by
  unfold ensureTenant
  split
  · refine keeps_ite (fun _ => hk) fun _ => ?_
    rename_i ck vk _ _ _
    cases h : installTenant s t ck vk 1 with
    | none => exact hk
    | some u => exact keeps_installTenant s t ck vk 1 hk u h
  · exact hk

theorem keeps_carrySend {z0 : State} (s : State) (c : Carry) (hk : Keeps z0 s) : Keeps z0 (carrySend s c) := by
  delta carrySend
  repeat' first
    | with_reducible
        first
          | assumption | exact Keeps.refl _ | apply keeps_startTxn | apply keeps_putCarry | apply keeps_ensureTenant
    | intro _
    | split
    | refine keeps_of_eq (by assumption) ?_
    | refine keeps_of_eq3 (by assumption) ?_
    | dsimp only

theorem keeps_carryStart {z0 : State} (s : State) (pos : Nat) (code : Half) (body : List Byte) (data : List Byte) (reply :
    ReplyTo) (hk : Keeps z0 s) : Keeps z0 (carryStart s pos code body data reply) := by
  delta carryStart
  repeat' first
    | with_reducible
        first
          | assumption | exact Keeps.refl _ | apply keeps_ite | apply keeps_ite2 | apply keeps_ite3
          | apply keeps_modHost | apply keeps_carrySend
    | intro _
    | split
    | dsimp only

theorem keeps_carryNote {z0 : State} (s : State) (c : Carry) (st : Half) (hk : Keeps z0 s) : Keeps z0 (carryNote s c st)
    := by
  delta carryNote
  repeat' first
    | with_reducible
        first
          | assumption | exact Keeps.refl _ | apply keeps_ite | apply keeps_ite2 | apply keeps_ite3
          | apply keeps_modSvc | apply keeps_setLane
    | intro _
    | split
    | dsimp only

theorem keeps_carryDone {z0 : State} (s : State) (c : Carry) (st : Half) (body : List Byte) (hk : Keeps z0 s) : Keeps z0
    (carryDone s c st body) := by
  delta carryDone
  repeat' first
    | with_reducible
        first
          | assumption | exact Keeps.refl _ | apply keeps_modHost | apply keeps_finishReply | apply keeps_carryNote
    | intro _
    | split
    | dsimp only

theorem keeps_carryAnswer {z0 : State} (s : State) (id : Nat) (b : List Byte) (hk : Keeps z0 s) : Keeps z0 (carryAnswer s
    id b) := by
  delta carryAnswer
  repeat' first
    | with_reducible
        first
          | assumption | exact Keeps.refl _ | apply keeps_ite | apply keeps_ite2 | apply keeps_ite3
          | apply keeps_State_setBuf | apply keeps_putCarry | apply keeps_carrySend | apply keeps_carryDone
    | intro _
    | split
    | refine keeps_of_eq (by assumption) ?_
    | refine keeps_of_eq3 (by assumption) ?_
    | dsimp only

theorem keeps_carryFailed {z0 : State} (s : State) (id : Nat) (hk : Keeps z0 s) : Keeps z0 (carryFailed s id) := by
  delta carryFailed
  repeat' first
    | with_reducible
        first
          | assumption | exact Keeps.refl _ | apply keeps_carryDone
    | intro _
    | split
    | refine keeps_of_eq (by assumption) ?_
    | refine keeps_of_eq3 (by assumption) ?_
    | dsimp only

theorem keeps_loadGo {z0 : State} (s : State) (a : LoadAsk) (hk : Keeps z0 s) : Keeps z0 (loadGo s a) := by
  delta loadGo
  repeat' first
    | with_reducible
        first
          | assumption | exact Keeps.refl _ | apply keeps_ite | apply keeps_ite2 | apply keeps_ite3
          | apply keeps_loadRequest | apply keeps_carryStart
    | intro _
    | split
    | dsimp only

theorem keeps_loadRefuse {z0 : State} (s : State) (a : LoadAsk) (code : Half) (hk : Keeps z0 s) : Keeps z0 (loadRefuse s a
    code) := by
  delta loadRefuse
  repeat' first
    | with_reducible
        first
          | assumption | exact Keeps.refl _ | apply keeps_ite | apply keeps_ite2 | apply keeps_ite3
          | apply keeps_raise | apply keeps_finishReply | apply keeps_fabFail
    | intro _
    | split
    | dsimp only

theorem keeps_loadBegin {z0 : State} (s : State) (a : LoadAsk) (hk : Keeps z0 s) : Keeps z0 (loadBegin s a) := by
  delta loadBegin
  repeat' first
    | with_reducible
        first
          | assumption | exact Keeps.refl _ | apply keeps_ite | apply keeps_ite2 | apply keeps_ite3
          | apply keeps_modMet | apply keeps_loadGo | apply keeps_loadRefuse
    | intro _
    | split
    | refine keeps_of_eq (by assumption) ?_
    | refine keeps_of_eq3 (by assumption) ?_
    | dsimp only

end Sys2Proof.Machine
end

