-- ==== Sys2Proof/Laws/Keeps/EngineQueue.lean ====
section
/-! SUPPORT. What the functions of `Machine/EngineQueue.lean` keep: the queue of commands, and the canonical form of memory and registers. -/

set_option linter.unusedTactic false
set_option linter.unreachableTactic false

namespace Sys2Proof.Machine

theorem keeps_setEngQueue {z0 : State} (s : State) (e : Nat) (q : List Nat) (hk : Keeps z0 s) : Keeps z0 (setEngQueue s e
    q) := by
  delta setEngQueue
  repeat' first
    | with_reducible
        first
          | assumption | exact Keeps.refl _ | apply keeps_ite | apply keeps_ite2 | apply keeps_ite3
          | apply keeps_modEng | apply keeps_State_wrf | apply keeps_State_wrb
    | intro _
    | split
    | dsimp only

theorem keeps_setEngOut {z0 : State} (s : State) (e : Nat) (o : Option EngOut) (hk : Keeps z0 s) : Keeps z0 (setEngOut s e
    o) := by
  delta setEngOut
  repeat' first
    | with_reducible
        first
          | assumption | exact Keeps.refl _ | apply keeps_ite | apply keeps_ite2 | apply keeps_ite3
          | apply keeps_modEng
    | intro _
    | split
    | dsimp only

theorem keeps_countDone {z0 : State} (s : State) (e : Nat) (code : Half) (hk : Keeps z0 s) : Keeps z0 (countDone s e code)
    := by
  delta countDone
  repeat' first
    | with_reducible
        first
          | assumption | exact Keeps.refl _ | apply keeps_ite | apply keeps_ite2 | apply keeps_ite3
          | apply keeps_State_wr | apply keeps_State_wrf | apply keeps_State_bump | apply keeps_State_emit
    | intro _
    | split
    | dsimp only

theorem keeps_submitEffect {z0 : State} (e : Nat) (s : State) (v : Word) (hk : Keeps z0 s) : Keeps z0 (submitEffect e s
    v).2 := by
  delta submitEffect
  repeat' first
    | with_reducible
        first
          | assumption | exact Keeps.refl _ | apply keeps_ite | apply keeps_ite2 | apply keeps_setEngQueue
          | apply keeps_countDone
    | intro _
    | split
    | dsimp only

theorem keeps_submitRow {z0 : State} (e : Nat) (m : Master) (addr : Word) (s : State) (hk : Keeps z0 s) : KeepsO z0
    (submitRow e m addr s) := by
  delta submitRow
  repeat' first
    | with_reducible
        first
          | refine keepsO_next ?_ | assumption | exact Keeps.refl _ | apply keeps_ite | apply keepsO_ite
          | apply keeps_ite2 | apply keeps_ite3 | apply keeps_State_resp | apply keeps_whenLive | apply keeps_gated
          | apply keeps_flushPairs | apply keeps_submitEffect
    | intro _
    | split
    | refine keeps_of_eq (by assumption) ?_
    | refine keeps_of_eq3 (by assumption) ?_
    | dsimp only

theorem keeps_completeDesc {z0 : State} (s : State) (e : Nat) (a : Nat) (o : EngOut) (hk : Keeps z0 s) : Keeps z0
    (completeDesc s e a o) := by
  delta completeDesc
  repeat' first
    | with_reducible
        first
          | assumption | exact Keeps.refl _ | apply keeps_State_setBytes | apply keeps_setEngQueue
          | apply keeps_setEngOut | apply keeps_countDone
    | intro _
    | split
    | dsimp only

end Sys2Proof.Machine
end

