-- ==== Sys2Proof/Laws/Keeps/Acsis.lean ====
section
/-! SUPPORT. What the functions of `Machine/Acsis.lean` keep: the queue of commands, and the canonical form of memory and registers. -/

set_option linter.unusedTactic false
set_option linter.unreachableTactic false

namespace Sys2Proof.Machine

/-- What one instruction of an applet comes to keeps what every function keeps. -/
def KeepsA (s : State) : AcsRes → Prop
  | .go _ t => Keeps s t
  | .stop _ t => Keeps s t
  | _ => True

theorem keepsA_go {s t : State} {r : AcsRun} (h : Keeps s t) : KeepsA s (.go r t) := h

theorem keepsA_stop {s t : State} {r : AcsRun} (h : Keeps s t) : KeepsA s (.stop r t) := h

theorem keepsA_trap {s : State} {n : Nat} : KeepsA s (.trap n) := trivial

theorem keepsA_wait {s : State} : KeepsA s .wait := trivial

theorem keepsA_ite {s : State} {a b : AcsRes} {c : Prop} [Decidable c] (h : c → KeepsA s a) (k : ¬c → KeepsA s b) :
    KeepsA s (if c then a else b) := by
  by_cases hc : c
  · rw [if_pos hc]; exact h hc
  · rw [if_neg hc]; exact k hc

theorem keeps_acsPop1 {z0 : State} (r : AcsRun) (f : Word → AcsRun → AcsRes) (hf : ∀ a q, KeepsA z0 (f a q)) : KeepsA z0 (acsPop1 r f) := by
  unfold acsPop1; split
  · exact hf _ _
  · trivial

theorem keeps_acsPop2 {z0 : State} (r : AcsRun) (f : Word → Word → AcsRun → AcsRes) (hf : ∀ a b q, KeepsA z0 (f a b q)) :
    KeepsA z0 (acsPop2 r f) := by
  unfold acsPop2; split
  · exact hf _ _ _
  · trivial

theorem keeps_acsPop3 {z0 : State} (r : AcsRun) (f : Word → Word → Word → AcsRun → AcsRes) (hf : ∀ a b c q, KeepsA z0 (f a b c q)) :
    KeepsA z0 (acsPop3 r f) := by
  unfold acsPop3; split
  · exact hf _ _ _ _
  · trivial

theorem keeps_acsPop4 {z0 : State} (r : AcsRun) (f : DWord → DWord → AcsRun → AcsRes) (hf : ∀ a b q, KeepsA z0 (f a b q)) :
    KeepsA z0 (acsPop4 r f) := by
  unfold acsPop4; split
  · exact hf _ _ _
  · trivial

theorem keeps_State_modApplet {z0 : State} (s : State) (i : Nat) (f : Applet → Applet) (hk : Keeps z0 s) : Keeps z0
    (State.modApplet s i f) := by
  delta State.modApplet
  repeat' first
    | with_reducible
        first
          | assumption | exact Keeps.refl _ | apply keeps_ite | apply keeps_ite2 | apply keeps_ite3
          | apply keeps_modMet
    | intro _
    | split
    | dsimp only

theorem keeps_loadCheckDone {z0 : State} (s : State) (granted : Bool) (hk : Keeps z0 s) : Keeps z0 (loadCheckDone s
    granted) := by
  delta loadCheckDone
  repeat' first
    | with_reducible
        first
          | assumption | exact Keeps.refl _ | apply keeps_ite | apply keeps_ite2 | apply keeps_ite3
          | apply keeps_modMet | apply keeps_loadGo | apply keeps_loadRefuse
    | intro _
    | split
    | refine keeps_of_eq (by assumption) ?_
    | refine keeps_of_eq3 (by assumption) ?_
    | dsimp only

theorem keeps_closeHookDone {z0 : State} (s : State) (out : List Byte) (fault : Bool) (hk : Keeps z0 s) : Keeps z0
    (closeHookDone s out fault) := by
  delta closeHookDone
  repeat' first
    | with_reducible
        first
          | assumption | exact Keeps.refl _ | apply keeps_finishClose
    | intro _
    | split
    | refine keeps_of_eq (by assumption) ?_
    | refine keeps_of_eq3 (by assumption) ?_
    | dsimp only

theorem keeps_hookDone {z0 : State} (s : State) (h : Hook) (result : Option Word) (out : List Byte) (hk : Keeps z0 s) :
    Keeps z0 (hookDone s h result out) := by
  delta hookDone
  repeat' first
    | with_reducible
        first
          | assumption | exact Keeps.refl _ | apply keeps_ite | apply keeps_ite2 | apply keeps_ite3
          | apply keeps_loadCheckDone | apply keeps_closeHookDone
    | intro _
    | split
    | refine keeps_of_eq (by assumption) ?_
    | refine keeps_of_eq3 (by assumption) ?_
    | dsimp only

theorem keeps_invocationEnds {z0 : State} (s : State) (r : AcsRun) (result : Option Word) (hk : Keeps z0 s) : Keeps z0
    (invocationEnds s r result) := by
  delta invocationEnds
  repeat' first
    | with_reducible
        first
          | assumption | exact Keeps.refl _ | apply keeps_ite | apply keeps_ite2 | apply keeps_ite3
          | apply keeps_modMet | apply keeps_closePeriod | apply keeps_nextClose | apply keeps_hookDone
    | intro _
    | split
    | dsimp only

theorem keeps_acsTrap {z0 : State} (s : State) (r : AcsRun) (cause : Nat) (hk : Keeps z0 s) : Keeps z0 (acsTrap s r cause)
    := by
  delta acsTrap
  repeat' first
    | with_reducible
        first
          | assumption | exact Keeps.refl _ | apply keeps_ite | apply keeps_ite2 | apply keeps_ite3
          | apply keeps_State_bump | apply keeps_raise | apply keeps_State_modApplet | apply keeps_invocationEnds
          | apply keepsA_go | apply keepsA_stop | apply keepsA_trap | apply keepsA_wait | apply keepsA_ite
    | intro _
    | split
    | dsimp only

theorem keeps_acsFinish {z0 : State} (s : State) (r : AcsRun) (hk : Keeps z0 s) : Keeps z0 (acsFinish s r) := by
  delta acsFinish
  repeat' first
    | with_reducible
        first
          | assumption | exact Keeps.refl _ | apply keeps_State_modApplet | apply keeps_invocationEnds
    | intro _
    | split
    | dsimp only

theorem keeps_acsPush {z0 : State} (r : AcsRun) (s : State) (l : List Word) (hk : Keeps z0 s) : KeepsA z0 (acsPush r s l)
    := by
  delta acsPush
  repeat' first
    | with_reducible
        first
          | assumption | exact Keeps.refl _ | apply keeps_ite | apply keeps_ite2 | apply keeps_ite3 | apply keepsA_go
          | apply keepsA_stop | apply keepsA_trap | apply keepsA_wait | apply keepsA_ite
    | intro _
    | split
    | dsimp only

theorem keeps_acsRow {z0 : State} (op : Nat) (imm : Nat) (sys : Option Nat) (f : Nat → AcsRun → State → AcsRes) (s : State)
    (hf : ∀ v q x0, KeepsA x0 (f v q x0)) (hk : Keeps z0 s) : KeepsO z0 (acsRow op imm sys f s) := by
  refine keepsO_next (keeps_whenLive _ _ (fun t => ?_) hk)
  split
  · exact Keeps.refl t
  · rename_i r _
    dsimp only
    refine keeps_ite (fun _ => Keeps.refl t) fun _ => keeps_ite (fun _ => keeps_acsTrap _ _ _ (Keeps.refl t)) fun _ => ?_
    have h := hf (codeImm (runApplet t r).code r.pc imm) { r with pc := r.pc + 1 + imm, count := r.count + 1 } t
    split
    · rename_i e; rw [e] at h; exact keeps_modMet h
    · rename_i e; rw [e] at h; exact keeps_acsFinish _ _ h
    · exact keeps_acsTrap _ _ _ (Keeps.refl t)
    · exact Keeps.refl t

theorem keeps_acsBin {z0 : State} (op : Nat) (f : Word → Word → Word) (s : State) (hk : Keeps z0 s) : KeepsO z0 (acsBin op
    f s) := by
  delta acsBin
  repeat' first
    | with_reducible
        first
          | refine keepsO_next ?_ | assumption | exact Keeps.refl _ | apply keeps_acsPop2 | apply keeps_acsPush
          | apply keeps_acsRow | apply keepsA_go | apply keepsA_stop | apply keepsA_trap | apply keepsA_wait
          | apply keepsA_ite
    | intro _
    | split
    | dsimp only

theorem keeps_acsDivision {z0 : State} (op : Nat) (f : Word → Word → Word) (s : State) (hk : Keeps z0 s) : KeepsO z0
    (acsDivision op f s) := by
  delta acsDivision
  repeat' first
    | with_reducible
        first
          | refine keepsO_next ?_ | assumption | exact Keeps.refl _ | apply keeps_ite | apply keepsO_ite
          | apply keeps_ite2 | apply keeps_ite3 | apply keeps_acsPop2 | apply keeps_acsPush | apply keeps_acsRow
          | apply keepsA_go | apply keepsA_stop | apply keepsA_trap | apply keepsA_wait | apply keepsA_ite
    | intro _
    | split
    | dsimp only

theorem keeps_acsWide {z0 : State} (op : Nat) (f : DWord → DWord → DWord) (s : State) (hk : Keeps z0 s) : KeepsO z0
    (acsWide op f s) := by
  delta acsWide
  repeat' first
    | with_reducible
        first
          | refine keepsO_next ?_ | assumption | exact Keeps.refl _ | apply keeps_acsPop4 | apply keeps_acsPush
          | apply keeps_acsRow | apply keepsA_go | apply keepsA_stop | apply keepsA_trap | apply keepsA_wait
          | apply keepsA_ite
    | intro _
    | split
    | dsimp only

theorem keeps_acsStore {z0 : State} (s : State) (r : AcsRun) (a : Nat) (l : List Byte) (hk : Keeps z0 s) : Keeps z0
    (acsStore s r a l) := by
  delta acsStore
  repeat' first
    | with_reducible
        first
          | assumption | exact Keeps.refl _ | apply keeps_State_modApplet
    | intro _
    | split
    | dsimp only

theorem keeps_acsJump {z0 : State} (r : AcsRun) (s : State) (target : Int) (hk : Keeps z0 s) : KeepsA z0 (acsJump r s
    target) := by
  delta acsJump
  repeat' first
    | with_reducible
        first
          | assumption | exact Keeps.refl _ | apply keeps_ite | apply keeps_ite2 | apply keeps_ite3 | apply keepsA_go
          | apply keepsA_stop | apply keepsA_trap | apply keepsA_wait | apply keepsA_ite
    | intro _
    | split
    | dsimp only

theorem keeps_acsSys {z0 : State} (n : Nat) (f : AcsRun → State → AcsRes) (s : State) (hf : ∀ x0 x1, KeepsA x1 (f x0 x1))
    (hk : Keeps z0 s) : KeepsO z0 (acsSys n f s) := by
  delta acsSys
  repeat' first
    | with_reducible
        first
          | refine keepsO_next ?_ | assumption | exact Keeps.refl _ | apply keeps_acsRow | apply keepsA_go
          | apply keepsA_stop | apply keepsA_trap | apply keepsA_wait | apply keepsA_ite | apply hf
    | intro _
    | split
    | dsimp only

theorem keeps_startHook {z0 : State} (s : State) (h : Hook) (i : Nat) (hk : Keeps z0 s) : Keeps z0 (startHook s h i) := by
  delta startHook
  repeat' first
    | with_reducible
        first
          | assumption | exact Keeps.refl _ | apply keeps_ite | apply keeps_ite2 | apply keeps_ite3
          | apply keeps_modMet | apply keeps_nextClose | apply keeps_State_modApplet | apply keeps_hookDone
    | intro _
    | split
    | refine keeps_of_eq (by assumption) ?_
    | refine keeps_of_eq3 (by assumption) ?_
    | dsimp only

theorem keeps_takeHook {z0 : State} (s : State) (h : Hook) (hk : Keeps z0 s) : Keeps z0 (takeHook s h) := by
  delta takeHook
  repeat' first
    | with_reducible
        first
          | assumption | exact Keeps.refl _ | apply keeps_ite | apply keeps_ite2 | apply keeps_ite3
          | apply keeps_modMet | apply keeps_startHook
    | intro _
    | split
    | refine keeps_of_eq (by assumption) ?_
    | refine keeps_of_eq3 (by assumption) ?_
    | dsimp only

theorem keeps_tickWaits {z0 : State} (s : State) (slot : Fin 8) (hk : Keeps z0 s) : Keeps z0 (tickWaits s slot) := by
  delta tickWaits
  repeat' first
    | with_reducible
        first
          | assumption | exact Keeps.refl _ | apply keeps_ite | apply keeps_ite2 | apply keeps_ite3
          | apply keeps_modMet
    | intro _
    | split
    | refine keeps_of_eq (by assumption) ?_
    | refine keeps_of_eq3 (by assumption) ?_
    | dsimp only

end Sys2Proof.Machine
end

