-- ==== Sys2Proof/Laws/Keeps/Loops.lean ====
section
/-! SUPPORT. What the functions of `Machine/Loops.lean` keep: the queue of commands, and the canonical form of memory and registers. -/

set_option linter.unusedTactic false
set_option linter.unreachableTactic false

namespace Sys2Proof.Machine

theorem keeps_State_modLoop {z0 : State} (s : State) (n : Fin 2) (f : LoopEval → LoopEval) (hk : Keeps z0 s) : Keeps z0
    (State.modLoop s n f) := by
  delta State.modLoop
  repeat' first
    | with_reducible
        first
          | assumption | exact Keeps.refl _ | apply keeps_modHost
    | intro _
    | split
    | dsimp only

theorem keeps_loopCtrlEffect {z0 : State} (n : Fin 2) (s : State) (v : Word) (hk : Keeps z0 s) : Keeps z0 (loopCtrlEffect
    n s v) := by
  delta loopCtrlEffect
  repeat' first
    | with_reducible
        first
          | assumption | exact Keeps.refl _ | apply keeps_fieldWrite | apply keeps_State_modLoop
    | intro _
    | split
    | dsimp only

theorem keeps_loopApply {z0 : State} (s : State) (n : Fin 2) (c : LoopCfg) (hk : Keeps z0 s) : Keeps z0 (loopApply s n c)
    := by
  delta loopApply
  repeat' first
    | with_reducible
        first
          | assumption | exact Keeps.refl _ | apply keeps_State_wr | apply keeps_loopCtrlEffect
    | intro _
    | split
    | dsimp only

theorem keeps_loopSetCmd {z0 : State} (b : List Byte) (s : State) (hk : Keeps z0 s) : Keeps z0 (loopSetCmd b s).2.2 := by
  delta loopSetCmd
  repeat' first
    | with_reducible
        first
          | assumption | exact Keeps.refl _ | apply keeps_ite | apply keeps_ite3 | apply keeps_raise
          | apply keeps_loopApply
    | intro _
    | split
    | dsimp only

theorem keeps_loopStore {z0 : State} (s : State) (lane : Nat) (b : List Byte) (hk : Keeps z0 s) : Keeps z0 (loopStore s
    lane b) := by
  delta loopStore
  repeat' first
    | with_reducible
        first
          | assumption | exact Keeps.refl _ | apply keeps_ite | apply keeps_ite2 | apply keeps_ite3
          | apply keeps_modHost | apply keeps_savePosition
    | intro _
    | split
    | dsimp only

theorem keeps_loopStatusCmd {z0 : State} (b : List Byte) (s : State) (hk : Keeps z0 s) : Keeps z0 (loopStatusCmd b s).2.2
    := by
  delta loopStatusCmd
  repeat' first
    | with_reducible
        first
          | assumption | exact Keeps.refl _ | apply keeps_ite | apply keeps_ite3
    | intro _
    | split
    | dsimp only

end Sys2Proof.Machine
end

