-- ==== Sys2Proof/Laws/Keeps/Tenant.lean ====
section
/-! SUPPORT. What the functions of `Machine/Tenant.lean` keep: the queue of commands, and the canonical form of memory and registers. -/

set_option linter.unusedTactic false
set_option linter.unreachableTactic false

namespace Sys2Proof.Machine

theorem keeps_applyOwner {z0 : State} (s : State) (seq : Nat) (key : List Byte) (hk : Keeps z0 s) : Keeps z0 (applyOwner s
    seq key) := by
  delta applyOwner
  repeat' first
    | with_reducible
        first
          | assumption | exact Keeps.refl _ | apply keeps_ite | apply keeps_ite2 | apply keeps_ite3
          | apply keeps_mramStoreBytes | apply keeps_lcRequest | apply keeps_raiseCounter
    | intro _
    | split
    | dsimp only

theorem keeps_applyTenant {z0 : State} (s : State) (t : Nat) (seq : Nat) (es : List PkgEntry) (hk : Keeps z0 s) : Keeps z0
    (applyTenant s t seq es) := by
  delta applyTenant
  repeat' first
    | with_reducible
        first
          | assumption | exact Keeps.refl _ | apply keeps_mramStoreBytes | apply keeps_dropTenantSlots
          | apply keeps_raiseCounter | apply keeps_tellWorkers
    | intro _
    | split
    | dsimp only

theorem keeps_tenantKeysRun {z0 : State} (fault : Bool) (s : State) (l : List Byte) (r : ReplyTo) (hk : Keeps z0 s) :
    Keeps z0 (tenantKeysRun fault s l r) := by
  delta tenantKeysRun
  repeat' first
    | with_reducible
        first
          | assumption | exact Keeps.refl _ | apply keeps_ite | apply keeps_ite2 | apply keeps_ite3
          | apply keeps_raise | apply keeps_setSess | apply keeps_finishReply | apply keeps_closePeriod
          | apply keeps_applyOwner | apply keeps_applyTenant
    | intro _
    | split
    | refine keeps_of_eq (by assumption) ?_
    | refine keeps_of_eq3 (by assumption) ?_
    | dsimp only

theorem keeps_provision {z0 : State} (s : State) (code : Half) (data : List Byte) (hk : Keeps z0 s) : Keeps z0 (provision
    s code data) := by
  delta provision
  repeat' first
    | with_reducible
        first
          | assumption | exact Keeps.refl _ | apply keeps_ite | apply keeps_ite2 | apply keeps_ite3
          | apply keeps_carryStart
    | intro _
    | split
    | refine keeps_of_eq (by assumption) ?_
    | refine keeps_of_eq3 (by assumption) ?_
    | dsimp only

theorem keeps_raiseFloors {z0 : State} (s : State) (hk : Keeps z0 s) : Keeps z0 (raiseFloors s) := by
  delta raiseFloors
  repeat' first
    | with_reducible
        first
          | assumption | exact Keeps.refl _ | apply keeps_foldl | apply keeps_foldl2 | apply keeps_raiseCounter
    | intro _
    | split
    | refine keeps_of_eq (by assumption) ?_
    | refine keeps_of_eq3 (by assumption) ?_
    | dsimp only

theorem keeps_appletStore {z0 : State} (s : State) (l : List Byte) (code : List Byte) (hk : Keeps z0 s) : Keeps z0
    (appletStore s l code) := by
  delta appletStore
  repeat' first
    | with_reducible
        first
          | assumption | exact Keeps.refl _ | apply keeps_foldl | apply keeps_foldl2 | apply keeps_ite
          | apply keeps_ite2 | apply keeps_ite3 | apply keeps_modMet | apply keeps_mramStoreBytes
          | apply keeps_dropApplet
    | intro _
    | split
    | refine keeps_of_eq (by assumption) ?_
    | refine keeps_of_eq3 (by assumption) ?_
    | dsimp only

theorem keeps_appletLoadRun {z0 : State} (s : State) (l : List Byte) (r : ReplyTo) (hk : Keeps z0 s) : Keeps z0
    (appletLoadRun s l r) := by
  delta appletLoadRun
  repeat' first
    | with_reducible
        first
          | assumption | exact Keeps.refl _ | apply keeps_raise | apply keeps_finishReply | apply keeps_appletStore
    | intro _
    | split
    | refine keeps_of_eq (by assumption) ?_
    | refine keeps_of_eq3 (by assumption) ?_
    | dsimp only

theorem keeps_loadApplets {z0 : State} (s : State) (hk : Keeps z0 s) : Keeps z0 (loadApplets s) := by
  delta loadApplets
  repeat' first
    | with_reducible
        first
          | assumption | exact Keeps.refl _ | apply keeps_foldl | apply keeps_foldl2 | apply keeps_ite
          | apply keeps_ite2 | apply keeps_ite3 | apply keeps_modMet | apply keeps_dropApplet
    | intro _
    | split
    | refine keeps_of_eq (by assumption) ?_
    | refine keeps_of_eq3 (by assumption) ?_
    | dsimp only

end Sys2Proof.Machine
end

