-- ==== Sys2Proof/Laws/Keeps/Admission.lean ====
section
/-! SUPPORT. What the functions of `Machine/Admission.lean` keep: the queue of commands, and the canonical form of memory and registers. -/

set_option linter.unusedTactic false
set_option linter.unreachableTactic false

namespace Sys2Proof.Machine

theorem keeps_setAdmit {z0 : State} (s : State) (pos : Nat) (step : AdmitStep) (hk : Keeps z0 s) : Keeps z0 (setAdmit s
    pos step) := by
  delta setAdmit
  repeat' first
    | with_reducible
        first
          | assumption | exact Keeps.refl _ | apply keeps_modSvc
    | intro _
    | split
    | dsimp only

theorem keeps_endAdmit {z0 : State} (s : State) (pos : Nat) (hk : Keeps z0 s) : Keeps z0 (endAdmit s pos) := by
  delta endAdmit
  repeat' first
    | with_reducible
        first
          | assumption | exact Keeps.refl _ | apply keeps_modSvc
    | intro _
    | split
    | dsimp only

theorem keeps_admitRun {z0 : State} (s : State) (pos : Nat) (l : List AdmitStep) (hk : Keeps z0 s) : Keeps z0 (admitRun s pos l) := by
  induction l with
  | nil => exact keeps_endAdmit _ _ hk
  | cons hd tl ih =>
    cases hd <;> simp only [admitRun] <;>
    (repeat' first | with_reducible assumption | with_reducible apply keeps_ite | with_reducible apply keeps_startTxn | with_reducible apply keeps_setAdmit | with_reducible apply keeps_carryStart | with_reducible apply keeps_endAdmit | with_reducible apply keeps_setLane | intro _ | split)

theorem keeps_admitStart {z0 : State} (s : State) (pos : Nat) (hk : Keeps z0 s) : Keeps z0 (admitStart s pos) := by
  delta admitStart
  repeat' first
    | with_reducible
        first
          | assumption | exact Keeps.refl _ | apply keeps_admitRun
    | intro _
    | split
    | dsimp only

theorem keeps_storeRecord {z0 : State} (s : State) (pos : Nat) (l : List (List Byte)) (hk : Keeps z0 s) : Keeps z0
    (storeRecord s pos l) := by
  delta storeRecord
  repeat' first
    | with_reducible
        first
          | assumption | exact Keeps.refl _ | apply keeps_modSvc | apply keeps_savePosition
          | apply keeps_provisionRecord
    | intro _
    | split
    | dsimp only

theorem keeps_checkAnswer {z0 : State} (s : State) (pos : Nat) (b : List Byte) (hk : Keeps z0 s) : Keeps z0 (checkAnswer s
    pos b) := by
  delta checkAnswer
  repeat' first
    | with_reducible
        first
          | assumption | exact Keeps.refl _ | apply keeps_ite | apply keeps_ite2 | apply keeps_ite3
          | apply keeps_setLane | apply keeps_admitRun | apply keeps_storeRecord
    | intro _
    | split
    | dsimp only

theorem keeps_shutterFailed {z0 : State} (s : State) (pos : Nat) (hk : Keeps z0 s) : Keeps z0 (shutterFailed s pos) := by
  delta shutterFailed
  repeat' first
    | with_reducible
        first
          | assumption | exact Keeps.refl _ | apply keeps_modSvc | apply keeps_endAdmit
    | intro _
    | split
    | dsimp only

theorem keeps_admitOutcome {z0 : State} (s : State) (pos : Nat) (step : AdmitStep) (st : Half) (hk : Keeps z0 s) : Keeps
    z0 (admitOutcome s pos step st) := by
  delta admitOutcome
  repeat' first
    | with_reducible
        first
          | assumption | exact Keeps.refl _ | apply keeps_ite | apply keeps_ite2 | apply keeps_ite3
          | apply keeps_setLane | apply keeps_endAdmit | apply keeps_admitRun | apply keeps_shutterFailed
    | intro _
    | split
    | refine keeps_of_eq (by assumption) ?_
    | refine keeps_of_eq3 (by assumption) ?_
    | dsimp only

theorem keeps_admitAdvance {z0 : State} (s : State) (hk : Keeps z0 s) : Keeps z0 (admitAdvance s) := by
  delta admitAdvance
  repeat' first
    | with_reducible
        first
          | assumption | exact Keeps.refl _ | apply keeps_foldl | apply keeps_foldl2 | apply keeps_admitOutcome
    | intro _
    | split
    | refine keeps_of_eq (by assumption) ?_
    | refine keeps_of_eq3 (by assumption) ?_
    | dsimp only

theorem keeps_reportRecord {z0 : State} (s : State) (hk : Keeps z0 s) : Keeps z0 (reportRecord s) := by
  delta reportRecord
  repeat' first
    | with_reducible
        first
          | assumption | exact Keeps.refl _ | apply keeps_ite | apply keeps_ite2 | apply keeps_ite3
          | apply keeps_startTxn | apply keeps_storeRecord
    | intro _
    | split
    | dsimp only

theorem keeps_applyRecord {z0 : State} (s : State) (l : List (List Byte)) (hk : Keeps z0 s) : Keeps z0 (applyRecord s l)
    := by
  delta applyRecord
  repeat' first
    | with_reducible
        first
          | assumption | exact Keeps.refl _ | apply keeps_ite | apply keeps_ite2 | apply keeps_ite3
          | apply keeps_modSvc | apply keeps_State_wrb | apply keeps_setLane | apply keeps_raise
          | apply keeps_evaluateSlots | apply keeps_loadSets
    | intro _
    | split
    | dsimp only

theorem keeps_provisionAll {z0 : State} (s : State) (p : Nat) (hk : Keeps z0 s) : Keeps z0 (provisionAll s p) := by
  delta provisionAll
  repeat' first
    | with_reducible
        first
          | assumption | exact Keeps.refl _ | apply keeps_foldl | apply keeps_foldl2 | apply keeps_ite
          | apply keeps_ite2 | apply keeps_ite3 | apply keeps_startTxn | apply keeps_provisionMap
    | intro _
    | split
    | dsimp only

end Sys2Proof.Machine
end

