-- ==== Sys2Proof/Laws/Keeps/Bundle.lean ====
section
/-! SUPPORT. What the functions of `Machine/Bundle.lean` keep: the queue of commands, and the canonical form of memory and registers. -/

set_option linter.unusedTactic false
set_option linter.unreachableTactic false

namespace Sys2Proof.Machine

theorem keeps_writeBoot {z0 : State} (s : State) (b : Boot) (hk : Keeps z0 s) : Keeps z0 (writeBoot s b) := by
  delta writeBoot
  repeat' first
    | with_reducible
        first
          | assumption | exact Keeps.refl _ | apply keeps_writeCopy
    | intro _
    | split
    | dsimp only

theorem keeps_modBoot {z0 : State} (s : State) (f : Boot → Boot) (hk : Keeps z0 s) : Keeps z0 (modBoot s f) := by
  delta modBoot
  repeat' first
    | with_reducible
        first
          | assumption | exact Keeps.refl _ | apply keeps_writeBoot
    | intro _
    | split
    | dsimp only

theorem keeps_setStartCount {z0 : State} (s : State) (n : Nat) (hk : Keeps z0 s) : Keeps z0 (setStartCount s n) := by
  delta setStartCount
  repeat' first
    | with_reducible
        first
          | assumption | exact Keeps.refl _ | apply keeps_State_wrf | apply keeps_mramStoreBytes
    | intro _
    | split
    | dsimp only

theorem keeps_clearStore {z0 : State} (s : State) (base : Nat) (hk : Keeps z0 s) : Keeps z0 (clearStore s base).2 := by
  delta clearStore
  repeat' first
    | with_reducible
        first
          | assumption | exact Keeps.refl _ | apply keeps_foldl | apply keeps_foldl2 | apply keeps_ite
          | apply keeps_ite2 | apply keeps_clearSectorWhole
    | intro _
    | split
    | dsimp only

theorem keeps_programBundle {z0 : State} (s : State) (base : Nat) (l : List Byte) (hk : Keeps z0 s) : Keeps z0
    (programBundle s base l).2 := by
  delta programBundle
  repeat' first
    | with_reducible
        first
          | assumption | exact Keeps.refl _ | apply keeps_mramStoreBytes | apply keeps_clearStore
    | intro _
    | split
    | refine keeps_of_eq (by assumption) ?_
    | refine keeps_of_eq3 (by assumption) ?_
    | dsimp only

theorem keeps_checkStaging {z0 : State} (s : State) (hk : Keeps z0 s) : Keeps z0 (checkStaging s).2 := by
  delta checkStaging
  repeat' first
    | with_reducible
        first
          | assumption | exact Keeps.refl _ | apply keeps_ite | apply keeps_ite2 | apply keeps_modBoot
    | intro _
    | split
    | dsimp only

end Sys2Proof.Machine
end

