-- ==== Sys2Proof/Laws/Keeps/Rows.lean ====
section
/-! SUPPORT. What the functions of `Machine/Rows.lean` keep: the queue of commands, and the canonical form of memory and registers. -/

set_option linter.unusedTactic false
set_option linter.unreachableTactic false

namespace Sys2Proof.Machine

theorem keeps_stuckChannel {z0 : State} (s : State) (ch : Fin 8) (hk : Keeps z0 s) : Keeps z0 (stuckChannel s ch) := by
  delta stuckChannel
  repeat' first
    | with_reducible
        first
          | assumption | exact Keeps.refl _ | apply keeps_ite | apply keeps_ite2 | apply keeps_ite3
          | apply keeps_modFe | apply keeps_State_wrb | apply keeps_raise
    | intro _
    | split
    | dsimp only

theorem keeps_stuckChannels {z0 : State} (s : State) (hk : Keeps z0 s) : Keeps z0 (stuckChannels s) := by
  delta stuckChannels
  repeat' first
    | with_reducible
        first
          | assumption | exact Keeps.refl _ | apply keeps_foldl | apply keeps_foldl2 | apply keeps_ite
          | apply keeps_ite2 | apply keeps_ite3 | apply keeps_stuckChannel
    | intro _
    | split
    | dsimp only

theorem keeps_windowsFrame {z0 : State} (s : State) (hk : Keeps z0 s) : Keeps z0 (windowsFrame s) := by
  delta windowsFrame
  repeat' first
    | with_reducible
        first
          | assumption | exact Keeps.refl _ | apply keeps_ite | apply keeps_ite2 | apply keeps_ite3
          | apply keeps_modNuc
    | intro _
    | split
    | dsimp only

theorem keeps_eventPixel {z0 : State} (ofs : Option (List FrameRec)) (s : State) (p : Nat) (hk : Keeps z0 s) : Keeps z0
    (eventPixel ofs s p) := by
  delta eventPixel
  repeat' first
    | with_reducible
        first
          | assumption | exact Keeps.refl _ | apply keeps_ite | apply keeps_ite2 | apply keeps_ite3
          | apply keeps_modNuc | apply keeps_State_bump
    | intro _
    | split
    | refine keeps_of_eq (by assumption) ?_
    | refine keeps_of_eq3 (by assumption) ?_
    | dsimp only

theorem keeps_eventResults {z0 : State} (s : State) (hk : Keeps z0 s) : Keeps z0 (eventResults s) := by
  delta eventResults
  repeat' first
    | with_reducible
        first
          | assumption | exact Keeps.refl _ | apply keeps_foldl | apply keeps_foldl2 | apply keeps_modNuc
          | apply keeps_State_wr | apply keeps_State_wrb | apply keeps_raise | apply keeps_eventPixel
    | intro _
    | split
    | refine keeps_of_eq (by assumption) ?_
    | refine keeps_of_eq3 (by assumption) ?_
    | dsimp only

theorem keeps_applyDead {z0 : State} (s : State) (hk : Keeps z0 s) : Keeps z0 (applyDead s) := by
  delta applyDead
  repeat' first
    | with_reducible
        first
          | assumption | exact Keeps.refl _ | apply keeps_foldl | apply keeps_foldl2 | apply keeps_modNuc
    | intro _
    | split
    | dsimp only

theorem keeps_countLimited {z0 : State} (s : State) (hk : Keeps z0 s) : Keeps z0 (countLimited s) := by
  delta countLimited
  repeat' first
    | with_reducible
        first
          | assumption | exact Keeps.refl _ | apply keeps_State_bump
    | intro _
    | split
    | dsimp only

theorem keeps_shutBoundary {z0 : State} (s : State) (hk : Keeps z0 s) : Keeps z0 (shutBoundary s) := by
  delta shutBoundary
  repeat' first
    | with_reducible
        first
          | assumption | exact Keeps.refl _ | apply keeps_ite | apply keeps_ite2 | apply keeps_ite3
          | apply keeps_modSht | apply keeps_eventResults
    | intro _
    | split
    | dsimp only

theorem keeps_frameSettings {z0 : State} (s : State) (hk : Keeps z0 s) : Keeps z0 (frameSettings s) := by
  delta frameSettings
  repeat' first
    | with_reducible
        first
          | assumption | exact Keeps.refl _ | apply keeps_modFe | apply keeps_applySelection | apply keeps_applyDead
          | apply keeps_countLimited | apply keeps_shutBoundary
    | intro _
    | split
    | dsimp only

theorem keeps_frameEnd {z0 : State} (s : State) (hk : Keeps z0 s) : Keeps z0 (frameEnd s) := by
  delta frameEnd
  repeat' first
    | with_reducible
        first
          | assumption | exact Keeps.refl _ | apply keeps_modNuc | apply keeps_State_wr | apply keeps_calFrame
          | apply keeps_stuckChannels | apply keeps_windowsFrame
    | intro _
    | split
    | dsimp only

theorem keeps_feStops {z0 : State} (s : State) (hk : Keeps z0 s) : Keeps z0 (feStops s) := by
  delta feStops
  repeat' first
    | with_reducible
        first
          | assumption | exact Keeps.refl _ | apply keeps_ite | apply keeps_ite2 | apply keeps_ite3
          | apply keeps_modFe | apply keeps_State_wrb | apply keeps_setLane | apply keeps_tdiStop
          | apply keeps_fabRowBoundary
    | intro _
    | split
    | dsimp only

theorem keeps_rowStart {z0 : State} (row : Nat) (s : State) (hk : Keeps z0 s) : Keeps z0 (rowStart row s) := by
  delta rowStart
  repeat' first
    | with_reducible
        first
          | assumption | exact Keeps.refl _ | apply keeps_ite | apply keeps_ite2 | apply keeps_ite3
          | apply keeps_modFe | apply keeps_modVis | apply keeps_tdiOpen | apply keeps_fabRowBoundary
          | apply keeps_admitBoundary | apply keeps_openBoundary
    | intro _
    | split
    | dsimp only

end Sys2Proof.Machine
end

