-- ==== Sys2Proof/Laws/Keeps/ErrCtl.lean ====
section
/-! SUPPORT. What the functions of `Machine/ErrCtl.lean` keep: the queue of commands, and the canonical form of memory and registers. -/

set_option linter.unusedTactic false
set_option linter.unreachableTactic false

namespace Sys2Proof.Machine

theorem keeps_errLog {z0 : State} (s : State) (pos : Nat) (r : ErrReport) (hk : Keeps z0 s) : Keeps z0 (errLog s pos r) :=
    by
  delta errLog
  repeat' first
    | with_reducible
        first
          | assumption | exact Keeps.refl _ | apply keeps_modErr | apply keeps_mramStoreBytes
    | intro _
    | split
    | refine keeps_of_eq (by assumption) ?_
    | refine keeps_of_eq3 (by assumption) ?_
    | dsimp only

theorem keeps_errLogStart {z0 : State} (s : State) (hk : Keeps z0 s) : Keeps z0 (errLogStart s) := by
  delta errLogStart
  repeat' first
    | with_reducible
        first
          | assumption | exact Keeps.refl _ | apply keeps_foldl | apply keeps_foldl2 | apply keeps_modErr
    | intro _
    | split
    | refine keeps_of_eq (by assumption) ?_
    | refine keeps_of_eq3 (by assumption) ?_
    | dsimp only

theorem keeps_reportEvent {z0 : State} (s : State) (lane : Nat) (r : ErrReport) (hk : Keeps z0 s) : Keeps z0 (reportEvent
    s lane r) := by
  delta reportEvent
  repeat' first
    | with_reducible
        first
          | assumption | exact Keeps.refl _ | apply keeps_ite | apply keeps_ite2 | apply keeps_ite3
          | apply keeps_postEvent
    | intro _
    | split
    | dsimp only

theorem keeps_sendReport {z0 : State} (s : State) (r : ErrReport) (hk : Keeps z0 s) : Keeps z0 (sendReport s r) := by
  delta sendReport
  repeat' first
    | with_reducible
        first
          | assumption | exact Keeps.refl _ | apply keeps_startTxn
    | intro _
    | split
    | dsimp only

theorem keeps_holdReport {z0 : State} (s : State) (r : ErrReport) (hk : Keeps z0 s) : Keeps z0 (holdReport s r) := by
  delta holdReport
  repeat' first
    | with_reducible
        first
          | assumption | exact Keeps.refl _ | apply keeps_ite | apply keeps_ite2 | apply keeps_ite3
          | apply keeps_modErr | apply keeps_State_bump | apply keeps_sendReport
    | intro _
    | split
    | dsimp only

theorem keeps_reportAnswered {z0 : State} (s : State) (body : List Byte) (hk : Keeps z0 s) : Keeps z0 (reportAnswered s
    body) := by
  delta reportAnswered
  repeat' first
    | with_reducible
        first
          | assumption | exact Keeps.refl _ | apply keeps_ite | apply keeps_ite2 | apply keeps_ite3
          | apply keeps_modErr | apply keeps_holdReport
    | intro _
    | split
    | dsimp only

theorem keeps_handleLatch {z0 : State} (s : State) (k : Nat) (hk : Keeps z0 s) : Keeps z0 (handleLatch s k) := by
  delta handleLatch
  repeat' first
    | with_reducible
        first
          | assumption | exact Keeps.refl _ | apply keeps_ite | apply keeps_ite2 | apply keeps_ite3
          | apply keeps_State_wr | apply keeps_errLog | apply keeps_reportEvent | apply keeps_holdReport
    | intro _
    | split
    | dsimp only

theorem keeps_errDoneEffect {z0 : State} (m : Master) (s : State) (v : Word) (hk : Keeps z0 s) : Keeps z0 (errDoneEffect m
    s v) := by
  delta errDoneEffect
  repeat' first
    | with_reducible
        first
          | assumption | exact Keeps.refl _ | apply keeps_foldl | apply keeps_foldl2 | apply keeps_ite
          | apply keeps_ite2 | apply keeps_ite3 | apply keeps_State_wrb | apply keeps_handleLatch
    | intro _
    | split
    | dsimp only

theorem keeps_safeReqEffect {z0 : State} (s : State) (v : Word) (hk : Keeps z0 s) : Keeps z0 (safeReqEffect s v) := by
  delta safeReqEffect
  repeat' first
    | with_reducible
        first
          | assumption | exact Keeps.refl _ | apply keeps_ite | apply keeps_ite2 | apply keeps_ite3
          | apply keeps_enterSafe
    | intro _
    | split
    | dsimp only

theorem keeps_laneFault {z0 : State} (s : State) (lane : Nat) (cause : Half) (f : LaneFaults → LaneFaults) (hk : Keeps z0
    s) : Keeps z0 (laneFault s lane cause f) := by
  delta laneFault
  repeat' first
    | with_reducible
        first
          | assumption | exact Keeps.refl _ | apply keeps_State_modLane | apply keeps_setLane
    | intro _
    | split
    | refine keeps_of_eq (by assumption) ?_
    | refine keeps_of_eq3 (by assumption) ?_
    | dsimp only

theorem keeps_imageLost {z0 : State} (s : State) (lane : Nat) (hk : Keeps z0 s) : Keeps z0 (imageLost s lane) := by
  delta imageLost
  repeat' first
    | with_reducible
        first
          | assumption | exact Keeps.refl _ | apply keeps_ite | apply keeps_ite2 | apply keeps_ite3
          | apply keeps_modRing | apply keeps_modFw
    | intro _
    | split
    | dsimp only

theorem keeps_admissionShutter {z0 : State} (s : State) (lane : Nat) (hk : Keeps z0 s) : Keeps z0 (admissionShutter s
    lane) := by
  delta admissionShutter
  repeat' first
    | with_reducible
        first
          | assumption | exact Keeps.refl _ | apply keeps_ite | apply keeps_ite2 | apply keeps_ite3
          | apply keeps_shutterFailed
    | intro _
    | split
    | dsimp only

theorem keeps_reportAction {z0 : State} (s : State) (lane : Nat) (r : ErrReport) (hk : Keeps z0 s) : Keeps z0
    (reportAction s lane r) := by
  delta reportAction
  repeat' first
    | with_reducible
        first
          | assumption | exact Keeps.refl _ | apply keeps_ite | apply keeps_ite2 | apply keeps_ite3
          | apply keeps_modFw | apply keeps_setLane | apply keeps_ringOpen | apply keeps_laneFault
          | apply keeps_imageLost | apply keeps_admissionShutter
    | intro _
    | split
    | dsimp only

end Sys2Proof.Machine
end

