-- ==== Sys2Proof/Laws/Keeps/Firmware.lean ====
section
/-! SUPPORT. What the functions of `Machine/Firmware.lean` keep: the queue of commands, and the canonical form of memory and registers. -/

set_option linter.unusedTactic false
set_option linter.unreachableTactic false

namespace Sys2Proof.Machine

theorem keeps_fwState {z0 : State} (s : State) (slot : Nat) (code : Half) (ver : Nat) (hk : Keeps z0 s) : Keeps z0
    (fwState s slot code ver) := by
  delta fwState
  repeat' first
    | with_reducible
        first
          | assumption | exact Keeps.refl _ | apply keeps_postEvent
    | intro _
    | split
    | dsimp only

theorem keeps_setSwitch {z0 : State} (s : State) (w : Option Switch) (hk : Keeps z0 s) : Keeps z0 (setSwitch s w) := by
  delta setSwitch
  repeat' first
    | with_reducible
        first
          | assumption | exact Keeps.refl _ | apply keeps_ite | apply keeps_ite2 | apply keeps_ite3
          | apply keeps_modFw | apply keeps_State_wrf | apply keeps_fwState
    | intro _
    | split
    | refine keeps_of_eq (by assumption) ?_
    | refine keeps_of_eq3 (by assumption) ?_
    | dsimp only

theorem keeps_stageWrite {z0 : State} (s : State) (l : List Byte) (hk : Keeps z0 s) : Keeps z0 (stageWrite s l).2 := by
  delta stageWrite
  repeat' first
    | with_reducible
        first
          | assumption | exact Keeps.refl _ | apply keeps_raise | apply keeps_modBoot | apply keeps_programBundle
    | intro _
    | split
    | refine keeps_of_eq (by assumption) ?_
    | refine keeps_of_eq3 (by assumption) ?_
    | dsimp only

theorem keeps_copyToSlot {z0 : State} (s : State) (k : Nat) (l : List Byte) (hk : Keeps z0 s) : Keeps z0 (copyToSlot s k
    l).2 := by
  delta copyToSlot
  repeat' first
    | with_reducible
        first
          | assumption | exact Keeps.refl _ | apply keeps_modBoot | apply keeps_programBundle
    | intro _
    | split
    | refine keeps_of_eq (by assumption) ?_
    | refine keeps_of_eq3 (by assumption) ?_
    | dsimp only

theorem keeps_recoveryInstall {z0 : State} (s : State) (l : List Byte) (hk : Keeps z0 s) : Keeps z0 (recoveryInstall s
    l).2 := by
  delta recoveryInstall
  repeat' first
    | with_reducible
        first
          | assumption | exact Keeps.refl _ | apply keeps_raise | apply keeps_modBoot | apply keeps_setStartCount
          | apply keeps_copyToSlot
    | intro _
    | split
    | refine keeps_of_eq (by assumption) ?_
    | refine keeps_of_eq3 (by assumption) ?_
    | dsimp only

theorem keeps_fwStageRun {z0 : State} (s : State) (l : List Byte) (hk : Keeps z0 s) : Keeps z0 (fwStageRun s l).2 := by
  delta fwStageRun
  repeat' first
    | with_reducible
        first
          | assumption | exact Keeps.refl _ | apply keeps_ite | apply keeps_ite2 | apply keeps_raise
          | apply keeps_stageWrite | apply keeps_recoveryInstall
    | intro _
    | split
    | refine keeps_of_eq (by assumption) ?_
    | refine keeps_of_eq3 (by assumption) ?_
    | dsimp only

theorem keeps_sendChunk {z0 : State} (s : State) (l : ChainLoad) (h : List Byte) (c : Chunk) (hk : Keeps z0 s) : Keeps z0
    (sendChunk s l h c) := by
  delta sendChunk
  repeat' first
    | with_reducible
        first
          | assumption | exact Keeps.refl _ | apply keeps_ite | apply keeps_ite2 | apply keeps_ite3
          | apply keeps_sendPlain | apply keeps_takeBcast
    | intro _
    | split
    | refine keeps_of_eq (by assumption) ?_
    | refine keeps_of_eq3 (by assumption) ?_
    | dsimp only

theorem keeps_sendRepair {z0 : State} (s : State) (l : ChainLoad) (h : List Byte) (pos : Nat) (c : Chunk) (hk : Keeps z0
    s) : Keeps z0 (sendRepair s l h pos c) := by
  delta sendRepair
  repeat' first
    | with_reducible
        first
          | assumption | exact Keeps.refl _ | apply keeps_sendPlain | apply keeps_takeBcast
    | intro _
    | split
    | refine keeps_of_eq (by assumption) ?_
    | refine keeps_of_eq3 (by assumption) ?_
    | dsimp only

theorem keeps_putLoad {z0 : State} (s : State) (l : ChainLoad) (hk : Keeps z0 s) : Keeps z0 (putLoad s l) := by
  delta putLoad
  repeat' first | (with_reducible first | assumption | exact Keeps.refl _ | apply keeps_modFw) | intro _ | split | dsimp only

theorem keeps_sendFwOpen {z0 : State} (s : State) (l : ChainLoad) (dig : List Byte) (pos : Nat) (hk : Keeps z0 s) : Keeps
    z0 (sendFwOpen s l dig pos) := by
  delta sendFwOpen
  repeat' first
    | with_reducible
        first
          | assumption | exact Keeps.refl _ | apply keeps_startTxn
    | intro _
    | split
    | dsimp only

theorem keeps_sendFwQuery {z0 : State} (s : State) (session : Word) (pos : Nat) (hk : Keeps z0 s) : Keeps z0 (sendFwQuery
    s session pos) := by
  delta sendFwQuery
  repeat' first
    | with_reducible
        first
          | assumption | exact Keeps.refl _ | apply keeps_startTxn
    | intro _
    | split
    | dsimp only

theorem keeps_sendFwArm {z0 : State} (s : State) (at' : Nat) (dig : List Byte) (pos : Nat) (hk : Keeps z0 s) : Keeps z0
    (sendFwArm s at' dig pos) := by
  delta sendFwArm
  repeat' first
    | with_reducible
        first
          | assumption | exact Keeps.refl _ | apply keeps_startTxn
    | intro _
    | split
    | dsimp only

theorem keeps_sendFwDisarm {z0 : State} (s : State) (pos : Nat) (hk : Keeps z0 s) : Keeps z0 (sendFwDisarm s pos) := by
  delta sendFwDisarm
  repeat' first
    | with_reducible
        first
          | assumption | exact Keeps.refl _ | apply keeps_startTxn
    | intro _
    | split
    | dsimp only

theorem keeps_openLoad {z0 : State} (s : State) (next : Bool) (catchUp : Bool) (src : Nat) (targets : List Nat) (hk :
    Keeps z0 s) : Keeps z0 (openLoad s next catchUp src targets) := by
  delta openLoad
  repeat' first
    | with_reducible
        first
          | assumption | exact Keeps.refl _ | apply keeps_foldl | apply keeps_foldl2 | apply keeps_State_drawWord
          | apply keeps_putLoad | apply keeps_sendFwOpen
    | intro _
    | split
    | refine keeps_of_eq (by assumption) ?_
    | refine keeps_of_eq3 (by assumption) ?_
    | dsimp only

theorem keeps_endSwitch {z0 : State} (s : State) (w : Switch) (hk : Keeps z0 s) : Keeps z0 (endSwitch s w) := by
  delta endSwitch
  repeat' first
    | with_reducible
        first
          | assumption | exact Keeps.refl _ | apply keeps_foldl | apply keeps_foldl2 | apply keeps_ite
          | apply keeps_ite2 | apply keeps_ite3 | apply keeps_modFw | apply keeps_State_wrb | apply keeps_modBoot
          | apply keeps_setSwitch | apply keeps_sendFwDisarm
    | intro _
    | split
    | refine keeps_of_eq (by assumption) ?_
    | refine keeps_of_eq3 (by assumption) ?_
    | dsimp only

theorem keeps_cancelSwitch {z0 : State} (s : State) (hk : Keeps z0 s) : Keeps z0 (cancelSwitch s) := by
  delta cancelSwitch
  repeat' first
    | with_reducible
        first
          | assumption | exact Keeps.refl _ | apply keeps_raise | apply keeps_fwState | apply keeps_endSwitch
    | intro _
    | split
    | refine keeps_of_eq (by assumption) ?_
    | refine keeps_of_eq3 (by assumption) ?_
    | dsimp only

theorem keeps_armSwitch {z0 : State} (s : State) (w : Switch) (targets : List Nat) (hk : Keeps z0 s) : Keeps z0 (armSwitch
    s w targets) := by
  delta armSwitch
  repeat' first
    | with_reducible
        first
          | assumption | exact Keeps.refl _ | apply keeps_foldl | apply keeps_foldl2 | apply keeps_setSwitch
          | apply keeps_sendFwArm
    | intro _
    | split
    | refine keeps_of_eq (by assumption) ?_
    | refine keeps_of_eq3 (by assumption) ?_
    | dsimp only

theorem keeps_chainFail {z0 : State} (s : State) (pos : Nat) (hk : Keeps z0 s) : Keeps z0 (chainFail s pos) := by
  delta chainFail
  repeat' first | (with_reducible first | assumption | exact Keeps.refl _ | apply keeps_raise) | intro _ | split | dsimp only

theorem keeps_loadDone {z0 : State} (s : State) (l : ChainLoad) (bad : List Nat) (hk : Keeps z0 s) : Keeps z0 (loadDone s
    l bad) := by
  delta loadDone
  repeat' first
    | with_reducible
        first
          | assumption | exact Keeps.refl _ | apply keeps_foldl | apply keeps_foldl2 | apply keeps_ite
          | apply keeps_ite2 | apply keeps_ite3 | apply keeps_modFw | apply keeps_admitStart
          | apply keeps_provisionAll | apply keeps_sendFwArm | apply keeps_cancelSwitch | apply keeps_armSwitch
          | apply keeps_chainFail
    | intro _
    | split
    | refine keeps_of_eq (by assumption) ?_
    | refine keeps_of_eq3 (by assumption) ?_
    | dsimp only

theorem keeps_askAll {z0 : State} (s : State) (l : ChainLoad) (hk : Keeps z0 s) : Keeps z0 (askAll s l) := by
  delta askAll
  repeat' first
    | with_reducible
        first
          | assumption | exact Keeps.refl _ | apply keeps_foldl | apply keeps_foldl2 | apply keeps_putLoad
          | apply keeps_sendFwQuery
    | intro _
    | split
    | dsimp only

theorem keeps_loadRound {z0 : State} (s : State) (l : ChainLoad) (hk : Keeps z0 s) : Keeps z0 (loadRound s l) := by
  delta loadRound
  repeat' first
    | with_reducible
        first
          | assumption | exact Keeps.refl _ | apply keeps_foldl | apply keeps_foldl2 | apply keeps_ite
          | apply keeps_ite2 | apply keeps_ite3 | apply keeps_putLoad | apply keeps_loadDone
    | intro _
    | split
    | dsimp only

theorem keeps_judgeImage {z0 : State} (s : State) (pos : Nat) (dig : List Byte) (hk : Keeps z0 s) : Keeps z0 (judgeImage s
    pos dig) := by
  delta judgeImage
  repeat' first
    | with_reducible
        first
          | assumption | exact Keeps.refl _ | apply keeps_ite | apply keeps_ite2 | apply keeps_ite3
          | apply keeps_modFw | apply keeps_admitStart
    | intro _
    | split
    | refine keeps_of_eq (by assumption) ?_
    | refine keeps_of_eq3 (by assumption) ?_
    | dsimp only

theorem keeps_commitSwitch {z0 : State} (s : State) (w : Switch) (hk : Keeps z0 s) : Keeps z0 (commitSwitch s w) := by
  delta commitSwitch
  repeat' first
    | with_reducible
        first
          | assumption | exact Keeps.refl _ | apply keeps_State_wrb | apply keeps_State_wr64 | apply keeps_modBoot
          | apply keeps_setSwitch
    | intro _
    | split
    | dsimp only

theorem keeps_fwAnswer_fwCommitAnswer {z0 : State} (s : State) (w : Option Switch) (pos : Nat) (b : List Byte) (hk : Keeps z0 s) :
    Keeps z0 (fwAnswer.fwCommitAnswer s w pos b) := by
  unfold fwAnswer.fwCommitAnswer
  repeat' first
    | with_reducible assumption
    | with_reducible apply keeps_ite
    | with_reducible apply keeps_cancelSwitch
    | with_reducible apply keeps_commitSwitch
    | with_reducible apply keeps_setSwitch
    | with_reducible apply keeps_judgeImage
    | intro _
    | split

theorem keeps_fwAnswer {z0 : State} (s : State) (code : Half) (pos : Nat) (b : List Byte) (hk : Keeps z0 s) :
    Keeps z0 (fwAnswer s code pos b) := by
  unfold fwAnswer
  (repeat' first | with_reducible assumption | with_reducible apply keeps_ite | with_reducible apply keeps_fwAnswer_fwCommitAnswer | with_reducible apply keeps_modFw | with_reducible apply keeps_setSwitch | with_reducible apply keeps_cancelSwitch | with_reducible apply keeps_putLoad | with_reducible apply keeps_loadRound | intro _ | split | dsimp only)

theorem keeps_fwGaveUp {z0 : State} (s : State) (code : Half) (pos : Nat) (hk : Keeps z0 s) : Keeps z0 (fwGaveUp s code
    pos) := by
  delta fwGaveUp
  repeat' first
    | with_reducible
        first
          | assumption | exact Keeps.refl _ | apply keeps_ite | apply keeps_ite2 | apply keeps_ite3
          | apply keeps_modFw | apply keeps_putLoad | apply keeps_cancelSwitch | apply keeps_chainFail
          | apply keeps_loadRound
    | intro _
    | split
    | refine keeps_of_eq (by assumption) ?_
    | refine keeps_of_eq3 (by assumption) ?_
    | dsimp only

theorem keeps_State_setArea {z0 : State} (s : State) (k : Nat) (a : FwArea) (hk : Keeps z0 s) : Keeps z0 (State.setArea s
    k a) := by
  delta State.setArea
  repeat' first
    | with_reducible
        first
          | assumption | exact Keeps.refl _ | apply keeps_ite | apply keeps_ite2 | apply keeps_ite3
          | apply keeps_modFw
    | intro _
    | split
    | dsimp only

theorem keeps_takeBlock {z0 : State} (k : Nat) (h : List Byte) (s : State) (b : Nat) (hk : Keeps z0 s) : Keeps z0
    (takeBlock k h s b) := by
  delta takeBlock
  repeat' first
    | with_reducible
        first
          | assumption | exact Keeps.refl _ | apply keeps_ite | apply keeps_ite2 | apply keeps_ite3
          | apply keeps_State_setBytes | apply keeps_State_setArea
    | intro _
    | split
    | dsimp only

theorem keeps_takeChunk {z0 : State} (s : State) (p : List Byte) (hk : Keeps z0 s) : Keeps z0 (takeChunk s p) := by
  delta takeChunk
  repeat' first
    | with_reducible
        first
          | assumption | exact Keeps.refl _ | apply keeps_foldl | apply keeps_foldl2 | apply keeps_ite
          | apply keeps_ite2 | apply keeps_ite3 | apply keeps_State_setBytes | apply keeps_State_setArea
          | apply keeps_takeBlock
    | intro _
    | split
    | refine keeps_of_eq (by assumption) ?_
    | refine keeps_of_eq3 (by assumption) ?_
    | dsimp only

theorem keeps_fwOpenRun {z0 : State} (s : State) (b : List Byte) (hk : Keeps z0 s) : Keeps z0 (fwOpenRun s b).2 := by
  delta fwOpenRun
  repeat' first
    | with_reducible
        first
          | assumption | exact Keeps.refl _ | apply keeps_ite | apply keeps_ite2 | apply keeps_State_setArea
    | intro _
    | split
    | dsimp only

theorem keeps_fwArmRun {z0 : State} (s : State) (b : List Byte) (hk : Keeps z0 s) : Keeps z0 (fwArmRun s b).2 := by
  delta fwArmRun
  repeat' first
    | with_reducible
        first
          | assumption | exact Keeps.refl _ | apply keeps_ite | apply keeps_ite2 | apply keeps_State_wrb
          | apply keeps_State_wr64
    | intro _
    | split
    | dsimp only

theorem keeps_fwDisarmRun {z0 : State} (s : State) (hk : Keeps z0 s) : Keeps z0 (fwDisarmRun s).2 := by
  delta fwDisarmRun
  repeat' first
    | with_reducible
        first
          | assumption | exact Keeps.refl _ | apply keeps_State_wrb
    | intro _
    | split
    | dsimp only

theorem keeps_fwTxn {z0 : State} (p : Fin 2) (code : Nat) (run : State → List Byte → List Byte × State) (s : State) (hrun
    : ∀ x0 x1, Keeps x0 (run x0 x1).2) (hk : Keeps z0 s) : KeepsO z0 (fwTxn p code run s) := by
  delta fwTxn
  repeat' first
    | with_reducible
        first
          | refine keepsO_next ?_ | assumption | exact Keeps.refl _ | apply keeps_ite | apply keepsO_ite
          | apply keeps_ite2 | apply keeps_ite3 | apply keeps_whenLive | apply keeps_respondTxn
          | apply keeps_takeFrame | apply keeps_admitTxn | refine Keeps.trans ?_ (hrun _ _)
    | intro _
    | split
    | refine keeps_of_eq (by assumption) ?_
    | refine keeps_of_eq3 (by assumption) ?_
    | dsimp only

theorem keeps_fwScheduleRun {z0 : State} (s : State) (at' : Nat) (hk : Keeps z0 s) : Keeps z0 (fwScheduleRun s at').2 :=
    by
  delta fwScheduleRun
  repeat' first
    | with_reducible
        first
          | assumption | exact Keeps.refl _ | apply keeps_ite | apply keeps_ite2 | apply keeps_raise
          | apply keeps_modBoot | apply keeps_checkStaging | apply keeps_setSwitch
    | intro _
    | split
    | refine keeps_of_eq (by assumption) ?_
    | refine keeps_of_eq3 (by assumption) ?_
    | dsimp only

theorem keeps_fwCancelRun {z0 : State} (s : State) (hk : Keeps z0 s) : Keeps z0 (fwCancelRun s).2 := by
  delta fwCancelRun
  repeat' first
    | with_reducible
        first
          | assumption | exact Keeps.refl _ | apply keeps_ite | apply keeps_ite2 | apply keeps_raise
          | apply keeps_fwState | apply keeps_endSwitch
    | intro _
    | split
    | refine keeps_of_eq (by assumption) ?_
    | refine keeps_of_eq3 (by assumption) ?_
    | dsimp only

theorem keeps_fwReadyEffect {z0 : State} (s : State) (v : Word) (hk : Keeps z0 s) : Keeps z0 (fwReadyEffect s v) := by
  delta fwReadyEffect
  repeat' first
    | with_reducible
        first
          | assumption | exact Keeps.refl _ | apply keeps_foldl | apply keeps_foldl2 | apply keeps_ite
          | apply keeps_ite2 | apply keeps_ite3 | apply keeps_modFw | apply keeps_raise | apply keeps_setStartCount
          | apply keeps_fwState
    | intro _
    | split
    | dsimp only

theorem keeps_fwConfirmEffect {z0 : State} (s : State) (v : Word) (hk : Keeps z0 s) : Keeps z0 (fwConfirmEffect s v) := by
  delta fwConfirmEffect
  repeat' first
    | with_reducible
        first
          | assumption | exact Keeps.refl _ | apply keeps_ite | apply keeps_ite2 | apply keeps_ite3
          | apply keeps_modFw | apply keeps_State_wr | apply keeps_State_wrb | apply keeps_raise
          | apply keeps_raiseCounter | apply keeps_modBoot | apply keeps_fwState
    | intro _
    | split
    | dsimp only

end Sys2Proof.Machine
end

