-- ==== Sys2Proof/Laws/Keeps/Feature.lean ====
section
/-! SUPPORT. What the functions of `Machine/Feature.lean` keep: the queue of commands, and the canonical form of memory and registers. -/

set_option linter.unusedTactic false
set_option linter.unreachableTactic false

namespace Sys2Proof.Machine

theorem keeps_featureOut {z0 : State} (s : State) (lane : Nat) (entries : List (List Byte)) (hk : Keeps z0 s) : Keeps z0
    (featureOut s lane entries) := by
  delta featureOut
  repeat' first
    | with_reducible
        first
          | assumption | exact Keeps.refl _ | apply keeps_ite | apply keeps_ite2 | apply keeps_ite3
          | apply keeps_State_bump | apply keeps_State_emit
    | intro _
    | split
    | dsimp only

theorem keeps_sendParts {z0 : State} (s : State) (path : Nat) (pkt : Nat) (l : List QEntry) (hk : Keeps z0 s) : Keeps z0
    (sendParts s path pkt l) := by
  delta sendParts
  repeat' first
    | with_reducible
        first
          | assumption | exact Keeps.refl _ | apply keeps_foldl | apply keeps_foldl2 | apply keeps_sendProtected
    | intro _
    | split
    | dsimp only

theorem keeps_dropJoin {z0 : State} (s : State) (pos : Nat) (hk : Keeps z0 s) : Keeps z0 (dropJoin s pos) := by
  delta dropJoin
  repeat' first
    | with_reducible
        first
          | assumption | exact Keeps.refl _ | apply keeps_ite | apply keeps_ite2 | apply keeps_ite3
          | apply keeps_modRing | apply keeps_State_bump
    | intro _
    | split
    | dsimp only

theorem keeps_putJoin {z0 : State} (s : State) (j : FeatJoin) (hk : Keeps z0 s) : Keeps z0 (putJoin s j) := by
  delta putJoin
  repeat' first
    | with_reducible
        first
          | assumption | exact Keeps.refl _ | apply keeps_modRing
    | intro _
    | split
    | dsimp only

theorem keeps_joinPart {z0 : State} (s : State) (pos : Nat) (l : List Byte) (hk : Keeps z0 s) : Keeps z0 (joinPart s pos
    l) := by
  delta joinPart
  repeat' first
    | with_reducible
        first
          | assumption | exact Keeps.refl _ | apply keeps_ite | apply keeps_ite2 | apply keeps_ite3
          | apply keeps_modRing | apply keeps_featureOut | apply keeps_dropJoin | apply keeps_putJoin
    | intro _
    | split
    | dsimp only

end Sys2Proof.Machine
end

