-- ==== Sys2Proof/Laws/Keeps/Power.lean ====
section
/-! SUPPORT. What the functions of `Machine/Power.lean` keep: the queue of commands, and the canonical form of memory and registers. -/

set_option linter.unusedTactic false
set_option linter.unreachableTactic false

namespace Sys2Proof.Machine

theorem keeps_feHalt {z0 : State} (s : State) (hk : Keeps z0 s) : Keeps z0 (feHalt s) := by
  delta feHalt
  repeat' first
    | with_reducible
        first
          | assumption | exact Keeps.refl _ | apply keeps_modFe | apply keeps_modNuc | apply keeps_State_wrb
          | apply keeps_tdiStop | apply keeps_calFrontEndLost
    | intro _
    | split
    | dsimp only

theorem keeps_bank1Lost {z0 : State} (s : State) (hk : Keeps z0 s) : Keeps z0 (bank1Lost s) := by
  delta bank1Lost
  repeat' first
    | with_reducible
        first
          | assumption | exact Keeps.refl _ | apply keeps_ownLaneFault | apply keeps_raise | apply keeps_shtBankLost
          | apply keeps_feHalt
    | intro _
    | split
    | dsimp only

theorem keeps_suspendClear {z0 : State} (s : State) (hk : Keeps z0 s) : Keeps z0 (suspendClear s) := by
  delta suspendClear
  repeat' first
    | with_reducible
        first
          | assumption | exact Keeps.refl _ | apply keeps_modMram | apply keeps_setSectorStatus
    | intro _
    | split
    | refine keeps_of_eq (by assumption) ?_
    | refine keeps_of_eq3 (by assumption) ?_
    | dsimp only

theorem keeps_stopDevice {z0 : State} (s : State) (hk : Keeps z0 s) : Keeps z0 (stopDevice s) := by
  delta stopDevice
  repeat' first
    | with_reducible
        first
          | assumption | exact Keeps.refl _ | apply keeps_foldl | apply keeps_foldl2 | apply keeps_ite
          | apply keeps_ite2 | apply keeps_ite3 | apply keeps_modHost | apply keeps_modSht | apply keeps_modEj
          | apply keeps_State_wr | apply keeps_setLane | apply keeps_State_modEjp | apply keeps_ejDisarm
          | apply keeps_cellsStop | apply keeps_setFrlState | apply keeps_portDown | apply keeps_visCtrlEffect
          | apply keeps_feHalt | apply keeps_suspendClear
    | intro _
    | split
    | dsimp only

theorem keeps_openSecure {z0 : State} (s : State) (hk : Keeps z0 s) : Keeps z0 (openSecure s) := by
  delta openSecure
  repeat' first
    | with_reducible
        first
          | assumption | exact Keeps.refl _ | apply keeps_ite | apply keeps_ite2 | apply keeps_ite3
          | apply keeps_State_wrb | apply keeps_raise | apply keeps_zeroKeys | apply keeps_cntInc
          | apply keeps_stopDevice
    | intro _
    | split
    | refine keeps_of_eq (by assumption) ?_
    | refine keeps_of_eq3 (by assumption) ?_
    | dsimp only

theorem keeps_openDebug {z0 : State} (s : State) (secure : Bool) (hk : Keeps z0 s) : Keeps z0 (openDebug s secure) := by
  delta openDebug
  repeat' first
    | with_reducible
        first
          | assumption | exact Keeps.refl _ | apply keeps_ite | apply keeps_ite2 | apply keeps_ite3
          | apply keeps_State_wrb | apply keeps_openSecure
    | intro _
    | split
    | dsimp only

theorem keeps_dbgCloseEffect {z0 : State} (s : State) (v : Word) (hk : Keeps z0 s) : Keeps z0 (dbgCloseEffect s v) := by
  delta dbgCloseEffect
  repeat' first
    | with_reducible
        first
          | assumption | exact Keeps.refl _ | apply keeps_ite | apply keeps_ite2 | apply keeps_ite3
          | apply keeps_modPav | apply keeps_State_wrf
    | intro _
    | split
    | dsimp only

theorem keeps_setBank {z0 : State} (s : State) (b : Fin 2) (v : BankState) (hk : Keeps z0 s) : Keeps z0 (setBank s b v) :=
    by
  delta setBank
  repeat' first
    | with_reducible
        first
          | assumption | exact Keeps.refl _ | apply keeps_ite | apply keeps_ite2 | apply keeps_ite3
          | apply keeps_modPower | apply keeps_State_wrf | apply keeps_State_wrb
    | intro _
    | split
    | dsimp only

theorem keeps_releaseReset {z0 : State} (s : State) (role : BitVec 2) (recover : Bool) (hk : Keeps z0 s) : Keeps z0
    (releaseReset s role recover) := by
  delta releaseReset
  repeat' first
    | with_reducible
        first
          | assumption | exact Keeps.refl _ | apply keeps_ite | apply keeps_ite2 | apply keeps_ite3
          | apply keeps_modPower | apply keeps_modRst | apply keeps_modPav | apply keeps_State_wrf
          | apply keeps_State_wrb
    | intro _
    | split
    | dsimp only

theorem keeps_banksOff {z0 : State} (s : State) (hk : Keeps z0 s) : Keeps z0 (banksOff s) := by
  delta banksOff
  repeat' first
    | with_reducible
        first
          | assumption | exact Keeps.refl _ | apply keeps_setBank
    | intro _
    | split
    | dsimp only

theorem keeps_softResetEffect {z0 : State} (s : State) (v : Word) (hk : Keeps z0 s) : Keeps z0 (softResetEffect s v) := by
  delta softResetEffect
  repeat' first
    | with_reducible
        first
          | assumption | exact Keeps.refl _ | apply keeps_ite | apply keeps_ite2 | apply keeps_ite3
          | apply keeps_deviceReset
    | intro _
    | split
    | dsimp only

end Sys2Proof.Machine
end

