-- ==== Sys2Proof/Laws/Keeps/Start.lean ====
section
/-! SUPPORT. What the functions of `Machine/Start.lean` keep: the queue of commands, and the canonical form of memory and registers. -/

set_option linter.unusedTactic false
set_option linter.unreachableTactic false

namespace Sys2Proof.Machine

theorem keeps_startReports {z0 : State} (s : State) (hk : Keeps z0 s) : Keeps z0 (startReports s) := by
  delta startReports
  repeat' first
    | with_reducible
        first
          | assumption | exact Keeps.refl _ | apply keeps_ite | apply keeps_ite2 | apply keeps_ite3
          | apply keeps_modCore | apply keeps_modFw | apply keeps_raise
    | intro _
    | split
    | refine keeps_of_eq (by assumption) ?_
    | refine keeps_of_eq3 (by assumption) ?_
    | dsimp only

theorem keeps_imageUp {z0 : State} (s : State) (hk : Keeps z0 s) : Keeps z0 (imageUp s) := by
  delta imageUp
  repeat' first
    | with_reducible
        first
          | assumption | exact Keeps.refl _ | apply keeps_ite | apply keeps_ite2 | apply keeps_ite3
          | apply keeps_modCore | apply keeps_modFw | apply keeps_State_wr | apply keeps_setLane
          | apply keeps_sparesCheck | apply keeps_evaluateSlots | apply keeps_startReports
    | intro _
    | split
    | dsimp only

theorem keeps_workerUp {z0 : State} (s : State) (hk : Keeps z0 s) : Keeps z0 (workerUp s) := by
  delta workerUp
  repeat' first
    | with_reducible
        first
          | assumption | exact Keeps.refl _ | apply keeps_State_wr | apply keeps_State_wrf | apply keeps_imageUp
    | intro _
    | split
    | dsimp only

theorem keeps_workerWarm {z0 : State} (s : State) (hk : Keeps z0 s) : Keeps z0 (workerWarm s) := by
  delta workerWarm
  repeat' first
    | with_reducible
        first
          | assumption | exact Keeps.refl _ | apply keeps_ite | apply keeps_ite2 | apply keeps_ite3
          | apply keeps_modCore | apply keeps_modFw | apply keeps_State_wrf | apply keeps_State_wrb
          | apply keeps_raise | apply keeps_State_setArea | apply keeps_workerUp
    | intro _
    | split
    | dsimp only

theorem keeps_ownAdmission {z0 : State} (s : State) (hk : Keeps z0 s) : Keeps z0 (ownAdmission s) := by
  delta ownAdmission
  repeat' first
    | with_reducible
        first
          | assumption | exact Keeps.refl _ | apply keeps_foldl | apply keeps_foldl2 | apply keeps_ite
          | apply keeps_ite2 | apply keeps_ite3 | apply keeps_setLane | apply keeps_loopApply
          | apply keeps_storeRecord | apply keeps_applyRecord
    | intro _
    | split
    | refine keeps_of_eq (by assumption) ?_
    | refine keeps_of_eq3 (by assumption) ?_
    | dsimp only

theorem keeps_meterUp {z0 : State} (s : State) (cold : Bool) (erased : Bool) (hk : Keeps z0 s) : Keeps z0 (meterUp s cold
    erased) := by
  delta meterUp
  repeat' first
    | with_reducible
        first
          | assumption | exact Keeps.refl _ | apply keeps_foldl | apply keeps_foldl2 | apply keeps_ite
          | apply keeps_ite2 | apply keeps_ite3 | apply keeps_raise | apply keeps_raiseCounter
          | apply keeps_startTenant | apply keeps_meterStart | apply keeps_raiseFloors | apply keeps_loadApplets
    | intro _
    | split
    | refine keeps_of_eq (by assumption) ?_
    | refine keeps_of_eq3 (by assumption) ?_
    | dsimp only

theorem keeps_newEpoch {z0 : State} (s : State) (hk : Keeps z0 s) : Keeps z0 (newEpoch s) := by
  delta newEpoch
  repeat' first
    | with_reducible
        first
          | assumption | exact Keeps.refl _ | apply keeps_ite | apply keeps_ite2 | apply keeps_ite3
          | apply keeps_drawEpoch
    | intro _
    | split
    | dsimp only

theorem keeps_managerUp {z0 : State} (s : State) (cold : Bool) (erased : Bool) (hk : Keeps z0 s) : Keeps z0 (managerUp s
    cold erased) := by
  delta managerUp
  repeat' first
    | with_reducible
        first
          | assumption | exact Keeps.refl _ | apply keeps_foldl | apply keeps_foldl2 | apply keeps_ite
          | apply keeps_ite2 | apply keeps_ite3 | apply keeps_modRing | apply keeps_modFw | apply keeps_loadStore
          | apply keeps_checkStaging | apply keeps_errLogStart | apply keeps_imageUp | apply keeps_ownAdmission
          | apply keeps_meterUp | apply keeps_newEpoch
    | intro _
    | split
    | dsimp only

theorem keeps_enterRecovery {z0 : State} (s : State) (hk : Keeps z0 s) : Keeps z0 (enterRecovery s) := by
  delta enterRecovery
  repeat' first
    | with_reducible
        first
          | assumption | exact Keeps.refl _ | apply keeps_modCore | apply keeps_State_wrf | apply keeps_newEpoch
    | intro _
    | split
    | dsimp only

theorem keeps_startSlot {z0 : State} (s : State) (k : Nat) (st : Nat) (cold : Bool) (erased : Bool) (hk : Keeps z0 s) :
    Keeps z0 (startSlot s k st cold erased) := by
  delta startSlot
  repeat' first
    | with_reducible
        first
          | assumption | exact Keeps.refl _ | apply keeps_ite | apply keeps_ite2 | apply keeps_ite3
          | apply keeps_modFw | apply keeps_State_setBytes | apply keeps_State_zeroRange | apply keeps_State_wr
          | apply keeps_State_wrf | apply keeps_State_wrb | apply keeps_modBoot | apply keeps_managerUp
    | intro _
    | split
    | dsimp only

theorem keeps_trySlots {z0 : State} (cold : Bool) (erased : Bool) (y0 : List (Nat × Nat)) (y1 : State) (hk : Keeps z0 y1)
    : Keeps z0 (trySlots cold erased y0 y1) := by
  induction y0 generalizing y1 with
  | nil =>
    unfold trySlots
    repeat' first
      | with_reducible
          first
            | assumption | exact Keeps.refl _ | apply keeps_ite | apply keeps_ite2 | apply keeps_ite3
            | apply keeps_modFw | apply keeps_deviceReset | apply keeps_modBoot | apply keeps_startSlot
      | intro _
      | split
      | dsimp only
  | cons hd tl ih =>
    unfold trySlots
    repeat' first
      | with_reducible
          first
            | assumption | exact Keeps.refl _ | apply keeps_ite | apply keeps_ite2 | apply keeps_ite3
            | apply keeps_modFw | apply keeps_deviceReset | apply keeps_modBoot | apply keeps_startSlot | apply ih
      | intro _
      | split
      | dsimp only

theorem keeps_revertSlot {z0 : State} (s : State) (hk : Keeps z0 s) : Keeps z0 (revertSlot s) := by
  delta revertSlot
  repeat' first
    | with_reducible
        first
          | assumption | exact Keeps.refl _ | apply keeps_ite | apply keeps_ite2 | apply keeps_ite3
          | apply keeps_modFw | apply keeps_modBoot
    | intro _
    | split
    | refine keeps_of_eq (by assumption) ?_
    | refine keeps_of_eq3 (by assumption) ?_
    | dsimp only

theorem keeps_managerStart {z0 : State} (s : State) (cold : Bool) (erased : Bool) (hk : Keeps z0 s) : Keeps z0
    (managerStart s cold erased) := by
  delta managerStart
  repeat' first
    | with_reducible
        first
          | assumption | exact Keeps.refl _ | apply keeps_ite | apply keeps_ite2 | apply keeps_ite3
          | apply keeps_modFw | apply keeps_State_wrf | apply keeps_State_wrb | apply keeps_mramReadWord
          | apply keeps_deviceReset | apply keeps_setStartCount | apply keeps_enterRecovery | apply keeps_trySlots
          | apply keeps_revertSlot
    | intro _
    | split
    | dsimp only

theorem keeps_romErase {z0 : State} (s : State) (hk : Keeps z0 s) : Keeps z0 (romErase s).2 := by
  delta romErase
  repeat' first
    | with_reducible
        first
          | assumption | exact Keeps.refl _ | apply keeps_foldl | apply keeps_foldl2 | apply keeps_ite
          | apply keeps_ite2 | apply keeps_clearSectorWhole | apply keeps_cntInc
    | intro _
    | split
    | dsimp only

theorem keeps_countStart {z0 : State} (s : State) (hk : Keeps z0 s) : Keeps z0 (countStart s) := by
  delta countStart
  repeat' first
    | with_reducible
        first
          | assumption | exact Keeps.refl _ | apply keeps_ite | apply keeps_ite2 | apply keeps_ite3
          | apply keeps_State_wr | apply keeps_mramStoreBytes
    | intro _
    | split
    | dsimp only

theorem keeps_repairHelper {z0 : State} (s : State) (good : Nat) (bad : Nat) (hk : Keeps z0 s) : Keeps z0 (repairHelper s
    good bad) := by
  delta repairHelper
  repeat' first
    | with_reducible
        first
          | assumption | exact Keeps.refl _ | apply keeps_raise | apply keeps_mramStoreBytes
    | intro _
    | split
    | dsimp only

theorem keeps_romGoesOn {z0 : State} (s : State) (ok : Bool) (erased : Bool) (hk : Keeps z0 s) : Keeps z0 (romGoesOn s ok
    erased) := by
  delta romGoesOn
  repeat' first
    | with_reducible
        first
          | assumption | exact Keeps.refl _ | apply keeps_ite | apply keeps_ite2 | apply keeps_ite3
          | apply keeps_modCore | apply keeps_enterRecovery | apply keeps_managerStart
    | intro _
    | split
    | dsimp only

theorem keeps_ccRestart {z0 : State} (s : State) (cause : Nat) (hk : Keeps z0 s) : Keeps z0 (ccRestart s cause) := by
  delta ccRestart
  repeat' first
    | with_reducible
        first
          | assumption | exact Keeps.refl _ | apply keeps_ite | apply keeps_ite2 | apply keeps_ite3
          | apply keeps_modCore | apply keeps_State_wrf | apply keeps_State_bump | apply keeps_calAbort
    | intro _
    | split
    | dsimp only

theorem keeps_ccRestartEffect {z0 : State} (s : State) (v : Word) (hk : Keeps z0 s) : Keeps z0 (ccRestartEffect s v) := by
  delta ccRestartEffect
  repeat' first
    | with_reducible
        first
          | assumption | exact Keeps.refl _ | apply keeps_ite | apply keeps_ite2 | apply keeps_ite3
          | apply keeps_ccRestart
    | intro _
    | split
    | dsimp only

theorem keeps_kickEffect {z0 : State} (s : State) (v : Word) (hk : Keeps z0 s) : Keeps z0 (kickEffect s v) := by
  delta kickEffect
  repeat' first
    | with_reducible
        first
          | assumption | exact Keeps.refl _ | apply keeps_ite | apply keeps_ite2 | apply keeps_ite3
          | apply keeps_modCore
    | intro _
    | split
    | dsimp only

end Sys2Proof.Machine
end

