-- ==== Sys2Proof/Laws/Keeps/Service.lean ====
section
/-! SUPPORT. What the functions of `Machine/Service.lean` keep: the queue of commands, and the canonical form of memory and registers. -/

set_option linter.unusedTactic false
set_option linter.unreachableTactic false

namespace Sys2Proof.Machine

theorem keeps_orderShutter {z0 : State} (s : State) (lane : Nat) (r : ReplyTo) (hk : Keeps z0 s) : Keeps z0 (orderShutter
    s lane r) := by
  delta orderShutter
  repeat' first
    | with_reducible
        first
          | assumption | exact Keeps.refl _ | apply keeps_ite | apply keeps_ite2 | apply keeps_ite3
          | apply keeps_shtRequest | apply keeps_carryStart
    | intro _
    | split
    | dsimp only

theorem keeps_sendProbe {z0 : State} (s : State) (path : Nat) (hk : Keeps z0 s) : Keeps z0 (sendProbe s path) := by
  delta sendProbe
  repeat' first
    | with_reducible
        first
          | assumption | exact Keeps.refl _ | apply keeps_ite | apply keeps_ite2 | apply keeps_ite3
          | apply keeps_modRing | apply keeps_sendProtected
    | intro _
    | split
    | dsimp only

theorem keeps_takeoverDeclined {z0 : State} (s : State) (hk : Keeps z0 s) : Keeps z0 (takeoverDeclined s) := by
  delta takeoverDeclined
  repeat' first
    | with_reducible
        first
          | assumption | exact Keeps.refl _ | apply keeps_modRing | apply keeps_modSvc | apply keeps_raise
    | intro _
    | split
    | dsimp only

theorem keeps_ownReports {z0 : State} (s : State) (hk : Keeps z0 s) : Keeps z0 (ownReports s) := by
  delta ownReports
  repeat' first
    | with_reducible
        first
          | assumption | exact Keeps.refl _ | apply keeps_foldl | apply keeps_foldl2 | apply keeps_modErr
          | apply keeps_errLog | apply keeps_reportEvent
    | intro _
    | split
    | dsimp only

theorem keeps_takeOver {z0 : State} (s : State) (hk : Keeps z0 s) : Keeps z0 (takeOver s) := by
  delta takeOver
  repeat' first
    | with_reducible
        first
          | assumption | exact Keeps.refl _ | apply keeps_modRing | apply keeps_modSvc | apply keeps_State_wrf
          | apply keeps_State_wrb | apply keeps_raise | apply keeps_setSess | apply keeps_loadStore
          | apply keeps_setCtValid | apply keeps_errLogStart | apply keeps_meterUp | apply keeps_newEpoch
          | apply keeps_ownReports
    | intro _
    | split
    | dsimp only

end Sys2Proof.Machine
end

