-- ==== Sys2Proof/Laws/Keeps/Timers.lean ====
section
/-! SUPPORT. What the functions of `Machine/Timers.lean` keep: the queue of commands, and the canonical form of memory and registers. -/

set_option linter.unusedTactic false
set_option linter.unreachableTactic false

namespace Sys2Proof.Machine

theorem keeps_recordEdge {z0 : State} (s : State) (n : Nat) (before : Bool) (hk : Keeps z0 s) : Keeps z0 (recordEdge s n
    before) := by
  delta recordEdge
  repeat' first
    | with_reducible
        first
          | assumption | exact Keeps.refl _ | apply keeps_ite | apply keeps_ite2 | apply keeps_ite3
          | apply keeps_State_wrb
    | intro _
    | split
    | dsimp only

theorem keeps_gpioDriveWrite {z0 : State} (a : Nat) (s : State) (v : Word) (hk : Keeps z0 s) : Keeps z0 (gpioDriveWrite a
    s v) := by
  delta gpioDriveWrite
  repeat' first
    | with_reducible
        first
          | assumption | exact Keeps.refl _ | apply keeps_foldl | apply keeps_foldl2 | apply keeps_gpioWrite
          | apply keeps_recordEdge
    | intro _
    | split
    | dsimp only

theorem keeps_timerCtrlEffect {z0 : State} (k : Nat) (s : State) (v : Word) (hk : Keeps z0 s) : Keeps z0 (timerCtrlEffect
    k s v) := by
  delta timerCtrlEffect
  repeat' first
    | with_reducible
        first
          | assumption | exact Keeps.refl _ | apply keeps_ite | apply keeps_ite2 | apply keeps_ite3
          | apply keeps_State_wr
    | intro _
    | split
    | dsimp only

theorem keeps_timerTimeEffect {z0 : State} (k : Nat) (a : Nat) (s : State) (v : Word) (hk : Keeps z0 s) : Keeps z0
    (timerTimeEffect k a s v) := by
  delta timerTimeEffect
  repeat' first
    | with_reducible
        first
          | assumption | exact Keeps.refl _ | apply keeps_ite | apply keeps_ite2 | apply keeps_ite3
          | apply keeps_fieldWrite
    | intro _
    | split
    | dsimp only

theorem keeps_timerTick {z0 : State} (s : State) (k : Fin 8) (hk : Keeps z0 s) : Keeps z0 (timerTick s k) := by
  delta timerTick
  repeat' first
    | with_reducible
        first
          | assumption | exact Keeps.refl _ | apply keeps_ite | apply keeps_ite2 | apply keeps_ite3
          | apply keeps_modFab | apply keeps_State_wrb
    | intro _
    | split
    | dsimp only

theorem keeps_ctReadLo {z0 : State} (s : State) (m : Master) (hk : Keeps z0 s) : Keeps z0 (ctReadLo s m).2 := by
  delta ctReadLo
  repeat' first
    | with_reducible
        first
          | assumption | exact Keeps.refl _ | apply keeps_modGate
    | intro _
    | split
    | dsimp only

theorem keeps_ctCtrlEffect {z0 : State} (s : State) (v : Word) (hk : Keeps z0 s) : Keeps z0 (ctCtrlEffect s v) := by
  delta ctCtrlEffect
  repeat' first
    | with_reducible
        first
          | assumption | exact Keeps.refl _ | apply keeps_ite | apply keeps_ite2 | apply keeps_ite3
          | apply keeps_modCt | apply keeps_modCtArmed
    | intro _
    | split
    | dsimp only

theorem keeps_ctTick {z0 : State} (s : State) (hk : Keeps z0 s) : Keeps z0 (ctTick s) := by
  delta ctTick
  repeat' first
    | with_reducible
        first
          | assumption | exact Keeps.refl _ | apply keeps_ite | apply keeps_ite2 | apply keeps_ite3
          | apply keeps_modCt | apply keeps_modCtArmed | apply keeps_modRing | apply keeps_State_stepCt
    | intro _
    | split
    | dsimp only

end Sys2Proof.Machine
end

