-- ==== Sys2Proof/Laws/Keeps/Bus.lean ====
section
/-! SUPPORT. What the functions of `Machine/Bus.lean` keep: the queue of commands, and the canonical form of memory and registers. -/

set_option linter.unusedTactic false
set_option linter.unreachableTactic false

namespace Sys2Proof.Machine

theorem keeps_plainRead {z0 : State} (s : State) (a : Nat) (hk : Keeps z0 s) : Keeps z0 (plainRead s a).2 := by
  delta plainRead
  repeat' first
    | with_reducible
        first
          | assumption | exact Keeps.refl _ | apply keeps_ite | apply keeps_ite2 | apply keeps_State_wr
    | intro _
    | split
    | refine keeps_of_eq (by assumption) ?_
    | refine keeps_of_eq3 (by assumption) ?_
    | dsimp only

theorem keeps_freeReg {z0 : State} (s : State) (bits : Nat) (hk : Keeps z0 s) : Keeps z0 (freeReg s bits).2 := by
  delta freeReg
  repeat' first
    | with_reducible
        first
          | assumption | exact Keeps.refl _ | apply keeps_State_drawWord
    | intro _
    | split
    | refine keeps_of_eq (by assumption) ?_
    | refine keeps_of_eq3 (by assumption) ?_
    | dsimp only

theorem keeps_qStatRead {z0 : State} (s : State) (q : Fin 24) (hk : Keeps z0 s) : Keeps z0 (qStatRead s q).2 := by
  delta qStatRead
  repeat' first
    | split
    | with_reducible
        first
          | assumption | exact Keeps.refl _ | apply keeps_qStatView | apply keeps_plainRead
    | intro _
    | split
    | refine keeps_of_eq (by assumption) ?_
    | refine keeps_of_eq3 (by assumption) ?_
    | dsimp only

theorem keeps_periphRead {z0 : State} (s : State) (m : Master) (a : Nat) (hk : Keeps z0 s) : Keeps z0 (periphRead s m a).2
    := by
  delta periphRead
  repeat' first
    | with_reducible
        first
          | assumption | exact Keeps.refl _ | apply keeps_ite | apply keeps_ite2 | apply keeps_coefReadEffect
          | apply keeps_ctReadLo | apply keeps_plainRead | apply keeps_freeReg | apply keeps_qStatRead
    | intro _
    | split
    | refine keeps_of_eq (by assumption) ?_
    | refine keeps_of_eq3 (by assumption) ?_
    | dsimp only

theorem keeps_pavaneRead {z0 : State} (s : State) (a : Nat) (hk : Keeps z0 s) : Keeps z0 (pavaneRead s a).2 := by
  delta pavaneRead
  repeat' first
    | with_reducible
        first
          | assumption | exact Keeps.refl _ | apply keeps_ite | apply keeps_ite2 | apply keeps_cntLoRead
          | apply keeps_plainRead
    | intro _
    | split
    | refine keeps_of_eq (by assumption) ?_
    | refine keeps_of_eq3 (by assumption) ?_
    | dsimp only

theorem keeps_regRead {z0 : State} (s : State) (m : Master) (a : Nat) (hk : Keeps z0 s) : Keeps z0 (regRead s m a).2 := by
  delta regRead
  repeat' first
    | with_reducible
        first
          | assumption | exact Keeps.refl _ | apply keeps_ite | apply keeps_ite2 | apply keeps_periphRead
          | apply keeps_pavaneRead
    | intro _
    | split
    | dsimp only

theorem keeps_frlCtrlEffect {z0 : State} (s : State) (v : Word) (hk : Keeps z0 s) : Keeps z0 (frlCtrlEffect s v) := by
  delta frlCtrlEffect
  repeat' first
    | with_reducible
        first
          | assumption | exact Keeps.refl _ | apply keeps_foldl | apply keeps_foldl2 | apply keeps_ite
          | apply keeps_ite2 | apply keeps_ite3 | apply keeps_fieldWrite | apply keeps_setFrlState
          | apply keeps_portDown
    | intro _
    | split
    | dsimp only

theorem keeps_tauFpEffect {z0 : State} (s : State) (v : Word) (hk : Keeps z0 s) : Keeps z0 (tauFpEffect s v) := by
  delta tauFpEffect
  repeat' first
    | with_reducible
        first
          | assumption | exact Keeps.refl _ | apply keeps_ite | apply keeps_ite2 | apply keeps_ite3
          | apply keeps_fieldWrite
    | intro _
    | split
    | dsimp only

theorem keeps_arrayWrite {z0 : State} (a : Nat) (base : Nat) (stride : Nat) (count : Nat) (f : Nat → State) (other : State)
    (hf : ∀ x0, Keeps z0 (f x0)) (hk : Keeps z0 other) : Keeps z0 (arrayWrite a base stride count f other) := by
  unfold arrayWrite
  split
  · exact hf _
  · exact hk

theorem keeps_systemWrite {z0 : State} (s : State) (m : Master) (a : Nat) (v : Word) (hk : Keeps z0 s) : Keeps z0
    (systemWrite s m a v) := by
  delta systemWrite
  repeat' first
    | with_reducible
        first
          | assumption | exact Keeps.refl _ | apply keeps_ite | apply keeps_ite2 | apply keeps_ite3
          | apply keeps_qDropPort | apply keeps_fieldWrite | apply keeps_ruleWrite | apply keeps_gpioWrite
          | apply keeps_mailboxEffect | apply keeps_softResetEffect | apply keeps_ccRestartEffect
          | apply keeps_kickEffect | apply keeps_gpioDriveWrite | apply keeps_timerCtrlEffect
          | apply keeps_timerTimeEffect | apply keeps_ctCtrlEffect | apply keeps_arrayWrite
    | intro _
    | split
    | dsimp only

theorem keeps_pathWrite {z0 : State} (s : State) (a : Nat) (v : Word) (hk : Keeps z0 s) : Keeps z0 (pathWrite s a v) := by
  delta pathWrite
  repeat' first
    | with_reducible
        first
          | assumption | exact Keeps.refl _ | apply keeps_ite | apply keeps_ite2 | apply keeps_ite3
          | apply keeps_fieldWrite | apply keeps_feOutEffect | apply keeps_biasEffect | apply keeps_fptCfgEffect
          | apply keeps_shtCmdEffect | apply keeps_coefWriteEffect | apply keeps_setselEffect
          | apply keeps_tdiCtrlEffect | apply keeps_feConfigTau | apply keeps_feCtrlFull | apply keeps_visCtrlEffect
          | apply keeps_visFormatEffect | apply keeps_visSwapEffect | apply keeps_visRegEffect
          | apply keeps_visTrigEffect | apply keeps_tauFpEffect | apply keeps_arrayWrite
    | intro _
    | split
    | dsimp only

theorem keeps_outerWrite {z0 : State} (s : State) (m : Master) (a : Nat) (v : Word) (hk : Keeps z0 s) : Keeps z0
    (outerWrite s m a v) := by
  delta outerWrite
  repeat' first
    | with_reducible
        first
          | assumption | exact Keeps.refl _ | apply keeps_ite | apply keeps_ite2 | apply keeps_ite3
          | apply keeps_fieldWrite | apply keeps_ejCtrlEffect | apply keeps_ejCfgEffect | apply keeps_loopCtrlEffect
          | apply keeps_errDoneEffect | apply keeps_safeReqEffect | apply keeps_fwReadyEffect
          | apply keeps_fwConfirmEffect | apply keeps_frlCtrlEffect | apply keeps_arrayWrite
    | intro _
    | split
    | dsimp only

theorem keeps_pavaneWrite {z0 : State} (s : State) (a : Nat) (v : Word) (hk : Keeps z0 s) : Keeps z0 (pavaneWrite s a v).2
    := by
  delta pavaneWrite
  repeat' first
    | with_reducible
        first
          | assumption | exact Keeps.refl _ | apply keeps_ite | apply keeps_ite2 | apply keeps_State_wr
          | apply keeps_fieldWrite | apply keeps_keyCmdEffect | apply keeps_spreadEffect | apply keeps_cntAddEffect
          | apply keeps_submitEffect | apply keeps_dbgCloseEffect | apply keeps_arrayWrite
    | intro _
    | split
    | dsimp only

theorem keeps_clrEffect {z0 : State} (s : State) (m : Master) (v : Word) (hk : Keeps z0 s) : Keeps z0 (clrEffect s m v).2
    := by
  delta clrEffect
  repeat' first
    | with_reducible
        first
          | assumption | exact Keeps.refl _ | apply keeps_modOut | apply keeps_clearCommand
    | intro _
    | split
    | refine keeps_of_eq (by assumption) ?_
    | refine keeps_of_eq3 (by assumption) ?_
    | dsimp only

theorem keeps_regEffect {z0 : State} (s : State) (m : Master) (a : Nat) (v : Word) (hk : Keeps z0 s) : Keeps z0 (regEffect
    s m a v).2 := by
  delta regEffect
  repeat' first
    | with_reducible
        first
          | assumption | exact Keeps.refl _ | apply keeps_ite | apply keeps_ite2 | apply keeps_systemWrite
          | apply keeps_pathWrite | apply keeps_outerWrite | apply keeps_pavaneWrite | apply keeps_clrEffect
    | intro _
    | split
    | dsimp only

theorem keeps_regReads {z0 : State} (m : Master) (y0 : Nat) (y1 : Nat) (y2 : State) (hk : Keeps z0 y2) : Keeps z0
    (regReads m y0 y1 y2).2 := by
  induction y0 generalizing y1 y2 with
  | zero =>
    unfold regReads
    repeat' first
      | with_reducible
          first
            | assumption | exact Keeps.refl _ | apply keeps_regRead
      | intro _
      | split
      | refine keeps_of_eq (by assumption) ?_
      | refine keeps_of_eq3 (by assumption) ?_
      | dsimp only
  | succ n ih =>
    unfold regReads
    repeat' first
      | with_reducible
          first
            | assumption | exact Keeps.refl _ | apply keeps_regRead | apply ih
      | intro _
      | split
      | refine keeps_of_eq (by assumption) ?_
      | refine keeps_of_eq3 (by assumption) ?_
      | dsimp only

theorem keeps_regWrites {z0 : State} (m : Master) (y0 : Nat) (y1 : Nat) (y2 : List Byte) (y3 : State) (hk : Keeps z0 y3) :
    Keeps z0 (regWrites m y0 y1 y2 y3).2 := by
  induction y0 generalizing y1 y2 y3 with
  | zero =>
    unfold regWrites
    repeat' first
      | with_reducible
          first
            | assumption | exact Keeps.refl _ | apply keeps_ite | apply keeps_ite2 | apply keeps_regEffect
      | intro _
      | split
      | refine keeps_of_eq (by assumption) ?_
      | refine keeps_of_eq3 (by assumption) ?_
      | dsimp only
  | succ n ih =>
    unfold regWrites
    repeat' first
      | with_reducible
          first
            | assumption | exact Keeps.refl _ | apply keeps_ite | apply keeps_ite2 | apply keeps_regEffect | apply ih
      | intro _
      | split
      | refine keeps_of_eq (by assumption) ?_
      | refine keeps_of_eq3 (by assumption) ?_
      | dsimp only

theorem keeps_regMisaligned {z0 : State} (s : State) (acc : Access) (hk : Keeps z0 s) : Keeps z0 (regMisaligned s acc) :=
    by
  delta regMisaligned
  repeat' first
    | with_reducible
        first
          | assumption | exact Keeps.refl _ | apply keeps_ite | apply keeps_ite2 | apply keeps_ite3
          | apply keeps_State_resp | apply keeps_impreciseNotice
    | intro _
    | split
    | dsimp only

theorem keeps_readWords {z0 : State} (m : Master) (y0 : List Nat) (y1 : List Byte) (y2 : State) (hk : Keeps z0 y2) : Keeps
    z0 (readWords m y0 y1 y2) := by
  induction y0 generalizing y1 y2 with
  | nil =>
    unfold readWords
    repeat' first
      | with_reducible
          first
            | assumption | exact Keeps.refl _ | apply keeps_ite | apply keeps_ite2 | apply keeps_ite3
            | apply keeps_modGate | apply keeps_State_resp | apply keeps_regRead
      | intro _
      | split
      | refine keeps_of_eq (by assumption) ?_
      | refine keeps_of_eq3 (by assumption) ?_
      | dsimp only
  | cons hd tl ih =>
    unfold readWords
    repeat' first
      | with_reducible
          first
            | assumption | exact Keeps.refl _ | apply keeps_ite | apply keeps_ite2 | apply keeps_ite3
            | apply keeps_modGate | apply keeps_State_resp | apply keeps_regRead | apply ih
      | intro _
      | split
      | refine keeps_of_eq (by assumption) ?_
      | refine keeps_of_eq3 (by assumption) ?_
      | dsimp only

theorem keeps_readAccess {z0 : State} (s : State) (m : Master) (a : Nat) (len : Nat) (hk : Keeps z0 s) : Keeps z0
    (readAccess s m a len) := by
  delta readAccess
  repeat' first
    | with_reducible
        first
          | assumption | exact Keeps.refl _ | apply keeps_ite | apply keeps_ite2 | apply keeps_ite3
          | apply keeps_State_resp | apply keeps_gated | apply keeps_flushPairs | apply keeps_regMisaligned
          | apply keeps_readWords
    | intro _
    | split
    | dsimp only

theorem keeps_writeAccess {z0 : State} (s : State) (m : Master) (a : Nat) (data : List Byte) (hk : Keeps z0 s) : Keeps z0
    (writeAccess s m a data) := by
  delta writeAccess
  repeat' first
    | with_reducible
        first
          | assumption | exact Keeps.refl _ | apply keeps_ite | apply keeps_ite2 | apply keeps_ite3
          | apply keeps_State_resp | apply keeps_gated | apply keeps_flushPairs | apply keeps_regWrites
          | apply keeps_regMisaligned
    | intro _
    | split
    | refine keeps_of_eq (by assumption) ?_
    | refine keeps_of_eq3 (by assumption) ?_
    | dsimp only

theorem keeps_syncReturn {z0 : State} (s : State) (w : SyncWait) (hk : Keeps z0 s) : Keeps z0 (syncReturn s w) := by
  delta syncReturn
  repeat' first
    | with_reducible
        first
          | assumption | exact Keeps.refl _ | apply keeps_modGate | apply keeps_readWords
    | intro _
    | split
    | dsimp only

theorem keeps_busRead {z0 : State} (s0 : State) (acc : Access) (hk : Keeps z0 s0) : Keeps z0 (busRead s0 acc).2.2 := by
  delta busRead
  repeat' first
    | with_reducible
        first
          | assumption | exact Keeps.refl _ | apply keeps_ite | apply keeps_ite3 | apply keeps_refuseAccess
          | apply keeps_sramRead | apply keeps_flushPairs | apply keeps_mramReadWords | apply keeps_regReads
    | intro _
    | split
    | refine keeps_of_eq (by assumption) ?_
    | refine keeps_of_eq3 (by assumption) ?_
    | dsimp only

theorem keeps_busWrite {z0 : State} (s0 : State) (acc : Access) (data : List Byte) (hk : Keeps z0 s0) : Keeps z0 (busWrite
    s0 acc data).2 := by
  delta busWrite
  repeat' first
    | with_reducible
        first
          | assumption | exact Keeps.refl _ | apply keeps_ite | apply keeps_ite2 | apply keeps_State_setBytes
          | apply keeps_refuseAccess | apply keeps_sramWriteWords | apply keeps_flushPairs
          | apply keeps_mramStoreBytes | apply keeps_regWrites
    | intro _
    | split
    | refine keeps_of_eq (by assumption) ?_
    | refine keeps_of_eq3 (by assumption) ?_
    | dsimp only

end Sys2Proof.Machine
end

