-- ==== Sys2Proof/Laws/Keeps/Engines.lean ====
section
/-! SUPPORT. What the functions of `Machine/Engines.lean` keep: the queue of commands, and the canonical form of memory and registers. -/

set_option linter.unusedTactic false
set_option linter.unreachableTactic false

namespace Sys2Proof.Machine

/-- The state in which a stage of an operation leaves the block. -/
def EngStep.state {α : Type} : EngStep α → State
  | .stop _ s => s
  | .more _ s => s

/-- A stage of an operation keeps what every function keeps. -/
def KeepsE {α : Type} (s : State) (r : EngStep α) : Prop := Keeps s r.state

theorem keepsE_stop {α : Type} {z0 s : State} {o : EngOut} (h : Keeps z0 s) : KeepsE z0 (EngStep.stop o s : EngStep α) := h

theorem keepsE_more {α : Type} {z0 s : State} {x : α} (h : Keeps z0 s) : KeepsE z0 (EngStep.more x s) := h
theorem keepsE_of_stop {α : Type} {z0 s : State} {r : EngStep α} {o : EngOut} (h : r = .stop o s) (k : KeepsE z0 r) : Keeps z0 s := by
  subst h; exact k

theorem keepsE_of_more {α : Type} {z0 s : State} {r : EngStep α} {x : α} (h : r = .more x s) (k : KeepsE z0 r) : Keeps z0 s := by
  subst h; exact k

theorem keeps_engRead {z0 : State} (s : State) (d : EngDesc) (a : Nat) (len : Nat) (hk : Keeps z0 s) : Keeps z0 (engRead s
    d a len).2.2 := by
  delta engRead
  repeat' first
    | with_reducible
        first
          | assumption | exact Keeps.refl _ | apply keeps_ite | apply keeps_ite3 | apply keeps_busRead
    | intro _
    | split
    | refine keepsE_of_stop (by assumption) ?_
    | refine keepsE_of_more (by assumption) ?_
    | dsimp only

theorem keeps_engWrite {z0 : State} (s : State) (d : EngDesc) (a : Nat) (data : List Byte) (hk : Keeps z0 s) : Keeps z0
    (engWrite s d a data).2 := by
  delta engWrite
  repeat' first
    | with_reducible
        first
          | assumption | exact Keeps.refl _ | apply keeps_ite | apply keeps_ite2 | apply keeps_busWrite
    | intro _
    | split
    | refine keepsE_of_stop (by assumption) ?_
    | refine keepsE_of_more (by assumption) ?_
    | dsimp only

theorem keeps_EngStep_andThen {z0 : State} {α : Type} (r : EngStep α) (f : α → State → EngOut × State)
    (hf : ∀ x t, Keeps t (f x t).2) (hk : KeepsE z0 r) : Keeps z0 (r.andThen f).2 := by
  cases r with
  | stop o s => exact hk
  | more x s => exact Keeps.trans hk (hf x s)

theorem keeps_engGet {z0 : State} (s : State) (d : EngDesc) (a : Nat) (len : Nat) (trunc : Bool) (hk : Keeps z0 s) :
    KeepsE z0 (engGet s d a len trunc) := by
  delta engGet
  repeat' first
    | with_reducible
        first
          | assumption | exact Keeps.refl _ | apply keeps_ite | apply keeps_ite2 | apply keeps_ite3
          | apply keeps_engRead | apply keepsE_stop | apply keepsE_more
    | intro _
    | split
    | refine keepsE_of_stop (by assumption) ?_
    | refine keepsE_of_more (by assumption) ?_
    | refine keeps_of_eq (by assumption) ?_
    | refine keeps_of_eq3 (by assumption) ?_
    | dsimp only

theorem keeps_engPut {z0 : State} (s : State) (d : EngDesc) (a : Nat) (l : List Byte) (trunc : Bool) (hk : Keeps z0 s) :
    KeepsE z0 (engPut s d a l trunc) := by
  delta engPut
  repeat' first
    | with_reducible
        first
          | assumption | exact Keeps.refl _ | apply keeps_ite | apply keeps_ite2 | apply keeps_ite3
          | apply keeps_engWrite | apply keepsE_stop | apply keepsE_more
    | intro _
    | split
    | refine keepsE_of_stop (by assumption) ?_
    | refine keepsE_of_more (by assumption) ?_
    | refine keeps_of_eq (by assumption) ?_
    | refine keeps_of_eq3 (by assumption) ?_
    | dsimp only

theorem keeps_engNeed {z0 : State} (s : State) (c : Bool) (code : Half) (hk : Keeps z0 s) : KeepsE z0 (engNeed s c code)
    := by
  delta engNeed
  repeat' first
    | with_reducible
        first
          | assumption | exact Keeps.refl _ | apply keeps_ite | apply keeps_ite2 | apply keeps_ite3
          | apply keepsE_stop | apply keepsE_more
    | intro _
    | split
    | refine keepsE_of_stop (by assumption) ?_
    | refine keepsE_of_more (by assumption) ?_
    | dsimp only

theorem keeps_engKey {z0 : State} (s : State) (d : EngDesc) (n : Nat) (kinds : List Nat) (uses : List Nat) (hk : Keeps z0
    s) : KeepsE z0 (engKey s d n kinds uses) := by
  delta engKey
  repeat' first
    | with_reducible
        first
          | assumption | exact Keeps.refl _ | apply keeps_ite | apply keeps_ite2 | apply keeps_ite3
          | apply keeps_useSlot | apply keepsE_stop | apply keepsE_more
    | intro _
    | split
    | refine keepsE_of_stop (by assumption) ?_
    | refine keepsE_of_more (by assumption) ?_
    | refine keeps_of_eq (by assumption) ?_
    | refine keeps_of_eq3 (by assumption) ?_
    | dsimp only

theorem keeps_engSlotFree {z0 : State} (s : State) (d : EngDesc) (hk : Keeps z0 s) : KeepsE z0 (engSlotFree s d) := by
  delta engSlotFree
  repeat' first
    | with_reducible
        first
          | assumption | exact Keeps.refl _ | apply keeps_ite | apply keeps_ite2 | apply keeps_ite3
          | apply keeps_raise | apply keepsE_stop | apply keepsE_more
    | intro _
    | split
    | refine keepsE_of_stop (by assumption) ?_
    | refine keepsE_of_more (by assumption) ?_
    | dsimp only

theorem keeps_setResult {z0 : State} (s : State) (l : List Byte) (hk : Keeps z0 s) : Keeps z0 (setResult s l) := by
  delta setResult
  repeat' first
    | with_reducible
        first
          | assumption | exact Keeps.refl _ | apply keeps_foldl | apply keeps_foldl2 | apply keeps_modEng
          | apply keeps_State_wr
    | intro _
    | split
    | refine keepsE_of_stop (by assumption) ?_
    | refine keepsE_of_more (by assumption) ?_
    | dsimp only

theorem keeps_clearResult {z0 : State} (s : State) (hk : Keeps z0 s) : Keeps z0 (clearResult s) := by
  delta clearResult
  repeat' first
    | with_reducible
        first
          | assumption | exact Keeps.refl _ | apply keeps_setResult
    | intro _
    | split
    | refine keepsE_of_stop (by assumption) ?_
    | refine keepsE_of_more (by assumption) ?_
    | dsimp only

theorem keeps_engCompare {z0 : State} (s : State) (d : EngDesc) (out : List Byte) (src : Byte) (hk : Keeps z0 s) : Keeps
    z0 (engCompare s d out src).2 := by
  delta engCompare
  repeat' first
    | with_reducible
        first
          | assumption | exact Keeps.refl _ | apply keeps_ite | apply keeps_ite2 | apply keeps_raise
          | apply keeps_EngStep_andThen | apply keeps_engGet | apply keepsE_stop | apply keepsE_more
    | intro _
    | split
    | refine keepsE_of_stop (by assumption) ?_
    | refine keepsE_of_more (by assumption) ?_
    | dsimp only

theorem keeps_engDeliver {z0 : State} (s : State) (d : EngDesc) (out : List Byte) (count : Nat) (src : Byte) (trunc :
    Bool) (hk : Keeps z0 s) : Keeps z0 (engDeliver s d out count src trunc).2 := by
  delta engDeliver
  repeat' first
    | with_reducible
        first
          | assumption | exact Keeps.refl _ | apply keeps_fillKey | apply keeps_EngStep_andThen | apply keeps_engPut
          | apply keeps_engSlotFree | apply keeps_setResult | apply keeps_engCompare | apply keepsE_stop
          | apply keepsE_more
    | intro _
    | split
    | refine keepsE_of_stop (by assumption) ?_
    | refine keepsE_of_more (by assumption) ?_
    | refine keeps_of_eq (by assumption) ?_
    | refine keeps_of_eq3 (by assumption) ?_
    | dsimp only

theorem keeps_endDig {z0 : State} (s : State) (hk : Keeps z0 s) : Keeps z0 (endDig s) := by
  delta endDig
  repeat' first
    | with_reducible
        first
          | assumption | exact Keeps.refl _ | apply keeps_modEng | apply keeps_clearResult
    | intro _
    | split
    | refine keepsE_of_stop (by assumption) ?_
    | refine keepsE_of_more (by assumption) ?_
    | dsimp only

theorem keeps_failDig {z0 : State} (r : EngOut × State) (hk : Keeps z0 r.2) : Keeps z0 (failDig r).2 := by
  unfold failDig
  split
  · exact hk
  · exact keeps_endDig _ hk

theorem keeps_saveDig {z0 : State} (s : State) (d : EngDesc) (j : DigJob) (r : EngOut) (hk : Keeps z0 s) : Keeps z0
    (saveDig s d j r).2 := by
  delta saveDig
  repeat' first
    | with_reducible
        first
          | assumption | exact Keeps.refl _ | apply keeps_modEng | apply keeps_State_drawBytes
          | apply keeps_EngStep_andThen | apply keeps_engPut | apply keepsE_stop | apply keepsE_more
    | intro _
    | split
    | refine keepsE_of_stop (by assumption) ?_
    | refine keepsE_of_more (by assumption) ?_
    | refine keeps_of_eq (by assumption) ?_
    | refine keeps_of_eq3 (by assumption) ?_
    | dsimp only

theorem keeps_runSegment {z0 : State} (s : State) (d : EngDesc) (j : DigJob) (key : List Byte) (hk : Keeps z0 s) : Keeps
    z0 (runSegment s d j key).2 := by
  delta runSegment
  repeat' first
    | with_reducible
        first
          | assumption | exact Keeps.refl _ | apply keeps_ite | apply keeps_ite2 | apply keeps_modEng
          | apply keeps_EngStep_andThen | apply keeps_engGet | apply keeps_engDeliver | apply keeps_endDig
          | apply keeps_failDig | apply keeps_saveDig | apply keepsE_stop | apply keepsE_more
    | intro _
    | split
    | refine keepsE_of_stop (by assumption) ?_
    | refine keepsE_of_more (by assumption) ?_
    | dsimp only

theorem keeps_restoreJob {z0 : State} (s : State) (d : EngDesc) (hk : Keeps z0 s) : KeepsE z0 (restoreJob s d) := by
  delta restoreJob
  repeat' first
    | with_reducible
        first
          | assumption | exact Keeps.refl _ | apply keeps_ite | apply keeps_ite2 | apply keeps_ite3
          | apply keeps_raise | apply keeps_engRead | apply keepsE_stop | apply keepsE_more
    | intro _
    | split
    | refine keepsE_of_stop (by assumption) ?_
    | refine keepsE_of_more (by assumption) ?_
    | refine keeps_of_eq (by assumption) ?_
    | refine keeps_of_eq3 (by assumption) ?_
    | dsimp only

theorem keeps_digKey {z0 : State} (s : State) (d : EngDesc) (hk : Keeps z0 s) : KeepsE z0 (digKey s d) := by
  delta digKey
  repeat' first
    | with_reducible
        first
          | assumption | exact Keeps.refl _ | apply keeps_ite | apply keeps_ite2 | apply keeps_ite3
          | apply keeps_engKey | apply keepsE_stop | apply keepsE_more
    | intro _
    | split
    | refine keepsE_of_stop (by assumption) ?_
    | refine keepsE_of_more (by assumption) ?_
    | dsimp only

theorem keeps_runDigest {z0 : State} (d : EngDesc) (s : State) (hk : Keeps z0 s) : Keeps z0 (runDigest d s).2 := by
  delta runDigest
  repeat' first
    | with_reducible
        first
          | assumption | exact Keeps.refl _ | apply keeps_ite | apply keeps_ite2 | apply keeps_EngStep_andThen
          | apply keeps_endDig | apply keeps_failDig | apply keeps_runSegment | apply keeps_restoreJob
          | apply keeps_digKey | apply keepsE_stop | apply keepsE_more
    | intro _
    | split
    | refine keepsE_of_stop (by assumption) ?_
    | refine keepsE_of_more (by assumption) ?_
    | refine keeps_of_eq (by assumption) ?_
    | refine keeps_of_eq3 (by assumption) ?_
    | dsimp only

theorem keeps_endCip {z0 : State} (s : State) (hk : Keeps z0 s) : Keeps z0 (endCip s) := by
  delta endCip
  repeat' first
    | with_reducible
        first
          | assumption | exact Keeps.refl _ | apply keeps_modEng
    | intro _
    | split
    | refine keepsE_of_stop (by assumption) ?_
    | refine keepsE_of_more (by assumption) ?_
    | dsimp only

theorem keeps_engFault {z0 : State} (s : State) (e : Nat) (d : EngDesc) (len : Nat) (hk : Keeps z0 s) : Keeps z0 (engFault
    s e d len).2 := by
  delta engFault
  repeat' first
    | with_reducible
        first
          | assumption | exact Keeps.refl _ | apply keeps_State_bump | apply keeps_raise | apply keeps_engWrite
          | apply keeps_endCip
    | intro _
    | split
    | refine keepsE_of_stop (by assumption) ?_
    | refine keepsE_of_more (by assumption) ?_
    | dsimp only

theorem keeps_closeCip {z0 : State} (d : EngDesc) (r : EngOut × State) (hk : Keeps z0 r.2) : Keeps z0 (closeCip d r).2 := by
  unfold closeCip
  split
  · exact keeps_endCip _ hk
  · exact hk

theorem keeps_cipSegment {z0 : State} (s : State) (d : EngDesc) (j : CipJob) (key : List Byte) (l : List Byte) (hk : Keeps
    z0 s) : Keeps z0 (cipSegment s d j key l).2 := by
  delta cipSegment
  repeat' first
    | with_reducible
        first
          | assumption | exact Keeps.refl _ | apply keeps_ite | apply keeps_ite2 | apply keeps_modEng
          | apply keeps_engWrite | apply keeps_EngStep_andThen | apply keeps_engGet | apply keeps_engPut
          | apply keeps_engDeliver | apply keepsE_stop | apply keepsE_more
    | intro _
    | split
    | refine keepsE_of_stop (by assumption) ?_
    | refine keepsE_of_more (by assumption) ?_
    | refine keeps_of_eq (by assumption) ?_
    | refine keeps_of_eq3 (by assumption) ?_
    | dsimp only

theorem keeps_openCip {z0 : State} (s : State) (d : EngDesc) (hk : Keeps z0 s) : KeepsE z0 (openCip s d) := by
  delta openCip
  repeat' first
    | with_reducible
        first
          | assumption | exact Keeps.refl _ | apply keeps_ite | apply keeps_ite2 | apply keeps_ite3
          | apply keeps_engRead | apply keepsE_stop | apply keepsE_more
    | intro _
    | split
    | refine keepsE_of_stop (by assumption) ?_
    | refine keepsE_of_more (by assumption) ?_
    | refine keeps_of_eq (by assumption) ?_
    | refine keeps_of_eq3 (by assumption) ?_
    | dsimp only

theorem keeps_runWrap {z0 : State} (s : State) (d : EngDesc) (key : List Byte) (hk : Keeps z0 s) : Keeps z0 (runWrap s d
    key).2 := by
  delta runWrap
  repeat' first
    | with_reducible
        first
          | assumption | exact Keeps.refl _ | apply keeps_ite | apply keeps_ite2 | apply keeps_useSlot
          | apply keeps_EngStep_andThen | apply keeps_engPut | apply keepsE_stop | apply keepsE_more
    | intro _
    | split
    | refine keepsE_of_stop (by assumption) ?_
    | refine keepsE_of_more (by assumption) ?_
    | refine keeps_of_eq (by assumption) ?_
    | refine keeps_of_eq3 (by assumption) ?_
    | dsimp only

theorem keeps_runUnwrap {z0 : State} (s : State) (d : EngDesc) (key : List Byte) (hk : Keeps z0 s) : Keeps z0 (runUnwrap s
    d key).2 := by
  delta runUnwrap
  repeat' first
    | with_reducible
        first
          | assumption | exact Keeps.refl _ | apply keeps_EngStep_andThen | apply keeps_engGet
          | apply keeps_engDeliver | apply keepsE_stop | apply keepsE_more
    | intro _
    | split
    | refine keepsE_of_stop (by assumption) ?_
    | refine keepsE_of_more (by assumption) ?_
    | refine keeps_of_eq (by assumption) ?_
    | refine keeps_of_eq3 (by assumption) ?_
    | dsimp only

theorem keeps_runCipher {z0 : State} (fault : Bool) (d : EngDesc) (s : State) (hk : Keeps z0 s) : Keeps z0 (runCipher
    fault d s).2 := by
  delta runCipher
  repeat' first
    | with_reducible
        first
          | assumption | exact Keeps.refl _ | apply keeps_ite | apply keeps_ite2 | apply keeps_EngStep_andThen
          | apply keeps_engGet | apply keeps_engKey | apply keeps_endCip | apply keeps_engFault | apply keeps_closeCip
          | apply keeps_cipSegment | apply keeps_openCip | apply keeps_runWrap | apply keeps_runUnwrap
          | apply keepsE_stop | apply keepsE_more
    | intro _
    | split
    | refine keepsE_of_stop (by assumption) ?_
    | refine keepsE_of_more (by assumption) ?_
    | refine keeps_of_eq (by assumption) ?_
    | refine keeps_of_eq3 (by assumption) ?_
    | dsimp only

theorem keeps_drawScalar {z0 : State} (s : State) (c : Curve) (hk : Keeps z0 s) : Keeps z0 (drawScalar s c).2 := by
  delta drawScalar
  repeat' first
    | with_reducible
        first
          | assumption | exact Keeps.refl _ | apply keeps_State_drawBytes
    | intro _
    | split
    | refine keepsE_of_stop (by assumption) ?_
    | refine keepsE_of_more (by assumption) ?_
    | refine keeps_of_eq (by assumption) ?_
    | refine keeps_of_eq3 (by assumption) ?_
    | dsimp only

theorem keeps_pkaHash {z0 : State} (s : State) (d : EngDesc) (hk : Keeps z0 s) : KeepsE z0 (pkaHash s d) := by
  delta pkaHash
  repeat' first
    | with_reducible
        first
          | assumption | exact Keeps.refl _ | apply keeps_ite | apply keeps_ite2 | apply keeps_ite3
          | apply keeps_engGet | apply keepsE_stop | apply keepsE_more
    | intro _
    | split
    | refine keepsE_of_stop (by assumption) ?_
    | refine keepsE_of_more (by assumption) ?_
    | dsimp only

theorem keeps_runKeygen {z0 : State} (d : EngDesc) (s : State) (hk : Keeps z0 s) : Keeps z0 (runKeygen d s).2 := by
  delta runKeygen
  repeat' first
    | with_reducible
        first
          | assumption | exact Keeps.refl _ | apply keeps_ite | apply keeps_ite2 | apply keeps_fillKey
          | apply keeps_EngStep_andThen | apply keeps_engPut | apply keeps_engSlotFree | apply keeps_drawScalar
          | apply keepsE_stop | apply keepsE_more
    | intro _
    | split
    | refine keepsE_of_stop (by assumption) ?_
    | refine keepsE_of_more (by assumption) ?_
    | refine keeps_of_eq (by assumption) ?_
    | refine keeps_of_eq3 (by assumption) ?_
    | dsimp only

theorem keeps_pkaPrivate {z0 : State} (s : State) (d : EngDesc) (uses : List Nat) (hk : Keeps z0 s) : KeepsE z0
    (pkaPrivate s d uses) := by
  delta pkaPrivate
  repeat' first
    | with_reducible
        first
          | assumption | exact Keeps.refl _ | apply keeps_engKey | apply keepsE_stop | apply keepsE_more
    | intro _
    | split
    | refine keepsE_of_stop (by assumption) ?_
    | refine keepsE_of_more (by assumption) ?_
    | refine keeps_of_eq (by assumption) ?_
    | refine keeps_of_eq3 (by assumption) ?_
    | dsimp only

theorem keeps_runPublic {z0 : State} (d : EngDesc) (s : State) (hk : Keeps z0 s) : Keeps z0 (runPublic d s).2 := by
  delta runPublic
  repeat' first
    | with_reducible
        first
          | assumption | exact Keeps.refl _ | apply keeps_EngStep_andThen | apply keeps_engPut
          | apply keeps_pkaPrivate | apply keepsE_stop | apply keepsE_more
    | intro _
    | split
    | refine keepsE_of_stop (by assumption) ?_
    | refine keepsE_of_more (by assumption) ?_
    | dsimp only

theorem keeps_signDraw {z0 : State} (c : Curve) (x : Nat) (h : List Byte) (y0 : Nat) (y1 : State) (hk : Keeps z0 y1) :
    Keeps z0 (signDraw c x h y0 y1).2 := by
  induction y0 generalizing y1 with
  | zero =>
    unfold signDraw
    repeat' first
      | with_reducible
          first
            | assumption | exact Keeps.refl _ | apply keeps_drawScalar
      | intro _
      | split
      | refine keepsE_of_stop (by assumption) ?_
      | refine keepsE_of_more (by assumption) ?_
      | refine keeps_of_eq (by assumption) ?_
      | refine keeps_of_eq3 (by assumption) ?_
      | dsimp only
  | succ n ih =>
    unfold signDraw
    repeat' first
      | with_reducible
          first
            | assumption | exact Keeps.refl _ | apply keeps_drawScalar | apply ih
      | intro _
      | split
      | refine keepsE_of_stop (by assumption) ?_
      | refine keepsE_of_more (by assumption) ?_
      | refine keeps_of_eq (by assumption) ?_
      | refine keeps_of_eq3 (by assumption) ?_
      | dsimp only

theorem keeps_runSign {z0 : State} (fault : Bool) (d : EngDesc) (s : State) (hk : Keeps z0 s) : Keeps z0 (runSign fault d
    s).2 := by
  delta runSign
  repeat' first
    | with_reducible
        first
          | assumption | exact Keeps.refl _ | apply keeps_State_bump | apply keeps_raise | apply keeps_EngStep_andThen
          | apply keeps_engPut | apply keeps_pkaHash | apply keeps_pkaPrivate | apply keeps_signDraw
          | apply keepsE_stop | apply keepsE_more
    | intro _
    | split
    | refine keepsE_of_stop (by assumption) ?_
    | refine keepsE_of_more (by assumption) ?_
    | refine keeps_of_eq (by assumption) ?_
    | refine keeps_of_eq3 (by assumption) ?_
    | dsimp only

theorem keeps_pkaPublic {z0 : State} (s : State) (d : EngDesc) (hk : Keeps z0 s) : KeepsE z0 (pkaPublic s d) := by
  delta pkaPublic
  repeat' first
    | with_reducible
        first
          | assumption | exact Keeps.refl _ | apply keeps_ite | apply keeps_ite2 | apply keeps_ite3
          | apply keeps_engGet | apply keeps_engKey | apply keepsE_stop | apply keepsE_more
    | intro _
    | split
    | refine keepsE_of_stop (by assumption) ?_
    | refine keepsE_of_more (by assumption) ?_
    | refine keeps_of_eq (by assumption) ?_
    | refine keeps_of_eq3 (by assumption) ?_
    | dsimp only

theorem keeps_runVerify {z0 : State} (d : EngDesc) (s : State) (hk : Keeps z0 s) : Keeps z0 (runVerify d s).2 := by
  delta runVerify
  repeat' first
    | with_reducible
        first
          | assumption | exact Keeps.refl _ | apply keeps_ite | apply keeps_ite2 | apply keeps_EngStep_andThen
          | apply keeps_engGet | apply keeps_pkaHash | apply keeps_pkaPublic | apply keepsE_stop | apply keepsE_more
    | intro _
    | split
    | refine keepsE_of_stop (by assumption) ?_
    | refine keepsE_of_more (by assumption) ?_
    | dsimp only

theorem keeps_runEcdh {z0 : State} (d : EngDesc) (s : State) (hk : Keeps z0 s) : Keeps z0 (runEcdh d s).2 := by
  delta runEcdh
  repeat' first
    | with_reducible
        first
          | assumption | exact Keeps.refl _ | apply keeps_ite | apply keeps_ite2 | apply keeps_fillKey
          | apply keeps_EngStep_andThen | apply keeps_engGet | apply keeps_engSlotFree | apply keeps_pkaPrivate
          | apply keepsE_stop | apply keepsE_more
    | intro _
    | split
    | refine keepsE_of_stop (by assumption) ?_
    | refine keepsE_of_more (by assumption) ?_
    | refine keeps_of_eq (by assumption) ?_
    | refine keeps_of_eq3 (by assumption) ?_
    | dsimp only

theorem keeps_runPka {z0 : State} (fault : Bool) (d : EngDesc) (s : State) (hk : Keeps z0 s) : Keeps z0 (runPka fault d
    s).2 := by
  delta runPka
  repeat' first
    | with_reducible
        first
          | assumption | exact Keeps.refl _ | apply keeps_ite | apply keeps_ite2 | apply keeps_runKeygen
          | apply keeps_runPublic | apply keeps_runSign | apply keeps_runVerify | apply keeps_runEcdh
    | intro _
    | split
    | refine keepsE_of_stop (by assumption) ?_
    | refine keepsE_of_more (by assumption) ?_
    | refine keeps_of_eq (by assumption) ?_
    | refine keeps_of_eq3 (by assumption) ?_
    | dsimp only

theorem keeps_engRow {z0 : State} (e : Nat) (op : Nat) (run : EngDesc → State → EngOut × State) (s : State) (hrun : ∀ x0
    x1, Keeps x1 (run x0 x1).2) (hk : Keeps z0 s) : KeepsO z0 (engRow e op run s) := by
  delta engRow
  repeat' first
    | with_reducible
        first
          | refine keepsO_next ?_ | assumption | exact Keeps.refl _ | apply keeps_ite | apply keepsO_ite
          | apply keeps_ite2 | apply keeps_ite3 | apply keeps_whenLive | apply keeps_sramRead | apply keeps_setEngOut
          | refine Keeps.trans ?_ (hrun _ _)
    | intro _
    | split
    | refine keepsE_of_stop (by assumption) ?_
    | refine keepsE_of_more (by assumption) ?_
    | refine keeps_of_eq (by assumption) ?_
    | refine keeps_of_eq3 (by assumption) ?_
    | dsimp only

end Sys2Proof.Machine
end

