-- ==== Sys2Proof/Laws/Keeps/LaneCmd.lean ====
section
/-! SUPPORT. What the functions of `Machine/LaneCmd.lean` keep: the queue of commands, and the canonical form of memory and registers. -/

set_option linter.unusedTactic false
set_option linter.unreachableTactic false

namespace Sys2Proof.Machine

theorem keeps_answerNow {z0 : State} (x : Half × List Byte × State) (hk : Keeps z0 x.2.2) : Keeps z0 (answerNow x).2 := hk

theorem keeps_diagWords {z0 : State} (y0 : Nat) (y1 : Nat) (y2 : State) (hk : Keeps z0 y2) : Keeps z0 (diagWords y0 y1
    y2).2.2 := by
  induction y0 generalizing y1 y2 with
  | zero =>
    unfold diagWords
    repeat' first
      | with_reducible
          first
            | assumption | exact Keeps.refl _ | apply keeps_ite | apply keeps_ite3 | apply keeps_refuseAccess
            | apply keeps_flushPairs | apply keeps_regRead
      | intro _
      | split
      | refine keeps_of_eq (by assumption) ?_
      | refine keeps_of_eq3 (by assumption) ?_
      | dsimp only
  | succ n ih =>
    unfold diagWords
    repeat' first
      | with_reducible
          first
            | assumption | exact Keeps.refl _ | apply keeps_ite | apply keeps_ite3 | apply keeps_refuseAccess
            | apply keeps_flushPairs | apply keeps_regRead | apply ih
      | intro _
      | split
      | refine keeps_of_eq (by assumption) ?_
      | refine keeps_of_eq3 (by assumption) ?_
      | dsimp only

theorem keeps_laneDiagRead {z0 : State} (b : List Byte) (s : State) (hk : Keeps z0 s) : Keeps z0 (laneDiagRead b s).2.2 :=
    by
  delta laneDiagRead
  repeat' first
    | with_reducible
        first
          | assumption | exact Keeps.refl _ | apply keeps_diagWords
    | intro _
    | split
    | dsimp only

theorem keeps_resetSoon {z0 : State} (s : State) (hk : Keeps z0 s) : Keeps z0 (resetSoon s) := by
  delta resetSoon
  repeat' first
    | with_reducible
        first
          | assumption | exact Keeps.refl _ | apply keeps_ite | apply keeps_ite2 | apply keeps_ite3
          | apply keeps_modRst | apply keeps_deviceReset
    | intro _
    | split
    | dsimp only

theorem keeps_laneServiceFire {z0 : State} (b : List Byte) (s : State) (hk : Keeps z0 s) : Keeps z0 (laneServiceFire b
    s).2.2 := by
  delta laneServiceFire
  repeat' first
    | with_reducible
        first
          | assumption | exact Keeps.refl _ | apply keeps_ite | apply keeps_ite3 | apply keeps_ejRefuse
          | apply keeps_fireJudge
    | intro _
    | split
    | refine keeps_of_eq (by assumption) ?_
    | refine keeps_of_eq3 (by assumption) ?_
    | dsimp only

theorem keeps_laneShutterEvent {z0 : State} (s : State) (hk : Keeps z0 s) : Keeps z0 (laneShutterEvent s).2.2 := by
  delta laneShutterEvent
  repeat' first
    | with_reducible
        first
          | assumption | exact Keeps.refl _ | apply keeps_shtRequest
    | intro _
    | split
    | refine keeps_of_eq (by assumption) ?_
    | refine keeps_of_eq3 (by assumption) ?_
    | dsimp only

theorem keeps_injectPut {z0 : State} (s : State) (l : List Word) (hk : Keeps z0 s) : Keeps z0 (injectPut s l) := by
  delta injectPut
  repeat' first
    | with_reducible
        first
          | assumption | exact Keeps.refl _ | apply keeps_foldl | apply keeps_foldl2 | apply keeps_ite
          | apply keeps_ite2 | apply keeps_ite3 | apply keeps_pushSlot
    | intro _
    | split
    | dsimp only

theorem keeps_injectDrain {z0 : State} (y0 : Nat) (y1 : State) (hk : Keeps z0 y1) : Keeps z0 (injectDrain y0 y1) := by
  induction y0 generalizing y1 with
  | zero =>
    unfold injectDrain
    repeat' first
      | with_reducible
          first
            | assumption | exact Keeps.refl _ | apply keeps_ite | apply keeps_ite2 | apply keeps_ite3
            | apply keeps_modHost | apply keeps_finishReply | apply keeps_injectPut
      | intro _
      | split
      | refine keeps_of_eq (by assumption) ?_
      | refine keeps_of_eq3 (by assumption) ?_
      | dsimp only
  | succ n ih =>
    unfold injectDrain
    repeat' first
      | with_reducible
          first
            | assumption | exact Keeps.refl _ | apply keeps_ite | apply keeps_ite2 | apply keeps_ite3
            | apply keeps_modHost | apply keeps_finishReply | apply keeps_injectPut | apply ih
      | intro _
      | split
      | refine keeps_of_eq (by assumption) ?_
      | refine keeps_of_eq3 (by assumption) ?_
      | dsimp only

theorem keeps_laneInject {z0 : State} (r : ReplyTo) (words : List Word) (s : State) (hk : Keeps z0 s) : Keeps z0
    (laneInject r words s).2 := by
  delta laneInject
  repeat' first
    | with_reducible
        first
          | assumption | exact Keeps.refl _ | apply keeps_ite | apply keeps_ite2 | apply keeps_modHost
          | apply keeps_injectDrain
    | intro _
    | split
    | dsimp only

theorem keeps_laneCalExport {z0 : State} (b : List Byte) (into : Nat) (s : State) (hk : Keeps z0 s) : Keeps z0
    (laneCalExport b into s).2.2 := by
  delta laneCalExport
  repeat' first
    | with_reducible
        first
          | assumption | exact Keeps.refl _ | apply keeps_ite | apply keeps_ite3 | apply keeps_refuse
          | apply keeps_State_setBuf
    | intro _
    | split
    | refine keeps_of_eq (by assumption) ?_
    | refine keeps_of_eq3 (by assumption) ?_
    | dsimp only

theorem keeps_laneCalImport {z0 : State} (b : List Byte) (data : List Byte) (s : State) (hk : Keeps z0 s) : Keeps z0
    (laneCalImport b data s).2.2 := by
  delta laneCalImport
  repeat' first
    | with_reducible
        first
          | assumption | exact Keeps.refl _ | apply keeps_ite | apply keeps_ite3 | apply keeps_calImportCmd
          | apply keeps_reportRecord
    | intro _
    | split
    | refine keeps_of_eq (by assumption) ?_
    | refine keeps_of_eq3 (by assumption) ?_
    | dsimp only

theorem keeps_laneRun {z0 : State} (s : State) (code : Half) (b : List Byte) (buf : Nat) (into : Nat) (r : ReplyTo) (hk :
    Keeps z0 s) : Keeps z0 (laneRun s code b buf into r).2 := by
  delta laneRun
  repeat' first
    | with_reducible
        first
          | assumption | exact Keeps.refl _ | apply keeps_ite | apply keeps_ite2 | apply keeps_calBeginCmd
          | apply keeps_calPointReadyCmd | apply keeps_calCommitCmd | apply keeps_calDiscardCmd
          | apply keeps_calAbortCmd | apply keeps_calStatusCmd | apply keeps_loadRequest | apply keeps_unloadRequest
          | apply keeps_loopSetCmd | apply keeps_loopStatusCmd | apply keeps_answerNow | apply keeps_laneDiagRead
          | apply keeps_laneServiceFire | apply keeps_laneShutterEvent | apply keeps_laneInject
          | apply keeps_laneCalExport | apply keeps_laneCalImport
    | intro _
    | split
    | dsimp only

end Sys2Proof.Machine
end

