-- ==== Sys2Proof/Laws/Keeps/Host.lean ====
section
/-! SUPPORT. What the functions of `Machine/Host.lean` keep: the queue of commands, and the canonical form of memory and registers. -/

set_option linter.unusedTactic false
set_option linter.unreachableTactic false

namespace Sys2Proof.Machine

theorem keeps_answer {z0 : State} (s : State) (c : HostCmd) (code : Half) (st : Half) (body : List Byte) (hk : Keeps z0 s)
    : Keeps z0 (answer s c code st body) := by
  delta answer
  repeat' first
    | with_reducible
        first
          | assumption | exact Keeps.refl _ | apply keeps_emitResponse
    | intro _
    | split
    | dsimp only

theorem keeps_hostFrame {z0 : State} (s : State) (f : State → State) (hf : ∀ x0, Keeps x0 (f x0)) (hk : Keeps z0 s) :
    Keeps z0 (hostFrame s f) := by
  delta hostFrame
  repeat' first
    | with_reducible
        first
          | assumption | exact Keeps.refl _ | apply keeps_ite | apply keeps_ite2 | apply keeps_ite3
          | apply keeps_State_bump | refine Keeps.trans ?_ (hf _)
    | intro _
    | split
    | dsimp only

theorem keeps_hostJudge {z0 : State} (s : State) (c : HostCmd) (code : Half) (run : State → HostJob → State) (hrun : ∀ x0
    x1, Keeps x0 (run x0 x1)) (hk : Keeps z0 s) : Keeps z0 (hostJudge s c code run) := by
  delta hostJudge
  repeat' first
    | with_reducible
        first
          | assumption | exact Keeps.refl _ | apply keeps_ite | apply keeps_ite2 | apply keeps_ite3
          | apply keeps_modHost | apply keeps_answer | refine Keeps.trans ?_ (hrun _ _)
    | intro _
    | split
    | refine keeps_of_eq (by assumption) ?_
    | refine keeps_of_eq3 (by assumption) ?_
    | dsimp only

theorem keeps_uploadOpenRun {z0 : State} (s : State) (b : List Byte) (hk : Keeps z0 s) : Keeps z0 (uploadOpenRun s b).2 :=
    by
  delta uploadOpenRun
  repeat' first
    | with_reducible
        first
          | assumption | exact Keeps.refl _ | apply keeps_ite | apply keeps_ite2 | apply keeps_State_setBuf
    | intro _
    | split
    | dsimp only

theorem keeps_uploadDataRun {z0 : State} (s : State) (b : List Byte) (hk : Keeps z0 s) : Keeps z0 (uploadDataRun s b).2 :=
    by
  delta uploadDataRun
  repeat' first
    | with_reducible
        first
          | assumption | exact Keeps.refl _ | apply keeps_ite | apply keeps_ite2 | apply keeps_State_setBuf
    | intro _
    | split
    | dsimp only

theorem keeps_uploadCloseRun {z0 : State} (s : State) (b : List Byte) (hk : Keeps z0 s) : Keeps z0 (uploadCloseRun s b).2
    := by
  delta uploadCloseRun
  repeat' first
    | with_reducible
        first
          | assumption | exact Keeps.refl _ | apply keeps_ite | apply keeps_ite2 | apply keeps_State_setBuf
    | intro _
    | split
    | dsimp only

theorem keeps_laneRefuse {z0 : State} (s : State) (j : HostJob) (code : Half) (hk : Keeps z0 s) : Keeps z0 (laneRefuse s j
    code) := by
  delta laneRefuse
  repeat' first
    | with_reducible
        first
          | assumption | exact Keeps.refl _ | apply keeps_ite | apply keeps_ite2 | apply keeps_ite3
          | apply keeps_finishReply | apply keeps_loadRefuse
    | intro _
    | split
    | dsimp only

theorem keeps_loopSetHost {z0 : State} (s : State) (j : HostJob) (hk : Keeps z0 s) : Keeps z0 (loopSetHost s j) := by
  delta loopSetHost
  repeat' first
    | with_reducible
        first
          | assumption | exact Keeps.refl _ | apply keeps_ite | apply keeps_ite2 | apply keeps_ite3
          | apply keeps_raise | apply keeps_finishReply | apply keeps_carryStart | apply keeps_loopSetCmd
          | apply keeps_loopStore
    | intro _
    | split
    | refine keeps_of_eq (by assumption) ?_
    | refine keeps_of_eq3 (by assumption) ?_
    | dsimp only

theorem keeps_laneBegin {z0 : State} (s : State) (j : HostJob) (hk : Keeps z0 s) : Keeps z0 (laneBegin s j) := by
  delta laneBegin
  repeat' first
    | with_reducible
        first
          | assumption | exact Keeps.refl _ | apply keeps_ite | apply keeps_ite2 | apply keeps_ite3
          | apply keeps_finishReply | apply keeps_carryStart | apply keeps_loadBegin | apply keeps_resetSoon
          | apply keeps_laneRun | apply keeps_laneRefuse | apply keeps_loopSetHost
    | intro _
    | split
    | refine keeps_of_eq (by assumption) ?_
    | refine keeps_of_eq3 (by assumption) ?_
    | dsimp only

theorem keeps_markBegun {z0 : State} (s : State) (j : HostJob) (hk : Keeps z0 s) : Keeps z0 (markBegun s j) := by
  delta markBegun
  repeat' first
    | with_reducible
        first
          | assumption | exact Keeps.refl _ | apply keeps_ite | apply keeps_ite2 | apply keeps_ite3
          | apply keeps_modHost
    | intro _
    | split
    | dsimp only

theorem keeps_reenumerateBegin {z0 : State} (s : State) (j : HostJob) (hk : Keeps z0 s) : Keeps z0 (reenumerateBegin s j)
    := by
  delta reenumerateBegin
  repeat' first
    | with_reducible
        first
          | assumption | exact Keeps.refl _ | apply keeps_ite | apply keeps_ite2 | apply keeps_ite3
          | apply keeps_modRing | apply keeps_finishReply
    | intro _
    | split
    | dsimp only

theorem keeps_hostAdvance {z0 : State} (s : State) (hk : Keeps z0 s) : Keeps z0 (hostAdvance s) := by
  delta hostAdvance
  repeat' first
    | with_reducible
        first
          | assumption | exact Keeps.refl _ | apply keeps_foldl | apply keeps_foldl2 | apply keeps_ite
          | apply keeps_ite2 | apply keeps_ite3 | apply keeps_laneBegin | apply keeps_markBegun
          | apply keeps_reenumerateBegin
    | intro _
    | split
    | refine keeps_of_eq (by assumption) ?_
    | refine keeps_of_eq3 (by assumption) ?_
    | dsimp only

theorem keeps_hostCmd {z0 : State} (c : HostCmd) (code : Half) (bodyOk : List Byte → Bool) (run : State → HostJob → State)
    (s : State) (hrun : ∀ x0 x1, Keeps x0 (run x0 x1)) (hk : Keeps z0 s) : KeepsO z0 (hostCmd c code bodyOk run s) := by
  delta hostCmd
  repeat' first
    | with_reducible
        first
          | refine keepsO_next ?_ | assumption | exact Keeps.refl _ | apply keeps_ite | apply keepsO_ite
          | apply keeps_ite2 | apply keeps_ite3 | apply keeps_whenLive | apply keeps_finishReply | apply keeps_answer
          | apply keeps_hostFrame | apply keeps_hostJudge | refine Keeps.trans ?_ (hrun _ _)
    | intro _
    | split
    | dsimp only

theorem keeps_hostNow {z0 : State} (f : State → List Byte → Half × List Byte × State) (s : State) (j : HostJob) (hf : ∀ x0
    x1, Keeps x0 (f x0 x1).2.2) (hk : Keeps z0 s) : Keeps z0 (hostNow f s j) := by
  delta hostNow
  repeat' first
    | with_reducible
        first
          | assumption | exact Keeps.refl _ | apply keeps_finishReply | apply keeps_markBegun
          | refine Keeps.trans ?_ (hf _ _)
    | intro _
    | split
    | refine keeps_of_eq (by assumption) ?_
    | refine keeps_of_eq3 (by assumption) ?_
    | dsimp only

theorem keeps_hostLane {z0 : State} (s : State) (_j : HostJob) (hk : Keeps z0 s) : Keeps z0 (hostLane s _j) := by
  delta hostLane
  repeat' first
    | with_reducible
        first
          | assumption | exact Keeps.refl _ | apply keeps_hostAdvance
    | intro _
    | split
    | dsimp only

theorem keeps_sendEvents {z0 : State} (s : State) (hk : Keeps z0 s) : Keeps z0 (sendEvents s) := by
  delta sendEvents
  repeat' first
    | with_reducible
        first
          | assumption | exact Keeps.refl _ | apply keeps_foldl | apply keeps_foldl2 | apply keeps_State_emit
    | intro _
    | split
    | dsimp only

theorem keeps_ctSetBusy {z0 : State} (s : State) (hk : Keeps z0 s) : Keeps z0 (ctSetBusy s).2 := by
  delta ctSetBusy
  repeat' first
    | with_reducible
        first
          | assumption | exact Keeps.refl _ | apply keeps_ite | apply keeps_ite2 | apply keeps_State_drawNat
    | intro _
    | split
    | refine keeps_of_eq (by assumption) ?_
    | refine keeps_of_eq3 (by assumption) ?_
    | dsimp only

theorem keeps_setTimeRun {z0 : State} (s : State) (b : List Byte) (hk : Keeps z0 s) : Keeps z0 (setTimeRun s b).2.2 := by
  delta setTimeRun
  repeat' first
    | with_reducible
        first
          | assumption | exact Keeps.refl _ | apply keeps_ite | apply keeps_ite3 | apply keeps_State_wr64
          | apply keeps_refuse | apply keeps_cancelSwitch | apply keeps_ctCtrlEffect | apply keeps_ctSetBusy
    | intro _
    | split
    | refine keeps_of_eq (by assumption) ?_
    | refine keeps_of_eq3 (by assumption) ?_
    | dsimp only

theorem keeps_noBody {z0 : State} (x : Half × State) (hk : Keeps z0 x.2) : Keeps z0 (noBody x).2.2 := hk

theorem keeps_fwStageHost {z0 : State} (s : State) (b : List Byte) (hk : Keeps z0 s) : Keeps z0 (fwStageHost s b).2.2 :=
    by
  delta fwStageHost
  repeat' first
    | with_reducible
        first
          | assumption | exact Keeps.refl _ | apply keeps_ite | apply keeps_ite3 | apply keeps_fwStageRun
          | apply keeps_noBody
    | intro _
    | split
    | dsimp only

theorem keeps_packageRun {z0 : State} (run : State → List Byte → ReplyTo → State) (s : State) (j : HostJob) (hrun : ∀ x0
    x1 x2, Keeps x0 (run x0 x1 x2)) (hk : Keeps z0 s) : Keeps z0 (packageRun run s j) := by
  delta packageRun
  repeat' first
    | with_reducible
        first
          | assumption | exact Keeps.refl _ | apply keeps_ite | apply keeps_ite2 | apply keeps_ite3
          | apply keeps_finishReply | apply keeps_provision | apply keeps_markBegun
          | refine Keeps.trans ?_ (hrun _ _ _)
    | intro _
    | split
    | dsimp only

theorem keeps_plantStatusRun {z0 : State} (s : State) (hk : Keeps z0 s) : Keeps z0 (plantStatusRun s).2.2 := by
  delta plantStatusRun
  repeat' first
    | with_reducible
        first
          | assumption | exact Keeps.refl _ | apply keeps_regReads
    | intro _
    | split
    | refine keeps_of_eq (by assumption) ?_
    | refine keeps_of_eq3 (by assumption) ?_
    | dsimp only

theorem keeps_eventLost {z0 : State} (s : State) (hk : Keeps z0 s) : Keeps z0 (eventLost s) := by
  delta eventLost
  repeat' first
    | with_reducible
        first
          | assumption | exact Keeps.refl _ | apply keeps_ite | apply keeps_ite2 | apply keeps_ite3
          | apply keeps_modHost | apply keeps_postEvent | apply keeps_raise
    | intro _
    | split
    | dsimp only

end Sys2Proof.Machine
end

