-- ==== Sys2Proof/Laws/Keeps/TxnRows.lean ====
section
/-! SUPPORT. What the functions of `Machine/TxnRows.lean` keep: the queue of commands, and the canonical form of memory and registers. -/

set_option linter.unusedTactic false
set_option linter.unreachableTactic false

namespace Sys2Proof.Machine

theorem keeps_takeLaneNote {z0 : State} (s : State) (lane : Nat) (b : List Byte) (hk : Keeps z0 s) : Keeps z0
    (takeLaneNote s lane b) := by
  delta takeLaneNote
  repeat' first
    | with_reducible
        first
          | assumption | exact Keeps.refl _ | apply keeps_ite | apply keeps_ite2 | apply keeps_ite3
          | apply keeps_State_modLane | apply keeps_setLane
    | intro _
    | split
    | dsimp only

theorem keeps_managerTxn {z0 : State} (s : State) (f : Frame) (hk : Keeps z0 s) : Keeps z0 (managerTxn s f).2.2 := by
  delta managerTxn
  repeat' first
    | with_reducible
        first
          | assumption | exact Keeps.refl _ | apply keeps_ite | apply keeps_ite3 | apply keeps_modRing
          | apply keeps_postEvent | apply keeps_storeRecord | apply keeps_takeLaneNote
    | intro _
    | split
    | dsimp only

theorem keeps_admissionCheck {z0 : State} (s : State) (f : Frame) (hk : Keeps z0 s) : Keeps z0 (admissionCheck s f).2.2 :=
    by
  delta admissionCheck
  repeat' first
    | with_reducible
        first
          | assumption | exact Keeps.refl _ | apply keeps_ite | apply keeps_ite3 | apply keeps_modHost
          | apply keeps_State_wrf | apply keeps_applyRecord
    | intro _
    | split
    | dsimp only

theorem keeps_admitRequest {z0 : State} (s : State) (hk : Keeps z0 s) : Keeps z0 (admitRequest s).2.2 := by
  delta admitRequest
  repeat' first
    | with_reducible
        first
          | assumption | exact Keeps.refl _ | apply keeps_ite | apply keeps_ite3 | apply keeps_admitOwn
    | intro _
    | split
    | dsimp only

theorem keeps_stageRequest {z0 : State} (s : State) (b : List Byte) (hk : Keeps z0 s) : Keeps z0 (stageRequest s b).2.2 :=
    by
  delta stageRequest
  repeat' first
    | with_reducible
        first
          | assumption | exact Keeps.refl _ | apply keeps_ite | apply keeps_ite3 | apply keeps_modHost
    | intro _
    | split
    | dsimp only

theorem keeps_workerTxn {z0 : State} (s : State) (f : Frame) (hk : Keeps z0 s) : Keeps z0 (workerTxn s f).2.2 := by
  delta workerTxn
  repeat' first
    | with_reducible
        first
          | assumption | exact Keeps.refl _ | apply keeps_ite | apply keeps_ite3 | apply keeps_State_wrb
          | apply keeps_dropTenantSlots | apply keeps_writeCopy | apply keeps_writeSticky | apply keeps_admissionCheck
          | apply keeps_admitRequest | apply keeps_stageRequest
    | intro _
    | split
    | dsimp only

theorem keeps_carriedTxn {z0 : State} (s : State) (f : Frame) (hk : Keeps z0 s) : Keeps z0 (carriedTxn s f) := by
  delta carriedTxn
  repeat' first
    | with_reducible
        first
          | assumption | exact Keeps.refl _ | apply keeps_ite | apply keeps_ite2 | apply keeps_ite3
          | apply keeps_finishReply | apply keeps_resetSoon | apply keeps_laneRun
    | intro _
    | split
    | refine keeps_of_eq (by assumption) ?_
    | refine keeps_of_eq3 (by assumption) ?_
    | dsimp only

theorem keeps_txnRun {z0 : State} (s : State) (f : Frame) (hk : Keeps z0 s) : Keeps z0 (txnRun s f) := by
  delta txnRun
  repeat' first
    | with_reducible
        first
          | assumption | exact Keeps.refl _ | apply keeps_ite | apply keeps_ite2 | apply keeps_ite3
          | apply keeps_finishReply | apply keeps_tenantKeysRun | apply keeps_appletLoadRun | apply keeps_managerTxn
          | apply keeps_workerTxn | apply keeps_carriedTxn
    | intro _
    | split
    | dsimp only

theorem keeps_admitAnswered {z0 : State} (s : State) (lane : Nat) (st : Half) (hk : Keeps z0 s) : Keeps z0 (admitAnswered
    s lane st) := by
  delta admitAnswered
  repeat' first
    | with_reducible
        first
          | assumption | exact Keeps.refl _ | apply keeps_ite | apply keeps_ite2 | apply keeps_ite3
          | apply keeps_State_modLane | apply keeps_setLane | apply keeps_endAdmit | apply keeps_orderShutter
    | intro _
    | split
    | dsimp only

theorem keeps_txnDone {z0 : State} (s : State) (t : TxnPend) (b : List Byte) (hk : Keeps z0 s) : Keeps z0 (txnDone s t b)
    := by
  delta txnDone
  repeat' first
    | with_reducible
        first
          | assumption | exact Keeps.refl _ | apply keeps_carryAnswer | apply keeps_checkAnswer
          | apply keeps_reportAnswered | apply keeps_fwAnswer | apply keeps_takeoverDeclined
          | apply keeps_admitAnswered
    | intro _
    | split
    | refine keeps_of_eq (by assumption) ?_
    | refine keeps_of_eq3 (by assumption) ?_
    | dsimp only

theorem keeps_txnFailed {z0 : State} (s : State) (t : TxnPend) (hk : Keeps z0 s) : Keeps z0 (txnFailed s t) := by
  delta txnFailed
  repeat' first
    | with_reducible
        first
          | assumption | exact Keeps.refl _ | apply keeps_ite | apply keeps_ite2 | apply keeps_ite3
          | apply keeps_modRing | apply keeps_raise | apply keeps_carryFailed | apply keeps_endAdmit
          | apply keeps_reportAnswered | apply keeps_fwGaveUp
    | intro _
    | split
    | refine keeps_of_eq (by assumption) ?_
    | refine keeps_of_eq3 (by assumption) ?_
    | dsimp only

end Sys2Proof.Machine
end

