-- ==== Sys2Proof/Laws/Keeps/Idle.lean ====
section
/-! SUPPORT. What the functions of `Machine/Idle.lean` keep: the queue of commands, and the canonical form of memory and registers. -/

set_option linter.unusedTactic false
set_option linter.unreachableTactic false

namespace Sys2Proof.Machine

theorem keeps_armRelease {z0 : State} (s : State) (hk : Keeps z0 s) : Keeps z0 (armRelease s) := by
  delta armRelease
  repeat' first
    | with_reducible
        first
          | assumption | exact Keeps.refl _ | apply keeps_ite | apply keeps_ite2 | apply keeps_ite3
          | apply keeps_ejDisarm
    | intro _
    | split
    | dsimp only

theorem keeps_sendNotes {z0 : State} (s : State) (hk : Keeps z0 s) : Keeps z0 (sendNotes s) := by
  delta sendNotes
  repeat' first
    | with_reducible
        first
          | assumption | exact Keeps.refl _ | apply keeps_foldl | apply keeps_foldl2 | apply keeps_ite
          | apply keeps_ite2 | apply keeps_ite3 | apply keeps_modRing | apply keeps_startTxn
    | intro _
    | split
    | dsimp only

theorem keeps_firmwareTick {z0 : State} (s : State) (hk : Keeps z0 s) : Keeps z0 (firmwareTick s) := by
  delta firmwareTick
  repeat' first
    | with_reducible
        first
          | assumption | exact Keeps.refl _ | apply keeps_ite | apply keeps_ite2 | apply keeps_ite3
          | apply keeps_readFlag | apply keeps_loadAbandoned | apply keeps_admitAdvance | apply keeps_injectDrain
          | apply keeps_hostAdvance | apply keeps_eventLost | apply keeps_armRelease | apply keeps_sendNotes
    | intro _
    | split
    | dsimp only

theorem keeps_dueReset {z0 : State} (s : State) (hk : Keeps z0 s) : Keeps z0 (dueReset s) := by
  delta dueReset
  repeat' first
    | with_reducible
        first
          | assumption | exact Keeps.refl _ | apply keeps_ite | apply keeps_ite2 | apply keeps_ite3
          | apply keeps_deviceReset
    | intro _
    | split
    | dsimp only

theorem keeps_tick {z0 : State} (s : State) (hk : Keeps z0 s) : Keeps z0 (tick s) := by
  delta tick
  repeat' first
    | with_reducible
        first
          | assumption | exact Keeps.refl _ | apply keeps_foldl | apply keeps_foldl2 | apply keeps_ite
          | apply keeps_ite2 | apply keeps_ite3 | apply keeps_modSvc | apply keeps_ccRestart | apply keeps_timerTick
          | apply keeps_ctTick | apply keeps_firmwareTick | apply keeps_dueReset
    | intro _
    | split
    | dsimp only

theorem keeps_idle {z0 : State} (s : State) (hk : Keeps z0 s) : Keeps z0 (idle s) := by
  delta idle
  repeat' first
    | with_reducible
        first
          | assumption | exact Keeps.refl _ | apply keeps_whenLive | apply keeps_tick
    | intro _
    | split
    | dsimp only

end Sys2Proof.Machine
end

