-- ==== Sys2Proof/Laws/State.lean ====
section
/-! SUPPORT. What each update function of the state changes and leaves. -/

namespace Sys2Proof.Machine

@[simp] theorem State.modRegs_regs (s : State) (f : List (Nat × Word) → List (Nat × Word)) : (s.modRegs f).regs = f s.regs := rfl
@[simp] theorem State.modRegs_mem (s : State) (f : List (Nat × Word) → List (Nat × Word)) : (s.modRegs f).mem = s.mem := rfl
@[simp] theorem State.modRegs_ct (s : State) (f : List (Nat × Word) → List (Nat × Word)) : (s.modRegs f).ct = s.ct := rfl
@[simp] theorem State.modRegs_ctArmed (s : State) (f : List (Nat × Word) → List (Nat × Word)) : (s.modRegs f).ctArmed = s.ctArmed := rfl
@[simp] theorem State.modRegs_free (s : State) (f : List (Nat × Word) → List (Nat × Word)) : (s.modRegs f).free = s.free := rfl
@[simp] theorem State.modRegs_out (s : State) (f : List (Nat × Word) → List (Nat × Word)) : (s.modRegs f).out = s.out := rfl
@[simp] theorem State.modRegs_pending (s : State) (f : List (Nat × Word) → List (Nat × Word)) : (s.modRegs f).pending = s.pending := rfl
@[simp] theorem State.modRegs_power (s : State) (f : List (Nat × Word) → List (Nat × Word)) : (s.modRegs f).power = s.power := rfl
@[simp] theorem State.modRegs_rst (s : State) (f : List (Nat × Word) → List (Nat × Word)) : (s.modRegs f).rst = s.rst := rfl
@[simp] theorem State.modRegs_core (s : State) (f : List (Nat × Word) → List (Nat × Word)) : (s.modRegs f).core = s.core := rfl
@[simp] theorem State.modRegs_ms (s : State) (f : List (Nat × Word) → List (Nat × Word)) : (s.modRegs f).ms = s.ms := rfl
@[simp] theorem State.modRegs_mram (s : State) (f : List (Nat × Word) → List (Nat × Word)) : (s.modRegs f).mram = s.mram := rfl
@[simp] theorem State.modRegs_queues (s : State) (f : List (Nat × Word) → List (Nat × Word)) : (s.modRegs f).queues = s.queues := rfl
@[simp] theorem State.modRegs_gate (s : State) (f : List (Nat × Word) → List (Nat × Word)) : (s.modRegs f).gate = s.gate := rfl
@[simp] theorem State.modRegs_err (s : State) (f : List (Nat × Word) → List (Nat × Word)) : (s.modRegs f).err = s.err := rfl
@[simp] theorem State.modRegs_lanes (s : State) (f : List (Nat × Word) → List (Nat × Word)) : (s.modRegs f).lanes = s.lanes := rfl
@[simp] theorem State.modRegs_host (s : State) (f : List (Nat × Word) → List (Nat × Word)) : (s.modRegs f).host = s.host := rfl
@[simp] theorem State.modRegs_pav (s : State) (f : List (Nat × Word) → List (Nat × Word)) : (s.modRegs f).pav = s.pav := rfl
@[simp] theorem State.modRegs_fe (s : State) (f : List (Nat × Word) → List (Nat × Word)) : (s.modRegs f).fe = s.fe := rfl
@[simp] theorem State.modRegs_sht (s : State) (f : List (Nat × Word) → List (Nat × Word)) : (s.modRegs f).sht = s.sht := rfl
@[simp] theorem State.modRegs_nuc (s : State) (f : List (Nat × Word) → List (Nat × Word)) : (s.modRegs f).nuc = s.nuc := rfl
@[simp] theorem State.modRegs_tdi (s : State) (f : List (Nat × Word) → List (Nat × Word)) : (s.modRegs f).tdi = s.tdi := rfl
@[simp] theorem State.modRegs_cal (s : State) (f : List (Nat × Word) → List (Nat × Word)) : (s.modRegs f).cal = s.cal := rfl
@[simp] theorem State.modRegs_fab (s : State) (f : List (Nat × Word) → List (Nat × Word)) : (s.modRegs f).fab = s.fab := rfl
@[simp] theorem State.modRegs_vis (s : State) (f : List (Nat × Word) → List (Nat × Word)) : (s.modRegs f).vis = s.vis := rfl
@[simp] theorem State.modRegs_key (s : State) (f : List (Nat × Word) → List (Nat × Word)) : (s.modRegs f).key = s.key := rfl
@[simp] theorem State.modRegs_eng (s : State) (f : List (Nat × Word) → List (Nat × Word)) : (s.modRegs f).eng = s.eng := rfl
@[simp] theorem State.modRegs_ej (s : State) (f : List (Nat × Word) → List (Nat × Word)) : (s.modRegs f).ej = s.ej := rfl
@[simp] theorem State.modRegs_ring (s : State) (f : List (Nat × Word) → List (Nat × Word)) : (s.modRegs f).ring = s.ring := rfl
@[simp] theorem State.modRegs_met (s : State) (f : List (Nat × Word) → List (Nat × Word)) : (s.modRegs f).met = s.met := rfl
@[simp] theorem State.modRegs_fw (s : State) (f : List (Nat × Word) → List (Nat × Word)) : (s.modRegs f).fw = s.fw := rfl
@[simp] theorem State.modRegs_svc (s : State) (f : List (Nat × Word) → List (Nat × Word)) : (s.modRegs f).svc = s.svc := rfl

@[simp] theorem State.modMem_regs (s : State) (f : Memory → Memory) : (s.modMem f).regs = s.regs := rfl
@[simp] theorem State.modMem_mem (s : State) (f : Memory → Memory) : (s.modMem f).mem = f s.mem := rfl
@[simp] theorem State.modMem_ct (s : State) (f : Memory → Memory) : (s.modMem f).ct = s.ct := rfl
@[simp] theorem State.modMem_ctArmed (s : State) (f : Memory → Memory) : (s.modMem f).ctArmed = s.ctArmed := rfl
@[simp] theorem State.modMem_free (s : State) (f : Memory → Memory) : (s.modMem f).free = s.free := rfl
@[simp] theorem State.modMem_out (s : State) (f : Memory → Memory) : (s.modMem f).out = s.out := rfl
@[simp] theorem State.modMem_pending (s : State) (f : Memory → Memory) : (s.modMem f).pending = s.pending := rfl
@[simp] theorem State.modMem_power (s : State) (f : Memory → Memory) : (s.modMem f).power = s.power := rfl
@[simp] theorem State.modMem_rst (s : State) (f : Memory → Memory) : (s.modMem f).rst = s.rst := rfl
@[simp] theorem State.modMem_core (s : State) (f : Memory → Memory) : (s.modMem f).core = s.core := rfl
@[simp] theorem State.modMem_ms (s : State) (f : Memory → Memory) : (s.modMem f).ms = s.ms := rfl
@[simp] theorem State.modMem_mram (s : State) (f : Memory → Memory) : (s.modMem f).mram = s.mram := rfl
@[simp] theorem State.modMem_queues (s : State) (f : Memory → Memory) : (s.modMem f).queues = s.queues := rfl
@[simp] theorem State.modMem_gate (s : State) (f : Memory → Memory) : (s.modMem f).gate = s.gate := rfl
@[simp] theorem State.modMem_err (s : State) (f : Memory → Memory) : (s.modMem f).err = s.err := rfl
@[simp] theorem State.modMem_lanes (s : State) (f : Memory → Memory) : (s.modMem f).lanes = s.lanes := rfl
@[simp] theorem State.modMem_host (s : State) (f : Memory → Memory) : (s.modMem f).host = s.host := rfl
@[simp] theorem State.modMem_pav (s : State) (f : Memory → Memory) : (s.modMem f).pav = s.pav := rfl
@[simp] theorem State.modMem_fe (s : State) (f : Memory → Memory) : (s.modMem f).fe = s.fe := rfl
@[simp] theorem State.modMem_sht (s : State) (f : Memory → Memory) : (s.modMem f).sht = s.sht := rfl
@[simp] theorem State.modMem_nuc (s : State) (f : Memory → Memory) : (s.modMem f).nuc = s.nuc := rfl
@[simp] theorem State.modMem_tdi (s : State) (f : Memory → Memory) : (s.modMem f).tdi = s.tdi := rfl
@[simp] theorem State.modMem_cal (s : State) (f : Memory → Memory) : (s.modMem f).cal = s.cal := rfl
@[simp] theorem State.modMem_fab (s : State) (f : Memory → Memory) : (s.modMem f).fab = s.fab := rfl
@[simp] theorem State.modMem_vis (s : State) (f : Memory → Memory) : (s.modMem f).vis = s.vis := rfl
@[simp] theorem State.modMem_key (s : State) (f : Memory → Memory) : (s.modMem f).key = s.key := rfl
@[simp] theorem State.modMem_eng (s : State) (f : Memory → Memory) : (s.modMem f).eng = s.eng := rfl
@[simp] theorem State.modMem_ej (s : State) (f : Memory → Memory) : (s.modMem f).ej = s.ej := rfl
@[simp] theorem State.modMem_ring (s : State) (f : Memory → Memory) : (s.modMem f).ring = s.ring := rfl
@[simp] theorem State.modMem_met (s : State) (f : Memory → Memory) : (s.modMem f).met = s.met := rfl
@[simp] theorem State.modMem_fw (s : State) (f : Memory → Memory) : (s.modMem f).fw = s.fw := rfl
@[simp] theorem State.modMem_svc (s : State) (f : Memory → Memory) : (s.modMem f).svc = s.svc := rfl

@[simp] theorem State.modCt_regs (s : State) (f : CTime → CTime) : (s.modCt f).regs = s.regs := rfl
@[simp] theorem State.modCt_mem (s : State) (f : CTime → CTime) : (s.modCt f).mem = s.mem := rfl
@[simp] theorem State.modCt_ct (s : State) (f : CTime → CTime) : (s.modCt f).ct = f s.ct := rfl
@[simp] theorem State.modCt_ctArmed (s : State) (f : CTime → CTime) : (s.modCt f).ctArmed = s.ctArmed := rfl
@[simp] theorem State.modCt_free (s : State) (f : CTime → CTime) : (s.modCt f).free = s.free := rfl
@[simp] theorem State.modCt_out (s : State) (f : CTime → CTime) : (s.modCt f).out = s.out := rfl
@[simp] theorem State.modCt_pending (s : State) (f : CTime → CTime) : (s.modCt f).pending = s.pending := rfl
@[simp] theorem State.modCt_power (s : State) (f : CTime → CTime) : (s.modCt f).power = s.power := rfl
@[simp] theorem State.modCt_rst (s : State) (f : CTime → CTime) : (s.modCt f).rst = s.rst := rfl
@[simp] theorem State.modCt_core (s : State) (f : CTime → CTime) : (s.modCt f).core = s.core := rfl
@[simp] theorem State.modCt_ms (s : State) (f : CTime → CTime) : (s.modCt f).ms = s.ms := rfl
@[simp] theorem State.modCt_mram (s : State) (f : CTime → CTime) : (s.modCt f).mram = s.mram := rfl
@[simp] theorem State.modCt_queues (s : State) (f : CTime → CTime) : (s.modCt f).queues = s.queues := rfl
@[simp] theorem State.modCt_gate (s : State) (f : CTime → CTime) : (s.modCt f).gate = s.gate := rfl
@[simp] theorem State.modCt_err (s : State) (f : CTime → CTime) : (s.modCt f).err = s.err := rfl
@[simp] theorem State.modCt_lanes (s : State) (f : CTime → CTime) : (s.modCt f).lanes = s.lanes := rfl
@[simp] theorem State.modCt_host (s : State) (f : CTime → CTime) : (s.modCt f).host = s.host := rfl
@[simp] theorem State.modCt_pav (s : State) (f : CTime → CTime) : (s.modCt f).pav = s.pav := rfl
@[simp] theorem State.modCt_fe (s : State) (f : CTime → CTime) : (s.modCt f).fe = s.fe := rfl
@[simp] theorem State.modCt_sht (s : State) (f : CTime → CTime) : (s.modCt f).sht = s.sht := rfl
@[simp] theorem State.modCt_nuc (s : State) (f : CTime → CTime) : (s.modCt f).nuc = s.nuc := rfl
@[simp] theorem State.modCt_tdi (s : State) (f : CTime → CTime) : (s.modCt f).tdi = s.tdi := rfl
@[simp] theorem State.modCt_cal (s : State) (f : CTime → CTime) : (s.modCt f).cal = s.cal := rfl
@[simp] theorem State.modCt_fab (s : State) (f : CTime → CTime) : (s.modCt f).fab = s.fab := rfl
@[simp] theorem State.modCt_vis (s : State) (f : CTime → CTime) : (s.modCt f).vis = s.vis := rfl
@[simp] theorem State.modCt_key (s : State) (f : CTime → CTime) : (s.modCt f).key = s.key := rfl
@[simp] theorem State.modCt_eng (s : State) (f : CTime → CTime) : (s.modCt f).eng = s.eng := rfl
@[simp] theorem State.modCt_ej (s : State) (f : CTime → CTime) : (s.modCt f).ej = s.ej := rfl
@[simp] theorem State.modCt_ring (s : State) (f : CTime → CTime) : (s.modCt f).ring = s.ring := rfl
@[simp] theorem State.modCt_met (s : State) (f : CTime → CTime) : (s.modCt f).met = s.met := rfl
@[simp] theorem State.modCt_fw (s : State) (f : CTime → CTime) : (s.modCt f).fw = s.fw := rfl
@[simp] theorem State.modCt_svc (s : State) (f : CTime → CTime) : (s.modCt f).svc = s.svc := rfl

@[simp] theorem State.modCtArmed_regs (s : State) (f : Bool → Bool) : (s.modCtArmed f).regs = s.regs := rfl
@[simp] theorem State.modCtArmed_mem (s : State) (f : Bool → Bool) : (s.modCtArmed f).mem = s.mem := rfl
@[simp] theorem State.modCtArmed_ct (s : State) (f : Bool → Bool) : (s.modCtArmed f).ct = s.ct := rfl
@[simp] theorem State.modCtArmed_ctArmed (s : State) (f : Bool → Bool) : (s.modCtArmed f).ctArmed = f s.ctArmed := rfl
@[simp] theorem State.modCtArmed_free (s : State) (f : Bool → Bool) : (s.modCtArmed f).free = s.free := rfl
@[simp] theorem State.modCtArmed_out (s : State) (f : Bool → Bool) : (s.modCtArmed f).out = s.out := rfl
@[simp] theorem State.modCtArmed_pending (s : State) (f : Bool → Bool) : (s.modCtArmed f).pending = s.pending := rfl
@[simp] theorem State.modCtArmed_power (s : State) (f : Bool → Bool) : (s.modCtArmed f).power = s.power := rfl
@[simp] theorem State.modCtArmed_rst (s : State) (f : Bool → Bool) : (s.modCtArmed f).rst = s.rst := rfl
@[simp] theorem State.modCtArmed_core (s : State) (f : Bool → Bool) : (s.modCtArmed f).core = s.core := rfl
@[simp] theorem State.modCtArmed_ms (s : State) (f : Bool → Bool) : (s.modCtArmed f).ms = s.ms := rfl
@[simp] theorem State.modCtArmed_mram (s : State) (f : Bool → Bool) : (s.modCtArmed f).mram = s.mram := rfl
@[simp] theorem State.modCtArmed_queues (s : State) (f : Bool → Bool) : (s.modCtArmed f).queues = s.queues := rfl
@[simp] theorem State.modCtArmed_gate (s : State) (f : Bool → Bool) : (s.modCtArmed f).gate = s.gate := rfl
@[simp] theorem State.modCtArmed_err (s : State) (f : Bool → Bool) : (s.modCtArmed f).err = s.err := rfl
@[simp] theorem State.modCtArmed_lanes (s : State) (f : Bool → Bool) : (s.modCtArmed f).lanes = s.lanes := rfl
@[simp] theorem State.modCtArmed_host (s : State) (f : Bool → Bool) : (s.modCtArmed f).host = s.host := rfl
@[simp] theorem State.modCtArmed_pav (s : State) (f : Bool → Bool) : (s.modCtArmed f).pav = s.pav := rfl
@[simp] theorem State.modCtArmed_fe (s : State) (f : Bool → Bool) : (s.modCtArmed f).fe = s.fe := rfl
@[simp] theorem State.modCtArmed_sht (s : State) (f : Bool → Bool) : (s.modCtArmed f).sht = s.sht := rfl
@[simp] theorem State.modCtArmed_nuc (s : State) (f : Bool → Bool) : (s.modCtArmed f).nuc = s.nuc := rfl
@[simp] theorem State.modCtArmed_tdi (s : State) (f : Bool → Bool) : (s.modCtArmed f).tdi = s.tdi := rfl
@[simp] theorem State.modCtArmed_cal (s : State) (f : Bool → Bool) : (s.modCtArmed f).cal = s.cal := rfl
@[simp] theorem State.modCtArmed_fab (s : State) (f : Bool → Bool) : (s.modCtArmed f).fab = s.fab := rfl
@[simp] theorem State.modCtArmed_vis (s : State) (f : Bool → Bool) : (s.modCtArmed f).vis = s.vis := rfl
@[simp] theorem State.modCtArmed_key (s : State) (f : Bool → Bool) : (s.modCtArmed f).key = s.key := rfl
@[simp] theorem State.modCtArmed_eng (s : State) (f : Bool → Bool) : (s.modCtArmed f).eng = s.eng := rfl
@[simp] theorem State.modCtArmed_ej (s : State) (f : Bool → Bool) : (s.modCtArmed f).ej = s.ej := rfl
@[simp] theorem State.modCtArmed_ring (s : State) (f : Bool → Bool) : (s.modCtArmed f).ring = s.ring := rfl
@[simp] theorem State.modCtArmed_met (s : State) (f : Bool → Bool) : (s.modCtArmed f).met = s.met := rfl
@[simp] theorem State.modCtArmed_fw (s : State) (f : Bool → Bool) : (s.modCtArmed f).fw = s.fw := rfl
@[simp] theorem State.modCtArmed_svc (s : State) (f : Bool → Bool) : (s.modCtArmed f).svc = s.svc := rfl

@[simp] theorem State.modFree_regs (s : State) (f : Nat → Nat) : (s.modFree f).regs = s.regs := rfl
@[simp] theorem State.modFree_mem (s : State) (f : Nat → Nat) : (s.modFree f).mem = s.mem := rfl
@[simp] theorem State.modFree_ct (s : State) (f : Nat → Nat) : (s.modFree f).ct = s.ct := rfl
@[simp] theorem State.modFree_ctArmed (s : State) (f : Nat → Nat) : (s.modFree f).ctArmed = s.ctArmed := rfl
@[simp] theorem State.modFree_free (s : State) (f : Nat → Nat) : (s.modFree f).free = f s.free := rfl
@[simp] theorem State.modFree_out (s : State) (f : Nat → Nat) : (s.modFree f).out = s.out := rfl
@[simp] theorem State.modFree_pending (s : State) (f : Nat → Nat) : (s.modFree f).pending = s.pending := rfl
@[simp] theorem State.modFree_power (s : State) (f : Nat → Nat) : (s.modFree f).power = s.power := rfl
@[simp] theorem State.modFree_rst (s : State) (f : Nat → Nat) : (s.modFree f).rst = s.rst := rfl
@[simp] theorem State.modFree_core (s : State) (f : Nat → Nat) : (s.modFree f).core = s.core := rfl
@[simp] theorem State.modFree_ms (s : State) (f : Nat → Nat) : (s.modFree f).ms = s.ms := rfl
@[simp] theorem State.modFree_mram (s : State) (f : Nat → Nat) : (s.modFree f).mram = s.mram := rfl
@[simp] theorem State.modFree_queues (s : State) (f : Nat → Nat) : (s.modFree f).queues = s.queues := rfl
@[simp] theorem State.modFree_gate (s : State) (f : Nat → Nat) : (s.modFree f).gate = s.gate := rfl
@[simp] theorem State.modFree_err (s : State) (f : Nat → Nat) : (s.modFree f).err = s.err := rfl
@[simp] theorem State.modFree_lanes (s : State) (f : Nat → Nat) : (s.modFree f).lanes = s.lanes := rfl
@[simp] theorem State.modFree_host (s : State) (f : Nat → Nat) : (s.modFree f).host = s.host := rfl
@[simp] theorem State.modFree_pav (s : State) (f : Nat → Nat) : (s.modFree f).pav = s.pav := rfl
@[simp] theorem State.modFree_fe (s : State) (f : Nat → Nat) : (s.modFree f).fe = s.fe := rfl
@[simp] theorem State.modFree_sht (s : State) (f : Nat → Nat) : (s.modFree f).sht = s.sht := rfl
@[simp] theorem State.modFree_nuc (s : State) (f : Nat → Nat) : (s.modFree f).nuc = s.nuc := rfl
@[simp] theorem State.modFree_tdi (s : State) (f : Nat → Nat) : (s.modFree f).tdi = s.tdi := rfl
@[simp] theorem State.modFree_cal (s : State) (f : Nat → Nat) : (s.modFree f).cal = s.cal := rfl
@[simp] theorem State.modFree_fab (s : State) (f : Nat → Nat) : (s.modFree f).fab = s.fab := rfl
@[simp] theorem State.modFree_vis (s : State) (f : Nat → Nat) : (s.modFree f).vis = s.vis := rfl
@[simp] theorem State.modFree_key (s : State) (f : Nat → Nat) : (s.modFree f).key = s.key := rfl
@[simp] theorem State.modFree_eng (s : State) (f : Nat → Nat) : (s.modFree f).eng = s.eng := rfl
@[simp] theorem State.modFree_ej (s : State) (f : Nat → Nat) : (s.modFree f).ej = s.ej := rfl
@[simp] theorem State.modFree_ring (s : State) (f : Nat → Nat) : (s.modFree f).ring = s.ring := rfl
@[simp] theorem State.modFree_met (s : State) (f : Nat → Nat) : (s.modFree f).met = s.met := rfl
@[simp] theorem State.modFree_fw (s : State) (f : Nat → Nat) : (s.modFree f).fw = s.fw := rfl
@[simp] theorem State.modFree_svc (s : State) (f : Nat → Nat) : (s.modFree f).svc = s.svc := rfl

@[simp] theorem State.modOut_regs (s : State) (f : List Output → List Output) : (s.modOut f).regs = s.regs := rfl
@[simp] theorem State.modOut_mem (s : State) (f : List Output → List Output) : (s.modOut f).mem = s.mem := rfl
@[simp] theorem State.modOut_ct (s : State) (f : List Output → List Output) : (s.modOut f).ct = s.ct := rfl
@[simp] theorem State.modOut_ctArmed (s : State) (f : List Output → List Output) : (s.modOut f).ctArmed = s.ctArmed := rfl
@[simp] theorem State.modOut_free (s : State) (f : List Output → List Output) : (s.modOut f).free = s.free := rfl
@[simp] theorem State.modOut_out (s : State) (f : List Output → List Output) : (s.modOut f).out = f s.out := rfl
@[simp] theorem State.modOut_pending (s : State) (f : List Output → List Output) : (s.modOut f).pending = s.pending := rfl
@[simp] theorem State.modOut_power (s : State) (f : List Output → List Output) : (s.modOut f).power = s.power := rfl
@[simp] theorem State.modOut_rst (s : State) (f : List Output → List Output) : (s.modOut f).rst = s.rst := rfl
@[simp] theorem State.modOut_core (s : State) (f : List Output → List Output) : (s.modOut f).core = s.core := rfl
@[simp] theorem State.modOut_ms (s : State) (f : List Output → List Output) : (s.modOut f).ms = s.ms := rfl
@[simp] theorem State.modOut_mram (s : State) (f : List Output → List Output) : (s.modOut f).mram = s.mram := rfl
@[simp] theorem State.modOut_queues (s : State) (f : List Output → List Output) : (s.modOut f).queues = s.queues := rfl
@[simp] theorem State.modOut_gate (s : State) (f : List Output → List Output) : (s.modOut f).gate = s.gate := rfl
@[simp] theorem State.modOut_err (s : State) (f : List Output → List Output) : (s.modOut f).err = s.err := rfl
@[simp] theorem State.modOut_lanes (s : State) (f : List Output → List Output) : (s.modOut f).lanes = s.lanes := rfl
@[simp] theorem State.modOut_host (s : State) (f : List Output → List Output) : (s.modOut f).host = s.host := rfl
@[simp] theorem State.modOut_pav (s : State) (f : List Output → List Output) : (s.modOut f).pav = s.pav := rfl
@[simp] theorem State.modOut_fe (s : State) (f : List Output → List Output) : (s.modOut f).fe = s.fe := rfl
@[simp] theorem State.modOut_sht (s : State) (f : List Output → List Output) : (s.modOut f).sht = s.sht := rfl
@[simp] theorem State.modOut_nuc (s : State) (f : List Output → List Output) : (s.modOut f).nuc = s.nuc := rfl
@[simp] theorem State.modOut_tdi (s : State) (f : List Output → List Output) : (s.modOut f).tdi = s.tdi := rfl
@[simp] theorem State.modOut_cal (s : State) (f : List Output → List Output) : (s.modOut f).cal = s.cal := rfl
@[simp] theorem State.modOut_fab (s : State) (f : List Output → List Output) : (s.modOut f).fab = s.fab := rfl
@[simp] theorem State.modOut_vis (s : State) (f : List Output → List Output) : (s.modOut f).vis = s.vis := rfl
@[simp] theorem State.modOut_key (s : State) (f : List Output → List Output) : (s.modOut f).key = s.key := rfl
@[simp] theorem State.modOut_eng (s : State) (f : List Output → List Output) : (s.modOut f).eng = s.eng := rfl
@[simp] theorem State.modOut_ej (s : State) (f : List Output → List Output) : (s.modOut f).ej = s.ej := rfl
@[simp] theorem State.modOut_ring (s : State) (f : List Output → List Output) : (s.modOut f).ring = s.ring := rfl
@[simp] theorem State.modOut_met (s : State) (f : List Output → List Output) : (s.modOut f).met = s.met := rfl
@[simp] theorem State.modOut_fw (s : State) (f : List Output → List Output) : (s.modOut f).fw = s.fw := rfl
@[simp] theorem State.modOut_svc (s : State) (f : List Output → List Output) : (s.modOut f).svc = s.svc := rfl

@[simp] theorem State.modPending_regs (s : State) (f : List Instr → List Instr) : (s.modPending f).regs = s.regs := rfl
@[simp] theorem State.modPending_mem (s : State) (f : List Instr → List Instr) : (s.modPending f).mem = s.mem := rfl
@[simp] theorem State.modPending_ct (s : State) (f : List Instr → List Instr) : (s.modPending f).ct = s.ct := rfl
@[simp] theorem State.modPending_ctArmed (s : State) (f : List Instr → List Instr) : (s.modPending f).ctArmed = s.ctArmed := rfl
@[simp] theorem State.modPending_free (s : State) (f : List Instr → List Instr) : (s.modPending f).free = s.free := rfl
@[simp] theorem State.modPending_out (s : State) (f : List Instr → List Instr) : (s.modPending f).out = s.out := rfl
@[simp] theorem State.modPending_pending (s : State) (f : List Instr → List Instr) : (s.modPending f).pending = f s.pending := rfl
@[simp] theorem State.modPending_power (s : State) (f : List Instr → List Instr) : (s.modPending f).power = s.power := rfl
@[simp] theorem State.modPending_rst (s : State) (f : List Instr → List Instr) : (s.modPending f).rst = s.rst := rfl
@[simp] theorem State.modPending_core (s : State) (f : List Instr → List Instr) : (s.modPending f).core = s.core := rfl
@[simp] theorem State.modPending_ms (s : State) (f : List Instr → List Instr) : (s.modPending f).ms = s.ms := rfl
@[simp] theorem State.modPending_mram (s : State) (f : List Instr → List Instr) : (s.modPending f).mram = s.mram := rfl
@[simp] theorem State.modPending_queues (s : State) (f : List Instr → List Instr) : (s.modPending f).queues = s.queues := rfl
@[simp] theorem State.modPending_gate (s : State) (f : List Instr → List Instr) : (s.modPending f).gate = s.gate := rfl
@[simp] theorem State.modPending_err (s : State) (f : List Instr → List Instr) : (s.modPending f).err = s.err := rfl
@[simp] theorem State.modPending_lanes (s : State) (f : List Instr → List Instr) : (s.modPending f).lanes = s.lanes := rfl
@[simp] theorem State.modPending_host (s : State) (f : List Instr → List Instr) : (s.modPending f).host = s.host := rfl
@[simp] theorem State.modPending_pav (s : State) (f : List Instr → List Instr) : (s.modPending f).pav = s.pav := rfl
@[simp] theorem State.modPending_fe (s : State) (f : List Instr → List Instr) : (s.modPending f).fe = s.fe := rfl
@[simp] theorem State.modPending_sht (s : State) (f : List Instr → List Instr) : (s.modPending f).sht = s.sht := rfl
@[simp] theorem State.modPending_nuc (s : State) (f : List Instr → List Instr) : (s.modPending f).nuc = s.nuc := rfl
@[simp] theorem State.modPending_tdi (s : State) (f : List Instr → List Instr) : (s.modPending f).tdi = s.tdi := rfl
@[simp] theorem State.modPending_cal (s : State) (f : List Instr → List Instr) : (s.modPending f).cal = s.cal := rfl
@[simp] theorem State.modPending_fab (s : State) (f : List Instr → List Instr) : (s.modPending f).fab = s.fab := rfl
@[simp] theorem State.modPending_vis (s : State) (f : List Instr → List Instr) : (s.modPending f).vis = s.vis := rfl
@[simp] theorem State.modPending_key (s : State) (f : List Instr → List Instr) : (s.modPending f).key = s.key := rfl
@[simp] theorem State.modPending_eng (s : State) (f : List Instr → List Instr) : (s.modPending f).eng = s.eng := rfl
@[simp] theorem State.modPending_ej (s : State) (f : List Instr → List Instr) : (s.modPending f).ej = s.ej := rfl
@[simp] theorem State.modPending_ring (s : State) (f : List Instr → List Instr) : (s.modPending f).ring = s.ring := rfl
@[simp] theorem State.modPending_met (s : State) (f : List Instr → List Instr) : (s.modPending f).met = s.met := rfl
@[simp] theorem State.modPending_fw (s : State) (f : List Instr → List Instr) : (s.modPending f).fw = s.fw := rfl
@[simp] theorem State.modPending_svc (s : State) (f : List Instr → List Instr) : (s.modPending f).svc = s.svc := rfl

@[simp] theorem State.modPower_regs (s : State) (f : PowerSt → PowerSt) : (s.modPower f).regs = s.regs := rfl
@[simp] theorem State.modPower_mem (s : State) (f : PowerSt → PowerSt) : (s.modPower f).mem = s.mem := rfl
@[simp] theorem State.modPower_ct (s : State) (f : PowerSt → PowerSt) : (s.modPower f).ct = s.ct := rfl
@[simp] theorem State.modPower_ctArmed (s : State) (f : PowerSt → PowerSt) : (s.modPower f).ctArmed = s.ctArmed := rfl
@[simp] theorem State.modPower_free (s : State) (f : PowerSt → PowerSt) : (s.modPower f).free = s.free := rfl
@[simp] theorem State.modPower_out (s : State) (f : PowerSt → PowerSt) : (s.modPower f).out = s.out := rfl
@[simp] theorem State.modPower_pending (s : State) (f : PowerSt → PowerSt) : (s.modPower f).pending = s.pending := rfl
@[simp] theorem State.modPower_power (s : State) (f : PowerSt → PowerSt) : (s.modPower f).power = f s.power := rfl
@[simp] theorem State.modPower_rst (s : State) (f : PowerSt → PowerSt) : (s.modPower f).rst = s.rst := rfl
@[simp] theorem State.modPower_core (s : State) (f : PowerSt → PowerSt) : (s.modPower f).core = s.core := rfl
@[simp] theorem State.modPower_ms (s : State) (f : PowerSt → PowerSt) : (s.modPower f).ms = s.ms := rfl
@[simp] theorem State.modPower_mram (s : State) (f : PowerSt → PowerSt) : (s.modPower f).mram = s.mram := rfl
@[simp] theorem State.modPower_queues (s : State) (f : PowerSt → PowerSt) : (s.modPower f).queues = s.queues := rfl
@[simp] theorem State.modPower_gate (s : State) (f : PowerSt → PowerSt) : (s.modPower f).gate = s.gate := rfl
@[simp] theorem State.modPower_err (s : State) (f : PowerSt → PowerSt) : (s.modPower f).err = s.err := rfl
@[simp] theorem State.modPower_lanes (s : State) (f : PowerSt → PowerSt) : (s.modPower f).lanes = s.lanes := rfl
@[simp] theorem State.modPower_host (s : State) (f : PowerSt → PowerSt) : (s.modPower f).host = s.host := rfl
@[simp] theorem State.modPower_pav (s : State) (f : PowerSt → PowerSt) : (s.modPower f).pav = s.pav := rfl
@[simp] theorem State.modPower_fe (s : State) (f : PowerSt → PowerSt) : (s.modPower f).fe = s.fe := rfl
@[simp] theorem State.modPower_sht (s : State) (f : PowerSt → PowerSt) : (s.modPower f).sht = s.sht := rfl
@[simp] theorem State.modPower_nuc (s : State) (f : PowerSt → PowerSt) : (s.modPower f).nuc = s.nuc := rfl
@[simp] theorem State.modPower_tdi (s : State) (f : PowerSt → PowerSt) : (s.modPower f).tdi = s.tdi := rfl
@[simp] theorem State.modPower_cal (s : State) (f : PowerSt → PowerSt) : (s.modPower f).cal = s.cal := rfl
@[simp] theorem State.modPower_fab (s : State) (f : PowerSt → PowerSt) : (s.modPower f).fab = s.fab := rfl
@[simp] theorem State.modPower_vis (s : State) (f : PowerSt → PowerSt) : (s.modPower f).vis = s.vis := rfl
@[simp] theorem State.modPower_key (s : State) (f : PowerSt → PowerSt) : (s.modPower f).key = s.key := rfl
@[simp] theorem State.modPower_eng (s : State) (f : PowerSt → PowerSt) : (s.modPower f).eng = s.eng := rfl
@[simp] theorem State.modPower_ej (s : State) (f : PowerSt → PowerSt) : (s.modPower f).ej = s.ej := rfl
@[simp] theorem State.modPower_ring (s : State) (f : PowerSt → PowerSt) : (s.modPower f).ring = s.ring := rfl
@[simp] theorem State.modPower_met (s : State) (f : PowerSt → PowerSt) : (s.modPower f).met = s.met := rfl
@[simp] theorem State.modPower_fw (s : State) (f : PowerSt → PowerSt) : (s.modPower f).fw = s.fw := rfl
@[simp] theorem State.modPower_svc (s : State) (f : PowerSt → PowerSt) : (s.modPower f).svc = s.svc := rfl

@[simp] theorem State.modRst_regs (s : State) (f : ResetSt → ResetSt) : (s.modRst f).regs = s.regs := rfl
@[simp] theorem State.modRst_mem (s : State) (f : ResetSt → ResetSt) : (s.modRst f).mem = s.mem := rfl
@[simp] theorem State.modRst_ct (s : State) (f : ResetSt → ResetSt) : (s.modRst f).ct = s.ct := rfl
@[simp] theorem State.modRst_ctArmed (s : State) (f : ResetSt → ResetSt) : (s.modRst f).ctArmed = s.ctArmed := rfl
@[simp] theorem State.modRst_free (s : State) (f : ResetSt → ResetSt) : (s.modRst f).free = s.free := rfl
@[simp] theorem State.modRst_out (s : State) (f : ResetSt → ResetSt) : (s.modRst f).out = s.out := rfl
@[simp] theorem State.modRst_pending (s : State) (f : ResetSt → ResetSt) : (s.modRst f).pending = s.pending := rfl
@[simp] theorem State.modRst_power (s : State) (f : ResetSt → ResetSt) : (s.modRst f).power = s.power := rfl
@[simp] theorem State.modRst_rst (s : State) (f : ResetSt → ResetSt) : (s.modRst f).rst = f s.rst := rfl
@[simp] theorem State.modRst_core (s : State) (f : ResetSt → ResetSt) : (s.modRst f).core = s.core := rfl
@[simp] theorem State.modRst_ms (s : State) (f : ResetSt → ResetSt) : (s.modRst f).ms = s.ms := rfl
@[simp] theorem State.modRst_mram (s : State) (f : ResetSt → ResetSt) : (s.modRst f).mram = s.mram := rfl
@[simp] theorem State.modRst_queues (s : State) (f : ResetSt → ResetSt) : (s.modRst f).queues = s.queues := rfl
@[simp] theorem State.modRst_gate (s : State) (f : ResetSt → ResetSt) : (s.modRst f).gate = s.gate := rfl
@[simp] theorem State.modRst_err (s : State) (f : ResetSt → ResetSt) : (s.modRst f).err = s.err := rfl
@[simp] theorem State.modRst_lanes (s : State) (f : ResetSt → ResetSt) : (s.modRst f).lanes = s.lanes := rfl
@[simp] theorem State.modRst_host (s : State) (f : ResetSt → ResetSt) : (s.modRst f).host = s.host := rfl
@[simp] theorem State.modRst_pav (s : State) (f : ResetSt → ResetSt) : (s.modRst f).pav = s.pav := rfl
@[simp] theorem State.modRst_fe (s : State) (f : ResetSt → ResetSt) : (s.modRst f).fe = s.fe := rfl
@[simp] theorem State.modRst_sht (s : State) (f : ResetSt → ResetSt) : (s.modRst f).sht = s.sht := rfl
@[simp] theorem State.modRst_nuc (s : State) (f : ResetSt → ResetSt) : (s.modRst f).nuc = s.nuc := rfl
@[simp] theorem State.modRst_tdi (s : State) (f : ResetSt → ResetSt) : (s.modRst f).tdi = s.tdi := rfl
@[simp] theorem State.modRst_cal (s : State) (f : ResetSt → ResetSt) : (s.modRst f).cal = s.cal := rfl
@[simp] theorem State.modRst_fab (s : State) (f : ResetSt → ResetSt) : (s.modRst f).fab = s.fab := rfl
@[simp] theorem State.modRst_vis (s : State) (f : ResetSt → ResetSt) : (s.modRst f).vis = s.vis := rfl
@[simp] theorem State.modRst_key (s : State) (f : ResetSt → ResetSt) : (s.modRst f).key = s.key := rfl
@[simp] theorem State.modRst_eng (s : State) (f : ResetSt → ResetSt) : (s.modRst f).eng = s.eng := rfl
@[simp] theorem State.modRst_ej (s : State) (f : ResetSt → ResetSt) : (s.modRst f).ej = s.ej := rfl
@[simp] theorem State.modRst_ring (s : State) (f : ResetSt → ResetSt) : (s.modRst f).ring = s.ring := rfl
@[simp] theorem State.modRst_met (s : State) (f : ResetSt → ResetSt) : (s.modRst f).met = s.met := rfl
@[simp] theorem State.modRst_fw (s : State) (f : ResetSt → ResetSt) : (s.modRst f).fw = s.fw := rfl
@[simp] theorem State.modRst_svc (s : State) (f : ResetSt → ResetSt) : (s.modRst f).svc = s.svc := rfl

@[simp] theorem State.modCore_regs (s : State) (f : CoreSt → CoreSt) : (s.modCore f).regs = s.regs := rfl
@[simp] theorem State.modCore_mem (s : State) (f : CoreSt → CoreSt) : (s.modCore f).mem = s.mem := rfl
@[simp] theorem State.modCore_ct (s : State) (f : CoreSt → CoreSt) : (s.modCore f).ct = s.ct := rfl
@[simp] theorem State.modCore_ctArmed (s : State) (f : CoreSt → CoreSt) : (s.modCore f).ctArmed = s.ctArmed := rfl
@[simp] theorem State.modCore_free (s : State) (f : CoreSt → CoreSt) : (s.modCore f).free = s.free := rfl
@[simp] theorem State.modCore_out (s : State) (f : CoreSt → CoreSt) : (s.modCore f).out = s.out := rfl
@[simp] theorem State.modCore_pending (s : State) (f : CoreSt → CoreSt) : (s.modCore f).pending = s.pending := rfl
@[simp] theorem State.modCore_power (s : State) (f : CoreSt → CoreSt) : (s.modCore f).power = s.power := rfl
@[simp] theorem State.modCore_rst (s : State) (f : CoreSt → CoreSt) : (s.modCore f).rst = s.rst := rfl
@[simp] theorem State.modCore_core (s : State) (f : CoreSt → CoreSt) : (s.modCore f).core = f s.core := rfl
@[simp] theorem State.modCore_ms (s : State) (f : CoreSt → CoreSt) : (s.modCore f).ms = s.ms := rfl
@[simp] theorem State.modCore_mram (s : State) (f : CoreSt → CoreSt) : (s.modCore f).mram = s.mram := rfl
@[simp] theorem State.modCore_queues (s : State) (f : CoreSt → CoreSt) : (s.modCore f).queues = s.queues := rfl
@[simp] theorem State.modCore_gate (s : State) (f : CoreSt → CoreSt) : (s.modCore f).gate = s.gate := rfl
@[simp] theorem State.modCore_err (s : State) (f : CoreSt → CoreSt) : (s.modCore f).err = s.err := rfl
@[simp] theorem State.modCore_lanes (s : State) (f : CoreSt → CoreSt) : (s.modCore f).lanes = s.lanes := rfl
@[simp] theorem State.modCore_host (s : State) (f : CoreSt → CoreSt) : (s.modCore f).host = s.host := rfl
@[simp] theorem State.modCore_pav (s : State) (f : CoreSt → CoreSt) : (s.modCore f).pav = s.pav := rfl
@[simp] theorem State.modCore_fe (s : State) (f : CoreSt → CoreSt) : (s.modCore f).fe = s.fe := rfl
@[simp] theorem State.modCore_sht (s : State) (f : CoreSt → CoreSt) : (s.modCore f).sht = s.sht := rfl
@[simp] theorem State.modCore_nuc (s : State) (f : CoreSt → CoreSt) : (s.modCore f).nuc = s.nuc := rfl
@[simp] theorem State.modCore_tdi (s : State) (f : CoreSt → CoreSt) : (s.modCore f).tdi = s.tdi := rfl
@[simp] theorem State.modCore_cal (s : State) (f : CoreSt → CoreSt) : (s.modCore f).cal = s.cal := rfl
@[simp] theorem State.modCore_fab (s : State) (f : CoreSt → CoreSt) : (s.modCore f).fab = s.fab := rfl
@[simp] theorem State.modCore_vis (s : State) (f : CoreSt → CoreSt) : (s.modCore f).vis = s.vis := rfl
@[simp] theorem State.modCore_key (s : State) (f : CoreSt → CoreSt) : (s.modCore f).key = s.key := rfl
@[simp] theorem State.modCore_eng (s : State) (f : CoreSt → CoreSt) : (s.modCore f).eng = s.eng := rfl
@[simp] theorem State.modCore_ej (s : State) (f : CoreSt → CoreSt) : (s.modCore f).ej = s.ej := rfl
@[simp] theorem State.modCore_ring (s : State) (f : CoreSt → CoreSt) : (s.modCore f).ring = s.ring := rfl
@[simp] theorem State.modCore_met (s : State) (f : CoreSt → CoreSt) : (s.modCore f).met = s.met := rfl
@[simp] theorem State.modCore_fw (s : State) (f : CoreSt → CoreSt) : (s.modCore f).fw = s.fw := rfl
@[simp] theorem State.modCore_svc (s : State) (f : CoreSt → CoreSt) : (s.modCore f).svc = s.svc := rfl

@[simp] theorem State.modMs_regs (s : State) (f : MemSt → MemSt) : (s.modMs f).regs = s.regs := rfl
@[simp] theorem State.modMs_mem (s : State) (f : MemSt → MemSt) : (s.modMs f).mem = s.mem := rfl
@[simp] theorem State.modMs_ct (s : State) (f : MemSt → MemSt) : (s.modMs f).ct = s.ct := rfl
@[simp] theorem State.modMs_ctArmed (s : State) (f : MemSt → MemSt) : (s.modMs f).ctArmed = s.ctArmed := rfl
@[simp] theorem State.modMs_free (s : State) (f : MemSt → MemSt) : (s.modMs f).free = s.free := rfl
@[simp] theorem State.modMs_out (s : State) (f : MemSt → MemSt) : (s.modMs f).out = s.out := rfl
@[simp] theorem State.modMs_pending (s : State) (f : MemSt → MemSt) : (s.modMs f).pending = s.pending := rfl
@[simp] theorem State.modMs_power (s : State) (f : MemSt → MemSt) : (s.modMs f).power = s.power := rfl
@[simp] theorem State.modMs_rst (s : State) (f : MemSt → MemSt) : (s.modMs f).rst = s.rst := rfl
@[simp] theorem State.modMs_core (s : State) (f : MemSt → MemSt) : (s.modMs f).core = s.core := rfl
@[simp] theorem State.modMs_ms (s : State) (f : MemSt → MemSt) : (s.modMs f).ms = f s.ms := rfl
@[simp] theorem State.modMs_mram (s : State) (f : MemSt → MemSt) : (s.modMs f).mram = s.mram := rfl
@[simp] theorem State.modMs_queues (s : State) (f : MemSt → MemSt) : (s.modMs f).queues = s.queues := rfl
@[simp] theorem State.modMs_gate (s : State) (f : MemSt → MemSt) : (s.modMs f).gate = s.gate := rfl
@[simp] theorem State.modMs_err (s : State) (f : MemSt → MemSt) : (s.modMs f).err = s.err := rfl
@[simp] theorem State.modMs_lanes (s : State) (f : MemSt → MemSt) : (s.modMs f).lanes = s.lanes := rfl
@[simp] theorem State.modMs_host (s : State) (f : MemSt → MemSt) : (s.modMs f).host = s.host := rfl
@[simp] theorem State.modMs_pav (s : State) (f : MemSt → MemSt) : (s.modMs f).pav = s.pav := rfl
@[simp] theorem State.modMs_fe (s : State) (f : MemSt → MemSt) : (s.modMs f).fe = s.fe := rfl
@[simp] theorem State.modMs_sht (s : State) (f : MemSt → MemSt) : (s.modMs f).sht = s.sht := rfl
@[simp] theorem State.modMs_nuc (s : State) (f : MemSt → MemSt) : (s.modMs f).nuc = s.nuc := rfl
@[simp] theorem State.modMs_tdi (s : State) (f : MemSt → MemSt) : (s.modMs f).tdi = s.tdi := rfl
@[simp] theorem State.modMs_cal (s : State) (f : MemSt → MemSt) : (s.modMs f).cal = s.cal := rfl
@[simp] theorem State.modMs_fab (s : State) (f : MemSt → MemSt) : (s.modMs f).fab = s.fab := rfl
@[simp] theorem State.modMs_vis (s : State) (f : MemSt → MemSt) : (s.modMs f).vis = s.vis := rfl
@[simp] theorem State.modMs_key (s : State) (f : MemSt → MemSt) : (s.modMs f).key = s.key := rfl
@[simp] theorem State.modMs_eng (s : State) (f : MemSt → MemSt) : (s.modMs f).eng = s.eng := rfl
@[simp] theorem State.modMs_ej (s : State) (f : MemSt → MemSt) : (s.modMs f).ej = s.ej := rfl
@[simp] theorem State.modMs_ring (s : State) (f : MemSt → MemSt) : (s.modMs f).ring = s.ring := rfl
@[simp] theorem State.modMs_met (s : State) (f : MemSt → MemSt) : (s.modMs f).met = s.met := rfl
@[simp] theorem State.modMs_fw (s : State) (f : MemSt → MemSt) : (s.modMs f).fw = s.fw := rfl
@[simp] theorem State.modMs_svc (s : State) (f : MemSt → MemSt) : (s.modMs f).svc = s.svc := rfl

@[simp] theorem State.modMram_regs (s : State) (f : MramSt → MramSt) : (s.modMram f).regs = s.regs := rfl
@[simp] theorem State.modMram_mem (s : State) (f : MramSt → MramSt) : (s.modMram f).mem = s.mem := rfl
@[simp] theorem State.modMram_ct (s : State) (f : MramSt → MramSt) : (s.modMram f).ct = s.ct := rfl
@[simp] theorem State.modMram_ctArmed (s : State) (f : MramSt → MramSt) : (s.modMram f).ctArmed = s.ctArmed := rfl
@[simp] theorem State.modMram_free (s : State) (f : MramSt → MramSt) : (s.modMram f).free = s.free := rfl
@[simp] theorem State.modMram_out (s : State) (f : MramSt → MramSt) : (s.modMram f).out = s.out := rfl
@[simp] theorem State.modMram_pending (s : State) (f : MramSt → MramSt) : (s.modMram f).pending = s.pending := rfl
@[simp] theorem State.modMram_power (s : State) (f : MramSt → MramSt) : (s.modMram f).power = s.power := rfl
@[simp] theorem State.modMram_rst (s : State) (f : MramSt → MramSt) : (s.modMram f).rst = s.rst := rfl
@[simp] theorem State.modMram_core (s : State) (f : MramSt → MramSt) : (s.modMram f).core = s.core := rfl
@[simp] theorem State.modMram_ms (s : State) (f : MramSt → MramSt) : (s.modMram f).ms = s.ms := rfl
@[simp] theorem State.modMram_mram (s : State) (f : MramSt → MramSt) : (s.modMram f).mram = f s.mram := rfl
@[simp] theorem State.modMram_queues (s : State) (f : MramSt → MramSt) : (s.modMram f).queues = s.queues := rfl
@[simp] theorem State.modMram_gate (s : State) (f : MramSt → MramSt) : (s.modMram f).gate = s.gate := rfl
@[simp] theorem State.modMram_err (s : State) (f : MramSt → MramSt) : (s.modMram f).err = s.err := rfl
@[simp] theorem State.modMram_lanes (s : State) (f : MramSt → MramSt) : (s.modMram f).lanes = s.lanes := rfl
@[simp] theorem State.modMram_host (s : State) (f : MramSt → MramSt) : (s.modMram f).host = s.host := rfl
@[simp] theorem State.modMram_pav (s : State) (f : MramSt → MramSt) : (s.modMram f).pav = s.pav := rfl
@[simp] theorem State.modMram_fe (s : State) (f : MramSt → MramSt) : (s.modMram f).fe = s.fe := rfl
@[simp] theorem State.modMram_sht (s : State) (f : MramSt → MramSt) : (s.modMram f).sht = s.sht := rfl
@[simp] theorem State.modMram_nuc (s : State) (f : MramSt → MramSt) : (s.modMram f).nuc = s.nuc := rfl
@[simp] theorem State.modMram_tdi (s : State) (f : MramSt → MramSt) : (s.modMram f).tdi = s.tdi := rfl
@[simp] theorem State.modMram_cal (s : State) (f : MramSt → MramSt) : (s.modMram f).cal = s.cal := rfl
@[simp] theorem State.modMram_fab (s : State) (f : MramSt → MramSt) : (s.modMram f).fab = s.fab := rfl
@[simp] theorem State.modMram_vis (s : State) (f : MramSt → MramSt) : (s.modMram f).vis = s.vis := rfl
@[simp] theorem State.modMram_key (s : State) (f : MramSt → MramSt) : (s.modMram f).key = s.key := rfl
@[simp] theorem State.modMram_eng (s : State) (f : MramSt → MramSt) : (s.modMram f).eng = s.eng := rfl
@[simp] theorem State.modMram_ej (s : State) (f : MramSt → MramSt) : (s.modMram f).ej = s.ej := rfl
@[simp] theorem State.modMram_ring (s : State) (f : MramSt → MramSt) : (s.modMram f).ring = s.ring := rfl
@[simp] theorem State.modMram_met (s : State) (f : MramSt → MramSt) : (s.modMram f).met = s.met := rfl
@[simp] theorem State.modMram_fw (s : State) (f : MramSt → MramSt) : (s.modMram f).fw = s.fw := rfl
@[simp] theorem State.modMram_svc (s : State) (f : MramSt → MramSt) : (s.modMram f).svc = s.svc := rfl

@[simp] theorem State.modQueues_regs (s : State) (f : Vector Queue 24 → Vector Queue 24) : (s.modQueues f).regs = s.regs := rfl
@[simp] theorem State.modQueues_mem (s : State) (f : Vector Queue 24 → Vector Queue 24) : (s.modQueues f).mem = s.mem := rfl
@[simp] theorem State.modQueues_ct (s : State) (f : Vector Queue 24 → Vector Queue 24) : (s.modQueues f).ct = s.ct := rfl
@[simp] theorem State.modQueues_ctArmed (s : State) (f : Vector Queue 24 → Vector Queue 24) : (s.modQueues f).ctArmed = s.ctArmed := rfl
@[simp] theorem State.modQueues_free (s : State) (f : Vector Queue 24 → Vector Queue 24) : (s.modQueues f).free = s.free := rfl
@[simp] theorem State.modQueues_out (s : State) (f : Vector Queue 24 → Vector Queue 24) : (s.modQueues f).out = s.out := rfl
@[simp] theorem State.modQueues_pending (s : State) (f : Vector Queue 24 → Vector Queue 24) : (s.modQueues f).pending = s.pending := rfl
@[simp] theorem State.modQueues_power (s : State) (f : Vector Queue 24 → Vector Queue 24) : (s.modQueues f).power = s.power := rfl
@[simp] theorem State.modQueues_rst (s : State) (f : Vector Queue 24 → Vector Queue 24) : (s.modQueues f).rst = s.rst := rfl
@[simp] theorem State.modQueues_core (s : State) (f : Vector Queue 24 → Vector Queue 24) : (s.modQueues f).core = s.core := rfl
@[simp] theorem State.modQueues_ms (s : State) (f : Vector Queue 24 → Vector Queue 24) : (s.modQueues f).ms = s.ms := rfl
@[simp] theorem State.modQueues_mram (s : State) (f : Vector Queue 24 → Vector Queue 24) : (s.modQueues f).mram = s.mram := rfl
@[simp] theorem State.modQueues_queues (s : State) (f : Vector Queue 24 → Vector Queue 24) : (s.modQueues f).queues = f s.queues := rfl
@[simp] theorem State.modQueues_gate (s : State) (f : Vector Queue 24 → Vector Queue 24) : (s.modQueues f).gate = s.gate := rfl
@[simp] theorem State.modQueues_err (s : State) (f : Vector Queue 24 → Vector Queue 24) : (s.modQueues f).err = s.err := rfl
@[simp] theorem State.modQueues_lanes (s : State) (f : Vector Queue 24 → Vector Queue 24) : (s.modQueues f).lanes = s.lanes := rfl
@[simp] theorem State.modQueues_host (s : State) (f : Vector Queue 24 → Vector Queue 24) : (s.modQueues f).host = s.host := rfl
@[simp] theorem State.modQueues_pav (s : State) (f : Vector Queue 24 → Vector Queue 24) : (s.modQueues f).pav = s.pav := rfl
@[simp] theorem State.modQueues_fe (s : State) (f : Vector Queue 24 → Vector Queue 24) : (s.modQueues f).fe = s.fe := rfl
@[simp] theorem State.modQueues_sht (s : State) (f : Vector Queue 24 → Vector Queue 24) : (s.modQueues f).sht = s.sht := rfl
@[simp] theorem State.modQueues_nuc (s : State) (f : Vector Queue 24 → Vector Queue 24) : (s.modQueues f).nuc = s.nuc := rfl
@[simp] theorem State.modQueues_tdi (s : State) (f : Vector Queue 24 → Vector Queue 24) : (s.modQueues f).tdi = s.tdi := rfl
@[simp] theorem State.modQueues_cal (s : State) (f : Vector Queue 24 → Vector Queue 24) : (s.modQueues f).cal = s.cal := rfl
@[simp] theorem State.modQueues_fab (s : State) (f : Vector Queue 24 → Vector Queue 24) : (s.modQueues f).fab = s.fab := rfl
@[simp] theorem State.modQueues_vis (s : State) (f : Vector Queue 24 → Vector Queue 24) : (s.modQueues f).vis = s.vis := rfl
@[simp] theorem State.modQueues_key (s : State) (f : Vector Queue 24 → Vector Queue 24) : (s.modQueues f).key = s.key := rfl
@[simp] theorem State.modQueues_eng (s : State) (f : Vector Queue 24 → Vector Queue 24) : (s.modQueues f).eng = s.eng := rfl
@[simp] theorem State.modQueues_ej (s : State) (f : Vector Queue 24 → Vector Queue 24) : (s.modQueues f).ej = s.ej := rfl
@[simp] theorem State.modQueues_ring (s : State) (f : Vector Queue 24 → Vector Queue 24) : (s.modQueues f).ring = s.ring := rfl
@[simp] theorem State.modQueues_met (s : State) (f : Vector Queue 24 → Vector Queue 24) : (s.modQueues f).met = s.met := rfl
@[simp] theorem State.modQueues_fw (s : State) (f : Vector Queue 24 → Vector Queue 24) : (s.modQueues f).fw = s.fw := rfl
@[simp] theorem State.modQueues_svc (s : State) (f : Vector Queue 24 → Vector Queue 24) : (s.modQueues f).svc = s.svc := rfl

@[simp] theorem State.modGate_regs (s : State) (f : GateSt → GateSt) : (s.modGate f).regs = s.regs := rfl
@[simp] theorem State.modGate_mem (s : State) (f : GateSt → GateSt) : (s.modGate f).mem = s.mem := rfl
@[simp] theorem State.modGate_ct (s : State) (f : GateSt → GateSt) : (s.modGate f).ct = s.ct := rfl
@[simp] theorem State.modGate_ctArmed (s : State) (f : GateSt → GateSt) : (s.modGate f).ctArmed = s.ctArmed := rfl
@[simp] theorem State.modGate_free (s : State) (f : GateSt → GateSt) : (s.modGate f).free = s.free := rfl
@[simp] theorem State.modGate_out (s : State) (f : GateSt → GateSt) : (s.modGate f).out = s.out := rfl
@[simp] theorem State.modGate_pending (s : State) (f : GateSt → GateSt) : (s.modGate f).pending = s.pending := rfl
@[simp] theorem State.modGate_power (s : State) (f : GateSt → GateSt) : (s.modGate f).power = s.power := rfl
@[simp] theorem State.modGate_rst (s : State) (f : GateSt → GateSt) : (s.modGate f).rst = s.rst := rfl
@[simp] theorem State.modGate_core (s : State) (f : GateSt → GateSt) : (s.modGate f).core = s.core := rfl
@[simp] theorem State.modGate_ms (s : State) (f : GateSt → GateSt) : (s.modGate f).ms = s.ms := rfl
@[simp] theorem State.modGate_mram (s : State) (f : GateSt → GateSt) : (s.modGate f).mram = s.mram := rfl
@[simp] theorem State.modGate_queues (s : State) (f : GateSt → GateSt) : (s.modGate f).queues = s.queues := rfl
@[simp] theorem State.modGate_gate (s : State) (f : GateSt → GateSt) : (s.modGate f).gate = f s.gate := rfl
@[simp] theorem State.modGate_err (s : State) (f : GateSt → GateSt) : (s.modGate f).err = s.err := rfl
@[simp] theorem State.modGate_lanes (s : State) (f : GateSt → GateSt) : (s.modGate f).lanes = s.lanes := rfl
@[simp] theorem State.modGate_host (s : State) (f : GateSt → GateSt) : (s.modGate f).host = s.host := rfl
@[simp] theorem State.modGate_pav (s : State) (f : GateSt → GateSt) : (s.modGate f).pav = s.pav := rfl
@[simp] theorem State.modGate_fe (s : State) (f : GateSt → GateSt) : (s.modGate f).fe = s.fe := rfl
@[simp] theorem State.modGate_sht (s : State) (f : GateSt → GateSt) : (s.modGate f).sht = s.sht := rfl
@[simp] theorem State.modGate_nuc (s : State) (f : GateSt → GateSt) : (s.modGate f).nuc = s.nuc := rfl
@[simp] theorem State.modGate_tdi (s : State) (f : GateSt → GateSt) : (s.modGate f).tdi = s.tdi := rfl
@[simp] theorem State.modGate_cal (s : State) (f : GateSt → GateSt) : (s.modGate f).cal = s.cal := rfl
@[simp] theorem State.modGate_fab (s : State) (f : GateSt → GateSt) : (s.modGate f).fab = s.fab := rfl
@[simp] theorem State.modGate_vis (s : State) (f : GateSt → GateSt) : (s.modGate f).vis = s.vis := rfl
@[simp] theorem State.modGate_key (s : State) (f : GateSt → GateSt) : (s.modGate f).key = s.key := rfl
@[simp] theorem State.modGate_eng (s : State) (f : GateSt → GateSt) : (s.modGate f).eng = s.eng := rfl
@[simp] theorem State.modGate_ej (s : State) (f : GateSt → GateSt) : (s.modGate f).ej = s.ej := rfl
@[simp] theorem State.modGate_ring (s : State) (f : GateSt → GateSt) : (s.modGate f).ring = s.ring := rfl
@[simp] theorem State.modGate_met (s : State) (f : GateSt → GateSt) : (s.modGate f).met = s.met := rfl
@[simp] theorem State.modGate_fw (s : State) (f : GateSt → GateSt) : (s.modGate f).fw = s.fw := rfl
@[simp] theorem State.modGate_svc (s : State) (f : GateSt → GateSt) : (s.modGate f).svc = s.svc := rfl

@[simp] theorem State.modErr_regs (s : State) (f : ErrSt → ErrSt) : (s.modErr f).regs = s.regs := rfl
@[simp] theorem State.modErr_mem (s : State) (f : ErrSt → ErrSt) : (s.modErr f).mem = s.mem := rfl
@[simp] theorem State.modErr_ct (s : State) (f : ErrSt → ErrSt) : (s.modErr f).ct = s.ct := rfl
@[simp] theorem State.modErr_ctArmed (s : State) (f : ErrSt → ErrSt) : (s.modErr f).ctArmed = s.ctArmed := rfl
@[simp] theorem State.modErr_free (s : State) (f : ErrSt → ErrSt) : (s.modErr f).free = s.free := rfl
@[simp] theorem State.modErr_out (s : State) (f : ErrSt → ErrSt) : (s.modErr f).out = s.out := rfl
@[simp] theorem State.modErr_pending (s : State) (f : ErrSt → ErrSt) : (s.modErr f).pending = s.pending := rfl
@[simp] theorem State.modErr_power (s : State) (f : ErrSt → ErrSt) : (s.modErr f).power = s.power := rfl
@[simp] theorem State.modErr_rst (s : State) (f : ErrSt → ErrSt) : (s.modErr f).rst = s.rst := rfl
@[simp] theorem State.modErr_core (s : State) (f : ErrSt → ErrSt) : (s.modErr f).core = s.core := rfl
@[simp] theorem State.modErr_ms (s : State) (f : ErrSt → ErrSt) : (s.modErr f).ms = s.ms := rfl
@[simp] theorem State.modErr_mram (s : State) (f : ErrSt → ErrSt) : (s.modErr f).mram = s.mram := rfl
@[simp] theorem State.modErr_queues (s : State) (f : ErrSt → ErrSt) : (s.modErr f).queues = s.queues := rfl
@[simp] theorem State.modErr_gate (s : State) (f : ErrSt → ErrSt) : (s.modErr f).gate = s.gate := rfl
@[simp] theorem State.modErr_err (s : State) (f : ErrSt → ErrSt) : (s.modErr f).err = f s.err := rfl
@[simp] theorem State.modErr_lanes (s : State) (f : ErrSt → ErrSt) : (s.modErr f).lanes = s.lanes := rfl
@[simp] theorem State.modErr_host (s : State) (f : ErrSt → ErrSt) : (s.modErr f).host = s.host := rfl
@[simp] theorem State.modErr_pav (s : State) (f : ErrSt → ErrSt) : (s.modErr f).pav = s.pav := rfl
@[simp] theorem State.modErr_fe (s : State) (f : ErrSt → ErrSt) : (s.modErr f).fe = s.fe := rfl
@[simp] theorem State.modErr_sht (s : State) (f : ErrSt → ErrSt) : (s.modErr f).sht = s.sht := rfl
@[simp] theorem State.modErr_nuc (s : State) (f : ErrSt → ErrSt) : (s.modErr f).nuc = s.nuc := rfl
@[simp] theorem State.modErr_tdi (s : State) (f : ErrSt → ErrSt) : (s.modErr f).tdi = s.tdi := rfl
@[simp] theorem State.modErr_cal (s : State) (f : ErrSt → ErrSt) : (s.modErr f).cal = s.cal := rfl
@[simp] theorem State.modErr_fab (s : State) (f : ErrSt → ErrSt) : (s.modErr f).fab = s.fab := rfl
@[simp] theorem State.modErr_vis (s : State) (f : ErrSt → ErrSt) : (s.modErr f).vis = s.vis := rfl
@[simp] theorem State.modErr_key (s : State) (f : ErrSt → ErrSt) : (s.modErr f).key = s.key := rfl
@[simp] theorem State.modErr_eng (s : State) (f : ErrSt → ErrSt) : (s.modErr f).eng = s.eng := rfl
@[simp] theorem State.modErr_ej (s : State) (f : ErrSt → ErrSt) : (s.modErr f).ej = s.ej := rfl
@[simp] theorem State.modErr_ring (s : State) (f : ErrSt → ErrSt) : (s.modErr f).ring = s.ring := rfl
@[simp] theorem State.modErr_met (s : State) (f : ErrSt → ErrSt) : (s.modErr f).met = s.met := rfl
@[simp] theorem State.modErr_fw (s : State) (f : ErrSt → ErrSt) : (s.modErr f).fw = s.fw := rfl
@[simp] theorem State.modErr_svc (s : State) (f : ErrSt → ErrSt) : (s.modErr f).svc = s.svc := rfl

@[simp] theorem State.modLanes_regs (s : State) (f : LaneSt → LaneSt) : (s.modLanes f).regs = s.regs := rfl
@[simp] theorem State.modLanes_mem (s : State) (f : LaneSt → LaneSt) : (s.modLanes f).mem = s.mem := rfl
@[simp] theorem State.modLanes_ct (s : State) (f : LaneSt → LaneSt) : (s.modLanes f).ct = s.ct := rfl
@[simp] theorem State.modLanes_ctArmed (s : State) (f : LaneSt → LaneSt) : (s.modLanes f).ctArmed = s.ctArmed := rfl
@[simp] theorem State.modLanes_free (s : State) (f : LaneSt → LaneSt) : (s.modLanes f).free = s.free := rfl
@[simp] theorem State.modLanes_out (s : State) (f : LaneSt → LaneSt) : (s.modLanes f).out = s.out := rfl
@[simp] theorem State.modLanes_pending (s : State) (f : LaneSt → LaneSt) : (s.modLanes f).pending = s.pending := rfl
@[simp] theorem State.modLanes_power (s : State) (f : LaneSt → LaneSt) : (s.modLanes f).power = s.power := rfl
@[simp] theorem State.modLanes_rst (s : State) (f : LaneSt → LaneSt) : (s.modLanes f).rst = s.rst := rfl
@[simp] theorem State.modLanes_core (s : State) (f : LaneSt → LaneSt) : (s.modLanes f).core = s.core := rfl
@[simp] theorem State.modLanes_ms (s : State) (f : LaneSt → LaneSt) : (s.modLanes f).ms = s.ms := rfl
@[simp] theorem State.modLanes_mram (s : State) (f : LaneSt → LaneSt) : (s.modLanes f).mram = s.mram := rfl
@[simp] theorem State.modLanes_queues (s : State) (f : LaneSt → LaneSt) : (s.modLanes f).queues = s.queues := rfl
@[simp] theorem State.modLanes_gate (s : State) (f : LaneSt → LaneSt) : (s.modLanes f).gate = s.gate := rfl
@[simp] theorem State.modLanes_err (s : State) (f : LaneSt → LaneSt) : (s.modLanes f).err = s.err := rfl
@[simp] theorem State.modLanes_lanes (s : State) (f : LaneSt → LaneSt) : (s.modLanes f).lanes = f s.lanes := rfl
@[simp] theorem State.modLanes_host (s : State) (f : LaneSt → LaneSt) : (s.modLanes f).host = s.host := rfl
@[simp] theorem State.modLanes_pav (s : State) (f : LaneSt → LaneSt) : (s.modLanes f).pav = s.pav := rfl
@[simp] theorem State.modLanes_fe (s : State) (f : LaneSt → LaneSt) : (s.modLanes f).fe = s.fe := rfl
@[simp] theorem State.modLanes_sht (s : State) (f : LaneSt → LaneSt) : (s.modLanes f).sht = s.sht := rfl
@[simp] theorem State.modLanes_nuc (s : State) (f : LaneSt → LaneSt) : (s.modLanes f).nuc = s.nuc := rfl
@[simp] theorem State.modLanes_tdi (s : State) (f : LaneSt → LaneSt) : (s.modLanes f).tdi = s.tdi := rfl
@[simp] theorem State.modLanes_cal (s : State) (f : LaneSt → LaneSt) : (s.modLanes f).cal = s.cal := rfl
@[simp] theorem State.modLanes_fab (s : State) (f : LaneSt → LaneSt) : (s.modLanes f).fab = s.fab := rfl
@[simp] theorem State.modLanes_vis (s : State) (f : LaneSt → LaneSt) : (s.modLanes f).vis = s.vis := rfl
@[simp] theorem State.modLanes_key (s : State) (f : LaneSt → LaneSt) : (s.modLanes f).key = s.key := rfl
@[simp] theorem State.modLanes_eng (s : State) (f : LaneSt → LaneSt) : (s.modLanes f).eng = s.eng := rfl
@[simp] theorem State.modLanes_ej (s : State) (f : LaneSt → LaneSt) : (s.modLanes f).ej = s.ej := rfl
@[simp] theorem State.modLanes_ring (s : State) (f : LaneSt → LaneSt) : (s.modLanes f).ring = s.ring := rfl
@[simp] theorem State.modLanes_met (s : State) (f : LaneSt → LaneSt) : (s.modLanes f).met = s.met := rfl
@[simp] theorem State.modLanes_fw (s : State) (f : LaneSt → LaneSt) : (s.modLanes f).fw = s.fw := rfl
@[simp] theorem State.modLanes_svc (s : State) (f : LaneSt → LaneSt) : (s.modLanes f).svc = s.svc := rfl

@[simp] theorem State.modHost_regs (s : State) (f : HostSt → HostSt) : (s.modHost f).regs = s.regs := rfl
@[simp] theorem State.modHost_mem (s : State) (f : HostSt → HostSt) : (s.modHost f).mem = s.mem := rfl
@[simp] theorem State.modHost_ct (s : State) (f : HostSt → HostSt) : (s.modHost f).ct = s.ct := rfl
@[simp] theorem State.modHost_ctArmed (s : State) (f : HostSt → HostSt) : (s.modHost f).ctArmed = s.ctArmed := rfl
@[simp] theorem State.modHost_free (s : State) (f : HostSt → HostSt) : (s.modHost f).free = s.free := rfl
@[simp] theorem State.modHost_out (s : State) (f : HostSt → HostSt) : (s.modHost f).out = s.out := rfl
@[simp] theorem State.modHost_pending (s : State) (f : HostSt → HostSt) : (s.modHost f).pending = s.pending := rfl
@[simp] theorem State.modHost_power (s : State) (f : HostSt → HostSt) : (s.modHost f).power = s.power := rfl
@[simp] theorem State.modHost_rst (s : State) (f : HostSt → HostSt) : (s.modHost f).rst = s.rst := rfl
@[simp] theorem State.modHost_core (s : State) (f : HostSt → HostSt) : (s.modHost f).core = s.core := rfl
@[simp] theorem State.modHost_ms (s : State) (f : HostSt → HostSt) : (s.modHost f).ms = s.ms := rfl
@[simp] theorem State.modHost_mram (s : State) (f : HostSt → HostSt) : (s.modHost f).mram = s.mram := rfl
@[simp] theorem State.modHost_queues (s : State) (f : HostSt → HostSt) : (s.modHost f).queues = s.queues := rfl
@[simp] theorem State.modHost_gate (s : State) (f : HostSt → HostSt) : (s.modHost f).gate = s.gate := rfl
@[simp] theorem State.modHost_err (s : State) (f : HostSt → HostSt) : (s.modHost f).err = s.err := rfl
@[simp] theorem State.modHost_lanes (s : State) (f : HostSt → HostSt) : (s.modHost f).lanes = s.lanes := rfl
@[simp] theorem State.modHost_host (s : State) (f : HostSt → HostSt) : (s.modHost f).host = f s.host := rfl
@[simp] theorem State.modHost_pav (s : State) (f : HostSt → HostSt) : (s.modHost f).pav = s.pav := rfl
@[simp] theorem State.modHost_fe (s : State) (f : HostSt → HostSt) : (s.modHost f).fe = s.fe := rfl
@[simp] theorem State.modHost_sht (s : State) (f : HostSt → HostSt) : (s.modHost f).sht = s.sht := rfl
@[simp] theorem State.modHost_nuc (s : State) (f : HostSt → HostSt) : (s.modHost f).nuc = s.nuc := rfl
@[simp] theorem State.modHost_tdi (s : State) (f : HostSt → HostSt) : (s.modHost f).tdi = s.tdi := rfl
@[simp] theorem State.modHost_cal (s : State) (f : HostSt → HostSt) : (s.modHost f).cal = s.cal := rfl
@[simp] theorem State.modHost_fab (s : State) (f : HostSt → HostSt) : (s.modHost f).fab = s.fab := rfl
@[simp] theorem State.modHost_vis (s : State) (f : HostSt → HostSt) : (s.modHost f).vis = s.vis := rfl
@[simp] theorem State.modHost_key (s : State) (f : HostSt → HostSt) : (s.modHost f).key = s.key := rfl
@[simp] theorem State.modHost_eng (s : State) (f : HostSt → HostSt) : (s.modHost f).eng = s.eng := rfl
@[simp] theorem State.modHost_ej (s : State) (f : HostSt → HostSt) : (s.modHost f).ej = s.ej := rfl
@[simp] theorem State.modHost_ring (s : State) (f : HostSt → HostSt) : (s.modHost f).ring = s.ring := rfl
@[simp] theorem State.modHost_met (s : State) (f : HostSt → HostSt) : (s.modHost f).met = s.met := rfl
@[simp] theorem State.modHost_fw (s : State) (f : HostSt → HostSt) : (s.modHost f).fw = s.fw := rfl
@[simp] theorem State.modHost_svc (s : State) (f : HostSt → HostSt) : (s.modHost f).svc = s.svc := rfl

@[simp] theorem State.modPav_regs (s : State) (f : PavSt → PavSt) : (s.modPav f).regs = s.regs := rfl
@[simp] theorem State.modPav_mem (s : State) (f : PavSt → PavSt) : (s.modPav f).mem = s.mem := rfl
@[simp] theorem State.modPav_ct (s : State) (f : PavSt → PavSt) : (s.modPav f).ct = s.ct := rfl
@[simp] theorem State.modPav_ctArmed (s : State) (f : PavSt → PavSt) : (s.modPav f).ctArmed = s.ctArmed := rfl
@[simp] theorem State.modPav_free (s : State) (f : PavSt → PavSt) : (s.modPav f).free = s.free := rfl
@[simp] theorem State.modPav_out (s : State) (f : PavSt → PavSt) : (s.modPav f).out = s.out := rfl
@[simp] theorem State.modPav_pending (s : State) (f : PavSt → PavSt) : (s.modPav f).pending = s.pending := rfl
@[simp] theorem State.modPav_power (s : State) (f : PavSt → PavSt) : (s.modPav f).power = s.power := rfl
@[simp] theorem State.modPav_rst (s : State) (f : PavSt → PavSt) : (s.modPav f).rst = s.rst := rfl
@[simp] theorem State.modPav_core (s : State) (f : PavSt → PavSt) : (s.modPav f).core = s.core := rfl
@[simp] theorem State.modPav_ms (s : State) (f : PavSt → PavSt) : (s.modPav f).ms = s.ms := rfl
@[simp] theorem State.modPav_mram (s : State) (f : PavSt → PavSt) : (s.modPav f).mram = s.mram := rfl
@[simp] theorem State.modPav_queues (s : State) (f : PavSt → PavSt) : (s.modPav f).queues = s.queues := rfl
@[simp] theorem State.modPav_gate (s : State) (f : PavSt → PavSt) : (s.modPav f).gate = s.gate := rfl
@[simp] theorem State.modPav_err (s : State) (f : PavSt → PavSt) : (s.modPav f).err = s.err := rfl
@[simp] theorem State.modPav_lanes (s : State) (f : PavSt → PavSt) : (s.modPav f).lanes = s.lanes := rfl
@[simp] theorem State.modPav_host (s : State) (f : PavSt → PavSt) : (s.modPav f).host = s.host := rfl
@[simp] theorem State.modPav_pav (s : State) (f : PavSt → PavSt) : (s.modPav f).pav = f s.pav := rfl
@[simp] theorem State.modPav_fe (s : State) (f : PavSt → PavSt) : (s.modPav f).fe = s.fe := rfl
@[simp] theorem State.modPav_sht (s : State) (f : PavSt → PavSt) : (s.modPav f).sht = s.sht := rfl
@[simp] theorem State.modPav_nuc (s : State) (f : PavSt → PavSt) : (s.modPav f).nuc = s.nuc := rfl
@[simp] theorem State.modPav_tdi (s : State) (f : PavSt → PavSt) : (s.modPav f).tdi = s.tdi := rfl
@[simp] theorem State.modPav_cal (s : State) (f : PavSt → PavSt) : (s.modPav f).cal = s.cal := rfl
@[simp] theorem State.modPav_fab (s : State) (f : PavSt → PavSt) : (s.modPav f).fab = s.fab := rfl
@[simp] theorem State.modPav_vis (s : State) (f : PavSt → PavSt) : (s.modPav f).vis = s.vis := rfl
@[simp] theorem State.modPav_key (s : State) (f : PavSt → PavSt) : (s.modPav f).key = s.key := rfl
@[simp] theorem State.modPav_eng (s : State) (f : PavSt → PavSt) : (s.modPav f).eng = s.eng := rfl
@[simp] theorem State.modPav_ej (s : State) (f : PavSt → PavSt) : (s.modPav f).ej = s.ej := rfl
@[simp] theorem State.modPav_ring (s : State) (f : PavSt → PavSt) : (s.modPav f).ring = s.ring := rfl
@[simp] theorem State.modPav_met (s : State) (f : PavSt → PavSt) : (s.modPav f).met = s.met := rfl
@[simp] theorem State.modPav_fw (s : State) (f : PavSt → PavSt) : (s.modPav f).fw = s.fw := rfl
@[simp] theorem State.modPav_svc (s : State) (f : PavSt → PavSt) : (s.modPav f).svc = s.svc := rfl

@[simp] theorem State.modFe_regs (s : State) (f : FeSt → FeSt) : (s.modFe f).regs = s.regs := rfl
@[simp] theorem State.modFe_mem (s : State) (f : FeSt → FeSt) : (s.modFe f).mem = s.mem := rfl
@[simp] theorem State.modFe_ct (s : State) (f : FeSt → FeSt) : (s.modFe f).ct = s.ct := rfl
@[simp] theorem State.modFe_ctArmed (s : State) (f : FeSt → FeSt) : (s.modFe f).ctArmed = s.ctArmed := rfl
@[simp] theorem State.modFe_free (s : State) (f : FeSt → FeSt) : (s.modFe f).free = s.free := rfl
@[simp] theorem State.modFe_out (s : State) (f : FeSt → FeSt) : (s.modFe f).out = s.out := rfl
@[simp] theorem State.modFe_pending (s : State) (f : FeSt → FeSt) : (s.modFe f).pending = s.pending := rfl
@[simp] theorem State.modFe_power (s : State) (f : FeSt → FeSt) : (s.modFe f).power = s.power := rfl
@[simp] theorem State.modFe_rst (s : State) (f : FeSt → FeSt) : (s.modFe f).rst = s.rst := rfl
@[simp] theorem State.modFe_core (s : State) (f : FeSt → FeSt) : (s.modFe f).core = s.core := rfl
@[simp] theorem State.modFe_ms (s : State) (f : FeSt → FeSt) : (s.modFe f).ms = s.ms := rfl
@[simp] theorem State.modFe_mram (s : State) (f : FeSt → FeSt) : (s.modFe f).mram = s.mram := rfl
@[simp] theorem State.modFe_queues (s : State) (f : FeSt → FeSt) : (s.modFe f).queues = s.queues := rfl
@[simp] theorem State.modFe_gate (s : State) (f : FeSt → FeSt) : (s.modFe f).gate = s.gate := rfl
@[simp] theorem State.modFe_err (s : State) (f : FeSt → FeSt) : (s.modFe f).err = s.err := rfl
@[simp] theorem State.modFe_lanes (s : State) (f : FeSt → FeSt) : (s.modFe f).lanes = s.lanes := rfl
@[simp] theorem State.modFe_host (s : State) (f : FeSt → FeSt) : (s.modFe f).host = s.host := rfl
@[simp] theorem State.modFe_pav (s : State) (f : FeSt → FeSt) : (s.modFe f).pav = s.pav := rfl
@[simp] theorem State.modFe_fe (s : State) (f : FeSt → FeSt) : (s.modFe f).fe = f s.fe := rfl
@[simp] theorem State.modFe_sht (s : State) (f : FeSt → FeSt) : (s.modFe f).sht = s.sht := rfl
@[simp] theorem State.modFe_nuc (s : State) (f : FeSt → FeSt) : (s.modFe f).nuc = s.nuc := rfl
@[simp] theorem State.modFe_tdi (s : State) (f : FeSt → FeSt) : (s.modFe f).tdi = s.tdi := rfl
@[simp] theorem State.modFe_cal (s : State) (f : FeSt → FeSt) : (s.modFe f).cal = s.cal := rfl
@[simp] theorem State.modFe_fab (s : State) (f : FeSt → FeSt) : (s.modFe f).fab = s.fab := rfl
@[simp] theorem State.modFe_vis (s : State) (f : FeSt → FeSt) : (s.modFe f).vis = s.vis := rfl
@[simp] theorem State.modFe_key (s : State) (f : FeSt → FeSt) : (s.modFe f).key = s.key := rfl
@[simp] theorem State.modFe_eng (s : State) (f : FeSt → FeSt) : (s.modFe f).eng = s.eng := rfl
@[simp] theorem State.modFe_ej (s : State) (f : FeSt → FeSt) : (s.modFe f).ej = s.ej := rfl
@[simp] theorem State.modFe_ring (s : State) (f : FeSt → FeSt) : (s.modFe f).ring = s.ring := rfl
@[simp] theorem State.modFe_met (s : State) (f : FeSt → FeSt) : (s.modFe f).met = s.met := rfl
@[simp] theorem State.modFe_fw (s : State) (f : FeSt → FeSt) : (s.modFe f).fw = s.fw := rfl
@[simp] theorem State.modFe_svc (s : State) (f : FeSt → FeSt) : (s.modFe f).svc = s.svc := rfl

@[simp] theorem State.modSht_regs (s : State) (f : ShtSt → ShtSt) : (s.modSht f).regs = s.regs := rfl
@[simp] theorem State.modSht_mem (s : State) (f : ShtSt → ShtSt) : (s.modSht f).mem = s.mem := rfl
@[simp] theorem State.modSht_ct (s : State) (f : ShtSt → ShtSt) : (s.modSht f).ct = s.ct := rfl
@[simp] theorem State.modSht_ctArmed (s : State) (f : ShtSt → ShtSt) : (s.modSht f).ctArmed = s.ctArmed := rfl
@[simp] theorem State.modSht_free (s : State) (f : ShtSt → ShtSt) : (s.modSht f).free = s.free := rfl
@[simp] theorem State.modSht_out (s : State) (f : ShtSt → ShtSt) : (s.modSht f).out = s.out := rfl
@[simp] theorem State.modSht_pending (s : State) (f : ShtSt → ShtSt) : (s.modSht f).pending = s.pending := rfl
@[simp] theorem State.modSht_power (s : State) (f : ShtSt → ShtSt) : (s.modSht f).power = s.power := rfl
@[simp] theorem State.modSht_rst (s : State) (f : ShtSt → ShtSt) : (s.modSht f).rst = s.rst := rfl
@[simp] theorem State.modSht_core (s : State) (f : ShtSt → ShtSt) : (s.modSht f).core = s.core := rfl
@[simp] theorem State.modSht_ms (s : State) (f : ShtSt → ShtSt) : (s.modSht f).ms = s.ms := rfl
@[simp] theorem State.modSht_mram (s : State) (f : ShtSt → ShtSt) : (s.modSht f).mram = s.mram := rfl
@[simp] theorem State.modSht_queues (s : State) (f : ShtSt → ShtSt) : (s.modSht f).queues = s.queues := rfl
@[simp] theorem State.modSht_gate (s : State) (f : ShtSt → ShtSt) : (s.modSht f).gate = s.gate := rfl
@[simp] theorem State.modSht_err (s : State) (f : ShtSt → ShtSt) : (s.modSht f).err = s.err := rfl
@[simp] theorem State.modSht_lanes (s : State) (f : ShtSt → ShtSt) : (s.modSht f).lanes = s.lanes := rfl
@[simp] theorem State.modSht_host (s : State) (f : ShtSt → ShtSt) : (s.modSht f).host = s.host := rfl
@[simp] theorem State.modSht_pav (s : State) (f : ShtSt → ShtSt) : (s.modSht f).pav = s.pav := rfl
@[simp] theorem State.modSht_fe (s : State) (f : ShtSt → ShtSt) : (s.modSht f).fe = s.fe := rfl
@[simp] theorem State.modSht_sht (s : State) (f : ShtSt → ShtSt) : (s.modSht f).sht = f s.sht := rfl
@[simp] theorem State.modSht_nuc (s : State) (f : ShtSt → ShtSt) : (s.modSht f).nuc = s.nuc := rfl
@[simp] theorem State.modSht_tdi (s : State) (f : ShtSt → ShtSt) : (s.modSht f).tdi = s.tdi := rfl
@[simp] theorem State.modSht_cal (s : State) (f : ShtSt → ShtSt) : (s.modSht f).cal = s.cal := rfl
@[simp] theorem State.modSht_fab (s : State) (f : ShtSt → ShtSt) : (s.modSht f).fab = s.fab := rfl
@[simp] theorem State.modSht_vis (s : State) (f : ShtSt → ShtSt) : (s.modSht f).vis = s.vis := rfl
@[simp] theorem State.modSht_key (s : State) (f : ShtSt → ShtSt) : (s.modSht f).key = s.key := rfl
@[simp] theorem State.modSht_eng (s : State) (f : ShtSt → ShtSt) : (s.modSht f).eng = s.eng := rfl
@[simp] theorem State.modSht_ej (s : State) (f : ShtSt → ShtSt) : (s.modSht f).ej = s.ej := rfl
@[simp] theorem State.modSht_ring (s : State) (f : ShtSt → ShtSt) : (s.modSht f).ring = s.ring := rfl
@[simp] theorem State.modSht_met (s : State) (f : ShtSt → ShtSt) : (s.modSht f).met = s.met := rfl
@[simp] theorem State.modSht_fw (s : State) (f : ShtSt → ShtSt) : (s.modSht f).fw = s.fw := rfl
@[simp] theorem State.modSht_svc (s : State) (f : ShtSt → ShtSt) : (s.modSht f).svc = s.svc := rfl

@[simp] theorem State.modNuc_regs (s : State) (f : NucSt → NucSt) : (s.modNuc f).regs = s.regs := rfl
@[simp] theorem State.modNuc_mem (s : State) (f : NucSt → NucSt) : (s.modNuc f).mem = s.mem := rfl
@[simp] theorem State.modNuc_ct (s : State) (f : NucSt → NucSt) : (s.modNuc f).ct = s.ct := rfl
@[simp] theorem State.modNuc_ctArmed (s : State) (f : NucSt → NucSt) : (s.modNuc f).ctArmed = s.ctArmed := rfl
@[simp] theorem State.modNuc_free (s : State) (f : NucSt → NucSt) : (s.modNuc f).free = s.free := rfl
@[simp] theorem State.modNuc_out (s : State) (f : NucSt → NucSt) : (s.modNuc f).out = s.out := rfl
@[simp] theorem State.modNuc_pending (s : State) (f : NucSt → NucSt) : (s.modNuc f).pending = s.pending := rfl
@[simp] theorem State.modNuc_power (s : State) (f : NucSt → NucSt) : (s.modNuc f).power = s.power := rfl
@[simp] theorem State.modNuc_rst (s : State) (f : NucSt → NucSt) : (s.modNuc f).rst = s.rst := rfl
@[simp] theorem State.modNuc_core (s : State) (f : NucSt → NucSt) : (s.modNuc f).core = s.core := rfl
@[simp] theorem State.modNuc_ms (s : State) (f : NucSt → NucSt) : (s.modNuc f).ms = s.ms := rfl
@[simp] theorem State.modNuc_mram (s : State) (f : NucSt → NucSt) : (s.modNuc f).mram = s.mram := rfl
@[simp] theorem State.modNuc_queues (s : State) (f : NucSt → NucSt) : (s.modNuc f).queues = s.queues := rfl
@[simp] theorem State.modNuc_gate (s : State) (f : NucSt → NucSt) : (s.modNuc f).gate = s.gate := rfl
@[simp] theorem State.modNuc_err (s : State) (f : NucSt → NucSt) : (s.modNuc f).err = s.err := rfl
@[simp] theorem State.modNuc_lanes (s : State) (f : NucSt → NucSt) : (s.modNuc f).lanes = s.lanes := rfl
@[simp] theorem State.modNuc_host (s : State) (f : NucSt → NucSt) : (s.modNuc f).host = s.host := rfl
@[simp] theorem State.modNuc_pav (s : State) (f : NucSt → NucSt) : (s.modNuc f).pav = s.pav := rfl
@[simp] theorem State.modNuc_fe (s : State) (f : NucSt → NucSt) : (s.modNuc f).fe = s.fe := rfl
@[simp] theorem State.modNuc_sht (s : State) (f : NucSt → NucSt) : (s.modNuc f).sht = s.sht := rfl
@[simp] theorem State.modNuc_nuc (s : State) (f : NucSt → NucSt) : (s.modNuc f).nuc = f s.nuc := rfl
@[simp] theorem State.modNuc_tdi (s : State) (f : NucSt → NucSt) : (s.modNuc f).tdi = s.tdi := rfl
@[simp] theorem State.modNuc_cal (s : State) (f : NucSt → NucSt) : (s.modNuc f).cal = s.cal := rfl
@[simp] theorem State.modNuc_fab (s : State) (f : NucSt → NucSt) : (s.modNuc f).fab = s.fab := rfl
@[simp] theorem State.modNuc_vis (s : State) (f : NucSt → NucSt) : (s.modNuc f).vis = s.vis := rfl
@[simp] theorem State.modNuc_key (s : State) (f : NucSt → NucSt) : (s.modNuc f).key = s.key := rfl
@[simp] theorem State.modNuc_eng (s : State) (f : NucSt → NucSt) : (s.modNuc f).eng = s.eng := rfl
@[simp] theorem State.modNuc_ej (s : State) (f : NucSt → NucSt) : (s.modNuc f).ej = s.ej := rfl
@[simp] theorem State.modNuc_ring (s : State) (f : NucSt → NucSt) : (s.modNuc f).ring = s.ring := rfl
@[simp] theorem State.modNuc_met (s : State) (f : NucSt → NucSt) : (s.modNuc f).met = s.met := rfl
@[simp] theorem State.modNuc_fw (s : State) (f : NucSt → NucSt) : (s.modNuc f).fw = s.fw := rfl
@[simp] theorem State.modNuc_svc (s : State) (f : NucSt → NucSt) : (s.modNuc f).svc = s.svc := rfl

@[simp] theorem State.modTdi_regs (s : State) (f : TdiSt → TdiSt) : (s.modTdi f).regs = s.regs := rfl
@[simp] theorem State.modTdi_mem (s : State) (f : TdiSt → TdiSt) : (s.modTdi f).mem = s.mem := rfl
@[simp] theorem State.modTdi_ct (s : State) (f : TdiSt → TdiSt) : (s.modTdi f).ct = s.ct := rfl
@[simp] theorem State.modTdi_ctArmed (s : State) (f : TdiSt → TdiSt) : (s.modTdi f).ctArmed = s.ctArmed := rfl
@[simp] theorem State.modTdi_free (s : State) (f : TdiSt → TdiSt) : (s.modTdi f).free = s.free := rfl
@[simp] theorem State.modTdi_out (s : State) (f : TdiSt → TdiSt) : (s.modTdi f).out = s.out := rfl
@[simp] theorem State.modTdi_pending (s : State) (f : TdiSt → TdiSt) : (s.modTdi f).pending = s.pending := rfl
@[simp] theorem State.modTdi_power (s : State) (f : TdiSt → TdiSt) : (s.modTdi f).power = s.power := rfl
@[simp] theorem State.modTdi_rst (s : State) (f : TdiSt → TdiSt) : (s.modTdi f).rst = s.rst := rfl
@[simp] theorem State.modTdi_core (s : State) (f : TdiSt → TdiSt) : (s.modTdi f).core = s.core := rfl
@[simp] theorem State.modTdi_ms (s : State) (f : TdiSt → TdiSt) : (s.modTdi f).ms = s.ms := rfl
@[simp] theorem State.modTdi_mram (s : State) (f : TdiSt → TdiSt) : (s.modTdi f).mram = s.mram := rfl
@[simp] theorem State.modTdi_queues (s : State) (f : TdiSt → TdiSt) : (s.modTdi f).queues = s.queues := rfl
@[simp] theorem State.modTdi_gate (s : State) (f : TdiSt → TdiSt) : (s.modTdi f).gate = s.gate := rfl
@[simp] theorem State.modTdi_err (s : State) (f : TdiSt → TdiSt) : (s.modTdi f).err = s.err := rfl
@[simp] theorem State.modTdi_lanes (s : State) (f : TdiSt → TdiSt) : (s.modTdi f).lanes = s.lanes := rfl
@[simp] theorem State.modTdi_host (s : State) (f : TdiSt → TdiSt) : (s.modTdi f).host = s.host := rfl
@[simp] theorem State.modTdi_pav (s : State) (f : TdiSt → TdiSt) : (s.modTdi f).pav = s.pav := rfl
@[simp] theorem State.modTdi_fe (s : State) (f : TdiSt → TdiSt) : (s.modTdi f).fe = s.fe := rfl
@[simp] theorem State.modTdi_sht (s : State) (f : TdiSt → TdiSt) : (s.modTdi f).sht = s.sht := rfl
@[simp] theorem State.modTdi_nuc (s : State) (f : TdiSt → TdiSt) : (s.modTdi f).nuc = s.nuc := rfl
@[simp] theorem State.modTdi_tdi (s : State) (f : TdiSt → TdiSt) : (s.modTdi f).tdi = f s.tdi := rfl
@[simp] theorem State.modTdi_cal (s : State) (f : TdiSt → TdiSt) : (s.modTdi f).cal = s.cal := rfl
@[simp] theorem State.modTdi_fab (s : State) (f : TdiSt → TdiSt) : (s.modTdi f).fab = s.fab := rfl
@[simp] theorem State.modTdi_vis (s : State) (f : TdiSt → TdiSt) : (s.modTdi f).vis = s.vis := rfl
@[simp] theorem State.modTdi_key (s : State) (f : TdiSt → TdiSt) : (s.modTdi f).key = s.key := rfl
@[simp] theorem State.modTdi_eng (s : State) (f : TdiSt → TdiSt) : (s.modTdi f).eng = s.eng := rfl
@[simp] theorem State.modTdi_ej (s : State) (f : TdiSt → TdiSt) : (s.modTdi f).ej = s.ej := rfl
@[simp] theorem State.modTdi_ring (s : State) (f : TdiSt → TdiSt) : (s.modTdi f).ring = s.ring := rfl
@[simp] theorem State.modTdi_met (s : State) (f : TdiSt → TdiSt) : (s.modTdi f).met = s.met := rfl
@[simp] theorem State.modTdi_fw (s : State) (f : TdiSt → TdiSt) : (s.modTdi f).fw = s.fw := rfl
@[simp] theorem State.modTdi_svc (s : State) (f : TdiSt → TdiSt) : (s.modTdi f).svc = s.svc := rfl

@[simp] theorem State.modCal_regs (s : State) (f : CalSt → CalSt) : (s.modCal f).regs = s.regs := rfl
@[simp] theorem State.modCal_mem (s : State) (f : CalSt → CalSt) : (s.modCal f).mem = s.mem := rfl
@[simp] theorem State.modCal_ct (s : State) (f : CalSt → CalSt) : (s.modCal f).ct = s.ct := rfl
@[simp] theorem State.modCal_ctArmed (s : State) (f : CalSt → CalSt) : (s.modCal f).ctArmed = s.ctArmed := rfl
@[simp] theorem State.modCal_free (s : State) (f : CalSt → CalSt) : (s.modCal f).free = s.free := rfl
@[simp] theorem State.modCal_out (s : State) (f : CalSt → CalSt) : (s.modCal f).out = s.out := rfl
@[simp] theorem State.modCal_pending (s : State) (f : CalSt → CalSt) : (s.modCal f).pending = s.pending := rfl
@[simp] theorem State.modCal_power (s : State) (f : CalSt → CalSt) : (s.modCal f).power = s.power := rfl
@[simp] theorem State.modCal_rst (s : State) (f : CalSt → CalSt) : (s.modCal f).rst = s.rst := rfl
@[simp] theorem State.modCal_core (s : State) (f : CalSt → CalSt) : (s.modCal f).core = s.core := rfl
@[simp] theorem State.modCal_ms (s : State) (f : CalSt → CalSt) : (s.modCal f).ms = s.ms := rfl
@[simp] theorem State.modCal_mram (s : State) (f : CalSt → CalSt) : (s.modCal f).mram = s.mram := rfl
@[simp] theorem State.modCal_queues (s : State) (f : CalSt → CalSt) : (s.modCal f).queues = s.queues := rfl
@[simp] theorem State.modCal_gate (s : State) (f : CalSt → CalSt) : (s.modCal f).gate = s.gate := rfl
@[simp] theorem State.modCal_err (s : State) (f : CalSt → CalSt) : (s.modCal f).err = s.err := rfl
@[simp] theorem State.modCal_lanes (s : State) (f : CalSt → CalSt) : (s.modCal f).lanes = s.lanes := rfl
@[simp] theorem State.modCal_host (s : State) (f : CalSt → CalSt) : (s.modCal f).host = s.host := rfl
@[simp] theorem State.modCal_pav (s : State) (f : CalSt → CalSt) : (s.modCal f).pav = s.pav := rfl
@[simp] theorem State.modCal_fe (s : State) (f : CalSt → CalSt) : (s.modCal f).fe = s.fe := rfl
@[simp] theorem State.modCal_sht (s : State) (f : CalSt → CalSt) : (s.modCal f).sht = s.sht := rfl
@[simp] theorem State.modCal_nuc (s : State) (f : CalSt → CalSt) : (s.modCal f).nuc = s.nuc := rfl
@[simp] theorem State.modCal_tdi (s : State) (f : CalSt → CalSt) : (s.modCal f).tdi = s.tdi := rfl
@[simp] theorem State.modCal_cal (s : State) (f : CalSt → CalSt) : (s.modCal f).cal = f s.cal := rfl
@[simp] theorem State.modCal_fab (s : State) (f : CalSt → CalSt) : (s.modCal f).fab = s.fab := rfl
@[simp] theorem State.modCal_vis (s : State) (f : CalSt → CalSt) : (s.modCal f).vis = s.vis := rfl
@[simp] theorem State.modCal_key (s : State) (f : CalSt → CalSt) : (s.modCal f).key = s.key := rfl
@[simp] theorem State.modCal_eng (s : State) (f : CalSt → CalSt) : (s.modCal f).eng = s.eng := rfl
@[simp] theorem State.modCal_ej (s : State) (f : CalSt → CalSt) : (s.modCal f).ej = s.ej := rfl
@[simp] theorem State.modCal_ring (s : State) (f : CalSt → CalSt) : (s.modCal f).ring = s.ring := rfl
@[simp] theorem State.modCal_met (s : State) (f : CalSt → CalSt) : (s.modCal f).met = s.met := rfl
@[simp] theorem State.modCal_fw (s : State) (f : CalSt → CalSt) : (s.modCal f).fw = s.fw := rfl
@[simp] theorem State.modCal_svc (s : State) (f : CalSt → CalSt) : (s.modCal f).svc = s.svc := rfl

@[simp] theorem State.modFab_regs (s : State) (f : FabSt → FabSt) : (s.modFab f).regs = s.regs := rfl
@[simp] theorem State.modFab_mem (s : State) (f : FabSt → FabSt) : (s.modFab f).mem = s.mem := rfl
@[simp] theorem State.modFab_ct (s : State) (f : FabSt → FabSt) : (s.modFab f).ct = s.ct := rfl
@[simp] theorem State.modFab_ctArmed (s : State) (f : FabSt → FabSt) : (s.modFab f).ctArmed = s.ctArmed := rfl
@[simp] theorem State.modFab_free (s : State) (f : FabSt → FabSt) : (s.modFab f).free = s.free := rfl
@[simp] theorem State.modFab_out (s : State) (f : FabSt → FabSt) : (s.modFab f).out = s.out := rfl
@[simp] theorem State.modFab_pending (s : State) (f : FabSt → FabSt) : (s.modFab f).pending = s.pending := rfl
@[simp] theorem State.modFab_power (s : State) (f : FabSt → FabSt) : (s.modFab f).power = s.power := rfl
@[simp] theorem State.modFab_rst (s : State) (f : FabSt → FabSt) : (s.modFab f).rst = s.rst := rfl
@[simp] theorem State.modFab_core (s : State) (f : FabSt → FabSt) : (s.modFab f).core = s.core := rfl
@[simp] theorem State.modFab_ms (s : State) (f : FabSt → FabSt) : (s.modFab f).ms = s.ms := rfl
@[simp] theorem State.modFab_mram (s : State) (f : FabSt → FabSt) : (s.modFab f).mram = s.mram := rfl
@[simp] theorem State.modFab_queues (s : State) (f : FabSt → FabSt) : (s.modFab f).queues = s.queues := rfl
@[simp] theorem State.modFab_gate (s : State) (f : FabSt → FabSt) : (s.modFab f).gate = s.gate := rfl
@[simp] theorem State.modFab_err (s : State) (f : FabSt → FabSt) : (s.modFab f).err = s.err := rfl
@[simp] theorem State.modFab_lanes (s : State) (f : FabSt → FabSt) : (s.modFab f).lanes = s.lanes := rfl
@[simp] theorem State.modFab_host (s : State) (f : FabSt → FabSt) : (s.modFab f).host = s.host := rfl
@[simp] theorem State.modFab_pav (s : State) (f : FabSt → FabSt) : (s.modFab f).pav = s.pav := rfl
@[simp] theorem State.modFab_fe (s : State) (f : FabSt → FabSt) : (s.modFab f).fe = s.fe := rfl
@[simp] theorem State.modFab_sht (s : State) (f : FabSt → FabSt) : (s.modFab f).sht = s.sht := rfl
@[simp] theorem State.modFab_nuc (s : State) (f : FabSt → FabSt) : (s.modFab f).nuc = s.nuc := rfl
@[simp] theorem State.modFab_tdi (s : State) (f : FabSt → FabSt) : (s.modFab f).tdi = s.tdi := rfl
@[simp] theorem State.modFab_cal (s : State) (f : FabSt → FabSt) : (s.modFab f).cal = s.cal := rfl
@[simp] theorem State.modFab_fab (s : State) (f : FabSt → FabSt) : (s.modFab f).fab = f s.fab := rfl
@[simp] theorem State.modFab_vis (s : State) (f : FabSt → FabSt) : (s.modFab f).vis = s.vis := rfl
@[simp] theorem State.modFab_key (s : State) (f : FabSt → FabSt) : (s.modFab f).key = s.key := rfl
@[simp] theorem State.modFab_eng (s : State) (f : FabSt → FabSt) : (s.modFab f).eng = s.eng := rfl
@[simp] theorem State.modFab_ej (s : State) (f : FabSt → FabSt) : (s.modFab f).ej = s.ej := rfl
@[simp] theorem State.modFab_ring (s : State) (f : FabSt → FabSt) : (s.modFab f).ring = s.ring := rfl
@[simp] theorem State.modFab_met (s : State) (f : FabSt → FabSt) : (s.modFab f).met = s.met := rfl
@[simp] theorem State.modFab_fw (s : State) (f : FabSt → FabSt) : (s.modFab f).fw = s.fw := rfl
@[simp] theorem State.modFab_svc (s : State) (f : FabSt → FabSt) : (s.modFab f).svc = s.svc := rfl

@[simp] theorem State.modVis_regs (s : State) (f : VisSt → VisSt) : (s.modVis f).regs = s.regs := rfl
@[simp] theorem State.modVis_mem (s : State) (f : VisSt → VisSt) : (s.modVis f).mem = s.mem := rfl
@[simp] theorem State.modVis_ct (s : State) (f : VisSt → VisSt) : (s.modVis f).ct = s.ct := rfl
@[simp] theorem State.modVis_ctArmed (s : State) (f : VisSt → VisSt) : (s.modVis f).ctArmed = s.ctArmed := rfl
@[simp] theorem State.modVis_free (s : State) (f : VisSt → VisSt) : (s.modVis f).free = s.free := rfl
@[simp] theorem State.modVis_out (s : State) (f : VisSt → VisSt) : (s.modVis f).out = s.out := rfl
@[simp] theorem State.modVis_pending (s : State) (f : VisSt → VisSt) : (s.modVis f).pending = s.pending := rfl
@[simp] theorem State.modVis_power (s : State) (f : VisSt → VisSt) : (s.modVis f).power = s.power := rfl
@[simp] theorem State.modVis_rst (s : State) (f : VisSt → VisSt) : (s.modVis f).rst = s.rst := rfl
@[simp] theorem State.modVis_core (s : State) (f : VisSt → VisSt) : (s.modVis f).core = s.core := rfl
@[simp] theorem State.modVis_ms (s : State) (f : VisSt → VisSt) : (s.modVis f).ms = s.ms := rfl
@[simp] theorem State.modVis_mram (s : State) (f : VisSt → VisSt) : (s.modVis f).mram = s.mram := rfl
@[simp] theorem State.modVis_queues (s : State) (f : VisSt → VisSt) : (s.modVis f).queues = s.queues := rfl
@[simp] theorem State.modVis_gate (s : State) (f : VisSt → VisSt) : (s.modVis f).gate = s.gate := rfl
@[simp] theorem State.modVis_err (s : State) (f : VisSt → VisSt) : (s.modVis f).err = s.err := rfl
@[simp] theorem State.modVis_lanes (s : State) (f : VisSt → VisSt) : (s.modVis f).lanes = s.lanes := rfl
@[simp] theorem State.modVis_host (s : State) (f : VisSt → VisSt) : (s.modVis f).host = s.host := rfl
@[simp] theorem State.modVis_pav (s : State) (f : VisSt → VisSt) : (s.modVis f).pav = s.pav := rfl
@[simp] theorem State.modVis_fe (s : State) (f : VisSt → VisSt) : (s.modVis f).fe = s.fe := rfl
@[simp] theorem State.modVis_sht (s : State) (f : VisSt → VisSt) : (s.modVis f).sht = s.sht := rfl
@[simp] theorem State.modVis_nuc (s : State) (f : VisSt → VisSt) : (s.modVis f).nuc = s.nuc := rfl
@[simp] theorem State.modVis_tdi (s : State) (f : VisSt → VisSt) : (s.modVis f).tdi = s.tdi := rfl
@[simp] theorem State.modVis_cal (s : State) (f : VisSt → VisSt) : (s.modVis f).cal = s.cal := rfl
@[simp] theorem State.modVis_fab (s : State) (f : VisSt → VisSt) : (s.modVis f).fab = s.fab := rfl
@[simp] theorem State.modVis_vis (s : State) (f : VisSt → VisSt) : (s.modVis f).vis = f s.vis := rfl
@[simp] theorem State.modVis_key (s : State) (f : VisSt → VisSt) : (s.modVis f).key = s.key := rfl
@[simp] theorem State.modVis_eng (s : State) (f : VisSt → VisSt) : (s.modVis f).eng = s.eng := rfl
@[simp] theorem State.modVis_ej (s : State) (f : VisSt → VisSt) : (s.modVis f).ej = s.ej := rfl
@[simp] theorem State.modVis_ring (s : State) (f : VisSt → VisSt) : (s.modVis f).ring = s.ring := rfl
@[simp] theorem State.modVis_met (s : State) (f : VisSt → VisSt) : (s.modVis f).met = s.met := rfl
@[simp] theorem State.modVis_fw (s : State) (f : VisSt → VisSt) : (s.modVis f).fw = s.fw := rfl
@[simp] theorem State.modVis_svc (s : State) (f : VisSt → VisSt) : (s.modVis f).svc = s.svc := rfl

@[simp] theorem State.modKey_regs (s : State) (f : KeySt → KeySt) : (s.modKey f).regs = s.regs := rfl
@[simp] theorem State.modKey_mem (s : State) (f : KeySt → KeySt) : (s.modKey f).mem = s.mem := rfl
@[simp] theorem State.modKey_ct (s : State) (f : KeySt → KeySt) : (s.modKey f).ct = s.ct := rfl
@[simp] theorem State.modKey_ctArmed (s : State) (f : KeySt → KeySt) : (s.modKey f).ctArmed = s.ctArmed := rfl
@[simp] theorem State.modKey_free (s : State) (f : KeySt → KeySt) : (s.modKey f).free = s.free := rfl
@[simp] theorem State.modKey_out (s : State) (f : KeySt → KeySt) : (s.modKey f).out = s.out := rfl
@[simp] theorem State.modKey_pending (s : State) (f : KeySt → KeySt) : (s.modKey f).pending = s.pending := rfl
@[simp] theorem State.modKey_power (s : State) (f : KeySt → KeySt) : (s.modKey f).power = s.power := rfl
@[simp] theorem State.modKey_rst (s : State) (f : KeySt → KeySt) : (s.modKey f).rst = s.rst := rfl
@[simp] theorem State.modKey_core (s : State) (f : KeySt → KeySt) : (s.modKey f).core = s.core := rfl
@[simp] theorem State.modKey_ms (s : State) (f : KeySt → KeySt) : (s.modKey f).ms = s.ms := rfl
@[simp] theorem State.modKey_mram (s : State) (f : KeySt → KeySt) : (s.modKey f).mram = s.mram := rfl
@[simp] theorem State.modKey_queues (s : State) (f : KeySt → KeySt) : (s.modKey f).queues = s.queues := rfl
@[simp] theorem State.modKey_gate (s : State) (f : KeySt → KeySt) : (s.modKey f).gate = s.gate := rfl
@[simp] theorem State.modKey_err (s : State) (f : KeySt → KeySt) : (s.modKey f).err = s.err := rfl
@[simp] theorem State.modKey_lanes (s : State) (f : KeySt → KeySt) : (s.modKey f).lanes = s.lanes := rfl
@[simp] theorem State.modKey_host (s : State) (f : KeySt → KeySt) : (s.modKey f).host = s.host := rfl
@[simp] theorem State.modKey_pav (s : State) (f : KeySt → KeySt) : (s.modKey f).pav = s.pav := rfl
@[simp] theorem State.modKey_fe (s : State) (f : KeySt → KeySt) : (s.modKey f).fe = s.fe := rfl
@[simp] theorem State.modKey_sht (s : State) (f : KeySt → KeySt) : (s.modKey f).sht = s.sht := rfl
@[simp] theorem State.modKey_nuc (s : State) (f : KeySt → KeySt) : (s.modKey f).nuc = s.nuc := rfl
@[simp] theorem State.modKey_tdi (s : State) (f : KeySt → KeySt) : (s.modKey f).tdi = s.tdi := rfl
@[simp] theorem State.modKey_cal (s : State) (f : KeySt → KeySt) : (s.modKey f).cal = s.cal := rfl
@[simp] theorem State.modKey_fab (s : State) (f : KeySt → KeySt) : (s.modKey f).fab = s.fab := rfl
@[simp] theorem State.modKey_vis (s : State) (f : KeySt → KeySt) : (s.modKey f).vis = s.vis := rfl
@[simp] theorem State.modKey_key (s : State) (f : KeySt → KeySt) : (s.modKey f).key = f s.key := rfl
@[simp] theorem State.modKey_eng (s : State) (f : KeySt → KeySt) : (s.modKey f).eng = s.eng := rfl
@[simp] theorem State.modKey_ej (s : State) (f : KeySt → KeySt) : (s.modKey f).ej = s.ej := rfl
@[simp] theorem State.modKey_ring (s : State) (f : KeySt → KeySt) : (s.modKey f).ring = s.ring := rfl
@[simp] theorem State.modKey_met (s : State) (f : KeySt → KeySt) : (s.modKey f).met = s.met := rfl
@[simp] theorem State.modKey_fw (s : State) (f : KeySt → KeySt) : (s.modKey f).fw = s.fw := rfl
@[simp] theorem State.modKey_svc (s : State) (f : KeySt → KeySt) : (s.modKey f).svc = s.svc := rfl

@[simp] theorem State.modEng_regs (s : State) (f : EngSt → EngSt) : (s.modEng f).regs = s.regs := rfl
@[simp] theorem State.modEng_mem (s : State) (f : EngSt → EngSt) : (s.modEng f).mem = s.mem := rfl
@[simp] theorem State.modEng_ct (s : State) (f : EngSt → EngSt) : (s.modEng f).ct = s.ct := rfl
@[simp] theorem State.modEng_ctArmed (s : State) (f : EngSt → EngSt) : (s.modEng f).ctArmed = s.ctArmed := rfl
@[simp] theorem State.modEng_free (s : State) (f : EngSt → EngSt) : (s.modEng f).free = s.free := rfl
@[simp] theorem State.modEng_out (s : State) (f : EngSt → EngSt) : (s.modEng f).out = s.out := rfl
@[simp] theorem State.modEng_pending (s : State) (f : EngSt → EngSt) : (s.modEng f).pending = s.pending := rfl
@[simp] theorem State.modEng_power (s : State) (f : EngSt → EngSt) : (s.modEng f).power = s.power := rfl
@[simp] theorem State.modEng_rst (s : State) (f : EngSt → EngSt) : (s.modEng f).rst = s.rst := rfl
@[simp] theorem State.modEng_core (s : State) (f : EngSt → EngSt) : (s.modEng f).core = s.core := rfl
@[simp] theorem State.modEng_ms (s : State) (f : EngSt → EngSt) : (s.modEng f).ms = s.ms := rfl
@[simp] theorem State.modEng_mram (s : State) (f : EngSt → EngSt) : (s.modEng f).mram = s.mram := rfl
@[simp] theorem State.modEng_queues (s : State) (f : EngSt → EngSt) : (s.modEng f).queues = s.queues := rfl
@[simp] theorem State.modEng_gate (s : State) (f : EngSt → EngSt) : (s.modEng f).gate = s.gate := rfl
@[simp] theorem State.modEng_err (s : State) (f : EngSt → EngSt) : (s.modEng f).err = s.err := rfl
@[simp] theorem State.modEng_lanes (s : State) (f : EngSt → EngSt) : (s.modEng f).lanes = s.lanes := rfl
@[simp] theorem State.modEng_host (s : State) (f : EngSt → EngSt) : (s.modEng f).host = s.host := rfl
@[simp] theorem State.modEng_pav (s : State) (f : EngSt → EngSt) : (s.modEng f).pav = s.pav := rfl
@[simp] theorem State.modEng_fe (s : State) (f : EngSt → EngSt) : (s.modEng f).fe = s.fe := rfl
@[simp] theorem State.modEng_sht (s : State) (f : EngSt → EngSt) : (s.modEng f).sht = s.sht := rfl
@[simp] theorem State.modEng_nuc (s : State) (f : EngSt → EngSt) : (s.modEng f).nuc = s.nuc := rfl
@[simp] theorem State.modEng_tdi (s : State) (f : EngSt → EngSt) : (s.modEng f).tdi = s.tdi := rfl
@[simp] theorem State.modEng_cal (s : State) (f : EngSt → EngSt) : (s.modEng f).cal = s.cal := rfl
@[simp] theorem State.modEng_fab (s : State) (f : EngSt → EngSt) : (s.modEng f).fab = s.fab := rfl
@[simp] theorem State.modEng_vis (s : State) (f : EngSt → EngSt) : (s.modEng f).vis = s.vis := rfl
@[simp] theorem State.modEng_key (s : State) (f : EngSt → EngSt) : (s.modEng f).key = s.key := rfl
@[simp] theorem State.modEng_eng (s : State) (f : EngSt → EngSt) : (s.modEng f).eng = f s.eng := rfl
@[simp] theorem State.modEng_ej (s : State) (f : EngSt → EngSt) : (s.modEng f).ej = s.ej := rfl
@[simp] theorem State.modEng_ring (s : State) (f : EngSt → EngSt) : (s.modEng f).ring = s.ring := rfl
@[simp] theorem State.modEng_met (s : State) (f : EngSt → EngSt) : (s.modEng f).met = s.met := rfl
@[simp] theorem State.modEng_fw (s : State) (f : EngSt → EngSt) : (s.modEng f).fw = s.fw := rfl
@[simp] theorem State.modEng_svc (s : State) (f : EngSt → EngSt) : (s.modEng f).svc = s.svc := rfl

@[simp] theorem State.modEj_regs (s : State) (f : EjSt → EjSt) : (s.modEj f).regs = s.regs := rfl
@[simp] theorem State.modEj_mem (s : State) (f : EjSt → EjSt) : (s.modEj f).mem = s.mem := rfl
@[simp] theorem State.modEj_ct (s : State) (f : EjSt → EjSt) : (s.modEj f).ct = s.ct := rfl
@[simp] theorem State.modEj_ctArmed (s : State) (f : EjSt → EjSt) : (s.modEj f).ctArmed = s.ctArmed := rfl
@[simp] theorem State.modEj_free (s : State) (f : EjSt → EjSt) : (s.modEj f).free = s.free := rfl
@[simp] theorem State.modEj_out (s : State) (f : EjSt → EjSt) : (s.modEj f).out = s.out := rfl
@[simp] theorem State.modEj_pending (s : State) (f : EjSt → EjSt) : (s.modEj f).pending = s.pending := rfl
@[simp] theorem State.modEj_power (s : State) (f : EjSt → EjSt) : (s.modEj f).power = s.power := rfl
@[simp] theorem State.modEj_rst (s : State) (f : EjSt → EjSt) : (s.modEj f).rst = s.rst := rfl
@[simp] theorem State.modEj_core (s : State) (f : EjSt → EjSt) : (s.modEj f).core = s.core := rfl
@[simp] theorem State.modEj_ms (s : State) (f : EjSt → EjSt) : (s.modEj f).ms = s.ms := rfl
@[simp] theorem State.modEj_mram (s : State) (f : EjSt → EjSt) : (s.modEj f).mram = s.mram := rfl
@[simp] theorem State.modEj_queues (s : State) (f : EjSt → EjSt) : (s.modEj f).queues = s.queues := rfl
@[simp] theorem State.modEj_gate (s : State) (f : EjSt → EjSt) : (s.modEj f).gate = s.gate := rfl
@[simp] theorem State.modEj_err (s : State) (f : EjSt → EjSt) : (s.modEj f).err = s.err := rfl
@[simp] theorem State.modEj_lanes (s : State) (f : EjSt → EjSt) : (s.modEj f).lanes = s.lanes := rfl
@[simp] theorem State.modEj_host (s : State) (f : EjSt → EjSt) : (s.modEj f).host = s.host := rfl
@[simp] theorem State.modEj_pav (s : State) (f : EjSt → EjSt) : (s.modEj f).pav = s.pav := rfl
@[simp] theorem State.modEj_fe (s : State) (f : EjSt → EjSt) : (s.modEj f).fe = s.fe := rfl
@[simp] theorem State.modEj_sht (s : State) (f : EjSt → EjSt) : (s.modEj f).sht = s.sht := rfl
@[simp] theorem State.modEj_nuc (s : State) (f : EjSt → EjSt) : (s.modEj f).nuc = s.nuc := rfl
@[simp] theorem State.modEj_tdi (s : State) (f : EjSt → EjSt) : (s.modEj f).tdi = s.tdi := rfl
@[simp] theorem State.modEj_cal (s : State) (f : EjSt → EjSt) : (s.modEj f).cal = s.cal := rfl
@[simp] theorem State.modEj_fab (s : State) (f : EjSt → EjSt) : (s.modEj f).fab = s.fab := rfl
@[simp] theorem State.modEj_vis (s : State) (f : EjSt → EjSt) : (s.modEj f).vis = s.vis := rfl
@[simp] theorem State.modEj_key (s : State) (f : EjSt → EjSt) : (s.modEj f).key = s.key := rfl
@[simp] theorem State.modEj_eng (s : State) (f : EjSt → EjSt) : (s.modEj f).eng = s.eng := rfl
@[simp] theorem State.modEj_ej (s : State) (f : EjSt → EjSt) : (s.modEj f).ej = f s.ej := rfl
@[simp] theorem State.modEj_ring (s : State) (f : EjSt → EjSt) : (s.modEj f).ring = s.ring := rfl
@[simp] theorem State.modEj_met (s : State) (f : EjSt → EjSt) : (s.modEj f).met = s.met := rfl
@[simp] theorem State.modEj_fw (s : State) (f : EjSt → EjSt) : (s.modEj f).fw = s.fw := rfl
@[simp] theorem State.modEj_svc (s : State) (f : EjSt → EjSt) : (s.modEj f).svc = s.svc := rfl

@[simp] theorem State.modRing_regs (s : State) (f : RingSt → RingSt) : (s.modRing f).regs = s.regs := rfl
@[simp] theorem State.modRing_mem (s : State) (f : RingSt → RingSt) : (s.modRing f).mem = s.mem := rfl
@[simp] theorem State.modRing_ct (s : State) (f : RingSt → RingSt) : (s.modRing f).ct = s.ct := rfl
@[simp] theorem State.modRing_ctArmed (s : State) (f : RingSt → RingSt) : (s.modRing f).ctArmed = s.ctArmed := rfl
@[simp] theorem State.modRing_free (s : State) (f : RingSt → RingSt) : (s.modRing f).free = s.free := rfl
@[simp] theorem State.modRing_out (s : State) (f : RingSt → RingSt) : (s.modRing f).out = s.out := rfl
@[simp] theorem State.modRing_pending (s : State) (f : RingSt → RingSt) : (s.modRing f).pending = s.pending := rfl
@[simp] theorem State.modRing_power (s : State) (f : RingSt → RingSt) : (s.modRing f).power = s.power := rfl
@[simp] theorem State.modRing_rst (s : State) (f : RingSt → RingSt) : (s.modRing f).rst = s.rst := rfl
@[simp] theorem State.modRing_core (s : State) (f : RingSt → RingSt) : (s.modRing f).core = s.core := rfl
@[simp] theorem State.modRing_ms (s : State) (f : RingSt → RingSt) : (s.modRing f).ms = s.ms := rfl
@[simp] theorem State.modRing_mram (s : State) (f : RingSt → RingSt) : (s.modRing f).mram = s.mram := rfl
@[simp] theorem State.modRing_queues (s : State) (f : RingSt → RingSt) : (s.modRing f).queues = s.queues := rfl
@[simp] theorem State.modRing_gate (s : State) (f : RingSt → RingSt) : (s.modRing f).gate = s.gate := rfl
@[simp] theorem State.modRing_err (s : State) (f : RingSt → RingSt) : (s.modRing f).err = s.err := rfl
@[simp] theorem State.modRing_lanes (s : State) (f : RingSt → RingSt) : (s.modRing f).lanes = s.lanes := rfl
@[simp] theorem State.modRing_host (s : State) (f : RingSt → RingSt) : (s.modRing f).host = s.host := rfl
@[simp] theorem State.modRing_pav (s : State) (f : RingSt → RingSt) : (s.modRing f).pav = s.pav := rfl
@[simp] theorem State.modRing_fe (s : State) (f : RingSt → RingSt) : (s.modRing f).fe = s.fe := rfl
@[simp] theorem State.modRing_sht (s : State) (f : RingSt → RingSt) : (s.modRing f).sht = s.sht := rfl
@[simp] theorem State.modRing_nuc (s : State) (f : RingSt → RingSt) : (s.modRing f).nuc = s.nuc := rfl
@[simp] theorem State.modRing_tdi (s : State) (f : RingSt → RingSt) : (s.modRing f).tdi = s.tdi := rfl
@[simp] theorem State.modRing_cal (s : State) (f : RingSt → RingSt) : (s.modRing f).cal = s.cal := rfl
@[simp] theorem State.modRing_fab (s : State) (f : RingSt → RingSt) : (s.modRing f).fab = s.fab := rfl
@[simp] theorem State.modRing_vis (s : State) (f : RingSt → RingSt) : (s.modRing f).vis = s.vis := rfl
@[simp] theorem State.modRing_key (s : State) (f : RingSt → RingSt) : (s.modRing f).key = s.key := rfl
@[simp] theorem State.modRing_eng (s : State) (f : RingSt → RingSt) : (s.modRing f).eng = s.eng := rfl
@[simp] theorem State.modRing_ej (s : State) (f : RingSt → RingSt) : (s.modRing f).ej = s.ej := rfl
@[simp] theorem State.modRing_ring (s : State) (f : RingSt → RingSt) : (s.modRing f).ring = f s.ring := rfl
@[simp] theorem State.modRing_met (s : State) (f : RingSt → RingSt) : (s.modRing f).met = s.met := rfl
@[simp] theorem State.modRing_fw (s : State) (f : RingSt → RingSt) : (s.modRing f).fw = s.fw := rfl
@[simp] theorem State.modRing_svc (s : State) (f : RingSt → RingSt) : (s.modRing f).svc = s.svc := rfl

@[simp] theorem State.modMet_regs (s : State) (f : MetSt → MetSt) : (s.modMet f).regs = s.regs := rfl
@[simp] theorem State.modMet_mem (s : State) (f : MetSt → MetSt) : (s.modMet f).mem = s.mem := rfl
@[simp] theorem State.modMet_ct (s : State) (f : MetSt → MetSt) : (s.modMet f).ct = s.ct := rfl
@[simp] theorem State.modMet_ctArmed (s : State) (f : MetSt → MetSt) : (s.modMet f).ctArmed = s.ctArmed := rfl
@[simp] theorem State.modMet_free (s : State) (f : MetSt → MetSt) : (s.modMet f).free = s.free := rfl
@[simp] theorem State.modMet_out (s : State) (f : MetSt → MetSt) : (s.modMet f).out = s.out := rfl
@[simp] theorem State.modMet_pending (s : State) (f : MetSt → MetSt) : (s.modMet f).pending = s.pending := rfl
@[simp] theorem State.modMet_power (s : State) (f : MetSt → MetSt) : (s.modMet f).power = s.power := rfl
@[simp] theorem State.modMet_rst (s : State) (f : MetSt → MetSt) : (s.modMet f).rst = s.rst := rfl
@[simp] theorem State.modMet_core (s : State) (f : MetSt → MetSt) : (s.modMet f).core = s.core := rfl
@[simp] theorem State.modMet_ms (s : State) (f : MetSt → MetSt) : (s.modMet f).ms = s.ms := rfl
@[simp] theorem State.modMet_mram (s : State) (f : MetSt → MetSt) : (s.modMet f).mram = s.mram := rfl
@[simp] theorem State.modMet_queues (s : State) (f : MetSt → MetSt) : (s.modMet f).queues = s.queues := rfl
@[simp] theorem State.modMet_gate (s : State) (f : MetSt → MetSt) : (s.modMet f).gate = s.gate := rfl
@[simp] theorem State.modMet_err (s : State) (f : MetSt → MetSt) : (s.modMet f).err = s.err := rfl
@[simp] theorem State.modMet_lanes (s : State) (f : MetSt → MetSt) : (s.modMet f).lanes = s.lanes := rfl
@[simp] theorem State.modMet_host (s : State) (f : MetSt → MetSt) : (s.modMet f).host = s.host := rfl
@[simp] theorem State.modMet_pav (s : State) (f : MetSt → MetSt) : (s.modMet f).pav = s.pav := rfl
@[simp] theorem State.modMet_fe (s : State) (f : MetSt → MetSt) : (s.modMet f).fe = s.fe := rfl
@[simp] theorem State.modMet_sht (s : State) (f : MetSt → MetSt) : (s.modMet f).sht = s.sht := rfl
@[simp] theorem State.modMet_nuc (s : State) (f : MetSt → MetSt) : (s.modMet f).nuc = s.nuc := rfl
@[simp] theorem State.modMet_tdi (s : State) (f : MetSt → MetSt) : (s.modMet f).tdi = s.tdi := rfl
@[simp] theorem State.modMet_cal (s : State) (f : MetSt → MetSt) : (s.modMet f).cal = s.cal := rfl
@[simp] theorem State.modMet_fab (s : State) (f : MetSt → MetSt) : (s.modMet f).fab = s.fab := rfl
@[simp] theorem State.modMet_vis (s : State) (f : MetSt → MetSt) : (s.modMet f).vis = s.vis := rfl
@[simp] theorem State.modMet_key (s : State) (f : MetSt → MetSt) : (s.modMet f).key = s.key := rfl
@[simp] theorem State.modMet_eng (s : State) (f : MetSt → MetSt) : (s.modMet f).eng = s.eng := rfl
@[simp] theorem State.modMet_ej (s : State) (f : MetSt → MetSt) : (s.modMet f).ej = s.ej := rfl
@[simp] theorem State.modMet_ring (s : State) (f : MetSt → MetSt) : (s.modMet f).ring = s.ring := rfl
@[simp] theorem State.modMet_met (s : State) (f : MetSt → MetSt) : (s.modMet f).met = f s.met := rfl
@[simp] theorem State.modMet_fw (s : State) (f : MetSt → MetSt) : (s.modMet f).fw = s.fw := rfl
@[simp] theorem State.modMet_svc (s : State) (f : MetSt → MetSt) : (s.modMet f).svc = s.svc := rfl

@[simp] theorem State.modFw_regs (s : State) (f : FwSt → FwSt) : (s.modFw f).regs = s.regs := rfl
@[simp] theorem State.modFw_mem (s : State) (f : FwSt → FwSt) : (s.modFw f).mem = s.mem := rfl
@[simp] theorem State.modFw_ct (s : State) (f : FwSt → FwSt) : (s.modFw f).ct = s.ct := rfl
@[simp] theorem State.modFw_ctArmed (s : State) (f : FwSt → FwSt) : (s.modFw f).ctArmed = s.ctArmed := rfl
@[simp] theorem State.modFw_free (s : State) (f : FwSt → FwSt) : (s.modFw f).free = s.free := rfl
@[simp] theorem State.modFw_out (s : State) (f : FwSt → FwSt) : (s.modFw f).out = s.out := rfl
@[simp] theorem State.modFw_pending (s : State) (f : FwSt → FwSt) : (s.modFw f).pending = s.pending := rfl
@[simp] theorem State.modFw_power (s : State) (f : FwSt → FwSt) : (s.modFw f).power = s.power := rfl
@[simp] theorem State.modFw_rst (s : State) (f : FwSt → FwSt) : (s.modFw f).rst = s.rst := rfl
@[simp] theorem State.modFw_core (s : State) (f : FwSt → FwSt) : (s.modFw f).core = s.core := rfl
@[simp] theorem State.modFw_ms (s : State) (f : FwSt → FwSt) : (s.modFw f).ms = s.ms := rfl
@[simp] theorem State.modFw_mram (s : State) (f : FwSt → FwSt) : (s.modFw f).mram = s.mram := rfl
@[simp] theorem State.modFw_queues (s : State) (f : FwSt → FwSt) : (s.modFw f).queues = s.queues := rfl
@[simp] theorem State.modFw_gate (s : State) (f : FwSt → FwSt) : (s.modFw f).gate = s.gate := rfl
@[simp] theorem State.modFw_err (s : State) (f : FwSt → FwSt) : (s.modFw f).err = s.err := rfl
@[simp] theorem State.modFw_lanes (s : State) (f : FwSt → FwSt) : (s.modFw f).lanes = s.lanes := rfl
@[simp] theorem State.modFw_host (s : State) (f : FwSt → FwSt) : (s.modFw f).host = s.host := rfl
@[simp] theorem State.modFw_pav (s : State) (f : FwSt → FwSt) : (s.modFw f).pav = s.pav := rfl
@[simp] theorem State.modFw_fe (s : State) (f : FwSt → FwSt) : (s.modFw f).fe = s.fe := rfl
@[simp] theorem State.modFw_sht (s : State) (f : FwSt → FwSt) : (s.modFw f).sht = s.sht := rfl
@[simp] theorem State.modFw_nuc (s : State) (f : FwSt → FwSt) : (s.modFw f).nuc = s.nuc := rfl
@[simp] theorem State.modFw_tdi (s : State) (f : FwSt → FwSt) : (s.modFw f).tdi = s.tdi := rfl
@[simp] theorem State.modFw_cal (s : State) (f : FwSt → FwSt) : (s.modFw f).cal = s.cal := rfl
@[simp] theorem State.modFw_fab (s : State) (f : FwSt → FwSt) : (s.modFw f).fab = s.fab := rfl
@[simp] theorem State.modFw_vis (s : State) (f : FwSt → FwSt) : (s.modFw f).vis = s.vis := rfl
@[simp] theorem State.modFw_key (s : State) (f : FwSt → FwSt) : (s.modFw f).key = s.key := rfl
@[simp] theorem State.modFw_eng (s : State) (f : FwSt → FwSt) : (s.modFw f).eng = s.eng := rfl
@[simp] theorem State.modFw_ej (s : State) (f : FwSt → FwSt) : (s.modFw f).ej = s.ej := rfl
@[simp] theorem State.modFw_ring (s : State) (f : FwSt → FwSt) : (s.modFw f).ring = s.ring := rfl
@[simp] theorem State.modFw_met (s : State) (f : FwSt → FwSt) : (s.modFw f).met = s.met := rfl
@[simp] theorem State.modFw_fw (s : State) (f : FwSt → FwSt) : (s.modFw f).fw = f s.fw := rfl
@[simp] theorem State.modFw_svc (s : State) (f : FwSt → FwSt) : (s.modFw f).svc = s.svc := rfl

@[simp] theorem State.modSvc_regs (s : State) (f : SvcSt → SvcSt) : (s.modSvc f).regs = s.regs := rfl
@[simp] theorem State.modSvc_mem (s : State) (f : SvcSt → SvcSt) : (s.modSvc f).mem = s.mem := rfl
@[simp] theorem State.modSvc_ct (s : State) (f : SvcSt → SvcSt) : (s.modSvc f).ct = s.ct := rfl
@[simp] theorem State.modSvc_ctArmed (s : State) (f : SvcSt → SvcSt) : (s.modSvc f).ctArmed = s.ctArmed := rfl
@[simp] theorem State.modSvc_free (s : State) (f : SvcSt → SvcSt) : (s.modSvc f).free = s.free := rfl
@[simp] theorem State.modSvc_out (s : State) (f : SvcSt → SvcSt) : (s.modSvc f).out = s.out := rfl
@[simp] theorem State.modSvc_pending (s : State) (f : SvcSt → SvcSt) : (s.modSvc f).pending = s.pending := rfl
@[simp] theorem State.modSvc_power (s : State) (f : SvcSt → SvcSt) : (s.modSvc f).power = s.power := rfl
@[simp] theorem State.modSvc_rst (s : State) (f : SvcSt → SvcSt) : (s.modSvc f).rst = s.rst := rfl
@[simp] theorem State.modSvc_core (s : State) (f : SvcSt → SvcSt) : (s.modSvc f).core = s.core := rfl
@[simp] theorem State.modSvc_ms (s : State) (f : SvcSt → SvcSt) : (s.modSvc f).ms = s.ms := rfl
@[simp] theorem State.modSvc_mram (s : State) (f : SvcSt → SvcSt) : (s.modSvc f).mram = s.mram := rfl
@[simp] theorem State.modSvc_queues (s : State) (f : SvcSt → SvcSt) : (s.modSvc f).queues = s.queues := rfl
@[simp] theorem State.modSvc_gate (s : State) (f : SvcSt → SvcSt) : (s.modSvc f).gate = s.gate := rfl
@[simp] theorem State.modSvc_err (s : State) (f : SvcSt → SvcSt) : (s.modSvc f).err = s.err := rfl
@[simp] theorem State.modSvc_lanes (s : State) (f : SvcSt → SvcSt) : (s.modSvc f).lanes = s.lanes := rfl
@[simp] theorem State.modSvc_host (s : State) (f : SvcSt → SvcSt) : (s.modSvc f).host = s.host := rfl
@[simp] theorem State.modSvc_pav (s : State) (f : SvcSt → SvcSt) : (s.modSvc f).pav = s.pav := rfl
@[simp] theorem State.modSvc_fe (s : State) (f : SvcSt → SvcSt) : (s.modSvc f).fe = s.fe := rfl
@[simp] theorem State.modSvc_sht (s : State) (f : SvcSt → SvcSt) : (s.modSvc f).sht = s.sht := rfl
@[simp] theorem State.modSvc_nuc (s : State) (f : SvcSt → SvcSt) : (s.modSvc f).nuc = s.nuc := rfl
@[simp] theorem State.modSvc_tdi (s : State) (f : SvcSt → SvcSt) : (s.modSvc f).tdi = s.tdi := rfl
@[simp] theorem State.modSvc_cal (s : State) (f : SvcSt → SvcSt) : (s.modSvc f).cal = s.cal := rfl
@[simp] theorem State.modSvc_fab (s : State) (f : SvcSt → SvcSt) : (s.modSvc f).fab = s.fab := rfl
@[simp] theorem State.modSvc_vis (s : State) (f : SvcSt → SvcSt) : (s.modSvc f).vis = s.vis := rfl
@[simp] theorem State.modSvc_key (s : State) (f : SvcSt → SvcSt) : (s.modSvc f).key = s.key := rfl
@[simp] theorem State.modSvc_eng (s : State) (f : SvcSt → SvcSt) : (s.modSvc f).eng = s.eng := rfl
@[simp] theorem State.modSvc_ej (s : State) (f : SvcSt → SvcSt) : (s.modSvc f).ej = s.ej := rfl
@[simp] theorem State.modSvc_ring (s : State) (f : SvcSt → SvcSt) : (s.modSvc f).ring = s.ring := rfl
@[simp] theorem State.modSvc_met (s : State) (f : SvcSt → SvcSt) : (s.modSvc f).met = s.met := rfl
@[simp] theorem State.modSvc_fw (s : State) (f : SvcSt → SvcSt) : (s.modSvc f).fw = s.fw := rfl
@[simp] theorem State.modSvc_svc (s : State) (f : SvcSt → SvcSt) : (s.modSvc f).svc = f s.svc := rfl

end Sys2Proof.Machine
end

