-- ==== Sys2Proof/WellFormed.lean ====
section
/-! DEFINITION. Well-formed commands: the operands that the manual lets a sender give beyond what their types say. -/

namespace Sys2Proof

/-- An access as a master can issue it: 1, 2, 4 or 8 bytes, naturally aligned, for the control core and the debug port, and 1 to 256
bytes for a DMA master (the text before R156). -/
def accessOk (m : Master) (addr : Word) (len : Nat) : Bool :=
  match m with
  | .cc | .dbg => (len == 1 || len == 2 || len == 4 || len == 8) && addr.toNat % len == 0
  | .en | .fd | .ld | .hd => decide (1 ≤ len) && decide (len ≤ 256)

/-- The body of a machine-link frame has 0 to 1480 bytes (R375). -/
def hostBodyOk (c : HostCmd) : Bool := decide (c.body.length ≤ 1480)

/-- An instruction takes at least one cycle (R287). -/
def issueOk (i : Issue) : Bool := decide (1 ≤ i.cycles)

/-- Bits in error are found in 64-bit words (R110, R118). -/
def upsetsOk (l : List Upset) : Bool := l.all fun u => u.addr % 8 == 0 && decide (1 ≤ u.bits)

/-- A well-formed command: the lengths of R317 for an ejector frame, of R337 for a ring frame, and of R418 for signatures. -/
def Instr.wellFormed : Instr → Bool
  | .registerWrite m addr data => accessOk m addr data.length
  | .readClear m addr len => accessOk m addr len
  | .powerUp _ => true
  | .pllLock => true
  | .porRelease _ _ => true
  | .bankEnable _ _ => true
  | .bankDisable _ => true
  | .powerFail _ => true
  | .regulatorFault _ => true
  | .resetNAssert => true
  | .resetNRise => true
  | .deviceResetRelease _ _ => true
  | .rootSecretDone _ _ => true
  | .gpioEdge _ _ => true
  | .timerArm _ _ _ => true
  | .timerExpired _ => true
  | .clockFail _ => true
  | .clockRecovery => true
  | .ctRead _ => true
  | .ctLoad _ _ => true
  | .softwareReset _ _ => true
  | .ccRestartRequest _ _ => true
  | .warmPathDone => true
  | .wdogKick _ _ => true
  | .wdogExpire => true
  | .sramRead m addr len found => accessOk m addr len && upsetsOk found
  | .sramWrite m addr data found => accessOk m addr data.length && upsetsOk found
  | .scrubWord _ _ => true
  | .mramRead m addr len found => accessOk m addr len && upsetsOk found
  | .mramWrite m addr data => accessOk m addr data.length
  | .mramWordProgrammed => true
  | .mramClrStart _ _ => true
  | .mramClrSuspend _ => true
  | .mramClrResume _ => true
  | .clearStepDone => true
  | .patrolRead _ => true
  | .retirementDone _ => true
  | .queueWrite _ _ => true
  | .queueStallRelease _ => true
  | .qDrop _ _ => true
  | .qDropComplete _ => true
  | .gateRuleWrite _ _ _ => true
  | .gateSync _ => true
  | .gateSyncReturn => true
  | .gateSyncTimeout _ => true
  | .feRun _ => true
  | .feStop _ => true
  | .feConfigWrite _ _ _ => true
  | .bfeOutWrite _ _ => true
  | .rowBoundary => true
  | .biasWrite _ _ _ => true
  | .biasLimit _ => true
  | .fptMeasure _ _ => true
  | .fptStale => true
  | .shtPosChange _ _ => true
  | .shtPosFault => true
  | .shtClose _ => true
  | .shtOpen _ => true
  | .shtEvent _ => true
  | .shtPulseEnd _ => true
  | .shtSettleTimeout => true
  | .shtDwellEnd => true
  | .shtRecoverEnd => true
  | .reservoirReady => true
  | .pipelineSample _ _ _ => true
  | .nucCoefWrite _ _ => true
  | .nucCoefRead _ => true
  | .nucSetsel _ _ => true
  | .tdiApply _ => true
  | .calBegin c => hostBodyOk c
  | .calPointReady c => hostBodyOk c
  | .calCommit c => hostBodyOk c
  | .calDiscard c => hostBodyOk c
  | .calAbort c => hostBodyOk c
  | .calStatus c => hostBodyOk c
  | .calExport c => hostBodyOk c
  | .calImport c => hostBodyOk c
  | .calComputeDone => true
  | .calWriteDone => true
  | .calSettleTimeout => true
  | .calWaitTimeout => true
  | .calDriftTimeout => true
  | .calReselect => true
  | .calExpiryCheck => true
  | .visEnable _ _ => true
  | .visLock _ => true
  | .visLockLost => true
  | .visLineStart => true
  | .visLineEnd _ => true
  | .visSwap _ _ => true
  | .visRegWrite _ _ _ => true
  | .visTrigEnable _ _ => true
  | .visTrigger _ => true
  | .choreoLoad c => hostBodyOk c
  | .checkPassDone _ => true
  | .drainEnd => true
  | .applyDone _ => true
  | .choreoUnload c => hostBodyOk c
  | .tallyEntry => true
  | .cellMemAccess _ _ _ _ _ => true
  | .cellAdd i _ _ _ _ _ => issueOk i
  | .cellAdds i _ _ _ _ _ => issueOk i
  | .cellSub i _ _ _ _ _ => issueOk i
  | .cellSubs i _ _ _ _ _ => issueOk i
  | .cellAnd i _ _ _ _ _ => issueOk i
  | .cellOr i _ _ _ _ _ => issueOk i
  | .cellXor i _ _ _ _ _ => issueOk i
  | .cellAndn i _ _ _ _ _ => issueOk i
  | .cellMul i _ _ _ _ _ => issueOk i
  | .cellMuls i _ _ _ _ _ => issueOk i
  | .cellMulh i _ _ _ _ => issueOk i
  | .cellMulhu i _ _ _ _ => issueOk i
  | .cellMin i _ _ _ _ _ => issueOk i
  | .cellMax i _ _ _ _ _ => issueOk i
  | .cellMinu i _ _ _ _ _ => issueOk i
  | .cellMaxu i _ _ _ _ _ => issueOk i
  | .cellShl i _ _ _ _ _ => issueOk i
  | .cellShr i _ _ _ _ _ => issueOk i
  | .cellSar i _ _ _ _ _ => issueOk i
  | .cellRor i _ _ _ _ _ => issueOk i
  | .cellMac i _ _ _ _ => issueOk i
  | .cellMacs i _ _ _ _ => issueOk i
  | .cellCmp i _ _ => issueOk i
  | .cellTst i _ _ => issueOk i
  | .cellNeg i _ _ _ _ => issueOk i
  | .cellNegs i _ _ _ _ => issueOk i
  | .cellAbs i _ _ _ _ => issueOk i
  | .cellAbss i _ _ _ _ => issueOk i
  | .cellClz i _ _ _ => issueOk i
  | .cellMov i _ _ _ => issueOk i
  | .cellAddi i _ _ _ _ => issueOk i
  | .cellAddis i _ _ _ _ => issueOk i
  | .cellAndi i _ _ _ _ => issueOk i
  | .cellOri i _ _ _ _ => issueOk i
  | .cellXori i _ _ _ _ => issueOk i
  | .cellCmpi i _ _ => issueOk i
  | .cellShi i _ _ _ _ _ => issueOk i
  | .cellMovl i _ _ _ => issueOk i
  | .cellMovh i _ _ _ => issueOk i
  | .cellMova i _ _ => issueOk i
  | .cellRda i _ _ => issueOk i
  | .cellAdda i _ _ => issueOk i
  | .cellDiv i _ _ _ => issueOk i
  | .cellDivu i _ _ _ => issueOk i
  | .cellRem i _ _ _ => issueOk i
  | .cellRemu i _ _ _ => issueOk i
  | .cellRecip i _ _ => issueOk i
  | .cellSqrt i _ _ => issueOk i
  | .cellSqrtq i _ _ => issueOk i
  | .dsuResult _ => true
  | .cellLdw i _ _ _ _ _ => issueOk i
  | .cellLdh i _ _ _ _ _ => issueOk i
  | .cellLdhu i _ _ _ _ _ => issueOk i
  | .cellLdb i _ _ _ _ _ => issueOk i
  | .cellLdbu i _ _ _ _ _ => issueOk i
  | .cellStw i _ _ _ _ => issueOk i
  | .cellSth i _ _ _ _ _ => issueOk i
  | .cellStb i _ _ _ _ _ => issueOk i
  | .cellB i _ _ => issueOk i
  | .cellJal i _ _ => issueOk i
  | .cellJr i _ => issueOk i
  | .cellHalt i => issueOk i
  | .cellPop i _ _ => issueOk i
  | .cellPush i _ _ _ _ _ => issueOk i
  | .cellDrop i _ => issueOk i
  | .cellAvail i _ _ => issueOk i
  | .cellSpace i _ _ => issueOk i
  | .cellRds i _ _ => issueOk i
  | .cellWrf i _ => issueOk i
  | .cellGpw i _ _ => issueOk i
  | .cellGpr i _ _ => issueOk i
  | .cellTarm i _ _ => issueOk i
  | .cellTwait i _ => issueOk i
  | .cellTrd i _ _ => issueOk i
  | .cellNop i => issueOk i
  | .decisionRecord => true
  | .ejEnable _ _ => true
  | .ejArm _ _ => true
  | .fireDue _ => true
  | .syncDue _ => true
  | .statusPoll _ => true
  | .linkOpenProbe _ => true
  | .portReprobe _ => true
  | .fireAck _ _ res conf => decide (1 ≤ res.length) && decide (res.length ≤ 4) && decide (conf.length ≤ 4)
  | .syncRsp _ _ _ _ _ => true
  | .statusFrame _ _ _ _ conf => decide (conf.length ≤ 4)
  | .exchangeTimeout _ => true
  | .ejNoconf _ _ => true
  | .ejDriverHot _ => true
  | .driverCool _ => true
  | .admitLane _ => true
  | .linkSignal _ => true
  | .trainReceived _ _ _ => true
  | .linkDown _ => true
  | .linkIdleTimeout _ => true
  | .frameHeader _ header _ => header.length == 16
  | .frameEnd _ payload _ _ _ => decide (payload.length ≤ 536) && payload.length % 4 == 0
  | .ack _ _ _ _ => true
  | .nak _ _ _ _ => true
  | .ackTimer _ => true
  | .busyBackoff _ => true
  | .replayTimeout _ => true
  | .enum _ => true
  | .enumRound => true
  | .assign _ => true
  | .time _ => true
  | .timePeriod => true
  | .pdelayPeriod => true
  | .pdelayReq _ => true
  | .pdelayRsp _ => true
  | .timeSourceSwitch => true
  | .timeLost => true
  | .txn _ => true
  | .txnResponse _ => true
  | .txnRetry _ => true
  | .featureSend => true
  | .feature _ => true
  | .featureTimeout _ => true
  | .hello c => hostBodyOk c
  | .status c => hostBodyOk c
  | .setTime c => hostBodyOk c
  | .setUtc c => hostBodyOk c
  | .eventMask c => hostBodyOk c
  | .diagRead c => hostBodyOk c
  | .resetDevice c => hostBodyOk c
  | .reenumerate c => hostBodyOk c
  | .serviceFire c => hostBodyOk c
  | .shutterEvent c => hostBodyOk c
  | .inject c => hostBodyOk c
  | .loopSet c => hostBodyOk c
  | .loopStatus c => hostBodyOk c
  | .uploadOpen c => hostBodyOk c
  | .uploadData c => hostBodyOk c
  | .uploadClose c => hostBodyOk c
  | .downloadRead c => hostBodyOk c
  | .fwStage c => hostBodyOk c
  | .fwSchedule c => hostBodyOk c
  | .fwCancel c => hostBodyOk c
  | .fwStatus c => hostBodyOk c
  | .tenantKeys c _ => hostBodyOk c
  | .appletLoad c => hostBodyOk c
  | .statementRead c => hostBodyOk c
  | .periodClose c => hostBodyOk c
  | .plantConfig c => hostBodyOk c
  | .plantStatus c => hostBodyOk c
  | .hostFrameInvalid _ => true
  | .eventAck _ _ => true
  | .eventResend => true
  | .hostLinkDown => true
  | .plantStatusDatagram => true
  | .statementResend => true
  | .arpRequest _ => true
  | .arpRefresh => true
  | .plantNoarp => true
  | .icmpEcho _ => true
  | .plantRxDiscard => true
  | .plantLinkUp => true
  | .plantLinkDown => true
  | .loopMeasure _ _ => true
  | .mailboxRequest _ _ => true
  | .mailboxResponse _ _ => true
  | .counterIncrement _ _ => true
  | .lcTransition _ _ => true
  | .tamperSensor _ => true
  | .rngWindow _ => true
  | .dbgLevelWrite _ => true
  | .dbgSignature lulomus owner => lulomus.length == 64 && owner.length == 64
  | .dbgClose _ _ => true
  | .spreadMode _ _ => true
  | .clearWrite _ _ => true
  | .invalidate _ _ => true
  | .loadSess _ _ _ => true
  | .zeroSess _ _ => true
  | .keyRemask => true
  | .setupChallenge _ => true
  | .setupResponse _ => true
  | .setupConfirm _ => true
  | .setupDone _ => true
  | .setupTimeout _ _ => true
  | .setupRetry _ _ => true
  | .tenantKeyDelivery _ => true
  | .digSubmit _ _ => true
  | .cipSubmit _ _ => true
  | .pkaSubmit _ _ => true
  | .engSha256 => true
  | .engSha384 => true
  | .engSha512 => true
  | .engHmacSha256 => true
  | .engHmacSha384 => true
  | .engHmacSha512 => true
  | .engEcbEncrypt _ => true
  | .engEcbDecrypt _ => true
  | .engCbcEncrypt _ => true
  | .engCbcDecrypt _ => true
  | .engCtr _ => true
  | .engGcmEncrypt _ => true
  | .engGcmDecrypt _ => true
  | .engCmac _ => true
  | .engKeyWrap _ => true
  | .engKeyUnwrap _ => true
  | .engKeygen => true
  | .engPublic => true
  | .engSign _ => true
  | .engVerify => true
  | .engEcdh => true
  | .descriptorComplete _ => true
  | .deltaReport => true
  | .deltaReportApply _ => true
  | .deltaAck _ => true
  | .persistenceRound => true
  | .highWaterUpdate => true
  | .hookInit => true
  | .hookTick _ => true
  | .hookClose => true
  | .hookLoadCheck => true
  | .acsPush8 => true
  | .acsPush16 => true
  | .acsPush32 => true
  | .acsDup => true
  | .acsDrop => true
  | .acsSwap => true
  | .acsOver => true
  | .acsPick => true
  | .acsAdd => true
  | .acsSub => true
  | .acsMul => true
  | .acsDivu => true
  | .acsRemu => true
  | .acsDivs => true
  | .acsRems => true
  | .acsAnd => true
  | .acsOr => true
  | .acsXor => true
  | .acsNot => true
  | .acsShl => true
  | .acsShr => true
  | .acsSar => true
  | .acsEq => true
  | .acsLtu => true
  | .acsLts => true
  | .acsAdd64 => true
  | .acsSub64 => true
  | .acsLtu64 => true
  | .acsMulu64 => true
  | .acsLdw => true
  | .acsStw => true
  | .acsLdb => true
  | .acsStb => true
  | .acsJmp => true
  | .acsJz => true
  | .acsJnz => true
  | .acsCall => true
  | .acsRet => true
  | .acsEnd => true
  | .acsSysTime => true
  | .acsPeriod => true
  | .acsTally => true
  | .acsFloor => true
  | .acsRaiseFloor => true
  | .acsHmac => true
  | .acsRandom => true
  | .acsCloseReq => true
  | .acsOut => true
  | .acsLoadInfo => true
  | .acsLanes => true
  | .copyDone => true
  | .chunkSend => true
  | .fwBlock _ => true
  | .fwOpen _ => true
  | .fwQuery _ => true
  | .fwArm _ => true
  | .fwDisarm _ => true
  | .chainLoadRetry => true
  | .switchCommit => true
  | .switchover => true
  | .fwReady _ _ => true
  | .healthConfirm _ _ => true
  | .healthCheck => true
  | .probationExpired => true
  | .errorRaise l => !l.isEmpty
  | .errDone _ _ => true
  | .safeRequest _ _ => true
  | .safeTimeout => true
  | .errReport _ => true
  | .takeoverProbe => true
  | .takeover => true
  | .runhrsUpdate => true
  | .biasLimitEnd _ => true
  | .bankResponseDiscarded _ _ => true
  | .signalLost _ => true
  | .hostLinkUp => true
  | .unknownCommand c _ => hostBodyOk c
  | .arpReply _ => true
  | .trstNAssert => true
  | .illegalInstruction i => issueOk i
  | .acsBadOpcode => true
  | .admittingShutterRetry _ => true
  | .admissionShutterRetry _ => true
  | .injectTimeout => true
  | .rngRequestTimeout => true

end Sys2Proof
end

