-- ==== Sys2Proof/Tests/Slice0.lean ====
section
/-! SUPPORT. Tests of the model: ill-formed commands, worked examples of the manual, and for each statement with hypotheses a state
and operands that meet them, clause by clause. -/

open Sys2Proof Sys2Proof.Machine

namespace Sys2Proof.Tests

-- One theorem at a time: many long kernel checks side by side take more memory than a check allows.
set_option Elab.async false

/-! ## Small states -/

def live0 : State := { State.reset with power := { State.reset.power with phase := .running }, rst := { State.reset.rst with asserted := false } }
def mgr0 : State := (((live0.wrf Reg.SYS_ROLE 1 0 1).wrf Reg.SYS_ROLE 3 2 1).wrf Reg.SYS_ROLE 23 16 0).modCore fun c => { c with mode := .firmware }
def host0 : State := mgr0.wrb Reg.HOST_STAT 0 true

def nextOf (o : Host.Outcome State Fault Refusal) : State :=
  match o with
  | .next t => t
  | _ => State.reset

def word0 : MWord := { id := 0, master := .cc, addr := 0x20000000, data := 1, last := true }
def clear0 : ClearSt := { sector := 0, suspended := false, suspendRq := false, done := 0, master := .cc }
def entry0 : QEntry := { data := 0, eop := true }
def slot0 : QSlot := { entry := entry0, time := 0 }
def wait0 : SyncWait := { master := .cc, mark := 0, rest := [Reg.GATE_SYNC] }
def fpt0 : State := live0.wrf Reg.BFE_FPT_CFG 1 0 2
def pix0 : Pix := { code := 0, clip := false, stuck := false, y := 0, sat := false, dead := false }

/-- A row has begun in a geometry of two rows of one column. -/
def row0 : State := ((live0.wrb Reg.BFE_STAT 0 true).wr Reg.BFE_GEOM 0x00020003).modFe fun x => { x with row := some 0 }
/-- A temperature table whose values rise. -/
def fptTable (s : State) : Nat → State
  | 0 => s
  | n + 1 => (fptTable s n).wr (Reg.BFE_FPT_TAB_RAW n) (BitVec.ofNat 32 n)

def noSht : State := live0.wrb Reg.SHT_CFG 31 false
def shtReady : State := live0.modPower fun p => { p with resReady := true }
def pipe0 : State := row0.modFe fun x => { x with buf := [pix0], hdr := x.hdr }
def tdi0 : State := (((live0.wr Reg.BFE_GEOM 0x00020003).wr Reg.TDI_PATH 0x01000001).wr Reg.TDI_V0 1000).wr Reg.TDI_PITCH 100
def cal0 : State := (live0.modCore fun c => { c with mode := .firmware }).modCal fun x => { x with loaded := x.loaded.set 0 (some 0) }
def fw0 : State := live0.modCore fun c => { c with mode := .firmware }
/-- Cell 0 runs and holds word `w` at its PC. -/
def cellAt (w : Word) : State := (live0.wrb (Reg.CELL_STAT 0) 31 true).modFab fun f => { f with code := [(0, w)] }

def issue0 : Issue := { cell := 0, cycles := 1 }
def claim0 (kind : Nat) : Claim := { kind := kind, id := 0, flags := 1, base := 0, limit := 0 }
/-- The loaded choreography of a state holds the resource 0 of a kind. -/
def owned (s : State) (kind : Nat) : State := s.modFab fun f => { f with held := [claim0 kind] }

def route0 : Route := { srcCell := 0, srcSlot := 0, dstCell := 0, dstSlot := 0, hops := 1, path := 0 }
/-- A choreography is loaded whose route leads from slot 0 of cell 0 back to it. -/
def routed (s : State) : State := (s.wrb Reg.FAB_STAT 31 true).modFab fun f => { f with conf := { f.conf with routes := [route0] } }

def job0 (ph : LoadPhase) : LoadJob := { replace := false, swapAt := 0, buf := 0, phase := ph, reply := .none }
def load0 (ph : LoadPhase) : State := live0.modFab fun f => { f with load := some (job0 ph) }
def queued (s : State) (q : Fin 24) (l : List QEntry) : State := s.modQueue q fun x => { x with slots := l.map fun e => { entry := e, time := 0 } }
def fire6 : List QEntry := (List.range 6).map fun k => { data := 1, eop := k == 5 }
def up0 : State := live0.modEjp 0 fun p => { p with state := .up }
def fire0 : FireCmd := { part := 0, tOn := 20000, width := 1, mask := 1, cls := none, id := 0 }
def exch0 (k : EjFrame) (l : List FireCmd) : State := up0.modEjp 0 fun p => { p with exch := some { kind := k, seq := 255, cmds := l, sent := 0 } }

def armed0 : State := up0.wr Reg.EJ_CTRL 0x103
def e0 : QEntry := { data := 0, eop := false }
def e1 : QEntry := { data := 1, eop := false }
def e2 : QEntry := { data := 0, eop := false }
def e3 : QEntry := { data := 20000000, eop := false }
def e4 : QEntry := { data := 0, eop := true }

def frame0 : Frame := { typ := 1, src := 0xFF, dst := 0xFF }
def frlAt (n : Nat) : State := ((live0.wrb Reg.FRL_CTRL 0 true).wrf Reg.FRL_STAT 3 0 n)
def hdr0 (n : Nat) : List Byte := frlHeader frame0 n
def rx0 : RxFrame := { hdr := hdr0 0, frame := frame0, len := 0, stamp := 0, deliver := true, forward := false, cut := false }
def mgrKeys : State := mgr0.putSlot (191 + 255) { attr := 0x80000000, key := List.replicate 16 0 }
def wrkKeys : State := live0.modKey fun k => { k with sessB := List.replicate 16 0 }
def timed0 : State := live0.wrb Reg.CLK_STAT 2 true
def inboxed (s : State) (typ : Nat) (l : List Byte) : State :=
  s.modRing fun x => { x with inbox := [(0, { frame0 with typ := typ, payload := l }, 0)] }
def turn0 : List Byte := List.replicate 16 0 ++ [1, 0, 0, 8, 0, 0, 0, 0]
def node0 : RingNode := { pathB := false, hop := 1, pos := 0, role := 0, listen := false }

def cmd0 : HostCmd := { src := 0, txn := 1, epoch := 0, lane := 0, body := [] }
/-- A received frame as the packet of its queue: type, flags, TXN 0, payload words. -/
def rawFrame (typ flags : Nat) (l : List Word) : List QEntry :=
  ([BitVec.ofNat 32 (typ + 256 * flags), 0, BitVec.ofNat 32 (4 * l.length), 0] ++ l).map (fun w => { data := w, eop := false }) ++ [{ data := 0, eop := true }]
def framed (s : State) (l : List QEntry) : State := queued s 1 l
def hosted (b : List Byte) : HostCmd := { cmd0 with body := b }
def job1 : HostJob := hostJob cmd0 0x0001
def join0 : FeatJoin := { pos := 0, pkt := 0, nparts := 1, next := 0, entries := [] }

def rec0 : TxnRec := { src := 0, txn := 0, port := 0, toEn := false }
def pend0 : TxnPend := { txn := 0, pos := 0, toEn := false, body := [], use := .quiet }

def idle0 : State := host0.modLanes fun x => { x with own := { state := .idle } }
def cal9 : List Byte := [0, 0, 0, 0] ++ bytesLE 4 (4663 * 65536 / 20 + 1) ++ bytesLE 4 (15463 * 65536 / 20)
def cfg0 : PlantCfg := { ip := 0x0A000001, mask := 0xFF000000, gateway := 0, dst := 0x0A000002, srcPort := 1, dstPort := 1, interval := 1 }
def plant0 : State := (mgr0.wrb Reg.PLANT_STAT 0 true).modHost fun h => { h with plant := some cfg0 }
def loop0 : State := live0.wrf (Reg.LOOP_CTRL 0) 1 0 1

def acsRun (st : List Word) : AcsRun := { slot := 0, hook := .init, pc := 0, stack := st }
def applet0 (code : List Byte) : Applet := { tenant := 1, seq := 1, version := 1, code := code, entry := #v[0, 0xFFFF, 0, 0] }
/-- An applet runs in slot 0. -/
def acsAt (code : List Byte) (r : AcsRun) : State :=
  live0.modMet fun m => { m with run := some r, applets := m.applets.set 0 (some (applet0 code)) }
def ask0 : LoadAsk := { tenant := 1, recipe := 0, version := 0, lane := 0, mode := 0, buf := 0, swapAt := 0, reply := .none }

def stored0 (v : Byte) : State := live0.setBytes (counterA 0) [v]
def rng0 : State := live0.wrf Reg.PAV_RNG_STAT 1 0 1
def keyed0 (n : Nat) : State := fillKey live0 n 0x07330000 false 0 (List.replicate 16 0)
def busyWrk : State := (live0.modKey fun k => { k with sessB := [0] }).modRing fun x => { x with lastProt := #v[some 0, some 0] }
def setup0 : Setup := { pos := 0, pathB := false, nm := [] }
def withSetup (s : State) (x : Setup) : State := s.modKey fun k => { k with setups := [x] }
def mgrSetup : State := withSetup mgr0 setup0
def wrkSetup : State := withSetup live0 setup0
def eng0 : State := live0

/-- A descriptor of 16 words stands in enclave SRAM, at the front of an engine's queue. -/
def descAt (s : State) (l : List Nat) : State := s.setBytes 0x500A0000 (l.flatMap (bytesLE 4) ++ List.replicate (64 - 4 * l.length) 0)
def digAt (l : List Nat) : State := (descAt live0 l).modEng fun e => { e with digQ := [0x500A0000] }
def cipAt (s : State) (l : List Nat) : State := (descAt s l).modEng fun e => { e with cipQ := [0x500A0000] }
def pkaAt (ctrl : Nat) : State := (descAt live0 [ctrl]).modEng fun e => { e with pkaQ := [0x500A0000] }
def desc0 (ctrl : Word) : EngDesc :=
  { ctrl := ctrl, key := 0, src := 0, srcLen := 0, dst := 0x10000000, outLen := 16, aux := 0, aux2 := 0, aux2Len := 0, tag := 0, decl := 0,
    destSlot := 0, destAttr := 0 }

def chain0 : State := (mgr0.putSlot 192 { attr := 0x80000000, key := [0] }).modRing fun x => { x with nodes := [{ node0 with pos := 1 }] }
def chunk0 : Chunk := { header := true, block := 0, chunk := 0 }
def chainLoad (ph : ChainPhase) (sent : Nat) (rep : List (Nat × Chunk)) : ChainLoad :=
  { session := 0, next := true, source := 0x10000000, targets := [1], phase := ph, sent := sent, repair := rep }
def loading (ph : ChainPhase) (sent : Nat) (rep : List (Nat × Chunk)) : State := mgr0.modFw fun f => { f with load := some (chainLoad ph sent rep) }
def healthy0 (n : Nat) : State := mgr0.modFw fun f => { f with ready := true, healthy := n }
def stby0 (n : Nat) : State := (((fw0.wrf Reg.SYS_ROLE 1 0 2).wrf Reg.SYS_ROLE 3 2 2).wrf Reg.SYS_ROLE 23 16 1).modSvc fun v => { v with probes := n }

/-- Slot 4 holds an HMAC key, slot 5 an AES key for encryption and slot 6 one that wraps and unwraps. -/
def keyed2 : State :=
  fillKey (fillKey (fillKey live0 4 0x07142000 false 0 (List.replicate 32 0)) 5 0x07110200 false 0 (List.replicate 16 0)) 6 0x07111800 false 0
    (List.replicate 16 0)
def hmacAt : State := (descAt keyed2 [0x311, 4, 0, 0, 0x10000000, 32]).modEng fun e => { e with digQ := [0x500A0000] }
def ecbAt : State := cipAt keyed2 [0x301, 5, 0, 0, 0x10000000]
def wrapAt (ctrl : Nat) : State :=
  cipAt keyed2 (if ctrl = 0x109 then [ctrl, 0x00050006, 0, 0, 0x10000000] else [ctrl, 6, 0x10000000, 24, 0, 16, 0, 0, 0, 0, 0, 7])

def key16 : List Byte := List.replicate 16 0

/-! A choreography image for tenant 1 that passes every check: one cell without code, no routes, a claim of visible strip 0. Its
signature is over the digest choreoHash under the key choreoVk; its content key and its body are wrapped and sealed under a key of
zeros. -/

def choreoHash : List Byte := bytesBE 32 0x0a48cce4958ff93ccc247088bea7c5df734b2a13cd8d5dee843b5548a09f58dd
def choreoVk : List Byte :=
  bytesBE 32 0xd2ec878569908fc051ce575b3ea13e4fe4bbd76f13cceaa903332e4ded25999f ++
    bytesBE 32 0xce04a4f5482eea27d3b6021761fee434f9347665a44891735f77b60dfef79792
def choreoText : List Byte :=
  bytesBE 56 0xcfa7403d45606b6e064ec5d3baf39d18706003ca4fa62a74d1a2f58e7506358edd4ab1284c4ae17b41e85924470c36f74541cbe181bb7f30 ++
    bytesBE 56 0x617c1de3a80c3a1fd0c48f7321a82d376495ace0419167a0bcaf49b0c5cea62de6bc1c66545e1dada3fb77cd6e85da245fb0bdc5ec2cfc29 ++
    bytesBE 56 0xba0ae1ab2837e0f36986b70e931760124362c2bb6dd8f4b137fce8342c9cd386a2144296627268a8e50df537a805d579bb21ebbdf357ed34 ++
    bytesBE 56 0xbf58b5837150ddcaf362225e620a6070ac5ef529fb522466768b78c04b54e51ef5fa07e506a35fc6b0b710249c8626e1a96ad57828d7be2e ++
    bytesBE 56 0x1490a05a7cee43bde98b56e309dc01264ed6df6e82c1bfc72a59ad53a9c0e4347d6c5278507940a7def6ba93e8b6af1e46537276611bc766 ++
    bytesBE 56 0x915c587d341ba847acc9dda78c438e2c0669d514754c72d34d326b9b7ef34286cd0ef8a7e2e06ebe679c537212402dcb57eae99d76c7f4a7
def choreoPlain : List Byte :=
  bytesBE 56 0x0100000008000000010000000000000002000000780000000000000000000000000000000100000000000000000000000200000000000000 ++
    bytesBE 56 0x0000000003000000000000000000000004000000000000000000000005000000000000000000000008010000000000000000000009000000 ++
    bytesBE 56 0x00000000000000000a01000000000000000000000b0000000000000000000000030000008000000000000000000000000000000000000000 ++
    bytesBE 56 0x0000000000000000000000000000000000000000000000000000000000000000000000000000000000000000000000000000000000000000 ++
    bytesBE 56 0x0000000000000000000000000000000000000000000000000000000000000000000000000000000000000000000000000000000000000000 ++
    bytesBE 56 0x040000000400000000000000060000000c000000010000000200000000000000070000000800000001000000000000000800000000000000
def choreoHead : List Byte :=
  bytesLE 4 0xC7E00A11 ++ bytesLE 4 1 ++ bytesLE 2 1 ++ List.replicate 6 0 ++ bytesLE 4 1 ++ bytesLE 4 336 ++ [0, 0, 0xFF] ++
    List.replicate 5 0 ++ bytesBE 40 0x97317494343807e690fd1e431413963dc0e3deb4907fb89fa36ce65126d0ea1301381fb3a2941e2f ++
    List.replicate 24 0 ++ bytesBE 16 0xfe837a1aac5dacc18cc44fdf38ea070a ++ List.replicate 144 0
def choreoImage : List Byte := choreoHead ++ choreoText ++ choreoHash ++ choreoHash
def choreoKeys : List Byte × List Byte := (List.replicate 32 0, choreoVk)
def choreo0 : Choreo :=
  { tenant := 1, resLimit := 1, bodyLen := 336, cells := 1,
    ports := [0, 1, 2, 3, 4, 5, 8, 9, 10, 11].map fun p => { port := p, slots := if p = 8 ∨ p = 10 then [(0, 0)] else [] },
    parts := List.replicate 32 (0, false), claims := [{ kind := 2, id := 0, flags := 0, base := 0, limit := 0 }], tally := [(0, 0)] }
def body0 : Body := { conf := choreo0, code := [(0, [])], consts := [] }
/-- The keys of tenant 1 stand in slots 4 and 5. -/
def keyed (s : State) : State :=
  ((s.putSlot 4 { attr := 0x80000000, key := List.replicate 32 0 }).putSlot 5 { attr := 0x80000000, key := choreoVk }).modKey fun k =>
    { k with tenants := [(1, (4, 5))] }
/-- The image in buffer 0 is being checked while the lane holds some claims. -/
def bound0 (h : List Claim) : State := ((keyed (load0 .checking)).setBuf 0 (bufOf choreoImage)).modFab fun f => { f with held := h }
/-- The apply pass of the image. -/
def jobA : LoadJob := { job0 .applying with keys := choreoKeys, choreo := choreo0 }
def applying0 : State := ((live0.modFab fun f => { f with load := some jobA })).setBuf 0 (bufOf choreoImage)

def basePoint : List Byte := ecBytes p256 (ecBase p256)
def wrapped0 : State := live0.setBytes 0x10000000 (keyWrap key16 key16)
/-- Slot 4 holds the private key 1, and a point stands in memory. -/
def ecAt : State := (fillKey live0 4 0x0715A000 false 0 (bytesBE 32 1)).setBytes 0x10000100 basePoint
def ecD : EngDesc := { desc0 0x201 with key := 4, aux := 0x10000100, destSlot := 7, destAttr := 0x48000 }
theorem pairEq {α β : Type} {p : α × β} {a : α} (h : p.1 = a) : p = (a, p.2) := Prod.ext h rfl

/-! The frames of a session setup and of a key delivery, with the MACs and the wrapping that make them valid. -/

def grpMgr : State := withSetup ((fillKey mgr0 2 0x07330000 false 0 key16).wrf Reg.PAV_RNG_STAT 1 0 1) setup0
def zeros32 : List Byte := List.replicate 32 0
def hello2 : List Word :=
  2 :: wordsOf 8 zeros32 ++ wordsOf 16 basePoint ++ wordsOf 8 (macW grpMgr { setup0 with nw := zeros32, peer := basePoint } zeros32 basePoint)
def setupW : Setup := { setup0 with priv := 1, pub := basePoint }
def grpWrk : State := withSetup (keyed0 2) setupW
def hello3 : List Word := 3 :: wordsOf 16 basePoint ++ wordsOf 8 (macM grpWrk setupW basePoint basePoint)
def keysOut : List Word := [0x0E08, 1] ++ wordsOf 10 (keyWrap key16 zeros32) ++ wordsOf 16 basePoint
/-- Every general slot is valid. -/
def full0 : State := (List.range 188).foldl (fun s n => s.putSlot (n + 4) { attr := 0x80000000 }) wrkKeys
theorem session_is {x : Setup} {priv : Nat} {peer : List Byte} (h : pkaValid p256 peer = true) :
    sessionKey x priv peer = some (hmac .sha256 ((ecBytes p256 (ecMul p256 priv (some (ecPoint p256 peer)))).take 32)
      (ascii [0x53, 0x45, 0x53, 0x53] ++ x.nm ++ x.nw ++ [BitVec.ofNat 8 x.pos, BitVec.ofNat 8 (b2n x.pathB)])) := if_pos h
/-- A public key under which the digest of six zero bytes but for a 2 signs itself. -/
def dbgVk : List Byte :=
  bytesBE 32 0x16825872a8b05a1a76d2974b29171d6cb2c1754f01852152da704f8a43e55579 ++
    bytesBE 32 0xcceab85e16feb390e8a0bed897da47eb07309e60a5f3a37259ccab2d04abe535
def dbgSig : List Byte := sha256 [0, 0, 0, 0, 0, 2] ++ sha256 [0, 0, 0, 0, 0, 2]
/-- An owned device whose record holds that key with its CMAC, and a nonce that awaits its attempt. -/
def ownerRec : List Byte := List.replicate 64 0 ++ dbgVk ++ cmac storageKey dbgVk ++ [1, 0, 0, 0, 0, 0, 0, 0]
def dbg0 (fails : Nat) : State :=
  ((live0.putSlot 1 { attr := 0x80000000 }).modPav fun p => { p with lcInForce := 2, dbgNonce := some ([0, 0, 0, 0], 0), dbgFails := fails }).setBytes
    deviceRecord ownerRec

/-- Slot 4 holds a private key that signs. -/
def signD : EngDesc := { desc0 0x203 with key := 4, srcLen := 32 }
def signK : State := (useSlot ecAt signD.slot [5, 6] [13] 20 signD.secure).2
def signH : List Byte := (engRead signK signD signD.src 32).1
def signU : State := (engRead signK signD signD.src 32).2.2
theorem eta_pair {α β : Type} (p : α × β) : p = (p.1, p.2) := rfl
/-! ## Well-formed commands: one ill-formed term for each check -/

theorem test_wellFormed_access_size : (Instr.registerWrite .cc 0x40000000 [0, 0, 0]).wellFormed = false := by decide
theorem test_wellFormed_access_alignment : (Instr.readClear .dbg 0x40000002 4).wellFormed = false := by decide
theorem test_wellFormed_burst_length : (Instr.sramRead .hd 0x10000000 257 []).wellFormed = false := by decide
theorem test_wellFormed_upset_address : (Instr.mramRead .hd 0x20000000 8 [{ addr := 4, bits := 1 }]).wellFormed = false := by decide
theorem test_wellFormed_issue_cycles : (Instr.illegalInstruction { cell := 0, cycles := 0 }).wellFormed = false := by decide
theorem test_wellFormed_host_body : (Instr.hello { cmd0 with body := List.replicate 1481 0 }).wellFormed = false := by decide +kernel
theorem test_wellFormed_frame_header : (Instr.frameHeader 0 [0x01] 0).wellFormed = false := by decide
theorem test_wellFormed_frame_payload : (Instr.frameEnd 0 [0, 0, 0] 0 true false).wellFormed = false := by decide
theorem test_wellFormed_fire_ack : (Instr.fireAck 0 0 [] []).wellFormed = false := by decide
theorem test_wellFormed_status_frame :
    (Instr.statusFrame 0 0 1 0 (List.replicate 5 { cseq := 0, id := 0, code := 0, delta := 0 })).wellFormed = false := by decide
theorem test_wellFormed_signatures : (Instr.dbgSignature [] []).wellFormed = false := by decide
theorem test_wellFormed_raise_empty : (Instr.errorRaise []).wellFormed = false := by decide
theorem test_wellFormed_accepts : (Instr.registerWrite .hd 0x40000000 [0, 0, 0, 0]).wellFormed = true := by decide

/-! ## Worked examples of the manual, one step or one function each -/

/-- The poisoned word of the example after R115, step 3: a control-core read returns zero with 0x1003. -/
theorem test_poisoned_read :
    (nextOf (exec (.sramRead .cc 0x10090104 4 []) (live0.modMs fun m => { m with poison := [0x10090100] }))).out.head? =
      some (.busResp .cc [0, 0, 0, 0] 0x1003) := by decide

/-- The same example, step 5: the second half of a write pair clears the poison. -/
theorem test_pair_clears_poison :
    (nextOf (exec (.sramWrite .cc 0x10090104 [0x78, 0x56, 0x34, 0x12] [])
      (live0.modMs fun m => { m with poison := [0x10090100], pairs := [{ master := .cc, addr := 0x10090100, data := [0, 0, 0, 0] }] }))).ms.poison =
      [] := by decide

/-- The window of the example before the gate registers: page 0x300 to 0x30F for HD to write. -/
def window : State :=
  ((live0.wr (Reg.GATE_SCO_BASE 2) 0x300).wr (Reg.GATE_SCO_LIMIT 2) 0x30F).wr (Reg.GATE_SCO_PERM 2) 0x10000203

/-- Step 4: the first byte decides, and 128 bytes from 0x1030_FFC0 are permitted. -/
theorem test_gate_first_byte : gateRefusal window { master := .hd, write := true, addr := 0x1030FFC0, len := 128 } = none := by decide

/-- Step 5: a burst that starts below the window is refused with 0x2001. -/
theorem test_gate_refuses : gateRefusal window { master := .hd, write := true, addr := 0x102FFFC0, len := 128 } = some 0x2001 := by decide

/-- The fall time of row 20 in the radiometric example, step 8 (its 30,027 µs for row 63 is not the nearest microsecond). -/
theorem test_fall_delay : fallDelay 3000 9807 1500 20 = 9842 := by decide +kernel

/-- K for a time constant of 8.0 ms at that head's frame period, step 4. -/
theorem test_tau_k : nominalK 159744 8000 = 903 := by decide +kernel

/-- DIV of the most negative number by −1 saturates and sets V: the cell example, step 9. -/
theorem test_div_overflow : dsuDiv 0x80000000 0xFFFFFFFF = { r := 0x7FFFFFFF, v := true } := by decide

/-- The words of the cell example. -/
theorem test_cell_words :
    encI 0x08 0 1 true 0 = 0x20060000 ∧ encB 0x20 1 0 3 = 0x80400003 ∧ encR 0x0C 2 3 1 false 0 = 0x308C4000 ∧
      encR 0x0C 5 6 7 false 0 = 0x3159C000 ∧ encB 0x20 9 0 20 = 0x82400014 := by decide

/-- No row of the table has bits, so no word spells a command. -/
theorem test_no_command_words : decodeTableWord 32 0 = none := rfl

/-- The reset state is in its canonical form and its queue is empty. -/
theorem test_reset : State.reset.canon = true ∧ State.reset.pending = [] := by decide

/-- The example of FIPS 197 with a 256-bit key. -/
theorem test_aes256 :
    aesEncrypt ((List.range 32).map fun i => BitVec.ofNat 8 i) (bytesBE 16 0x00112233445566778899aabbccddeeff) =
      bytesBE 16 0x8ea2b7ca516745bfeafc49904b496089 := by decide +kernel

/-- The one-block example of FIPS 180: the digest of "abc". -/
theorem test_sha256 :
    sha256 [0x61, 0x62, 0x63] = bytesBE 32 0xba7816bf8f01cfea414140de5dae2223b00361a396177a9cb410ff61f20015ad := by decide +kernel

/-! ## The choreography image passes its checks -/

theorem choreo_signed : sha256 (choreoHead ++ choreoText) = choreoHash := by decide +kernel

theorem choreo_verified : ecdsaCheck p256 choreoVk choreoHash (choreoHash ++ choreoHash) = true := by decide +kernel

theorem choreo_key : keyUnwrap (List.replicate 32 0) (slice choreoHead 32 40) = some (List.replicate 32 0) := by decide +kernel

theorem choreo_text :
    gcmDecrypt (List.replicate 32 0) (slice choreoHead 0x48 12) (choreoHead.take 0x60) choreoText (slice choreoHead 0x60 16) =
      some choreoPlain := by decide +kernel

theorem choreo_parts :
    numAt choreoImage 0x14 4 = 336 ∧ slice choreoImage 0 0x100 = choreoHead ∧ slice choreoImage 0x100 336 = choreoText ∧
      slice choreoImage 592 64 = choreoHash ++ choreoHash := by decide +kernel

theorem choreo_opens : openChoreo choreoImage choreoKeys = some choreoPlain := by
  obtain ⟨hn, hh, hc, hs⟩ := choreo_parts
  simp only [openChoreo, hn, hh, hc, choreo_signed, Nat.reduceAdd, hs, choreoKeys, choreo_verified, choreo_key, choreo_text, Bool.not_true,
    Bool.false_eq_true, ↓reduceIte]

theorem choreo_parsed :
    parseBody choreoPlain =
      some ({ body0 with conf := { choreo0 with tenant := 0, resLimit := 0, bodyLen := 0 } }, [0, 0, 0, 0, 0, 0, 1, 0, 1, 0]) := by
  decide +kernel

theorem choreo_fields :
    choreoImage.length = 656 ∧ numAt choreoImage 8 2 = 1 ∧ numAt choreoImage 0 4 = 0xC7E00A11 ∧ numAt choreoImage 4 2 = 1 ∧
      numAt choreoImage 6 2 = 0 ∧ numAt choreoImage 0x10 4 = 1 ∧
      (zeroSpan choreoImage 0x1B 0x20 && zeroSpan choreoImage 0x54 0x60 && zeroSpan choreoImage 0x70 0x100) = true ∧
      numAt choreoImage 0xC 4 = 0 ∧ numAt choreoImage 0xA 2 = 0 ∧ numAt choreoImage 0x18 2 = 0 ∧ numAt choreoImage 0x1A 1 = 0xFF := by
  decide +kernel

/-- The checks of an image of 656 bytes for tenant 1, from what each of them reads. -/
theorem checkChoreo_of {s : State} {l p : List Byte} {k : List Byte × List Byte} {b : Body} {c : List Nat}
    (h0 : l.length = 656) (h1 : numAt l 0x14 4 = 336) (h2 : numAt l 8 2 = 1) (h3 : numAt l 0 4 = 0xC7E00A11) (h4 : numAt l 4 2 = 1)
    (h5 : numAt l 6 2 = 0) (h6 : numAt l 0x10 4 = 1)
    (h7 : (zeroSpan l 0x1B 0x20 && zeroSpan l 0x54 0x60 && zeroSpan l 0x70 0x100) = true) (h8 : numAt l 0xC 4 = 0)
    (h9 : numAt l 0xA 2 = 0) (h10 : numAt l 0x18 2 = 0) (h11 : numAt l 0x1A 1 = 0xFF) (e1 : tenantKeys s 1 = some k)
    (e2 : openChoreo l k = some p) (e3 : parseBody p = some (b, c))
    (e4 : cellsOk { b with conf := { b.conf with tenant := 1, recipe := 0, version := 0, resLimit := 1, bodyLen := 336 } } = true)
    (e5 : routesOk { b.conf with tenant := 1, recipe := 0, version := 0, resLimit := 1, bodyLen := 336 } = true)
    (e6 : portsOk { b.conf with tenant := 1, recipe := 0, version := 0, resLimit := 1, bodyLen := 336 } c = true)
    (e7 : claimsOk b.conf.claims = true) (e8 : (cntRead s 0x201).getD 0 = 0) :
    checkChoreo s l = (0, some { b with conf := { b.conf with tenant := 1, recipe := 0, version := 0, resLimit := 1, bodyLen := 336 } }) := by
  simp [checkChoreo, h0, h1, h2, h3, h4, h5, h6, h7, h8, h9, h10, h11, e1, e2, e3, e4, e5, e6, e7, e8]

theorem choreo_checked (h : List Claim) : checkChoreo (bound0 h) ((bound0 h).buf 0).bytes = (0, some body0) := by
  have hb : ((bound0 h).buf 0).bytes = choreoImage := bytes_bufOf choreoImage
  have hk : tenantKeys (bound0 h) 1 = some choreoKeys := by
    rw [show tenantKeys (bound0 h) 1 = tenantKeys (keyed State.reset) 1 from rfl]; decide +kernel
  have hc : cntRead (bound0 h) 0x201 = cntRead State.reset 0x201 := rfl
  obtain ⟨f0, f2, f3, f4, f5, f6, f7, f8, f9, f10, f11⟩ := choreo_fields
  rw [hb]
  exact checkChoreo_of f0 choreo_parts.1 f2 f3 f4 f5 f6 f7 f8 f9 f10 f11 hk choreo_opens choreo_parsed (by decide +kernel)
    (by decide +kernel) (by decide +kernel) (by decide +kernel) ((congrArg (·.getD 0) hc).trans (by decide +kernel))

theorem choreo_reopens : reopenChoreo applying0 jobA = some body0 := by
  have hb : (applying0.buf 0).bytes = choreoImage := bytes_bufOf choreoImage
  rw [reopenChoreo, show jobA.buf = 0 from rfl, hb, show jobA.keys = choreoKeys from rfl, choreo_opens]
  simp only [choreo_parsed]
  decide +kernel

theorem length_bytesLE : ∀ n v : Nat, (bytesLE n v).length = n
  | 0, _ => rfl
  | n + 1, v => congrArg (· + 1) (length_bytesLE n (v / 256))
theorem length_bytesBE (n v : Nat) : (bytesBE n v).length = n := by rw [bytesBE, List.length_reverse, length_bytesLE]
theorem length_cmac (key m : List Byte) : (cmac key m).length = 16 := by
  have h : ∀ (k1 k2 : List Byte) (l : List (List Byte)) (x : List Byte), (cmacChain key k1 k2 l x).length = 16 := by
    intro k1 k2 l
    induction l with
    | nil => intro x; rw [cmacChain, aesEncrypt, aesRun, length_bytesBE]
    | cons b r ih =>
      intro x
      cases r with
      | nil => rw [cmacChain, aesEncrypt, aesRun, length_bytesBE]
      | cons c r =>
        rw [cmacChain]
        · exact ih _
        · intro h; cases h
  exact h _ _ _ _

theorem length_ownerRec : ownerRec.length = 0x98 := by
  simp only [ownerRec, List.length_append, length_cmac]
  decide +kernel
theorem owner_record (n : Nat) : mramBytes (dbg0 n) deviceRecord 0x98 = some ownerRec := by
  have h : (dbg0 n).bytesAt deviceRecord 0x98 = ownerRec := by
    rw [← length_ownerRec]; exact bytesAt_setBytes_same _ _ _ rfl
  rw [← h]
  exact if_pos (by rfl)
theorem storage_key_kept (s : State) (g : PavSt → PavSt) (a : Nat) (l : List Byte) :
    haveStorageKey ((s.modPav g).setBytes a l) = haveStorageKey s := rfl
theorem owner_key (n : Nat) : ownerKey (dbg0 n) = some dbgVk := by
  have hv : dbgVk.length = 64 := by decide +kernel
  have hc : (cmac storageKey dbgVk).length = 16 := length_cmac _ _
  have h1 : slice ownerRec 0x40 64 = dbgVk := by
    simp [slice, ownerRec, List.drop_append, List.take_append, hv, hc]
  have h2 : slice ownerRec 0x80 16 = cmac storageKey dbgVk := by
    simp [slice, ownerRec, List.drop_append, hv, hc]
  have h3 : numAt ownerRec 0x90 8 = 1 := by
    rw [numAt, show slice ownerRec 0x90 8 = [1, 0, 0, 0, 0, 0, 0, 0] by simp [slice, ownerRec, List.drop_append, List.take_append, hv, hc]]
    rfl
  rw [ownerKey, owner_record]
  simp only [h1, h2, h3]
  rw [dbg0, storage_key_kept,
    show haveStorageKey (live0.putSlot 1 { attr := 0x80000000 }) = true by decide +kernel]
  rfl
theorem dbg_sig : p256Verify dbgVk ([0, 0, 0, 0] ++ [0, 2]) dbgSig = true := by decide +kernel
theorem dbg_sig0 : p256Verify dbgVk ([0, 0, 0, 0] ++ [0, 2]) [] = false := by decide +kernel
theorem dbg_lc (n : Nat) : (dbg0 n).lc = 2 := by rfl
/-! ## States and operands that meet the hypotheses of the statements -/

theorem witness_EmptyQueueTicks :
    (∃ s : State, s.pending = [] ∧ s.live = false) ∧
    (∃ s : State, s.pending = [] ∧ s.live = true ∧ s.fwRuns = false ∧ s.ctArmed = false ∧ s.ring.slew = 0 ∧ s.rst.due = false ∧
      (∀ k : Fin 8, timerOn s k.val = false) ∧ (∀ k : Fin 8, s.fab.timers[k] = (none, false))) ∧
    (∃ s : State, s.ctArmed = true) :=
  ⟨
    ⟨State.reset.modRst fun r => { r with asserted := true }, by decide, by decide⟩,
    ⟨live0, by decide, by decide, by decide, by decide, by decide, by decide, by decide, by decide⟩,
    ⟨live0.modCtArmed fun _ => true, by decide⟩⟩

theorem witness_StepKeepsCanonicalForm :
    (∃ s : State, ∃ t : State, s.canon = true ∧ step s = .next t) :=
    ⟨live0, nextOf (step live0), by decide, rfl⟩

theorem witness_SupplySequence :
    (∃ s : State, s.power.phase = .off) ∧
    (∃ s : State, s.power.phase = .ramping) ∧
    (∃ s : State, s.power.phase = .locked ∧ s.power.bank2 ≠ .disabled ∧ s.rst.resetNLow = false ∧ s.power.drained = false) ∧
    (∃ s : State, ∃ b : Fin 2, s.power.phase ≠ .off ∧ ioBank s b = .disabled) ∧
    (∃ s : State, s.power.phase ≠ .off ∧ s.power.phase ≠ .running ∧ ∃ b : Fin 2, ioBank s b ≠ .disabled) ∧
    (∃ s : State, s.power.phase = .running ∧ s.power.bank2 ≠ .disabled) ∧
    (∃ s : State, s.power.phase ≠ .off) :=
  ⟨
    ⟨live0.modPower fun p => { p with phase := .off }, by decide⟩,
    ⟨live0.modPower fun p => { p with phase := .ramping }, by decide⟩,
    ⟨live0.modPower fun p => { p with phase := .locked }, by decide, by decide, by decide, by decide⟩,
    ⟨live0.modPower fun p => { p with bank1 := .disabled }, 0, by decide, by decide⟩,
    ⟨live0.modPower fun p => { p with phase := .ramping }, by decide, by decide, 0, by decide⟩,
    ⟨live0, by decide, by decide⟩,
    ⟨live0, by decide⟩⟩

theorem witness_DeviceResetSources :
    (∃ s : State, s.power.phase = .running) ∧
    (∃ s : State, s.power.phase = .running ∧ s.rst.asserted = true ∧ s.rst.resetNLow = false ∧ s.rst.clockBad = false) ∧
    (∃ s : State, s.power.phase = .running) ∧
    (∃ s : State, s.rst.clockBad = true) ∧
    (∃ s : State, ∃ m : Master, s.reaches m Reg.RST_DEVICE = true ∧ ∃ v : Word, v ≠ 0x0000D5E1) :=
  ⟨
    ⟨live0, by decide⟩,
    ⟨State.reset.modRst fun r => { r with asserted := true }, by decide, by decide, by decide, by decide⟩,
    ⟨live0, by decide⟩,
    ⟨live0.modRst fun r => { r with clockBad := true }, by decide⟩,
    ⟨live0, .cc, by decide, 0, by decide⟩⟩

theorem witness_DeviceResetClearsSram :
    (∃ s : State, s.rst.asserted = false ∧ s.mem.wf = true ∧ ∃ a, (a < 0x20000000 ∨ 0x20800000 ≤ a)) ∧
    (∃ s : State, s.rst.asserted = false ∧ s.mem.wf = true ∧ s.mram.engine = none ∧ ∃ a, 0x20000000 ≤ a ∧ a < 0x20800000) :=
  ⟨
    ⟨live0, by decide, by decide, 0x20800000, by decide⟩,
    ⟨live0, by decide, by decide, by decide, 0x20000000, by decide, by decide⟩⟩

theorem witness_CoreRestarts_1 :
    (∃ s : State, ∃ t : State, s.live = true ∧ s.core.mode = .romStart ∧ s.core.rootSecret = false ∧ s.core.rootFailed = false ∧
      t = ((romErase (countStart s)).2.drawWord.2.modEng fun e => { e with gen := (romErase (countStart s)).2.drawWord.1 })) ∧
    (∃ s : State, s.isManager = false) ∧
    (∃ s : State, ∃ m : Master, s.reaches m Reg.RST_CCRESTART = true ∧ ∃ v : Word, v ≠ 0x0000CC5A) ∧
    (∃ s : State, ∃ m : Master, s.reaches m Reg.RST_WDOG_KICK = true ∧ ∃ v : Word, v ≠ 0x0000A5C3) ∧
    (∃ s : State, s.live = true ∧ s.rdb Reg.RST_WDOG 16 = true) ∧
    (∃ s : State, s.live = true ∧ s.rdb Reg.RST_WDOG 16 = false) ∧
    (∃ s : State, s.live = true ∧ s.core.mode = .warm ∧ s.lc = 3) ∧
    (∃ s : State, s.live = true ∧ s.rdb Reg.FW_SWITCH_CTRL 0 = true ∧ s.rd64 Reg.FW_SWITCH_AT_LO Reg.FW_SWITCH_AT_HI ≤ s.ct.toNat ∧
      (s.wrb Reg.ERR_EVT 14 true).isManager = true) ∧
    (∃ s : State, ∃ e : CTime, s.live = true ∧ s.fw.probEnd = some e ∧ e.toNat ≤ s.ct.toNat) :=
  ⟨
    ⟨live0, ((romErase (countStart live0)).2.drawWord.2.modEng fun e => { e with gen := (romErase (countStart live0)).2.drawWord.1 }),
      by decide, by decide, by decide, by decide, rfl⟩,
    ⟨live0, by decide⟩,
    ⟨live0, .cc, by decide, 0, by decide⟩,
    ⟨live0, .cc, by decide, 0, by decide⟩,
    ⟨live0, by decide, by decide⟩,
    ⟨live0.wrb Reg.RST_WDOG 16 false, by decide, by decide⟩,
    ⟨(live0.modCore fun c => { c with mode := .warm }).modPav fun p => { p with lcInForce := 3 }, by decide, by decide, by decide⟩,
    ⟨((live0.wrf Reg.SYS_ROLE 3 2 1).wrb Reg.FW_SWITCH_CTRL 0 true), by decide, by decide, by decide, by decide⟩,
    ⟨live0.modFw fun f => { f with probEnd := some 0 }, 0, by decide, by decide, by decide⟩⟩

theorem witness_CoreRestarts_2 :
    (∃ s : State, s.canon = true ∧ calState s = 0 ∧ s.core.mode ≠ .romStart) :=
    ⟨live0.modCore fun c => { c with mode := .warm }, by decide, by decide, by decide⟩

theorem witness_GpioTimersAndTime :
    (∃ s : State, ∃ n : Fin 16, s.live = true ∧ claimed s 1 n.val = false ∧ pinDrive s n.val = none ∧ pinBankOn s n.val = true ∧
      bitOf s.power.gpioIn n.val = false ∧ s.rdb Reg.SYS_GPIO_IRQ_CFG (2 * n.val) = true) ∧
    (∃ s : State, ∃ n : Fin 16, s.live = true ∧ s.rdf Reg.SYS_GPIO_IRQ_CFG (2 * n.val + 1) (2 * n.val) = 0) ∧
    (∃ s : State, ∃ m : Master, ∃ k : Fin 8, s.reaches m (Reg.SYS_TMR_CTRL k.val) = true ∧ claimed s 2 k.val = false) ∧
    (∃ s : State, ∃ m : Master, ∃ k : Fin 8, s.reaches m (Reg.SYS_TMR_CTRL k.val) = true ∧ claimed s 2 k.val = true) ∧
    (∃ s : State, ∃ k : Fin 8, s.live = true ∧ s.fab.timers[k] = (none, false) ∧ claimed s 2 k.val = false ∧
      s.rdb (Reg.SYS_TMR_CTRL k.val) 0 = true ∧ s.rdb (Reg.SYS_TMR_CTRL k.val) 1 = false) ∧
    (∃ s : State, ∃ m : Master, s.readsFrom m Reg.CLK_CT_LO = true) ∧
    (∃ s : State, ∃ m : Master, s.reaches m Reg.CLK_CT_CTRL = true) :=
  ⟨
    ⟨live0.wrb Reg.SYS_GPIO_IRQ_CFG 0 true, 0, by decide, by decide, by decide, by decide, by decide, by decide⟩,
    ⟨live0, 0, by decide, by decide⟩,
    ⟨live0, .cc, 0, by decide, by decide⟩,
    ⟨live0.modFab fun f => { f with held := [{ kind := 2, id := 0, flags := 0, base := 0, limit := 0 }] }, .cc, 0, by decide, by decide⟩,
    ⟨live0.wrb (Reg.SYS_TMR_CTRL 0) 0 true, 0, by decide, by decide, by decide, by decide, by decide⟩,
    ⟨live0, .cc, by decide⟩,
    ⟨live0, .cc, by decide⟩⟩

theorem witness_CurtainTimeLatch :
    (∃ s : State, ∃ m : Master, s.readsFrom m Reg.CLK_CT_LO = true) :=
    ⟨live0, .cc, by decide⟩

theorem witness_SramReadsAndFullWrites :
    (∃ s : State, ∃ m : Master, ∃ a : Word, ∃ len : Nat, s.permits { master := m, write := false, addr := a.toNat, len := len } = true ∧
      isSram a.toNat = true ∧ (∀ w ∈ s.ms.poison, w + 8 ≤ a.toNat ∨ a.toNat + len ≤ w) ∧ (∀ w ∈ s.ms.poison, w % 8 = 0)) ∧
    (∃ s : State, ∃ m : Master, ∃ a : Word, ∃ d : List Byte, s.permits { master := m, write := true, addr := a.toNat, len := 8 } = true ∧
      isSram a.toNat = true ∧ a.toNat % 8 = 0 ∧ d.length = 8 ∧ ∃ b, (b < a.toNat ∨ a.toNat + 8 ≤ b)) :=
  ⟨
    ⟨live0, .cc, 0x10000000, 8, by decide, by decide, by decide, by decide⟩,
    ⟨live0, .cc, 0x10000000, List.replicate 8 1, by decide, by decide, by decide, by decide, 0x10000008, by decide⟩⟩

theorem witness_SramErrorsAndScrub :
    (∃ s : State, ∃ m : Master, ∃ a : Word, s.permits { master := m, write := false, addr := a.toNat, len := 8 } = true ∧
      gateOf a.toNat = 1 ∧ a.toNat % 8 = 0 ∧ a.toNat ∈ s.ms.poison) ∧
    (∃ s : State, ∃ m : Master, ∃ a : Word, ∃ d : List Byte,
      s.permits { master := m, write := true, addr := a.toNat, len := d.length } = true ∧ isSram a.toNat = true ∧ 0 < d.length ∧
      d.length < 4 ∧ a.toNat % 8 + d.length ≤ 8) ∧
    (∃ s : State, ∃ m : Master, ∃ a : Word, ∃ d : List Byte, s.permits { master := m, write := true, addr := a.toNat, len := 4 } = true ∧
      isSram a.toNat = true ∧ a.toNat % 8 = 0 ∧ d.length = 4) ∧
    (∃ s : State, ∃ m : Master, ∃ a : Word, ∃ d : List Byte, ∃ h : List Byte, s.live = true ∧ canAccess s m = true ∧
      gateRefusal s { master := m, write := true, addr := a.toNat + 4, len := 4 } = none ∧ a.toNat + 4 < 2 ^ 32 ∧
      isSram (a.toNat + 4) = true ∧ a.toNat % 8 = 0 ∧ d.length = 4 ∧ h.length = 4 ∧
      s.ms.pairs = [{ master := m, addr := a.toNat, data := d }]) ∧
    (∃ s : State, s.live = true ∧ s.rdb Reg.MEM_SCRUB_CTRL 16 = true) ∧
    (∃ s : State, s.live = true ∧ s.rdb Reg.MEM_SCRUB_CTRL 16 = false) ∧
    (∃ s : State, ∃ n : Nat, s.live = true ∧ 2 ≤ n ∧ enclaveBase + 8 * s.ms.scrubEn ∉ s.ms.poison ∧ s.ms.scrubEn < 32768) :=
  ⟨
    ⟨live0.modMs fun x => { x with poison := [0x10000000] }, .cc, 0x10000000, by decide, by decide, by decide, by decide⟩,
    ⟨live0, .cc, 0x10000007, [1], by decide, by decide, by decide, by decide, by decide⟩,
    ⟨live0, .cc, 0x10000000, [1, 2, 3, 4], by decide, by decide, by decide, by decide⟩,
    ⟨live0.modMs fun x => { x with pairs := [{ master := .cc, addr := 0x10000000, data := [1, 2, 3, 4] }] }, .cc, 0x10000000, [1, 2, 3, 4],
      [5, 6, 7, 8], by decide, by decide, by decide, by decide, by decide, by decide, by decide, by decide, by decide⟩,
    ⟨live0, by decide, by decide⟩,
    ⟨live0.wrb Reg.MEM_SCRUB_CTRL 16 false, by decide, by decide⟩,
    ⟨live0, 2, by decide, by decide, by decide, by decide⟩⟩

theorem witness_MramWords :
    (∃ s : State, ∃ m : Master, ∃ a : Word, s.permits { master := m, write := false, addr := a.toNat, len := 8 } = true ∧
      gateOf a.toNat = 2 ∧ a.toNat % 8 = 0 ∧ sectorValid s (mramSector a.toNat) = true ∧ a.toNat ∉ s.mram.bad) ∧
    (∃ s : State, ∃ m : Master, ∃ a : Word, s.permits { master := m, write := false, addr := a.toNat, len := 8 } = true ∧
      gateOf a.toNat = 2 ∧ a.toNat % 8 = 0 ∧ sectorValid s (mramSector a.toNat) = false) ∧
    (∃ s : State, ∃ m : Master, ∃ a : Word, ∃ d : List Byte, s.permits { master := m, write := true, addr := a.toNat, len := 8 } = true ∧
      gateOf a.toNat = 2 ∧ a.toNat % 8 = 0 ∧ d.length = 8 ∧ inCounters a.toNat = false ∧ sectorValid s (mramSector a.toNat) = true ∧
      s.mram.engine = none ∧ s.mram.buffer = [] ∧ s.mram.waiting = [] ∧ s.mram.retiring = []) ∧
    (∃ s : State, ∃ m : Master, ∃ a : Word, ∃ d : List Byte,
      s.permits { master := m, write := true, addr := a.toNat, len := d.length } = true ∧ gateOf a.toNat = 2 ∧
      inCounters (a.toNat / 8 * 8) = false ∧ 0 < d.length ∧ d.length < 4 ∧ a.toNat % 8 + d.length ≤ 8) ∧
    (∃ s : State, ∃ w : MWord, s.live = true ∧ s.mram.engine = some w ∧ s.mram.buffer = [] ∧ s.mram.waiting = [] ∧ w.last = true) ∧
    (∃ s : State, s.live = true ∧ sectorValid s (mramSector (0x20000000 + 8 * s.mram.patrol)) = true ∧
      0x20000000 + 8 * s.mram.patrol ∉ s.mram.bad) ∧
    (∃ s : State, s.live = true ∧ sectorValid s (mramSector (0x20000000 + 8 * s.mram.patrol)) = false) :=
  ⟨
    ⟨live0, .cc, 0x20000000, by decide, by decide, by decide, by decide, by decide⟩,
    ⟨live0.modMram fun m => { m with status := [(0, 1)] }, .cc, 0x20000000, by decide, by decide, by decide, by decide⟩,
    ⟨live0, .cc, 0x20000000, List.replicate 8 1, by decide, by decide, by decide, by decide, by decide, by decide, by decide, by decide,
      by decide, by decide⟩,
    ⟨live0, .cc, 0x20000007, [1], by decide, by decide, by decide, by decide, by decide, by decide⟩,
    ⟨live0.modMram fun m => { m with engine := some word0 }, word0, by decide, by decide, by decide, by decide, by decide⟩,
    ⟨live0, by decide, by decide, by decide⟩,
    ⟨live0.modMram fun m => { m with status := [(0, 1)] }, by decide, by decide⟩⟩

theorem witness_MramClears :
    (∃ s : State, ∃ m : Master, ∃ sec : BitVec 11, s.reaches m Reg.MRAM_CLR = true ∧ s.mram.clear = none ∧ s.mram.clearWait = none ∧
      s.mram.retiring = [] ∧ clearDenied s m sec.toNat = none) ∧
    (∃ s : State, ∃ m : Master, ∃ sec : BitVec 11, ∃ c : ClearSt, s.reaches m Reg.MRAM_CLR = true ∧ s.mram.clear = some c ∧
      clearDenied s m sec.toNat = none) ∧
    (∃ s : State, ∃ m : Master, ∃ c : ClearSt, s.reaches m Reg.MRAM_CLR = true ∧ s.mram.clear = some c ∧ clearDenied s m c.sector = none ∧
      c.suspended = false) ∧
    (∃ s : State, ∃ m : Master, ∃ c : ClearSt, s.reaches m Reg.MRAM_CLR = true ∧ s.mram.clear = some c ∧ clearDenied s m c.sector = none ∧
      c.suspended = true) ∧
    (∃ s : State, ∃ c : ClearSt, s.live = true ∧ s.mram.clear = some c ∧ c.suspended = false ∧ s.mram.bad = []) ∧
    (∃ s : State, ∃ sec : Nat, s.live = true ∧ s.fwRuns = false ∧ s.mram.retiring = [sec] ∧ 2 ≤ s.rdf Reg.MRAM_STAT 31 24 ∧
      s.mram.engine = none ∧ s.mram.buffer = [] ∧ s.mram.waiting = [] ∧ s.mram.clearWait = none) :=
  ⟨
    ⟨live0, .cc, 0, by decide, by decide, by decide, by decide, by decide⟩,
    ⟨live0.modMram fun m => { m with clear := some clear0 }, .cc, 0, clear0, by decide, by decide, by decide⟩,
    ⟨live0.modMram fun m => { m with clear := some clear0 }, .cc, clear0, by decide, by decide, by decide, by decide⟩,
    ⟨live0.modMram fun m => { m with clear := some { clear0 with suspended := true } }, .cc, { clear0 with suspended := true }, by decide,
      by decide, by decide, by decide⟩,
    ⟨live0.modMram fun m => { m with clear := some clear0 }, clear0, by decide, by decide, by decide, by decide⟩,
    ⟨live0.modMram fun m => { m with retiring := [0] }, 0, by decide, by decide, by decide, by decide, by decide, by decide, by decide,
      by decide⟩⟩

theorem witness_QueueCommands :
    (∃ s : State, ∃ q : Fin 24, s.live = true ∧ q.val ∉ [9, 10, 11, 12] ∧ (s.queue q).dropping = false ∧ (s.queue q).freedAt = none ∧
      queueFull s q = false ∧ (s.queue q).stalled = [] ∧ (s.queue q).discard = false ∧ (s.queue q).owesAbort = false) ∧
    (∃ s : State, ∃ q : Fin 24, s.live = true ∧ q.val ∈ [13, 14, 15, 17, 18, 21, 23] ∧ (s.queue q).dropping = false ∧ queueFull s q = true) ∧
    (∃ s : State, ∃ q : Fin 24, s.live = true ∧ q.val ∉ [9, 10, 11] ∧ queueStalls q.val = false ∧ (s.queue q).dropping = false ∧
      queueFull s q = true ∧ (s.queue q).discard = false) ∧
    (∃ s : State, ∃ q : Fin 24, s.live = true ∧ q.val ∉ [9, 10, 11] ∧ queueStalls q.val = false ∧ (s.queue q).dropping = false ∧
      (s.queue q).discard = true) ∧
    (∃ s : State, ∃ q : Fin 24, ∃ e : QEntry, s.live = true ∧ queueStalls q.val = true ∧ queueFull s q = false ∧ (s.queue q).stalled = [e]) ∧
    (∃ s : State, ∃ m : Master, ∃ q : Fin 24, s.reaches m Reg.Q_DROP = true ∧ (s.queue q).begun = true ∧ (s.queue q).dropping = false ∧
      (∀ e ∈ (s.queue q).slots, e.entry.eop = false ∧ readerLag q.val < s.ct.toNat - e.time.toNat)) ∧
    (∃ s : State, ∃ q : Fin 24, ∃ e : QSlot, ∃ r : List QSlot, s.live = true ∧ (s.queue q).dropping = true ∧ (s.queue q).slots = e :: r ∧
      e.entry.eop = true) :=
  ⟨
    ⟨live0, 0, by decide, by decide, by decide, by decide, by decide, by decide, by decide, by decide⟩,
    ⟨live0.modQueue 14 fun x => { x with slots := List.replicate 256 slot0 }, 14, by decide, by decide, by decide, by decide +kernel⟩,
    ⟨live0.modQueue 19 fun x => { x with slots := List.replicate 256 slot0 }, 19, by decide, by decide, by decide, by decide,
      by decide +kernel, by decide⟩,
    ⟨live0.modQueue 0 fun x => { x with discard := true }, 0, by decide, by decide, by decide, by decide, by decide⟩,
    ⟨live0.modQueue 13 fun x => { x with stalled := [entry0] }, 13, entry0, by decide, by decide, by decide, by decide⟩,
    ⟨live0.modQueue 0 fun x => { x with begun := true }, .cc, 0, by decide, by decide, by decide, by decide⟩,
    ⟨live0.modQueue 0 fun x => { x with dropping := true, slots := [slot0] }, 0, slot0, [], by decide, by decide, by decide, by decide⟩⟩

theorem witness_QueuesKeepOrder :
    (∃ s : State, ∃ q : Fin 24, queueStalls q.val = true ∧ (s.queue q).dropping = false ∧ (s.queue q).slots.length ≤ queueDepth q.val) ∧
    (∃ s : State, ∃ q : Fin 24, ∃ e : QSlot, ∃ r : List QSlot, (s.queue q).dropping = false ∧ (s.queue q).slots = e :: r ∧ ∃ p, p ≠ q) :=
  ⟨
    ⟨live0, 13, by decide, by decide, by decide⟩,
    ⟨live0.modQueue 0 fun x => { x with slots := [slot0] }, 0, slot0, [], by decide, by decide, 1, by decide⟩⟩

theorem witness_GateAndRegisterAccess :
    (∃ s : State, ∃ m : Master, ∃ a : Word, ∃ d : RegDesc, s.reaches m a.toNat = true ∧ isRuleReg a.toNat = true ∧
      regDesc a.toNat = some d ∧ ruleIgnored s m a.toNat = false) ∧
    (∃ s : State, ∃ m : Master, ∃ a : Word, s.reaches m a.toNat = true ∧ isRuleReg a.toNat = true ∧ ruleIgnored s m a.toNat = true) ∧
    (∃ s : State, s.canon = true) ∧
    (∃ s : State, ∃ m : Master, s.readsFrom m Reg.GATE_SYNC = true) ∧
    (∃ s : State, ∃ w : SyncWait, s.live = true ∧ s.gate.waits = [w] ∧ w.rest = [Reg.GATE_SYNC] ∧ w.got = [] ∧
      syncBlocked s w.mark = false) ∧
    (∃ s : State, ∃ m : Master, ∃ a : Word, s.reaches m a.toNat = true ∧ isRegBlock a.toNat = true ∧ a.toNat % 4 = 0) ∧
    (∃ s : State, ∃ m : Master, ∃ a : Word, s.readsFrom m a.toNat = true ∧ isRegBlock a.toNat = true ∧ a.toNat % 4 = 0 ∧
      a.toNat ≠ Reg.GATE_SYNC) :=
  ⟨
    ⟨live0, .cc, 0x40060010, (regDesc 0x40060010).getD { base := 0 }, by decide, by decide, by decide, by decide⟩,
    ⟨live0.wrb 0x40060010 31 true, .cc, 0x40060010, by decide, by decide, by decide⟩,
    ⟨live0, by decide⟩,
    ⟨live0, .cc, by decide⟩,
    ⟨live0.modGate fun g => { g with waits := [wait0] }, wait0, by decide, by decide, by decide, by decide, by decide⟩,
    ⟨live0, .cc, 0x40000000, by decide, by decide, by decide⟩,
    ⟨live0, .cc, 0x40000000, by decide, by decide, by decide, by decide⟩⟩

theorem witness_FieldTypesAndLocks :
    (∃ s : State, ∃ a : Nat, ∃ d : RegDesc, s.canon = true ∧ regDesc a = some d ∧ ∃ i, i < 32) ∧
    (∃ s : State, ∃ a : Nat, ∃ d : RegDesc, s.canon = true ∧ regDesc a = some d ∧ ∃ b, b ≠ a) ∧
    (∃ s : State, ∃ a : Nat, ∃ d : RegDesc, s.canon = true ∧ regDesc a = some d ∧ ∃ b, b ≠ a) ∧
    (∃ s : State, ∃ a : Nat, ∃ d : RegDesc, ∃ i : Nat, s.canon = true ∧ regDesc a = some d ∧ i < 32 ∧ d.rw.getLsbD i = false ∧
      d.rwl.getLsbD i = false ∧ d.w1c.getLsbD i = false ∧ s.rdb a i = true) :=
  ⟨
    ⟨live0, 0x40000000, (regDesc 0x40000000).getD { base := 0 }, by decide, by decide, 31, by decide⟩,
    ⟨live0, 0x40000000, (regDesc 0x40000000).getD { base := 0 }, by decide, by decide, 0, by decide⟩,
    ⟨live0, 0x40000000, (regDesc 0x40000000).getD { base := 0 }, by decide, by decide, 0, by decide⟩,
    ⟨live0.wrb Reg.BFE_STAT 0 true, Reg.BFE_STAT, (regDesc Reg.BFE_STAT).getD { base := 0 }, 0, by decide, by decide, by decide, by decide,
      by decide, by decide, by decide⟩⟩

theorem witness_RefusedAccessChangesNothing :
    (∃ s : State, ∃ m : Master, ∃ a : Word, ∃ data : List Byte, ∃ len : Nat, ∃ c : Half, ∃ c' : Half, s.canon = true ∧ s.live = true ∧
      canAccess s m = true ∧ s.ms.pairs = [] ∧ gateRefusal s { master := m, write := true, addr := a.toNat, len := data.length } = some c ∧
      gateRefusal s { master := m, write := false, addr := a.toNat, len := len } = some c') :=
    ⟨live0, .cc, 0xFFFFFFFC, [0, 0, 0, 0], 4, Err.GATE_NOMATCH, Err.GATE_NOMATCH, by decide, by decide, by decide, by decide, by decide,
      by decide⟩

theorem witness_FrontEndSettings_1 :
    (∃ s : State, ∃ m : Master, s.reaches m Reg.BFE_CTRL = true ∧ s.rdb Reg.BFE_CTRL 0 = false ∧ s.feRunning = false ∧
      s.sht.posRead = true) ∧
    (∃ s : State, s.canon = true) ∧
    (∃ s : State, ∃ m : Master, s.reaches m Reg.BFE_CTRL = true ∧ s.canon = true ∧ s.rdb Reg.BFE_CTRL 0 = true ∧ calState s = 0) ∧
    (∃ s : State, ∃ m : Master, ∃ a : Word, a.toNat ∈ feConfigRegs ∧ s.reaches m a.toNat = true ∧ s.feRunning = true ∧ s.canon = true ∧
      framePeriod (raise s Err.FE_BUSY 0x07) = framePeriod s) ∧
    (∃ s : State, ∃ m : Master, ∃ a : Word, a.toNat ∈ feConfigRegs ∧ s.reaches m a.toNat = true ∧ s.feRunning = false) ∧
    (∃ s : State, ∃ m : Master, s.reaches m Reg.BFE_OUT = true ∧ s.feRunning = false) ∧
    (∃ s : State, ∃ m : Master, s.reaches m Reg.BFE_OUT = true ∧ s.feRunning = true) ∧
    (∃ s : State, ∃ m : Master, ∃ n : Fin 6, ∃ v : Word, s.reaches m (Reg.BFE_BIAS n.val) = true ∧
      (fld v 15 0 < s.rdf (biasLim n.val) 15 0 ∨ s.rdf (biasLim n.val) 31 16 < fld v 15 0)) ∧
    (∃ s : State, ∃ m : Master, ∃ n : Fin 6, ∃ v : Word, s.reaches m (Reg.BFE_BIAS n.val) = true ∧ s.feRunning = false ∧ s.canon = true ∧
      s.rdf (biasLim n.val) 15 0 ≤ fld v 15 0 ∧ fld v 15 0 ≤ s.rdf (biasLim n.val) 31 16) :=
  ⟨
    ⟨live0.modSht fun x => { x with posRead := true }, .cc, by decide, by decide, by decide, by decide⟩,
    ⟨live0, by decide⟩,
    ⟨live0.wrb Reg.BFE_CTRL 0 true, .cc, by decide, by decide, by decide, by decide⟩,
    ⟨live0.wrb Reg.BFE_STAT 0 true, .cc, BitVec.ofNat 32 Reg.BFE_GEOM, by decide, by decide, by decide, by decide, by decide⟩,
    ⟨live0, .cc, BitVec.ofNat 32 Reg.BFE_GEOM, by decide, by decide, by decide⟩,
    ⟨live0, .cc, by decide, by decide⟩,
    ⟨live0.wrb Reg.BFE_STAT 0 true, .cc, by decide, by decide⟩,
    ⟨live0, .cc, 0, 0xFFFF, by decide, by decide⟩,
    ⟨live0, .cc, 0, BitVec.ofNat 32 (live0.rdf (biasLim 0) 15 0), by decide, by decide, by decide, by decide, by decide⟩⟩

theorem witness_FrontEndSettings_2 :
    (∃ s : State, s.live = true) :=
    ⟨live0, by decide⟩

theorem witness_RowsAndTemperature :
    (∃ s : State, s.live = true ∧ s.feRunning = false) ∧
    (∃ s : State, s.live = true ∧ s.feRunning = true ∧ s.fe.row = none) ∧
    (∃ s : State, ∃ r : Nat, s.live = true ∧ s.feRunning = true ∧ s.fe.row = some r ∧ s.fe.buf.length < feCols s) ∧
    (∃ s : State, ∃ r : Nat, s.live = true ∧ s.feRunning = true ∧ s.fe.row = some r ∧ s.fe.buf.length = feCols s ∧ r + 1 < feRows s) ∧
    (∃ s : State, s.live = true ∧ s.rdf Reg.BFE_FPT_CFG 1 0 = 0) ∧
    (∃ s : State, ∃ u : Nat, s.live = true ∧ s.canon = true ∧ s.rdf Reg.BFE_FPT_CFG 1 0 = 2 ∧ fptAscending s = true ∧ 5000 ≤ u ∧
      u ≤ 2000000) ∧
    (∃ s : State, ∃ u : Nat, s.live = true ∧ s.rdf Reg.BFE_FPT_CFG 1 0 ≠ 0 ∧ 2000000 < u ∧ s.fe.fptOpen = false) ∧
    (∃ s : State, ∃ u : Nat, s.live = true ∧ s.rdf Reg.BFE_FPT_CFG 1 0 = 2 ∧ u < 5000 ∧ s.fe.fptShort = true) ∧
    (∃ s : State, s.live = true ∧ s.rdf Reg.BFE_FPT_CFG 1 0 ≠ 0) :=
  ⟨
    ⟨live0, by decide, by decide⟩,
    ⟨live0.wrb Reg.BFE_STAT 0 true, by decide, by decide, by decide⟩,
    ⟨row0, 0, by decide, by decide, by decide, by decide⟩,
    ⟨row0.modFe fun x => { x with buf := [pix0, pix0, pix0] }, 0, by decide, by decide, by decide, by decide, by decide⟩,
    ⟨live0, by decide, by decide⟩,
    ⟨fptTable fpt0 16, 5000, by decide, by decide, by decide, by decide, by decide, by decide⟩,
    ⟨fpt0, 2000001, by decide, by decide, by decide, by decide⟩,
    ⟨fpt0.modFe fun x => { x with fptShort := true }, 4999, by decide, by decide, by decide, by decide⟩,
    ⟨fpt0, by decide, by decide⟩⟩

theorem witness_ShutterCommands_1 :
    (∃ s : State, ∃ m : Master, s.reaches m Reg.SHT_CMD = true ∧ shtPresent s = false) ∧
    (∃ s : State, ∃ m : Master, s.reaches m Reg.SHT_CMD = true ∧ shtPresent s = true ∧ (s.bank1On = false ∨ s.rdb Reg.ERR_STAT 31 = true)) ∧
    (∃ s : State, ∃ m : Master, s.reaches m Reg.SHT_CMD = true ∧ shtPresent s = true ∧ s.bank1On = true ∧ s.rdb Reg.ERR_STAT 31 = false ∧
      (s.sht.pulse ≠ none ∨ s.sht.seq ≠ .idle)) ∧
    (∃ s : State, ∃ m : Master, s.reaches m Reg.SHT_CMD = true ∧ shtPresent s = true ∧ s.bank1On = true ∧ s.rdb Reg.ERR_STAT 31 = false ∧
      s.sht.pulse = none ∧ s.sht.seq = .idle ∧ s.power.resReady = false) ∧
    (∃ s : State, ∃ m : Master, s.reaches m Reg.SHT_CMD = true ∧ shtRefusal s = none ∧ s.sht.pos ≠ .opened) ∧
    (∃ s : State, ∃ c : Bool, s.live = true ∧ s.sht.pulse = some c ∧ s.sht.seq ≠ .waitOpen) ∧
    (∃ s : State, s.sht.pulse = none ∧ s.rdb Reg.SYS_SUPPLY 4 = true ∧ s.sht.seq ≠ .waitOpen) ∧
    (∃ s : State, s.live = true ∧ shtPresent s = true ∧ s.bank1On = true ∧ s.sht.pos = .between ∧ s.sht.seq = .closing ∧
      s.sht.noClose = false) ∧
    (∃ s : State, s.live = true ∧ shtPresent s = false) :=
  ⟨
    ⟨noSht, .cc, by decide, by decide⟩,
    ⟨live0.wrb Reg.ERR_STAT 31 true, .cc, by decide, by decide, by decide⟩,
    ⟨live0.modSht fun x => { x with pulse := some true }, .cc, by decide, by decide, by decide, by decide, by decide⟩,
    ⟨live0, .cc, by decide, by decide, by decide, by decide, by decide, by decide, by decide⟩,
    ⟨shtReady.modSht fun x => { x with pos := .closed }, .cc, by decide, by decide, by decide⟩,
    ⟨live0.modSht fun x => { x with pulse := some true }, true, by decide, by decide, by decide⟩,
    ⟨live0.wrb Reg.SYS_SUPPLY 4 true, by decide, by decide, by decide⟩,
    ⟨live0.modSht fun x => { x with pos := .between, seq := .closing }, by decide, by decide, by decide, by decide, by decide, by decide⟩,
    ⟨noSht, by decide, by decide⟩⟩

theorem witness_ShutterCommands_2 :
    (∃ s : State, s.live = true ∧ s.sht.seq = .closing ∧ s.power.resReady = false ∧ s.rdb Reg.ERR_STAT 31 = false) ∧
    (∃ s : State, s.live = true ∧ s.sht.seq = .opening ∧ s.sht.watch = none ∧ s.sht.retried = true ∧ s.sht.event = true) ∧
    (∃ s : State, s.live = true ∧ s.sht.seq = .dwell ∧ s.power.resReady = false) ∧
    (∃ s : State, s.live = true ∧ s.sht.shut = .recovering ∧ s.sht.recovered = false ∧ s.sht.event = false ∧
      (s.sht.seq = .recovering ∨ s.sht.seq = .idle)) :=
  ⟨
    ⟨live0.modSht fun x => { x with seq := .closing }, by decide, by decide, by decide, by decide⟩,
    ⟨live0.modSht fun x => { x with seq := .opening, retried := true, event := true }, by decide, by decide, by decide, by decide,
      by decide⟩,
    ⟨live0.modSht fun x => { x with seq := .dwell }, by decide, by decide, by decide⟩,
    ⟨live0.modSht fun x => { x with shut := .recovering }, by decide, by decide, by decide, by decide, by decide⟩⟩

theorem witness_PipelineAndCoefficients :
    (∃ s : State, ∃ row : Nat, s.live = true ∧ s.fe.row = some row ∧ s.feRunning = true ∧ s.fe.buf ≠ [] ∧ s.fe.buf.length + 1 < feCols s ∧
      s.rdb Reg.NUC_CFG 0 = true ∧ s.nuc.tauOff = true ∧ s.nuc.selLo ≠ 3 ∧ s.nuc.selHi ≠ 3 ∧ (s.nuc.w = 0 ∨ s.nuc.w = 65536)) ∧
    (∃ s : State, ∃ m : Master, s.canon = true ∧ s.reaches m Reg.NUC_CDATA_LO = true ∧ s.rdf Reg.NUC_CADDR 31 30 < 3 ∧
      s.rdf Reg.NUC_CADDR 16 0 < 98304 ∧ bankInUse s (s.rdf Reg.NUC_CADDR 31 30) = false ∧ swf (fun _ => (0 : DWord)) s.nuc.coef = true) ∧
    (∃ s : State, ∃ m : Master, s.reaches m Reg.NUC_CDATA_LO = true ∧ s.rdf Reg.NUC_CADDR 31 30 < 3 ∧ s.rdf Reg.NUC_CADDR 16 0 < 98304 ∧
      bankInUse s (s.rdf Reg.NUC_CADDR 31 30) = true) ∧
    (∃ s : State, ∃ m : Master, s.canon = true ∧ s.readsFrom m Reg.NUC_CDATA_LO = true) ∧
    (∃ s : State, ∃ m : Master, s.reaches m Reg.NUC_SETSEL = true) ∧
    (∃ s : State, ∃ m : Master, s.reaches m Reg.TDI_CTRL = true ∧
      (s.feRunning = true ∨ s.rdf Reg.TDI_PATH 30 24 = 0 ∨ s.rdf Reg.TDI_V0 15 0 = 0 ∨ s.rdf Reg.TDI_G 15 0 = 0 ∨ s.rdf Reg.TDI_PITCH 15 0 = 0)) :=
  ⟨
    ⟨pipe0, 0, by decide, by decide, by decide, by decide, by decide, by decide, by decide, by decide, by decide, by decide⟩,
    ⟨live0.wrf Reg.NUC_CADDR 31 30 1, .cc, by decide, by decide, by decide, by decide, by decide, by decide⟩,
    ⟨live0.wrb Reg.BFE_STAT 0 true, .cc, by decide, by decide, by decide, by decide⟩,
    ⟨live0, .cc, by decide, by decide⟩,
    ⟨live0, .cc, by decide⟩,
    ⟨live0.wrb Reg.BFE_STAT 0 true, .cc, by decide, by decide⟩⟩

theorem witness_TdiApplyAccepted :
    (∃ s : State, ∃ m : Master, s.canon = true ∧ s.reaches m Reg.TDI_CTRL = true ∧ s.feRunning = false ∧ s.rdf Reg.TDI_PATH 30 24 ≠ 0 ∧
      s.rdf Reg.TDI_V0 15 0 ≠ 0 ∧ s.rdf Reg.TDI_G 15 0 ≠ 0 ∧ s.rdf Reg.TDI_PITCH 15 0 ≠ 0 ∧ s.rdb Reg.BFE_GEOM 31 = false ∧
      s.rdf Reg.TDI_PATH 22 16 + s.rdf Reg.TDI_PATH 30 24 ≤ feRows s ∧
      ceilDiv (80 * fallDelay (s.rdf Reg.TDI_V0 15 0) (s.rdf Reg.TDI_G 15 0) (s.rdf Reg.TDI_PITCH 15 0) (s.rdf Reg.TDI_PATH 30 24 - 1) + framePeriod s) (max 1 (s.rdf Reg.TDI_PATH 7 0) * feRowPeriod s) ≤ 64) :=
    ⟨tdi0, .cc, by decide, by decide, by decide, by decide, by decide, by decide, by decide, by decide, by decide +kernel,
      by decide +kernel⟩

theorem witness_CalibrationEvents :
    (∃ s : State, s.live = true ∧ calState s = 8) ∧
    (∃ s : State, s.live = true ∧ (calState s = 2 ∨ calState s = 5)) ∧
    (∃ s : State, s.live = true ∧ (calState s = 1 ∨ calState s = 4 ∨ calState s = 9)) ∧
    (∃ s : State, s.live = true ∧ calState s = 0) ∧
    (∃ s : State, s.live = true ∧ calState s = 7) ∧
    (∃ s : State, s.live = true ∧ calState s = 0xA ∧ s.mram.clear.isSome = true ∧ slotDirty s s.cal.args.slot ≠ []) ∧
    (∃ s : State, s.live = true ∧ s.fwRuns = true ∧ anyLoaded s = true ∧
      (s.rd Reg.BFE_FPT_K).toNat ≤ slotT s (s.rdf Reg.CAL_SEL 6 4) + 16384 ∧
      slotT s (s.rdf Reg.CAL_SEL 2 0) ≤ (s.rd Reg.BFE_FPT_K).toNat + 16384) ∧
    (∃ s : State, ∃ n : Nat, s.live = true ∧ s.fwRuns = true ∧ anyLoaded s = true ∧
      slotT s (s.rdf Reg.CAL_SEL 6 4) + 16384 < (s.rd Reg.BFE_FPT_K).toNat ∧ nextSet s true = some n ∧
      (installPair s (s.rdf Reg.CAL_SEL 6 4) n).1 = false) ∧
    (∃ s : State, s.live = true ∧ s.fwRuns = true ∧ slotStatuses s = List.replicate 8 0) :=
  ⟨
    ⟨live0.wrf Reg.CAL_STATE 3 0 8, by decide, by decide⟩,
    ⟨live0.wrf Reg.CAL_STATE 3 0 2, by decide, by decide⟩,
    ⟨live0.wrf Reg.CAL_STATE 3 0 1, by decide, by decide⟩,
    ⟨live0, by decide, by decide⟩,
    ⟨live0.wrf Reg.CAL_STATE 3 0 7, by decide, by decide⟩,
    ⟨(live0.wrf Reg.CAL_STATE 3 0 10).modMram fun m => { m with clear := some clear0, status := [(976, 1)] }, by decide, by decide,
      by decide, by decide⟩,
    ⟨cal0, by decide, by decide, by decide, by decide, by decide⟩,
    ⟨(((fw0.modCal fun x => { x with loaded := (x.loaded.set 0 (some 0)).set 1 (some 1) }).wr Reg.CAL_SLOTSTAT 8).wr Reg.BFE_FPT_K 0x10000).setBytes 0x20430010 [1],
      1, by decide +kernel, by decide +kernel, by decide +kernel, by decide +kernel, by decide +kernel, by decide +kernel⟩,
    ⟨fw0, by decide, by decide, by decide⟩⟩

theorem witness_AbortKeepsSets :
    (∃ s : State, ∃ cause : Nat, s.canon = true ∧ calState s ≠ 0 ∧ cause < 256) :=
    ⟨live0.wrf Reg.CAL_STATE 3 0 1, 0, by decide, by decide, by decide⟩

theorem witness_VisibleChannel_1 :
    (∃ s : State, ∃ m : Master, ∃ v : Word, s.reaches m Reg.VIS_CTRL = true ∧ s.rdb Reg.VIS_CTRL 0 = false ∧ bitOf v 0 = true) ∧
    (∃ s : State, ∃ m : Master, ∃ v : Word, s.reaches m Reg.VIS_CTRL = true ∧ bitOf v 0 = false) ∧
    (∃ s : State, s.live = true ∧ s.rdb Reg.VIS_STAT 0 = true) ∧
    (∃ s : State, s.live = true ∧ s.rdb Reg.VIS_STAT 1 = true ∧ s.vis.line = none) ∧
    (∃ s : State, s.live = true ∧ s.rdb Reg.VIS_STAT 0 = true ∧ s.rdb Reg.VIS_STAT 1 = true ∧ s.vis.line = none) ∧
    (∃ s : State, ∃ st : CTime, ∃ l : List PixClock, s.live = true ∧ s.vis.line = some st ∧ s.rdb Reg.VIS_FMT 9 = false ∧
      l.length * visPpc (visMode s) ≠ s.rdf Reg.VIS_LINE 13 0 ∧ s.vis.lenErr = false) ∧
    (∃ s : State, ∃ st : CTime, ∃ l : List PixClock, s.live = true ∧ s.canon = true ∧ s.vis.line = some st ∧ s.rdb Reg.VIS_FMT 9 = false ∧
      l.length * visPpc (visMode s) = s.rdf Reg.VIS_LINE 13 0 ∧ s.rdb Reg.VIS_CTRL 1 = false ∧ s.rdb Reg.VIS_CTRL 2 = false) ∧
    (∃ s : State, ∃ m : Master, s.reaches m Reg.VIS_SWAP = true) ∧
    (∃ s : State, ∃ m : Master, ∃ a : Word, isVisReg a.toNat = true ∧ s.reaches m a.toNat = true) :=
  ⟨
    ⟨live0, .cc, 1, by decide, by decide, by decide⟩,
    ⟨live0, .cc, 0, by decide, by decide⟩,
    ⟨live0.wrb Reg.VIS_STAT 0 true, by decide, by decide⟩,
    ⟨live0.wrb Reg.VIS_STAT 1 true, by decide, by decide, by decide⟩,
    ⟨(live0.wrb Reg.VIS_STAT 1 true).wrb Reg.VIS_STAT 0 true, by decide, by decide, by decide, by decide⟩,
    ⟨live0.modVis fun x => { x with line := some 0 }, 0, [{ data := 0, dval := true }], by decide, by decide, by decide, by decide,
      by decide⟩,
    ⟨(live0.modVis fun x => { x with line := some 0 }).wrf Reg.VIS_LINE 13 0 (visPpc (visMode live0)), 0, [{ data := 0, dval := true }],
      by decide, by decide, by decide, by decide, by decide, by decide, by decide⟩,
    ⟨live0, .cc, by decide⟩,
    ⟨live0, .cc, 0x400C1000, by decide, by decide⟩⟩

theorem witness_VisibleChannel_2 :
    (∃ s : State, ∃ m : Master, ∃ v : Word, s.reaches m Reg.VIS_TRIG = true ∧ s.rdb Reg.VIS_TRIG 31 = false ∧ bitOf v 31 = true ∧
      claimed s 1 (fld v 19 16) = false) ∧
    (∃ s : State, s.live = true ∧ s.rdb Reg.VIS_TRIG 31 = true) :=
  ⟨
    ⟨live0, .cc, 0x80000000, by decide, by decide, by decide, by decide⟩,
    ⟨live0.wrb Reg.VIS_TRIG 31 true, by decide, by decide⟩⟩

theorem witness_CellRegisterOps :
    (∃ s : State, ∃ i : Issue, ∃ l : Bool, ∃ d : Fin 16, ∃ a : Fin 16, ∃ b : Fin 16, ∃ f : Bool, ∃ w : Word,
      let x := (s.cell i.cell.val).greg a; let y := (s.cell i.cell.val).greg b;
      let e := (Instr.cellAdd i l d a b f, false, if l then onLanes aluAdd x y else aluAdd x y); cellWord e.1 = some (i, w) ∧
      cellReady s i w = true) ∧
    (∃ s : State, ∃ i : Issue, ∃ l : Bool, ∃ d : Fin 16, ∃ a : Fin 16, ∃ f : Bool, ∃ w : Word, let x := (s.cell i.cell.val).greg a;
      let e := (Instr.cellNeg i l d a f, false, if l then onLanes aluSub 0 x else aluSub 0 x); cellWord e.1 = some (i, w) ∧
      cellReady s i w = true) ∧
    (∃ s : State, ∃ i : Issue, ∃ a : Fin 16, ∃ b : Fin 16, cellReady s i (encR 1 0 a.val b.val true 0x16) = true) ∧
    (∃ s : State, ∃ i : Issue, ∃ a : Fin 16, ∃ b : Fin 16, cellReady s i (encR 1 0 a.val b.val true 0x17) = true) :=
  ⟨
    ⟨cellAt (encR 1 0 0 0 false 0), issue0, false, 0, 0, 0, false, encR 1 0 0 0 false 0, by decide, by decide⟩,
    ⟨cellAt (encR 1 0 0 0 false 0x18), issue0, false, 0, 0, false, encR 1 0 0 0 false 0x18, by decide, by decide⟩,
    ⟨cellAt (encR 1 0 0 0 true 0x16), issue0, 0, 0, by decide⟩,
    ⟨cellAt (encR 1 0 0 0 true 0x17), issue0, 0, 0, by decide⟩⟩

theorem witness_CellArithmetic :
    (∃ n : Nat, n ≤ 32) :=
    ⟨32, by decide⟩

theorem witness_CellImmediates :
    (∃ s : State, ∃ i : Issue, ∃ d : Fin 16, ∃ a : Fin 16, ∃ f : Bool, ∃ imm : Half, ∃ w : Word, let x := (s.cell i.cell.val).greg a;
      let e := (Instr.cellAddi i d a f imm, aluAdd x (imm.signExtend 32)); cellWord e.1 = some (i, w) ∧ cellReady s i w = true) ∧
    (∃ s : State, ∃ i : Issue, ∃ a : Fin 16, ∃ imm : Half, cellReady s i (encI 0x08 0 a.val true imm.toNat) = true) ∧
    (∃ s : State, ∃ i : Issue, ∃ a : Fin 4, ∃ b : Fin 16, cellReady s i (encI 0x18 a.val b.val false 0) = true) ∧
    (∃ s : State, ∃ i : Issue, ∃ d : Fin 16, ∃ a : Fin 4, cellReady s i (encI 0x19 d.val a.val false 0) = true) ∧
    (∃ s : State, ∃ i : Issue, ∃ a : Fin 4, ∃ imm : Half, cellReady s i (encI 0x1A a.val 0 false imm.toNat) = true) :=
  ⟨
    ⟨cellAt (encI 3 0 0 false 0), issue0, 0, 0, false, 0, encI 3 0 0 false 0, by decide, by decide⟩,
    ⟨cellAt (encI 0x08 0 0 true 0), issue0, 0, 0, by decide⟩,
    ⟨cellAt (encI 0x18 0 0 false 0), issue0, 0, 0, by decide⟩,
    ⟨cellAt (encI 0x19 0 0 false 0), issue0, 0, 0, by decide⟩,
    ⟨cellAt (encI 0x1A 0 0 false 0), issue0, 0, 0, by decide⟩⟩

theorem witness_CellDivider :
    (∃ s : State, ∃ i : Issue, ∃ d : Fin 16, ∃ a : Fin 16, ∃ b : Fin 16, ∃ w : Word, let e := (Instr.cellDiv i d a b, 0);
      cellWord e.1 = some (i, w) ∧ cellReady s i w = true) ∧
    (∃ s : State, ∃ i : Issue, ∃ d : Fin 16, ∃ a : Fin 16, ∃ w : Word, let e := (Instr.cellRecip i d a, 4); cellWord e.1 = some (i, w) ∧
      cellReady s i w = true) ∧
    (∃ s : State, ∃ c : Fin 32, ∃ fn : Nat, ∃ d : Fin 16, ∃ x : Word, ∃ y : Word, s.live = true ∧
      (s.cell c.val).dsu = some { fn := fn, d := d.val, s := x, t := y, squashed := false }) ∧
    (∃ s : State, ∃ c : Fin 32, ∃ op : DsuOp, s.live = true ∧ (s.cell c.val).dsu = some op ∧ op.squashed = true) ∧
    (∃ x : Word, ∃ y : Word, y ≠ 0 ∧ ¬(x = 0x80000000 ∧ y = 0xFFFFFFFF)) :=
  ⟨
    ⟨cellAt (encR 0x0C 0 0 0 false 0), issue0, 0, 0, 0, encR 0x0C 0 0 0 false 0, by decide, by decide⟩,
    ⟨cellAt (encR 0x0C 0 0 0 false 4), issue0, 0, 0, encR 0x0C 0 0 0 false 4, by decide, by decide⟩,
    ⟨live0.modCell 0 fun c => { c with dsu := some { fn := 0, d := 0, s := 0, t := 0, squashed := false } }, 0, 0, 0, 0, 0, by decide,
      by decide⟩,
    ⟨live0.modCell 0 fun c => { c with dsu := some { fn := 0, d := 0, s := 0, t := 0, squashed := true } }, 0,
      { fn := 0, d := 0, s := 0, t := 0, squashed := true }, by decide, by decide, by decide⟩,
    ⟨0x80000000, 1, by decide, by decide⟩⟩

theorem witness_CellMemory :
    (∃ s : State, ∃ i : Issue, ∃ d : Fin 16, ∃ a : Fin 4, ∃ p : Bool, ∃ off : Half, ∃ w : Word, let c := i.cell.val;
      let ea := (effAddr (s.cell c).a[a] p off).1.toNat; let v := fun n => natLE (s.bytesAt (cellBase c + ea) n);
      let e := (Instr.cellLdw i d a p off 0, 4, BitVec.ofNat 32 (v 4)); cellWord e.1 = some (i, w) ∧ cellReady s i w = true ∧
      ea % e.2.1 = 0) ∧
    (∃ s : State, ∃ i : Issue, ∃ d : Fin 16, ∃ a : Fin 4, ∃ p : Bool, ∃ off : Half, ∃ w : Word, let c := i.cell.val;
      let ea := (effAddr (s.cell c).a[a] p off).1.toNat; let e := (Instr.cellStw i d a p off, 4); cellWord e.1 = some (i, w) ∧
      cellReady s i w = true ∧ ea % e.2 = 0) ∧
    (∃ s : State, ∃ i : Issue, ∃ d : Fin 16, ∃ a : Fin 4, ∃ p : Bool, ∃ off : Half, ∃ w : Word, let e := (Instr.cellLdw i d a p off 0, 4);
      cellWord e.1 = some (i, w) ∧ cellReady s i w = true ∧ (effAddr (s.cell i.cell.val).a[a] p off).1.toNat % e.2 ≠ 0) :=
  ⟨
    ⟨cellAt (encI 0x10 0 0 false 0), issue0, 0, 0, false, 0, encI 0x10 0 0 false 0, by decide, by decide, by decide⟩,
    ⟨cellAt (encM 0x15 0 0 false 0), issue0, 0, 0, false, 0, encM 0x15 0 0 false 0, by decide, by decide, by decide⟩,
    ⟨cellAt (encI 0x10 0 0 false 1), issue0, 0, 0, false, 1, encI 0x10 0 0 false 1, by decide, by decide, by decide⟩⟩

theorem witness_CellControl :
    (∃ s : State, ∃ i : Issue, ∃ c : Fin 16, ∃ off : BitVec 12, cellReady s i (encB 0x20 c.val 0 off) = true ∧
      fld (codeAt s i.cell.val ((s.cell i.cell.val).pc + 1)) 31 26 ≠ 0x0C) ∧
    (∃ s : State, ∃ i : Issue, ∃ d : Fin 16, ∃ off : BitVec 12, cellReady s i (encB 0x21 d.val 0 off) = true ∧
      fld (codeAt s i.cell.val ((s.cell i.cell.val).pc + 1)) 31 26 ≠ 0x0C) ∧
    (∃ s : State, ∃ i : Issue, ∃ a : Fin 16, cellReady s i (encB 0x22 0 a.val 0) = true ∧
      fld (codeAt s i.cell.val ((s.cell i.cell.val).pc + 1)) 31 26 ≠ 0x0C) ∧
    (∃ s : State, ∃ i : Issue, cellReady s i (encB 0x23 0 0 0) = true ∧
      fld (codeAt s i.cell.val ((s.cell i.cell.val).pc + 1)) 31 26 ≠ 0x0C) :=
  ⟨
    ⟨cellAt (encB 0x20 0 0 0), issue0, 0, 0, by decide, by decide⟩,
    ⟨cellAt (encB 0x21 0 0 0), issue0, 0, 0, by decide, by decide⟩,
    ⟨cellAt (encB 0x22 0 0 0), issue0, 0, by decide, by decide⟩,
    ⟨cellAt (encB 0x23 0 0 0), issue0, by decide, by decide⟩⟩

theorem witness_CellStreams :
    (∃ s : State, ∃ i : Issue, ∃ d : Fin 16, ∃ k : Fin 4, ∃ e : SlotEntry, ∃ r : List SlotEntry,
      cellReady s i (encS 0x28 d.val k.val false 0 false) = true ∧ slotFed s i.cell.val k.val = true ∧
      ((s.cell i.cell.val).slot k.val).dropping = false ∧ ((s.cell i.cell.val).slot k.val).entries = e :: r) ∧
    (∃ s : State, ∃ i : Issue, ∃ d : Fin 16, ∃ k : Fin 4, cellReady s i (encS 0x28 d.val k.val false 0 false) = true ∧
      slotFed s i.cell.val k.val = true ∧ ((s.cell i.cell.val).slot k.val).entries = []) ∧
    (∃ s : State, ∃ i : Issue, ∃ d : Fin 16, ∃ k : Fin 4, cellReady s i (encS 0x28 d.val k.val false 0 false) = true ∧
      slotFed s i.cell.val k.val = false) ∧
    (∃ s : State, ∃ i : Issue, ∃ a : Fin 16, ∃ k : Fin 4, ∃ e : Bool, ∃ q : BitVec 2, ∃ x : Bool, ∃ r : Route,
      cellReady s i (encS 0x29 a.val k.val e q x) = true ∧ slotRoutes s i.cell.val k.val = [r] ∧ slotPorts s i.cell.val k.val = [] ∧
      pushReady s i.cell.val k.val = true) ∧
    (∃ s : State, ∃ i : Issue, ∃ k : Fin 4, cellReady s i (encS 0x2A 0 k.val false 0 false) = true ∧ slotFed s i.cell.val k.val = true) ∧
    (∃ s : State, ∃ i : Issue, ∃ d : Fin 16, ∃ k : Fin 4, cellReady s i (encS 0x2B d.val k.val false 0 false) = true ∧
      slotFed s i.cell.val k.val = true ∧ ((s.cell i.cell.val).slot k.val).dropping = false ∧
      (∀ e ∈ ((s.cell i.cell.val).slot k.val).entries, e.lag < s.ct.toNat - e.time.toNat)) ∧
    (∃ s : State, ∃ i : Issue, ∃ d : Fin 16, ∃ k : Fin 4, cellReady s i (encS 0x2C d.val k.val false 0 false) = true ∧
      slotRoutes s i.cell.val k.val ≠ []) :=
  ⟨
    ⟨(routed (cellAt (encS 0x28 0 0 false 0 false))).modCell 0 fun c => { c with ins := c.ins.set 0 { entries := [{ entry := entry0, time := 0, lag := 0 }] } },
      issue0, 0, 0, { entry := entry0, time := 0, lag := 0 }, [], by decide, by decide, by decide, by decide⟩,
    ⟨routed <| cellAt (encS 0x28 0 0 false 0 false), issue0, 0, 0, by decide, by decide, by decide⟩,
    ⟨cellAt (encS 0x28 0 0 false 0 false), issue0, 0, 0, by decide, by decide⟩,
    ⟨routed <| cellAt (encS 0x29 0 0 false 0 false), issue0, 0, 0, false, 0, false, route0, by decide, by decide, by decide, by decide⟩,
    ⟨routed <| cellAt (encS 0x2A 0 0 false 0 false), issue0, 0, by decide, by decide⟩,
    ⟨routed <| cellAt (encS 0x2B 0 0 false 0 false), issue0, 0, 0, by decide, by decide, by decide, by decide⟩,
    ⟨routed <| cellAt (encS 0x2C 0 0 false 0 false), issue0, 0, 0, by decide, by decide⟩⟩

theorem witness_CellSpecials_1 :
    (∃ s : State, ∃ i : Issue, ∃ d : Fin 16, ∃ n : BitVec 3, cellReady s i (encI 0x30 d.val 0 false n.toNat) = true ∧ n.toNat < 6) ∧
    (∃ s : State, ∃ i : Issue, ∃ a : Fin 16, cellReady s i (encI 0x31 0 a.val false 0) = true) ∧
    (∃ s : State, ∃ i : Issue, ∃ a : Fin 16, ∃ pin : Fin 16, cellReady s i (encI 0x34 0 a.val false pin.val) = true ∧ ∃ c,
      cellClaim s 1 pin.val = some c ∧ c.flags % 2 = 1) ∧
    (∃ s : State, ∃ i : Issue, ∃ a : Fin 16, ∃ pin : Fin 16, cellReady s i (encI 0x34 0 a.val false pin.val) = true ∧
      cellClaim s 1 pin.val = none) ∧
    (∃ s : State, ∃ i : Issue, ∃ d : Fin 16, ∃ pin : Fin 16, ∃ c : Claim, cellReady s i (encI 0x35 d.val 0 false pin.val) = true ∧
      cellClaim s 1 pin.val = some c) ∧
    (∃ s : State, ∃ i : Issue, ∃ a : Fin 16, ∃ k : Fin 8, ∃ c : Claim, cellClaim s 2 k.val = some c ∧
      cellReady s i (encI 0x36 0 a.val false k.val) = true) ∧
    (∃ s : State, ∃ i : Issue, ∃ k : Fin 8, ∃ c : Claim, cellClaim s 2 k.val = some c ∧ cellReady s i (encI 0x37 0 0 false k.val) = true ∧
      s.fab.timers[k].2 = true) ∧
    (∃ s : State, ∃ i : Issue, ∃ d : Fin 16, ∃ k : Fin 8, ∃ c : Claim, cellClaim s 2 k.val = some c ∧
      cellReady s i (encI 0x38 d.val 0 false k.val) = true) ∧
    (∃ s : State, ∃ i : Issue, cellReady s i (encI 0x3F 0 0 false 0) = true) :=
  ⟨
    ⟨cellAt (encI 0x30 0 0 false 5), issue0, 0, 5, by decide, by decide⟩,
    ⟨cellAt (encI 0x31 0 0 false 0), issue0, 0, by decide⟩,
    ⟨owned (cellAt (encI 0x34 0 0 false 0)) 1, issue0, 0, 0, by decide, claim0 1, by decide, by decide⟩,
    ⟨cellAt (encI 0x34 0 0 false 0), issue0, 0, 0, by decide, by decide⟩,
    ⟨owned (cellAt (encI 0x35 0 0 false 0)) 1, issue0, 0, 0, claim0 1, by decide, by decide⟩,
    ⟨owned (cellAt (encI 0x36 0 0 false 0)) 2, issue0, 0, 0, claim0 2, by decide, by decide⟩,
    ⟨(owned (cellAt (encI 0x37 0 0 false 0)) 2).modFab fun f => { f with timers := f.timers.set 0 (none, true) }, issue0, 0, claim0 2,
      by decide, by decide, by decide⟩,
    ⟨owned (cellAt (encI 0x38 0 0 false 0)) 2, issue0, 0, 0, claim0 2, by decide, by decide⟩,
    ⟨cellAt (encI 0x3F 0 0 false 0), issue0, by decide⟩⟩

theorem witness_CellSpecials_2 :
    (∃ s : State, ∃ i : Issue, ∃ w : Word, cellReady s i w = true ∧ cellLegal w = false) ∧
    (∃ s : State, ∃ m : Master, ∃ a : Word, ∃ n : Nat, gateOf a.toNat = 6 ∧
      s.permits { master := m, write := false, addr := a.toNat, len := n } = true) ∧
    (∃ s : State, ∃ m : Master, ∃ a : Word, ∃ d : List Byte, gateOf a.toNat = 6 ∧
      s.permits { master := m, write := true, addr := a.toNat, len := d.length } = true) :=
  ⟨
    ⟨cellAt 0, issue0, 0, by decide, by decide⟩,
    ⟨live0, .cc, 0x60000000, 4, by decide, by decide⟩,
    ⟨live0.wr (Reg.GATE_CSLOT 0) 0x0000000F, .cc, 0x60000000, [0, 0, 0, 0], by decide, by decide⟩⟩

theorem witness_CellWordsRoundTrip :
    (∃ c : Instr, ∃ i : Issue, ∃ w : Word, cellWord c = some (i, w)) ∧
    (∃ w : Word, cellLegal w = false) :=
  ⟨
    ⟨.cellHalt issue0, issue0, encB 0x23 0 0 0, by decide⟩,
    ⟨0, by decide⟩⟩

theorem witness_CellIssueAndException :
    (∃ c : Instr, ∃ i : Issue, ∃ w : Word, ∃ s : State, cellWord c = some (i, w) ∧ s.live = true ∧
      (cellRuns s i.cell.val = false ∨ codeAt s i.cell.val (s.cell i.cell.val).pc ≠ w)) ∧
    (∃ s : State, ∃ cause : Nat, s.canon = true ∧ cause < 16) :=
  ⟨
    ⟨.cellHalt issue0, issue0, encB 0x23 0 0 0, live0, by decide, by decide, by decide⟩,
    ⟨live0, 15, by decide, by decide⟩⟩

theorem witness_ChoreographyPasses_1 :
    (∃ s : State, ∃ j : LoadJob, s.live = true ∧ s.fab.load = some j ∧ j.phase = .checking ∧ ∃ c, ∃ b,
      checkChoreo s (s.buf j.buf).bytes = (c, b) ∧ c ≠ 0) ∧
    (∃ s : State, ∃ j : LoadJob, s.live = true ∧ s.fab.load = some j ∧ j.phase = .checking ∧ ∃ b, checkChoreo s (s.buf j.buf).bytes = (0,
      some b) ∧ j.replace = false ∧ b.conf.claims.any (claimCollides s false) = false) ∧
    (∃ s : State, ∃ j : LoadJob, s.live = true ∧ s.fab.load = some j ∧ j.phase = .checking ∧ ∃ b, checkChoreo s (s.buf j.buf).bytes = (0,
      some b) ∧ b.conf.claims.any (claimCollides s j.replace) = true) ∧
    (∃ s : State, ∃ j : LoadJob, s.live = true ∧ s.fab.load = some j ∧ j.phase = .abandoned) ∧
    (∃ s : State, ∃ j : LoadJob, s.live = true ∧ s.fab.load = some j ∧ j.phase = .draining) ∧
    (∃ s : State, ∃ u : UnloadJob, s.live = true ∧ s.fab.load = none ∧ s.fab.unload = some u ∧ u.draining = true) ∧
    (∃ s : State, ∃ j : LoadJob, s.live = true ∧ s.fab.load = some j ∧ j.phase = .applying ∧ reopenChoreo s j = none) ∧
    (∃ s : State, ∃ j : LoadJob, s.live = true ∧ s.fab.load = some j ∧ j.phase = .applying ∧ ∃ b, reopenChoreo s j = some b) ∧
    (∃ s : State, ∃ t : State, ∃ e : QEntry, ∃ r : List QEntry, s.live = true ∧ queuePacket s 14 = (some (e :: r), t) ∧
      t.fabLoaded = true ∧ fld e.data 31 28 < t.fab.conf.tally.length) :=
  ⟨
    ⟨load0 .checking, job0 .checking, by decide, by decide, by decide, _, _, rfl, by decide⟩,
    ⟨bound0 [], job0 .checking, by decide +kernel, by decide +kernel, by decide +kernel, body0, choreo_checked _, by decide +kernel,
      by decide +kernel⟩,
    ⟨bound0 choreo0.claims, job0 .checking, by decide +kernel, by decide +kernel, by decide +kernel, body0, choreo_checked _,
      by decide +kernel⟩,
    ⟨load0 .abandoned, job0 .abandoned, by decide, by decide, by decide⟩,
    ⟨load0 .draining, job0 .draining, by decide, by decide, by decide⟩,
    ⟨live0.modFab fun f => { f with unload := some { draining := true, reply := .none } }, { draining := true, reply := .none }, by decide,
      by decide, by decide, by decide⟩,
    ⟨load0 .applying, job0 .applying, by decide, by decide, by decide, by decide⟩,
    ⟨applying0, jobA, by decide +kernel, by decide +kernel, by decide +kernel, body0, choreo_reopens⟩,
    ⟨(queued (live0.wrb Reg.FAB_STAT 31 true) 14 [entry0]).modFab fun f => { f with conf := { f.conf with tally := [(0, 0)] } }, _, entry0,
      [], by decide, rfl, by decide, by decide⟩⟩

theorem witness_ChoreographyPasses_2 :
    (∃ s : State, ∃ t : State, ∃ e : QEntry, ∃ r : List QEntry, s.live = true ∧ queuePacket s 14 = (some (e :: r), t) ∧
      t.fab.conf.tally.length ≤ fld e.data 31 28) :=
    ⟨queued live0 14 [entry0], _, entry0, [], by decide, rfl, by decide⟩

theorem witness_ApplyFailureClears :
    (∃ s : State, s.canon = true ∧ ∃ a, 0x60000000 ≤ a ∧ a < 0x60100000) ∧
    (∃ s : State, s.canon = true ∧ ∃ a, (a < 0x60000000 ∨ 0x60100000 ≤ a)) ∧
    (∃ s : State, s.canon = true ∧ s.lanes.own.state ≠ .safe) :=
  ⟨
    ⟨live0, by decide, 0x600FFFFF, by decide, by decide⟩,
    ⟨live0, by decide, 0x60100000, by decide⟩,
    ⟨live0, by decide, by decide⟩⟩

theorem witness_EjectionCommands :
    (∃ s : State, ∃ m : Master, s.reaches m Reg.EJ_CTRL = true) ∧
    (∃ s : State, ∃ t : State, ∃ l : List QEntry, s.live = true ∧ queuePacket s 13 = (some l, t) ∧ (t.queue 13).stalled = [] ∧
      (l.length ≠ 6 ∨ l.any (·.abort) = true)) ∧
    (∃ s : State, ∃ t : State, ∃ l : List QEntry, s.live = true ∧ queuePacket s 13 = (some l, t) ∧ (t.queue 13).stalled = [] ∧
      l.length = 6 ∧ l.any (·.abort) = false ∧ t.rdb Reg.EJ_CTRL 1 = false) ∧
    (∃ s : State, ∃ t : State, ∃ w0 : QEntry, ∃ w1 : QEntry, ∃ w2 : QEntry, ∃ w3 : QEntry, ∃ w4 : QEntry, ∃ w5 : QEntry, s.live = true ∧
      queuePacket s 13 = (some [w0, w1, w2, w3, w4, w5], t) ∧ (t.queue 13).stalled = [] ∧ [w0, w1, w2, w3, w4, w5].any (·.abort) = false ∧
      t.rdb Reg.EJ_CTRL 1 = true ∧ let n := fld w0.data 31 30; let part := fld w0.data 29 27;
      let mask : DWord := BitVec.ofNat 64 (w1.data.toNat + 2 ^ 32 * w2.data.toNat);
      let tOn : Int := Int.ofNat (w3.data.toNat + 2 ^ 32 * w4.data.toNat) - 200 * (t.rdf (Reg.EJ_PTIME n) 31 16 : Int);
      (t.ejp n).state = .up ∧ partUsable t part = true ∧ mask ≠ 0 ∧ mask.toNat / 2 ^ (t.ejp n).nvalves = 0 ∧
      200 * (t.rdf (Reg.EJ_PLIM n) 15 0 : Int) ≤ tOn - t.ct.toNat ∧ tOn - t.ct.toNat ≤ 20000000 ∧ partCount t part < 128) ∧
    (∃ s : State, ∃ n : Fin 4, ∃ c : FireCmd, s.live = true ∧ (s.ejp n.val).state = .up ∧ (s.ejp n.val).exch = none ∧
      (s.ejp n.val).openNext = false ∧ (s.ejp n.val).queue = [c] ∧ c.tOn < s.ct.toNat + 20000) ∧
    (∃ s : State, ∃ n : Fin 4, ∃ c : FireCmd, s.live = true ∧ (s.ejp n.val).state = .up ∧ (s.ejp n.val).exch = none ∧
      (s.ejp n.val).openNext = false ∧ (s.ejp n.val).queue = [c] ∧ s.ct.toNat + 20000 ≤ c.tOn ∧ c.tOn ≤ s.ct.toNat + ejAdvance s n.val) :=
  ⟨
    ⟨live0, .cc, by decide⟩,
    ⟨queued live0 13 [entry0], _, [entry0], by decide, rfl, by decide, by decide⟩,
    ⟨queued live0 13 fire6, _, fire6, by decide, rfl, by decide, by decide, by decide, by decide⟩,
    ⟨queued armed0 13 [e0, e1, e2, e3, e2, e4], _, e0, e1, e2, e3, e2, e4, by decide, rfl, by decide, by decide, by decide, by decide,
      by decide, by decide, by decide, by decide, by decide, by decide⟩,
    ⟨up0.modEjp 0 fun p => { p with queue := [{ part := 0, tOn := 19999, width := 1, mask := 1, cls := none, id := 0 }] }, 0,
      { part := 0, tOn := 19999, width := 1, mask := 1, cls := none, id := 0 }, by decide, by decide, by decide, by decide, by decide,
      by decide⟩,
    ⟨up0.modEjp 0 fun p => { p with queue := [fire0] }, 0, fire0, by decide, by decide, by decide, by decide, by decide, by decide,
      by decide⟩⟩

theorem witness_NoFireUnlessArmed :
    (∃ s : State, s.rdb Reg.EJ_CTRL 1 = false) ∧
    (∃ s : State, ∃ n : Fin 4, (s.ejp n.val).state ≠ .up) ∧
    (∃ s : State, ∃ n : Fin 4, s.live = true ∧ (s.ejp n.val).state ≠ .up) ∧
    (∃ l : List FireCmd, List.Pairwise (fun a b => a.tOn ≤ b.tOn) l ∧ ∃ x, x ∈ l) :=
  ⟨
    ⟨live0, by decide⟩,
    ⟨live0, 0, by decide⟩,
    ⟨live0, 0, by decide, by decide⟩,
    ⟨[fire0], by decide, fire0, by decide⟩⟩

theorem witness_EjectorLinks :
    (∃ s : State, ∃ n : Fin 4, s.live = true ∧ (s.ejp n.val).state = .up ∧ (s.ejp n.val).exch = none ∧ (s.ejp n.val).openNext = false ∧
      (s.ejp n.val).queue = []) ∧
    (∃ s : State, ∃ n : Fin 4, s.live = true ∧ (s.ejp n.val).state = .probing ∧ (s.ejp n.val).exch = none ∧ (s.ejp n.val).openNext = false) ∧
    (∃ s : State, ∃ n : Fin 4, s.live = true ∧ (s.ejp n.val).state = .down) ∧
    (∃ s : State, ∃ n : Fin 4, ∃ x : EjExch, ∃ c : FireCmd, ∃ r : Byte, s.live = true ∧ (s.ejp n.val).exch = some x ∧ x.kind = .fire ∧
      x.seq < 256 ∧ x.cmds = [c] ∧ r.toNat ≤ 1) ∧
    (∃ s : State, ∃ n : Fin 4, ∃ x : EjExch, s.live = true ∧ (s.ejp n.val).exch = some x ∧ x.kind = .linkOpen ∧ x.seq < 256 ∧
      (s.ejp n.val).state = .probing) ∧
    (∃ s : State, ∃ n : Fin 4, ∃ x : EjExch, ∃ t2 : Word, ∃ t3 : Word, s.live = true ∧ (s.ejp n.val).exch = some x ∧ x.kind = .sync ∧
      x.seq < 256 ∧ ((t3 - t2).toInt < 80 ∨ 180 < (t3 - t2).toInt)) ∧
    (∃ s : State, ∃ n : Fin 4, ∃ x : EjExch, ∃ t2 : Word, ∃ t3 : Word, s.live = true ∧ (s.ejp n.val).exch = some x ∧ x.kind = .sync ∧
      x.seq < 256 ∧ 80 ≤ (t3 - t2).toInt ∧ (t3 - t2).toInt ≤ 180 ∧ (s.ejp n.val).pairs = []) ∧
    (∃ s : State, ∃ n : Fin 4, ∃ x : EjExch, s.live = true ∧ (s.ejp n.val).exch = some x ∧ x.kind ≠ .fire ∧ x.cmds = [] ∧
      x.tries < s.rdf (Reg.EJ_PCFG n.val) 26 24) ∧
    (∃ s : State, ∃ n : Fin 4, ∃ id : Half, ∃ c : FireCmd, s.live = true ∧ (s.ejp n.val).await.find? (fun c => c.id == id.toNat) = some c ∧
      c.tOn + 200 * c.width + 1000000 ≤ s.ct.toNat) :=
  ⟨
    ⟨up0, 0, by decide, by decide, by decide, by decide, by decide⟩,
    ⟨live0.modEjp 0 fun p => { p with state := .probing }, 0, by decide, by decide, by decide, by decide⟩,
    ⟨live0.modEjp 0 fun p => { p with state := .down }, 0, by decide, by decide⟩,
    ⟨exch0 .fire [fire0], 0, { kind := .fire, seq := 255, cmds := [fire0], sent := 0 }, fire0, 1, by decide, by decide, by decide,
      by decide, by decide, by decide⟩,
    ⟨(exch0 .linkOpen []).modEjp 0 fun p => { p with state := .probing }, 0, { kind := .linkOpen, seq := 255, sent := 0 }, by decide,
      by decide, by decide, by decide, by decide⟩,
    ⟨exch0 .sync [], 0, { kind := .sync, seq := 255, sent := 0 }, 0, 181, by decide, by decide, by decide, by decide, by decide⟩,
    ⟨exch0 .sync [], 0, { kind := .sync, seq := 255, sent := 0 }, 0, 180, by decide, by decide, by decide, by decide, by decide, by decide,
      by decide⟩,
    ⟨exch0 .sync [], 0, { kind := .sync, seq := 255, sent := 0 }, by decide, by decide, by decide, by decide, by decide⟩,
    ⟨(live0.modCt fun _ => 2000000).modEjp 0 fun p => { p with await := [fire0] }, 0, 0, fire0, by decide, by decide, by decide⟩⟩

theorem witness_RingLink_1 :
    (∃ s : State, ∃ p : Fin 2, s.live = true ∧ frlState s p.val = 0 ∧ s.rdb Reg.FRL_CTRL p.val = true) ∧
    (∃ s : State, ∃ p : Fin 2, s.live = true ∧ (frlState s p.val = 1 ∨ frlState s p.val = 3)) ∧
    (∃ s : State, ∃ p : Fin 2, s.live = true ∧ frlState s p.val = 1 ∧ ∃ letter, letter ≠ frlLetter p.val ∧ (s.frl p.val).sent < 15) ∧
    (∃ s : State, ∃ p : Fin 2, s.live = true ∧ frlState s p.val = 1 ∧ ∃ letter, letter ≠ frlLetter p.val ∧ 15 ≤ (s.frl p.val).sent ∧
      15 ≤ (s.frl p.val).got) ∧
    (∃ s : State, ∃ p : Fin 2, s.live = true ∧ frlUp s p.val = true) ∧
    (∃ s : State, ∃ p : Fin 2, ∃ h : List Byte, s.live = true ∧ frlUp s p.val = true ∧ (s.frl p.val).rx = none ∧ hcrcOk h = false) ∧
    (∃ s : State, ∃ p : Fin 2, ∃ h : List Byte, s.live = true ∧ frlUp s p.val = true ∧ (s.frl p.val).rx = none ∧
      let d := (numAt h 4 2 % 4096 + 4096 - (s.frl p.val).exp) % 4096; hcrcOk h = true ∧ 4032 ≤ d) ∧
    (∃ s : State, ∃ p : Fin 2, ∃ h : List Byte, s.live = true ∧ frlUp s p.val = true ∧ (s.frl p.val).rx = none ∧
      let d := (numAt h 4 2 % 4096 + 4096 - (s.frl p.val).exp) % 4096; hcrcOk h = true ∧ 0 < d ∧ d < 4032) ∧
    (∃ s : State, ∃ p : Fin 2, ∃ h : List Byte, s.live = true ∧ frlUp s p.val = true ∧ (s.frl p.val).rx = none ∧
      let d := (numAt h 4 2 % 4096 + 4096 - (s.frl p.val).exp) % 4096; hcrcOk h = true ∧ d = 0 ∧ (frlParse h).typ = 0x01 ∧
      (frlParse h).hops < 65) :=
  ⟨
    ⟨frlAt 0, 0, by decide, by decide, by decide⟩,
    ⟨frlAt 3, 0, by decide, by decide⟩,
    ⟨(frlAt 1).modFrl 0 fun x => { x with sent := 14 }, 0, by decide, by decide, 0, by decide, by decide⟩,
    ⟨(frlAt 1).modFrl 0 fun x => { x with sent := 15, got := 15 }, 0, by decide, by decide, 0, by decide, by decide, by decide⟩,
    ⟨frlAt 2, 0, by decide, by decide⟩,
    ⟨frlAt 2, 0, [], by decide, by decide, by decide, by decide⟩,
    ⟨frlAt 2, 0, hdr0 4095, by decide +kernel, by decide +kernel, by decide +kernel, by decide +kernel, by decide +kernel⟩,
    ⟨frlAt 2, 0, hdr0 4031, by decide +kernel, by decide +kernel, by decide +kernel, by decide +kernel, by decide +kernel,
      by decide +kernel⟩,
    ⟨frlAt 2, 0, hdr0 0, by decide +kernel, by decide +kernel, by decide +kernel, by decide +kernel, by decide +kernel, by decide +kernel,
      by decide +kernel⟩⟩

theorem witness_RingLink_2 :
    (∃ s : State, ∃ p : Fin 2, ∃ r : RxFrame, ∃ l : List Byte, s.live = true ∧ (s.frl p.val).rx = some r ∧ r.cut = false ∧
      l.length = r.len ∧ r.forward = false ∧ r.deliver = true ∧ r.frame.typ = 0x01 ∧ r.frame.bcast = false ∧ (s.frl p.val).good < 7) ∧
    (∃ s : State, ∃ p : Fin 2, ∃ r : RxFrame, ∃ l : List Byte, s.live = true ∧ (s.frl p.val).rx = some r ∧ r.cut = false ∧
      l.length = r.len ∧ r.forward = false ∧ r.deliver = false ∧ 7 ≤ (s.frl p.val).good) ∧
    (∃ s : State, ∃ p : Fin 2, ∃ a : Byte, ∃ b : Byte, ∃ k : Byte, s.live = true ∧ frlUp s p.val = true ∧ k = a ^^^ b ^^^ 0xA5 ∧
      bitOf b 7 = true) ∧
    (∃ s : State, ∃ p : Fin 2, ∃ a : Byte, ∃ b : Byte, ∃ k : Byte, s.live = true ∧ frlUp s p.val = true ∧
      let n := a.toNat + 256 * (b.toNat % 16); k = a ^^^ b ^^^ 0xA5 ∧ bitOf b 7 = false ∧ ((ackFrames s p.val n).frl p.val).unacked ≠ []) ∧
    (∃ s : State, ∃ p : Fin 2, ∃ a : Byte, ∃ b : Byte, ∃ k : Byte, s.live = true ∧ frlUp s p.val = true ∧ k ≠ a ^^^ b ^^^ 0xA5) ∧
    (∃ s : State, ∃ p : Fin 2, s.live = true ∧ frlUp s p.val = true ∧ 0 < (s.frl p.val).good) ∧
    (∃ s : State, ∃ p : Fin 2, s.live = true ∧ frlUp s p.val = true ∧ (s.frl p.val).backoff = true) ∧
    (∃ s : State, ∃ p : Fin 2, s.live = true ∧ frlUp s p.val = true ∧ (s.frl p.val).unacked ≠ [] ∧ (s.frl p.val).replays < 7) ∧
    (∃ s : State, ∃ p : Fin 2, s.live = true ∧ frlUp s p.val = true ∧ (s.frl p.val).unacked ≠ [] ∧ (s.frl p.val).replays = 7) :=
  ⟨
    ⟨(frlAt 2).modFrl 0 fun x => { x with good := 6, rx := some rx0 }, 0, rx0, [], by decide +kernel, by decide +kernel, by decide +kernel,
      by decide +kernel, by decide +kernel, by decide +kernel, by decide +kernel, by decide +kernel, by decide +kernel⟩,
    ⟨(frlAt 2).modFrl 0 fun x => { x with good := 7, rx := some { rx0 with deliver := false } }, 0, { rx0 with deliver := false }, [],
      by decide +kernel, by decide +kernel, by decide +kernel, by decide +kernel, by decide +kernel, by decide +kernel, by decide +kernel⟩,
    ⟨frlAt 2, 0, 0, 0x80, 0x25, by decide, by decide, by decide, by decide⟩,
    ⟨(frlAt 2).modFrl 0 fun x => { x with txSeq := 2, unacked := [(0, frame0), (1, frame0)] }, 0, 0, 0, 0xA5, by decide, by decide,
      by decide, by decide, by decide⟩,
    ⟨frlAt 2, 0, 0, 0, 0, by decide, by decide, by decide⟩,
    ⟨(frlAt 2).modFrl 0 fun x => { x with good := 1 }, 0, by decide, by decide, by decide⟩,
    ⟨(frlAt 2).modFrl 0 fun x => { x with backoff := true }, 0, by decide, by decide, by decide⟩,
    ⟨(frlAt 2).modFrl 0 fun x => { x with replays := 6, unacked := [(0, frame0)] }, 0, by decide, by decide, by decide, by decide⟩,
    ⟨(frlAt 2).modFrl 0 fun x => { x with replays := 7, unacked := [(0, frame0)] }, 0, by decide, by decide, by decide, by decide⟩⟩

theorem witness_ReplayWindow :
    (let window := fun (s : State) (p : Nat) => (s.frl p).unacked.length ≤ 64 ∧ (s.frl p).txSeq < 4096 ∧ ∀ i < (s.frl p).unacked.length, ((s.frl p).unacked[i]?).map Prod.fst = some (((s.frl p).txSeq + 4096 + i - (s.frl p).unacked.length) % 4096);
      ∃ s : State, ∃ t : State, ∃ p : Fin 2, ∃ a : Byte, ∃ b : Byte, ∃ k : Byte, window s 0 ∧ window s 1 ∧ let c := Instr.ack p a b k;
      exec c s = .next t) ∧
    (let window := fun (s : State) (p : Nat) => (s.frl p).unacked.length ≤ 64 ∧ (s.frl p).txSeq < 4096 ∧ ∀ i < (s.frl p).unacked.length, ((s.frl p).unacked[i]?).map Prod.fst = some (((s.frl p).txSeq + 4096 + i - (s.frl p).unacked.length) % 4096);
      ∃ s : State, ∃ p : Fin 2, ∃ k : Nat, window s p.val ∧ k ≤ (s.frl p.val).unacked.length) ∧
    (let window := fun (s : State) (p : Nat) => (s.frl p).unacked.length ≤ 64 ∧ (s.frl p).txSeq < 4096 ∧ ∀ i < (s.frl p).unacked.length, ((s.frl p).unacked[i]?).map Prod.fst = some (((s.frl p).txSeq + 4096 + i - (s.frl p).unacked.length) % 4096);
      ∃ s : State, ∃ p : Fin 2, ∃ n : Nat, window s p.val ∧ n < 4096 ∧ (∀ k ≤ (s.frl p.val).unacked.length,
      n ≠ ((s.frl p.val).txSeq + 4096 + k - (s.frl p.val).unacked.length) % 4096)) :=
  ⟨
    ⟨live0, _, 0, 0, 0, 0, by decide, by decide, rfl⟩,
    ⟨live0, 0, 0, by decide, by decide⟩,
    ⟨live0, 0, 1, by decide, by decide, by decide⟩⟩

theorem witness_FramesRoundTrip :
    (∃ f : Frame, ∃ n : Nat, f.typ < 256 ∧ f.src < 256 ∧ f.dst < 256 ∧ f.hops < 256 ∧ f.payload.length < 65536 ∧ n < 4096) ∧
    (∃ key : List Byte, (key.length = 16 ∨ key.length = 32)) ∧
    (∃ s : State, ∃ r : State, ∃ f : Frame, s.isManager = true ∧ r.isManager = false ∧ let key := sessKey s r.position f.path;
      let k := 2 * r.position + f.path; let pseq := sget (fun _ => 0) s.ring.pseqTx k + 1; (key.length = 16 ∨ key.length = 32) ∧
      sessKey r r.position f.path = key ∧ pseq < 2 ^ 48 ∧ sget (fun _ => 0) r.ring.pseqRx k < pseq) ∧
    (∃ s : State, ∃ r : State, ∃ f : Frame, s.isManager = true ∧ r.isManager = false ∧ let key := sessKey s r.position f.path;
      let k := 2 * r.position + f.path; let pseq := sget (fun _ => 0) s.ring.pseqTx k + 1; (key.length = 16 ∨ key.length = 32) ∧
      sessKey r r.position f.path = key ∧ pseq < 2 ^ 48 ∧ pseq ≤ sget (fun _ => 0) r.ring.pseqRx k) :=
  ⟨
    ⟨frame0, 4095, by decide, by decide, by decide, by decide, by decide, by decide⟩,
    ⟨List.replicate 16 0, by decide⟩,
    ⟨mgrKeys, wrkKeys, frame0, by decide, by decide, by decide, by decide, by decide, by decide⟩,
    ⟨mgrKeys, wrkKeys.modRing fun x => { x with pseqRx := [(510, 1)] }, frame0, by decide, by decide, by decide, by decide, by decide,
      by decide⟩⟩

theorem witness_RingTimeAndPositions_1 :
    (∃ s : State, ∃ p : Fin 2, ∃ f : Frame, ∃ stamp : DWord, ∃ rest : List (Nat × Frame × DWord), s.live = true ∧ s.ring.inbox = (p.val, f,
      stamp) :: rest ∧ f.typ = 0x03 ∧ s.isManager = false) ∧
    (∃ s : State, ∃ p : Fin 2, ∃ f : Frame, ∃ stamp : DWord, ∃ rest : List (Nat × Frame × DWord), s.live = true ∧ s.ring.inbox = (p.val, f,
      stamp) :: rest ∧ f.typ = 0x03 ∧ s.isManager = true ∧ f.src = s.position) ∧
    (∃ s : State, ∃ p : Fin 2, ∃ f : Frame, ∃ stamp : DWord, ∃ rest : List (Nat × Frame × DWord), s.live = true ∧ s.ring.inbox = (p.val, f,
      stamp) :: rest ∧ f.typ = 0x04) ∧
    (∃ s : State, ∃ p : Fin 2, ∃ f : Frame, ∃ stamp : DWord, ∃ rest : List (Nat × Frame × DWord), s.live = true ∧ s.ring.inbox = (p.val, f,
      stamp) :: rest ∧ f.typ = 0x05 ∧ let turn := dwordIn f.payload 16 - dwordIn f.payload 8; turn.toNat ≤ 10 * 200 * 65536) ∧
    (∃ s : State, ∃ p : Fin 2, ∃ f : Frame, ∃ stamp : DWord, ∃ rest : List (Nat × Frame × DWord), s.live = true ∧ s.ring.inbox = (p.val, f,
      stamp) :: rest ∧ f.typ = 0x05 ∧ let turn := dwordIn f.payload 16 - dwordIn f.payload 8; 10 * 200 * 65536 < turn.toNat) ∧
    (∃ s : State, ∃ p : Fin 2, ∃ f : Frame, ∃ stamp : DWord, ∃ rest : List (Nat × Frame × DWord), s.live = true ∧ s.ring.inbox = (p.val, f,
      stamp) :: rest ∧ f.typ = 0x02 ∧ f.prot = true) ∧
    (∃ s : State, ∃ p : Fin 2, ∃ f : Frame, ∃ stamp : DWord, ∃ rest : List (Nat × Frame × DWord), s.live = true ∧ s.ring.inbox = (p.val, f,
      stamp) :: rest ∧ f.typ = 0x02 ∧ f.prot = false ∧ s.isManager = false ∧ s.position = 0xFF ∧ f.hops = numAt f.payload 1 1 ∧
      frlUp s (otherPort p.val) = false) ∧
    (∃ s : State, ∃ p : Fin 2, ∃ f : Frame, ∃ stamp : DWord, ∃ rest : List (Nat × Frame × DWord), s.live = true ∧ s.ring.inbox = (p.val, f,
      stamp) :: rest ∧ f.typ = 0x01 ∧ s.isManager = false ∧ s.rdf Reg.SYS_ROLE 1 0 ≠ 1 ∧ f.rsp = false ∧ numAt f.payload 8 4 / 2 % 2 = 0 ∧
      armed s = false ∧ frlUp s (otherPort p.val) = false) ∧
    (∃ s : State, ∃ p : Fin 2, ∃ f : Frame, ∃ stamp : DWord, ∃ rest : List (Nat × Frame × DWord), s.live = true ∧ s.ring.inbox = (p.val, f,
      stamp) :: rest ∧ f.typ = 0x01 ∧ s.isManager = true ∧ s.ring.duplicate = false ∧ s.ring.nonce = some (f.payload.take 8) ∧
      let words := (List.range ((f.payload.length - 32) / 4)).map fun i => wordLE (f.payload.drop (32 + 4 * i)); (∀ w ∈ words,
      fld w 9 8 ≠ 1) ∧ numAt f.payload 8 4 / 2 % 2 = 0) :=
  ⟨
    ⟨inboxed live0 3 [], 0, { frame0 with typ := 3 }, 0, [], by decide, by decide, by decide, by decide⟩,
    ⟨mgr0.modRing fun x => { x with inbox := [(0, { frame0 with typ := 3, src := 0 }, 0)] }, 0, { frame0 with typ := 3, src := 0 }, 0, [],
      by decide, by decide, by decide, by decide, by decide⟩,
    ⟨inboxed live0 4 [], 0, { frame0 with typ := 4 }, 0, [], by decide, by decide, by decide⟩,
    ⟨inboxed live0 5 [], 0, { frame0 with typ := 5 }, 0, [], by decide, by decide, by decide, by decide⟩,
    ⟨inboxed live0 5 turn0, 0, { frame0 with typ := 5, payload := turn0 }, 0, [], by decide, by decide, by decide, by decide⟩,
    ⟨live0.modRing fun x => { x with inbox := [(0, { frame0 with typ := 2, flags := 0x80 }, 0)] }, 0,
      { frame0 with typ := 2, flags := 0x80 }, 0, [], by decide, by decide, by decide, by decide⟩,
    ⟨inboxed live0 2 [], 0, { frame0 with typ := 2 }, 0, [], by decide, by decide, by decide, by decide, by decide, by decide, by decide,
      by decide⟩,
    ⟨inboxed live0 1 [], 0, frame0, 0, [], by decide, by decide, by decide, by decide, by decide, by decide, by decide, by decide,
      by decide⟩,
    ⟨(inboxed mgr0 1 []).modRing fun x => { x with nonce := some [] }, 0, frame0, 0, [], by decide +kernel, by decide +kernel,
      by decide +kernel, by decide +kernel, by decide +kernel, by decide +kernel,
      fun w h => absurd (show w ∈ [] from h) (List.not_mem_nil), by decide +kernel⟩⟩

theorem witness_RingTimeAndPositions_2 :
    (∃ s : State, s.live = true ∧ s.isManager = true ∧ s.fwRuns = true ∧ s.ring.duplicate = false ∧ s.ring.nonce = none ∧
      s.ring.due = true) ∧
    (∃ s : State, s.live = true ∧ s.isManager = true ∧ s.fwRuns = true ∧ s.ring.duplicate = false ∧ ∃ n, s.ring.nonce = some n) ∧
    (∃ s : State, ∃ n : RingNode, s.ring.renum = none ∧ n.pos ≠ 0xFF) ∧
    (∃ s : State, ∃ a : EnumRes, ∃ all : List RingNode, ∃ n : RingNode, s.ring.renum = none ∧ takenOver s = false ∧ a.through = true ∧
      s.ring.sticky = none ∧ all = nodesOf false a ∧ n ∈ all ∧ n.pos = 0xFF ∧ n.hop ≤ 64 ∧ n.hop ≤ a.count ∧ (∀ m ∈ all, m.pos ≠ n.hop)) ∧
    (∃ s : State, ∃ pos : Nat, s.position ≠ 0xFF ∧ s.position ≠ pos) ∧
    (∃ s : State, ∃ off : Int, s.canon = true ∧ ctValid s = true ∧ 200 * 65536 < off.natAbs ∧ s.ring.outliers < 15) ∧
    (∃ s : State, ∃ off : Int, s.canon = true ∧ ctValid s = true ∧ off.natAbs ≤ 200 * 65536) ∧
    (∃ s : State, ∃ a : Nat × Nat, ∃ b : Nat × Nat, s.live = true ∧ s.isManager = false ∧ s.rdf Reg.FRL_STAT 17 16 = 1 ∧
      s.ring.seen[0] = some a ∧ s.ring.seen[1] = some b ∧ a.1 + 4 ≤ b.1 ∧ b.1 < 2 ^ 31) ∧
    (∃ s : State, ∃ a : Nat × Nat, ∃ b : Nat × Nat, s.live = true ∧ s.isManager = false ∧ s.rdf Reg.FRL_STAT 17 16 = 2 ∧
      s.ring.seen[1] = some a ∧ s.ring.seen[0] = some b ∧ a.1 + 4 ≤ b.1 ∧ b.1 < 2 ^ 31) :=
  ⟨
    ⟨mgr0.modRing fun x => { x with due := true }, by decide, by decide, by decide, by decide, by decide, by decide⟩,
    ⟨mgr0.modRing fun x => { x with nonce := some [] }, by decide, by decide, by decide, by decide, [], by decide⟩,
    ⟨live0, node0, by decide, by decide⟩,
    ⟨live0, { through := true, count := 64, records := [0xFF] }, [{ node0 with pos := 0xFF }], { node0 with pos := 0xFF }, by decide,
      by decide, by decide, by decide, by decide, by decide, by decide, by decide, by decide, by decide⟩,
    ⟨mgr0, 1, by decide, by decide⟩,
    ⟨timed0.modRing fun x => { x with outliers := 14 }, 200 * 65536 + 1, by decide, by decide, by decide, by decide⟩,
    ⟨timed0, 200 * 65536, by decide, by decide, by decide⟩,
    ⟨(live0.wrf Reg.FRL_STAT 17 16 1).modRing fun x => { x with seen := #v[some (0, 0), some (4, 0)] }, (0, 0), (4, 0), by decide,
      by decide, by decide, by decide, by decide, by decide, by decide⟩,
    ⟨(live0.wrf Reg.FRL_STAT 17 16 2).modRing fun x => { x with seen := #v[some (4, 0), some (0, 0)] }, (0, 0), (4, 0), by decide,
      by decide, by decide, by decide, by decide, by decide, by decide⟩⟩

theorem witness_RingTimeAndPositions_3 :
    (∃ s : State, s.live = true ∧ s.isManager = true ∧ s.ring.known = true ∧ s.ring.closed = false) :=
    ⟨mgr0.modRing fun x => { x with known := true }, by decide, by decide, by decide, by decide⟩

theorem witness_RingTransactions_1 :
    (∃ s : State, ∃ t : State, ∃ p : Fin 2, ∃ l : List QEntry, s.live = true ∧ s.fwRuns = true ∧ queuePacket s (frlQueue p.val) = (some l,
      t) ∧ let f := wordsFrame l; f.typ = 0x10 ∧ f.rsp = false ∧ ownRow s f = false ∧
      t.ring.done.find? (fun r => r.src == f.src && r.txn == f.txn.toNat) = none) ∧
    (∃ s : State, ∃ t : State, ∃ p : Fin 2, ∃ l : List QEntry, s.live = true ∧ s.fwRuns = true ∧ queuePacket s (frlQueue p.val) = (some l,
      t) ∧ let f := wordsFrame l; f.typ = 0x10 ∧ f.rsp = false ∧ ownRow s f = false ∧ ∃ r,
      t.ring.done.find? (fun r => r.src == f.src && r.txn == f.txn.toNat) = some r ∧ r.resp = none) ∧
    (∃ s : State, ∃ t : State, ∃ p : Fin 2, ∃ l : List QEntry, s.live = true ∧ s.fwRuns = true ∧ queuePacket s (frlQueue p.val) = (some l,
      t) ∧ let f := wordsFrame l; f.typ = 0x10 ∧ f.rsp = false ∧ ownRow s f = false ∧ ∃ r, ∃ b,
      t.ring.done.find? (fun r => r.src == f.src && r.txn == f.txn.toNat) = some r ∧ r.resp = some b) ∧
    (∃ s : State, ∃ t : State, ∃ p : Fin 2, ∃ l : List QEntry, s.live = true ∧ s.fwRuns = true ∧ queuePacket s (frlQueue p.val) = (some l,
      t) ∧ let f := wordsFrame l; f.typ = 0x10 ∧ f.rsp = true ∧
      s.ring.pend.any (fun t => t.txn == f.txn.toNat && t.use == .delta) = false ∧
      t.ring.pend.find? (fun x => x.txn == f.txn.toNat && x.pos == f.src) = none) ∧
    (∃ s : State, ∃ t : State, ∃ p : Fin 2, ∃ l : List QEntry, s.live = true ∧ s.fwRuns = true ∧ queuePacket s (frlQueue p.val) = (some l,
      t) ∧ let f := wordsFrame l; f.typ = 0x10 ∧ f.rsp = true ∧
      s.ring.pend.any (fun t => t.txn == f.txn.toNat && t.use == .delta) = false ∧ ∃ x,
      t.ring.pend.find? (fun x => x.txn == f.txn.toNat && x.pos == f.src) = some x ∧ x.use = .quiet) ∧
    (∃ s : State, ∃ p : Nat, ∃ f : Frame, (admitTxn s p f).1 = true) ∧
    (∃ s : State, ∃ txn : Word, ∃ t : TxnPend, s.live = true ∧ s.ring.pend.find? (fun t => t.txn == txn.toNat) = some t ∧ s.fwRuns = true ∧
      t.use ≠ .delta ∧ t.use ≠ .probe ∧ t.tries < 50) ∧
    (∃ s : State, ∃ txn : Word, ∃ t : TxnPend, s.live = true ∧ s.ring.pend.find? (fun t => t.txn == txn.toNat) = some t ∧ s.fwRuns = true ∧
      t.use ≠ .delta ∧ t.use ≠ .probe ∧ 50 ≤ t.tries ∧ t.use = .quiet ∧ s.isManager = true) ∧
    (∃ s : State, ∃ t : State, ∃ l : List QEntry, s.live = true ∧ queuePacket s 15 = (some l, t) ∧ t.isManager = false ∧ ∃ path,
      featurePath t = some path ∧ l.length ≤ 290 ∧ featuresWaiting t (pathPort t path) < 16) :=
  ⟨
    ⟨framed fw0 (rawFrame 0x10 0 [1]), _, 0, rawFrame 0x10 0 [1], by decide, by decide, rfl, by decide, by decide, by decide, by decide⟩,
    ⟨(framed fw0 (rawFrame 0x10 0 [1])).modRing fun x => { x with done := [rec0] }, _, 0, rawFrame 0x10 0 [1], by decide, by decide, rfl,
      by decide, by decide, by decide, rec0, by decide, by decide⟩,
    ⟨(framed fw0 (rawFrame 0x10 0 [1])).modRing fun x => { x with done := [{ rec0 with resp := some [] }] }, _, 0, rawFrame 0x10 0 [1],
      by decide, by decide, rfl, by decide, by decide, by decide, { rec0 with resp := some [] }, [], by decide, by decide⟩,
    ⟨framed fw0 (rawFrame 0x10 0x10 [1]), _, 0, rawFrame 0x10 0x10 [1], by decide, by decide, rfl, by decide, by decide, by decide,
      by decide⟩,
    ⟨(framed fw0 (rawFrame 0x10 0x10 [1])).modRing fun x => { x with pend := [pend0] }, _, 0, rawFrame 0x10 0x10 [1], by decide, by decide,
      rfl, by decide, by decide, by decide, pend0, by decide, by decide⟩,
    ⟨live0, 0, frame0, by decide⟩,
    ⟨fw0.modRing fun x => { x with pend := [{ pend0 with tries := 49 }] }, 0, { pend0 with tries := 49 }, by decide, by decide, by decide,
      by decide, by decide, by decide⟩,
    ⟨mgr0.modRing fun x => { x with pend := [{ pend0 with tries := 50 }] }, 0, { pend0 with tries := 50 }, by decide, by decide, by decide,
      by decide, by decide, by decide, by decide, by decide⟩,
    ⟨queued ((wrkKeys.wrf Reg.FRL_STAT 9 8 2).modKey fun k => { k with sessA := List.replicate 16 0 }) 15 [entry0], _, [entry0], by decide,
      rfl, by decide, 0, by decide, by decide, by decide⟩⟩

theorem witness_RingTransactions_2 :
    (∃ s : State, ∃ t : State, ∃ l : List QEntry, s.live = true ∧ queuePacket s 15 = (some l, t) ∧ t.isManager = false ∧
      featurePath t = none) ∧
    (∃ s : State, ∃ t : State, ∃ p : Fin 2, ∃ l : List QEntry, s.live = true ∧ s.isManager = true ∧ s.fwRuns = true ∧
      queuePacket s (frlQueue p.val) = (some l, t) ∧ let f := wordsFrame l; f.typ = 0x30 ∧ numAt f.payload 2 1 = 0 ∧
      numAt f.payload 3 1 = 1 ∧ t.ring.joins = []) ∧
    (∃ s : State, ∃ pos : BitVec 8, ∃ j : FeatJoin, s.live = true ∧ s.ring.joins = [j] ∧ j.pos = pos.toNat) :=
  ⟨
    ⟨queued live0 15 [entry0], _, [entry0], by decide, rfl, by decide, by decide⟩,
    ⟨framed mgr0 (rawFrame 0x30 0 [0x01000000]), _, 0, rawFrame 0x30 0 [0x01000000], by decide, by decide, by decide, rfl, by decide,
      by decide, by decide, by decide⟩,
    ⟨live0.modRing fun x => { x with joins := [join0] }, 0, join0, by decide, by decide, by decide⟩⟩

theorem witness_HostRefusals :
    (∃ s : State, s.live = true ∧ s.hostLink = false) ∧
    (∃ s : State, s.live = true ∧ let t := s.bump Reg.HOST_RXFRAMES 31 0; s.hostLink = true ∧ hostServed t = false) ∧
    (∃ s : State, s.live = true ∧ let t := s.bump Reg.HOST_RXFRAMES 31 0; s.hostLink = true ∧ hostServed t = true ∧
      (t.isManager = false ∨ t.ring.duplicate = true)) ∧
    (∃ s : State, ∃ c : HostCmd, s.live = true ∧ let t := s.bump Reg.HOST_RXFRAMES 31 0; s.hostLink = true ∧ hostServed t = true ∧
      t.isManager = true ∧ t.ring.duplicate = false ∧ c.epoch ≠ t.host.epoch) ∧
    (∃ s : State, ∃ c : HostCmd, s.live = true ∧ let t := s.bump Reg.HOST_RXFRAMES 31 0; s.hostLink = true ∧ hostServed t = true ∧
      t.isManager = true ∧ t.ring.duplicate = false ∧ c.epoch = t.host.epoch ∧ ∃ r,
      t.host.records.find? (fun r => r.txn == c.txn) = some r) ∧
    (∃ s : State, ∃ c : HostCmd, s.live = true ∧ let t := s.bump Reg.HOST_RXFRAMES 31 0; s.hostLink = true ∧ hostServed t = true ∧
      t.isManager = true ∧ t.ring.duplicate = false ∧ c.epoch = t.host.epoch ∧ t.host.records.find? (fun r => r.txn == c.txn) = none ∧
      t.host.jobs.any (fun j => j.txn == c.txn) = true) ∧
    (∃ s : State, ∃ c : HostCmd, s.live = true ∧ let t := s.bump Reg.HOST_RXFRAMES 31 0; s.hostLink = true ∧ hostServed t = true ∧
      t.isManager = true ∧ t.ring.duplicate = false ∧ c.epoch = t.host.epoch ∧ t.host.records.find? (fun r => r.txn == c.txn) = none ∧
      t.host.jobs.any (fun j => j.txn == c.txn) = false ∧ txnStale t c.txn = true) ∧
    (∃ s : State, ∃ c : HostCmd, s.live = true ∧ let t := s.bump Reg.HOST_RXFRAMES 31 0; s.hostLink = true ∧ hostServed t = true ∧
      t.isManager = true ∧ t.ring.duplicate = false ∧ c.epoch = t.host.epoch ∧ t.host.records.find? (fun r => r.txn == c.txn) = none ∧
      t.host.jobs.any (fun j => j.txn == c.txn) = false ∧ txnStale t c.txn = false ∧ 16 ≤ t.host.jobs.length) ∧
    (∃ s : State, ∃ c : HostCmd, s.live = true ∧ let e : Instr × Half := (.setTime c, 0x0003); let t := s.bump Reg.HOST_RXFRAMES 31 0;
      s.hostLink = true ∧ hostServed t = true ∧ t.isManager = true ∧ t.ring.duplicate = false ∧ c.epoch = t.host.epoch ∧
      t.host.records.find? (fun r => r.txn == c.txn) = none ∧ t.host.jobs.any (fun j => j.txn == c.txn) = false ∧
      txnStale t c.txn = false ∧ t.host.jobs.length < 16 ∧ inRecovery t = true ∧ recoveryCode e.2 = false) :=
  ⟨
    ⟨live0, by decide, by decide⟩,
    ⟨live0.wrb Reg.HOST_STAT 0 true, by decide, by decide, by decide⟩,
    ⟨host0.modRing fun x => { x with duplicate := true }, by decide, by decide, by decide, by decide⟩,
    ⟨host0, { cmd0 with epoch := 1 }, by decide, by decide, by decide, by decide, by decide, by decide⟩,
    ⟨host0.modHost fun h => { h with records := [{ txn := 1, code := 3, status := 0, body := [] }] }, cmd0, by decide, by decide,
      by decide, by decide, by decide, by decide, { txn := 1, code := 3, status := 0, body := [] }, by decide⟩,
    ⟨host0.modHost fun h => { h with jobs := [job1] }, cmd0, by decide, by decide, by decide, by decide, by decide, by decide, by decide,
      by decide⟩,
    ⟨host0.modHost fun h => { h with highest := some 1 }, cmd0, by decide, by decide, by decide, by decide, by decide, by decide,
      by decide, by decide, by decide⟩,
    ⟨host0.modHost fun h => { h with jobs := List.replicate 16 { job1 with txn := 0 } }, cmd0, by decide, by decide, by decide, by decide,
      by decide, by decide, by decide, by decide, by decide, by decide⟩,
    ⟨host0.modCore fun c => { c with mode := .recovery }, cmd0, by decide, by decide, by decide, by decide, by decide, by decide,
      by decide, by decide, by decide, by decide, by decide, by decide⟩⟩

theorem witness_HostCommands_1 :
    (∃ s : State, ∃ c : HostCmd, hostServing s = true ∧ c.body = []) ∧
    (∃ s : State, ∃ c : HostCmd, hostServing s = true ∧ hostNew s c = true ∧ let t := fun code => hostBegun s c code; let b := c.body;
      b.length = 8 ∧ ∃ u, ctSetBusy (t 0x0003) = (false, u)) ∧
    (∃ s : State, ∃ c : HostCmd, hostServing s = true ∧ hostNew s c = true ∧ let t := fun code => hostBegun s c code; let b := c.body;
      b.length = 8 ∧ ∃ u, ctSetBusy (t 0x0003) = (true, u)) ∧
    (∃ s : State, ∃ c : HostCmd, hostServing s = true ∧ hostNew s c = true ∧ let t := fun code => hostBegun s c code; let b := c.body;
      b.length = 8 ∧ numAt b 0 1 < 2 ∧ numAt b 4 4 ≤ 1474560 ∧ bufBusy (t 0x0401) (numAt b 0 1) = false) ∧
    (∃ s : State, ∃ c : HostCmd, hostServing s = true ∧ hostNew s c = true ∧ let t := fun code => hostBegun s c code; let b := c.body;
      8 ≤ b.length ∧ numAt b 0 1 < 2 ∧ let k := numAt b 0 1; let v := (t 0x0402).buf k; v.phase = .opened ∧
      numAt b 4 4 + (b.length - 8) ≤ v.size) ∧
    (∃ s : State, ∃ c : HostCmd, hostServing s = true ∧ hostNew s c = true ∧ let t := fun code => hostBegun s c code; let b := c.body;
      b.length = 36 ∧ numAt b 0 1 < 2 ∧ let k := numAt b 0 1; let v := (t 0x0403).buf k; v.phase = .opened ∧ sha256 v.bytes = slice b 4 32) ∧
    (∃ s : State, ∃ c : HostCmd, hostServing s = true ∧ hostNew s c = true ∧ let t := fun code => hostBegun s c code; let b := c.body;
      b.length = 36 ∧ numAt b 0 1 < 2 ∧ let k := numAt b 0 1; let v := (t 0x0403).buf k; v.phase = .opened ∧ sha256 v.bytes ≠ slice b 4 32) ∧
    (∃ s : State, ∃ c : HostCmd, hostServing s = true ∧ hostNew s c = true ∧ let t := fun code => hostBegun s c code; let b := c.body;
      downloadOk b = true ∧ numAt b 0 4 + numAt b 4 2 ≤ ((t 0x0404).buf 2).size) ∧
    (∃ s : State, ∃ c : HostCmd, hostServing s = true ∧ hostNew s c = true ∧ let t := fun code => hostBegun s c code; let b := c.body;
      b.length = 4 ∧ takenOver (t 0x0501) = false ∧ bufClosed (t 0x0501) (numAt b 0 1) = true) :=
  ⟨
    ⟨host0, cmd0, by decide, by decide⟩,
    ⟨host0, hosted (List.replicate 8 0), by decide, by decide, by decide, _, rfl⟩,
    ⟨host0.wrb Reg.EJ_CTRL 1 true, hosted (List.replicate 8 0), by decide, by decide, by decide, _, rfl⟩,
    ⟨host0, hosted [1, 0, 0, 0, 0, 0x80, 0x16, 0], by decide, by decide, by decide, by decide, by decide, by decide⟩,
    ⟨host0.setBuf 0 { phase := .opened, size := 1 }, hosted (List.replicate 9 0), by decide, by decide, by decide, by decide, by decide,
      by decide⟩,
    ⟨host0.setBuf 0 { phase := .opened }, hosted ([0, 0, 0, 0] ++ sha256 []), by decide +kernel, by decide +kernel, by decide +kernel,
      by decide +kernel, by decide +kernel, by decide +kernel⟩,
    ⟨host0.setBuf 0 { phase := .opened }, hosted (List.replicate 36 0), by decide +kernel, by decide +kernel, by decide +kernel,
      by decide +kernel, by decide +kernel, by decide +kernel⟩,
    ⟨host0.setBuf 2 { phase := .closed, size := 1 }, hosted [0, 0, 0, 0, 1, 0, 0, 0], by decide, by decide, by decide, by decide⟩,
    ⟨host0.setBuf 0 { phase := .closed }, hosted [0, 0, 0, 0], by decide, by decide, by decide, by decide, by decide⟩⟩

theorem witness_HostCommands_2 :
    (∃ s : State, ∃ c : HostCmd, hostServing s = true ∧ hostNew s c = true ∧ let t := fun code => hostBegun s c code; let b := c.body;
      b.length = 8 ∧ takenOver (t 0x0502) = false) ∧
    (∃ s : State, ∃ c : HostCmd, hostServing s = true ∧ hostNew s c = true ∧ let t := fun code => hostBegun s c code; let b := c.body;
      b = [] ∧ ∃ w, (t 0x0503).fw.switch = some w ∧ w.phase ≠ 4) ∧
    (∃ s : State, ∃ c : HostCmd, hostServing s = true ∧ hostNew s c = true ∧ let t := fun code => hostBegun s c code; let b := c.body;
      b.length = 4 ∧ bufClosed (t 0x0601) (numAt b 0 1) = true) ∧
    (∃ s : State, ∃ c : HostCmd, hostServing s = true ∧ hostNew s c = true ∧ let t := fun code => hostBegun s c code; let b := c.body;
      b.length = 4 ∧ bufClosed (t 0x0602) (numAt b 0 1) = true) ∧
    (∃ s : State, ∃ c : HostCmd, hostServing s = true ∧ hostNew s c = true ∧ let t := fun code => hostBegun s c code; let b := c.body;
      b.length = 8 ∧ ∃ l, findStatement (t 0x0603) (numAt b 0 2) (numAt b 4 4) = some l) ∧
    (∃ s : State, ∃ c : HostCmd, hostServing s = true ∧ hostNew s c = true ∧ let t := fun code => hostBegun s c code; let b := c.body;
      b.length = 8 ∧ findStatement (t 0x0603) (numAt b 0 2) (numAt b 4 4) = none) ∧
    (∃ s : State, ∃ c : HostCmd, hostServing s = true ∧ hostNew s c = true ∧ let t := fun code => hostBegun s c code; let b := c.body;
      b.length = 4 ∧ ∃ a, (t 0x0604).met.closing = none ∧ accOf (t 0x0604) (numAt b 0 2) = some a) ∧
    (∃ s : State, ∃ c : HostCmd, hostServing s = true ∧ hostNew s c = true ∧ let b := c.body; plantOk b = true ∧
      badAddr (plantOf b) (plantOf b).ip = false ∧ badAddr (plantOf b) (plantOf b).dst = false ∧ maskOk (plantOf b).mask = true ∧
      (plantOf b).gateway = 0 ∧ numAt b 22 1 = 0) ∧
    (∃ s : State, ∃ c : HostCmd, hostServing s = true ∧ hostNew s c = true ∧ let t := fun code => hostBegun s c code; let b := c.body;
      b = [] ∧ s.host.jobs = [] ∧ takenOver (t 0x0101) = false ∧ s.ring.renum = none ∧ s.ring.closed = true) :=
  ⟨
    ⟨host0, hosted (List.replicate 8 0), by decide, by decide, by decide, by decide⟩,
    ⟨host0.modFw fun f => { f with switch := some { at' := 0, phase := 0, slot := 0 } }, cmd0, by decide, by decide, by decide,
      { at' := 0, phase := 0, slot := 0 }, by decide, by decide⟩,
    ⟨host0.setBuf 1 { phase := .closed }, hosted [1, 0, 0, 0], by decide, by decide, by decide, by decide⟩,
    ⟨host0.setBuf 0 { phase := .closed }, hosted [0, 0, 0, 0], by decide, by decide, by decide, by decide⟩,
    ⟨host0.setBytes (logSlot 0) [1], hosted (List.replicate 8 0), by decide +kernel, by decide +kernel, by decide +kernel,
      List.replicate 96 0, by decide +kernel⟩,
    ⟨host0, hosted (List.replicate 8 0), by decide +kernel, by decide +kernel, by decide +kernel, by decide +kernel⟩,
    ⟨host0.modMet fun m => { m with acc := sset (fun _ => none) m.acc 1 (some { period := 0, start := 0 }) }, hosted [1, 0, 0, 0],
      by decide +kernel, by decide +kernel, by decide +kernel, { period := 0, start := 0 }, by decide +kernel, by decide +kernel⟩,
    ⟨host0, hosted ([1, 0, 0, 10, 0, 0, 0, 255, 0, 0, 0, 0, 2, 0, 0, 10] ++ [1, 0, 1, 0, 0x10, 0x0E, 0, 0, 0, 0]), by decide, by decide,
      by decide, by decide, by decide, by decide, by decide, by decide⟩,
    ⟨host0.modRing fun x => { x with closed := true }, cmd0, by decide, by decide, by decide, by decide, by decide, by decide, by decide⟩⟩

theorem witness_HostCommands_3 :
    (∃ s : State, ∃ c : HostCmd, hostServing s = true ∧ hostNew s c = true ∧ let t := fun code => hostBegun s c code; let b := c.body;
      b = [] ∧ s.host.jobs = [] ∧ takenOver (t 0x0101) = false ∧ s.ring.renum = none ∧ s.ring.closed = false) ∧
    (∃ s : State, ∃ c : HostCmd, hostServing s = true ∧ hostNew s c = true ∧ ∃ code, knownCode code = false) ∧
    (∃ s : State, ∃ c : HostCmd, hostServing s = true ∧ hostNew s c = true ∧ let b := c.body; b.length = 3) :=
  ⟨
    ⟨host0, cmd0, by decide, by decide, by decide, by decide, by decide, by decide, by decide⟩,
    ⟨host0, cmd0, by decide, by decide, 0, by decide⟩,
    ⟨host0, hosted [0, 0, 0], by decide, by decide, by decide⟩⟩

theorem witness_HostLaneCommands_1 :
    (∃ s : State, ∃ c : HostCmd, hostServing s = true ∧ hostNew s c = true ∧ s.host.jobs = [] ∧ let b := c.body;
      let t := fun code => hostBegun s c code;
      let own := fun code => laneRefusal (t code) code c.lane.toNat = none ∧ c.lane.toNat = (t code).ownLane;
      let e := (Instr.diagRead c, (0x0006 : Half), diagOk b, laneDiagRead b (t 0x0006)); own e.2.1 ∧ e.2.2.1 = true) ∧
    (∃ s : State, ∃ c : HostCmd, hostServing s = true ∧ hostNew s c = true ∧ s.host.jobs = [] ∧ let b := c.body;
      let t := fun code => hostBegun s c code;
      let own := fun code => laneRefusal (t code) code c.lane.toNat = none ∧ c.lane.toNat = (t code).ownLane; own 0x0308 ∧ b.length = 4 ∧
      numAt b 0 1 ≤ 7 ∧ bufClosed (t 0x0308) (numAt b 1 1) = true) ∧
    (∃ s : State, ∃ c : HostCmd, hostServing s = true ∧ hostNew s c = true ∧ s.host.jobs = [] ∧ let b := c.body;
      let t := fun code => hostBegun s c code;
      let own := fun code => laneRefusal (t code) code c.lane.toNat = none ∧ c.lane.toNat = (t code).ownLane; own 0x0007 ∧ b.length = 4 ∧
      numAt b 0 4 = 0xD5E1) ∧
    (∃ s : State, ∃ c : HostCmd, hostServing s = true ∧ hostNew s c = true ∧ s.host.jobs = [] ∧ let b := c.body;
      let t := fun code => hostBegun s c code;
      let own := fun code => laneRefusal (t code) code c.lane.toNat = none ∧ c.lane.toNat = (t code).ownLane; own 0x0206 ∧ b.length = 8 ∧
      numAt b 0 1 ≤ 1 ∧ loopRangeOk (loopCfgOf b) = true ∧ let u := loopStore (t 0x0206) c.lane.toNat b;
      (u.lane c.lane.toNat).state ≠ .safe ∧ c.lane.toNat = u.ownLane) ∧
    (∃ s : State, ∃ c : HostCmd, hostServing s = true ∧ hostNew s c = true ∧ s.host.jobs = [] ∧ let b := c.body;
      let t := fun code => hostBegun s c code;
      let own := fun code => laneRefusal (t code) code c.lane.toNat = none ∧ c.lane.toNat = (t code).ownLane; own 0x0205 ∧
      injectOk b = true ∧ 4 < b.length ∧ ((t 0x0205).fabLoaded && portEnabled (t 0x0205).fab.conf 5) = true) ∧
    (∃ s : State, ∃ c : HostCmd, hostServing s = true ∧ hostNew s c = true ∧ s.host.jobs = [] ∧ let b := c.body;
      let t := fun code => hostBegun s c code;
      let own := fun code => laneRefusal (t code) code c.lane.toNat = none ∧ c.lane.toNat = (t code).ownLane; own 0x0205 ∧
      injectOk b = true ∧ (t 0x0205).fabLoaded = false) ∧
    (∃ s : State, ∃ c : HostCmd, hostServing s = true ∧ hostNew s c = true ∧ s.host.jobs = [] ∧ let b := c.body;
      let t := fun code => hostBegun s c code;
      let own := fun code => laneRefusal (t code) code c.lane.toNat = none ∧ c.lane.toNat = (t code).ownLane; own 0x0201 ∧ b.length = 12 ∧
      numAt b 0 1 ≤ 1 ∧ bufClosed (t 0x0201) (numAt b 1 1) = false) ∧
    (∃ s : State, ∃ c : HostCmd, hostServing s = true ∧ hostNew s c = true ∧ s.host.jobs = [] ∧ let b := c.body;
      let t := fun code => hostBegun s c code;
      let own := fun code => laneRefusal (t code) code c.lane.toNat = none ∧ c.lane.toNat = (t code).ownLane; own 0x0201 ∧ b.length = 12 ∧
      numAt b 0 1 ≤ 1 ∧ let a := loadAskOf (t 0x0201) (hostJob c 0x0201); bufClosed (t 0x0201) (numAt b 1 1) = true ∧
      loadRefusal (t 0x0201) (a.mode == 1) a.tenant = none ∧ appletOf (t 0x0201) a.tenant = none) ∧
    (∃ s : State, ∃ c : HostCmd, hostServing s = true ∧ hostNew s c = true ∧ s.host.jobs = [] ∧ let b := c.body;
      let t := fun code => hostBegun s c code;
      let own := fun code => laneRefusal (t code) code c.lane.toNat = none ∧ c.lane.toNat = (t code).ownLane; own 0x0202 ∧ b = [] ∧
      (t 0x0202).fabLoaded = true ∧ (t 0x0202).fab.load = none ∧ (t 0x0202).fab.unload = none ∧ (t 0x0202).lanes.own.state = .idle) :=
  ⟨
    ⟨host0.modLanes fun x => { x with own := { state := .idle } }, hosted [0, 0, 0, 0x40, 64, 0], by decide, by decide, by decide,
      by decide, by decide⟩,
    ⟨idle0.setBuf 0 { phase := .closed }, hosted [0, 0, 0, 0], by decide, by decide, by decide, by decide, by decide, by decide, by decide⟩,
    ⟨idle0, hosted [0xE1, 0xD5, 0, 0], by decide, by decide, by decide, by decide, by decide, by decide⟩,
    ⟨idle0, hosted (List.replicate 8 0), by decide +kernel, by decide +kernel, by decide +kernel, by decide +kernel, by decide +kernel,
      by decide +kernel, by decide +kernel, by decide +kernel, by decide +kernel⟩,
    ⟨(idle0.wrb Reg.FAB_STAT 31 true).modFab fun f => { f with conf := { f.conf with ports := [{ port := 5, slots := [(0, 0)] }] } },
      hosted [1, 0, 0, 0, 0, 0, 0, 0], by decide, by decide, by decide, by decide, by decide, by decide, by decide⟩,
    ⟨idle0, hosted [1, 0, 0, 0, 0, 0, 0, 0], by decide, by decide, by decide, by decide, by decide, by decide⟩,
    ⟨idle0, hosted (List.replicate 12 0), by decide, by decide, by decide, by decide, by decide, by decide, by decide⟩,
    ⟨((keyed idle0).wr Reg.CAL_SLOTSTAT 1).setBuf 0 (bufOf (List.replicate 8 0 ++ [1] ++ List.replicate 7 0)),
      hosted (List.replicate 12 0), by decide +kernel, by decide +kernel, by decide +kernel, by decide +kernel, by decide +kernel,
      by decide +kernel, by decide +kernel, by decide +kernel, by decide +kernel⟩,
    ⟨idle0.wrb Reg.FAB_STAT 31 true, hosted [], by decide, by decide, by decide, by decide, by decide, by decide, by decide, by decide,
      by decide⟩⟩

theorem witness_HostLaneCommands_2 :
    (∃ s : State, ∃ c : HostCmd, hostServing s = true ∧ hostNew s c = true ∧ s.host.jobs = [] ∧ let b := c.body;
      let t := fun code => hostBegun s c code; ((t 0x0204).lane c.lane.toNat).state = .vacant ∧ c.lane.toNat ≤ 64 ∧ b = []) ∧
    (∃ s : State, ∃ b : List Byte, s.lanes.own.state = .idle ∧ s.feRunning = true ∧ calState s = 0 ∧ 4663 * 65536 ≤ numAt b 4 4 * 20 ∧
      numAt b 8 4 * 20 ≤ 15463 * 65536 ∧ numAt b 4 4 + 655360 ≤ numAt b 8 4 ∧ numAt b 2 1 = 0) ∧
    (∃ s : State, (calState s = 1 ∨ calState s = 4)) ∧
    (∃ s : State, calState s = 9) ∧
    (∃ s : State, calState s ≠ 9) ∧
    (∃ s : State, calState s ≠ 0 ∧ calState s ≠ 0xA) ∧
    (∃ s : State, ∃ b : List Byte, ∃ l, exportBytes s (numAt b 0 1) = some l) ∧
    (∃ s : State, shtRefusal s = none) ∧
    (∃ s : State, ∃ b : List Byte, ∃ d, (s.ejp (numAt b 0 1)).state = .up ∧ servicePart s = some d ∧
      let mask : DWord := BitVec.ofNat 64 (numAt b 4 8); let tOn : Int := Int.ofNat (numAt b 12 8); mask ≠ 0 ∧
      mask.toNat / 2 ^ (s.ejp (numAt b 0 1)).nvalves = 0 ∧ 200 * (s.rdf (Reg.EJ_PLIM (numAt b 0 1)) 15 0 : Int) ≤ tOn - s.ct.toNat ∧
      tOn - s.ct.toNat ≤ 20000000 ∧ partCount s d < 128) :=
  ⟨
    ⟨host0, { hosted [] with lane := 64 }, by decide, by decide, by decide, by decide, by decide, by decide⟩,
    ⟨(live0.wrb Reg.BFE_STAT 0 true).modLanes fun x => { x with own := { state := .idle } }, cal9, by decide, by decide, by decide,
      by decide, by decide, by decide, by decide⟩,
    ⟨live0.wrf Reg.CAL_STATE 3 0 1, by decide⟩,
    ⟨live0.wrf Reg.CAL_STATE 3 0 9, by decide⟩,
    ⟨live0, by decide⟩,
    ⟨live0.wrf Reg.CAL_STATE 3 0 1, by decide, by decide⟩,
    ⟨(live0.wr Reg.BFE_GEOM 0x00020003).wr Reg.CAL_SLOTSTAT 1, [0], _, (if_pos (.inl (by decide))).trans (if_pos (by decide +kernel))⟩,
    ⟨shtReady, by decide⟩,
    ⟨armed0, [0, 0, 0, 0, 1, 0, 0, 0, 0, 0, 0, 0] ++ [0, 0x2D, 0x31, 1, 0, 0, 0, 0], 0, by decide, by decide, by decide, by decide,
      by decide, by decide, by decide⟩⟩

theorem witness_HostPlantLoops_1 :
    (let inForm := fun s : State => s.host.events.length ≤ 256 ∧ List.Pairwise (fun a b : HostEvent => a.eseq < b.eseq) s.host.events ∧ ∀ e ∈ s.host.events, e.eseq < s.host.eseq;
      ∃ s : State, inForm s ∧ s.isManager = true ∧ s.host.events.length < 256) ∧
    (let inForm := fun s : State => s.host.events.length ≤ 256 ∧ List.Pairwise (fun a b : HostEvent => a.eseq < b.eseq) s.host.events ∧ ∀ e ∈ s.host.events, e.eseq < s.host.eseq;
      ∃ s : State, hostServing s = true ∧ inForm s ∧ s.host.lost = 0) ∧
    (∃ s : State, s.live = true ∧ s.isManager = true ∧ s.fwRuns = true ∧ s.hostReady = true) ∧
    (∃ s : State, s.live = true ∧ s.hostLink = true ∧ let t := (s.wrf Reg.HOST_STAT 2 0 0).wrb Reg.ERR_EVT 12 true; t.isManager = true) ∧
    (∃ s : State, s.live = true ∧ s.hostLink = false ∧ s.acting ≠ 0) ∧
    (∃ s : State, ∃ c : PlantCfg, ∃ ip : Word, s.live = true ∧ s.isManager = true ∧ plantUp s = true ∧ s.host.plant = some c ∧ c.ip = ip) ∧
    (∃ s : State, ∃ c : PlantCfg, ∃ ip : Word, s.live = true ∧ s.isManager = true ∧ plantUp s = true ∧ s.host.plant = some c ∧
      nextHop c = ip) ∧
    (∃ s : State, ∃ c : PlantCfg, s.live = true ∧ s.isManager = true ∧ plantUp s = true ∧ s.host.plant = some c ∧
      let recent := s.host.echoes.filter fun t => decide (s.ct.toNat - t.toNat < ticksPerSecond); recent.length < 10) ∧
    (∃ s : State, ∃ c : PlantCfg, s.live = true ∧ s.isManager = true ∧ plantUp s = true ∧ s.host.plant = some c ∧
      let recent := s.host.echoes.filter fun t => decide (s.ct.toNat - t.toNat < ticksPerSecond); 10 ≤ recent.length) :=
  ⟨
    ⟨host0, by decide, by decide, by decide⟩,
    ⟨host0, by decide, by decide, by decide⟩,
    ⟨host0.modHost fun h => { h with peer := some 0 }, by decide, by decide, by decide, by decide⟩,
    ⟨host0, by decide, by decide, by decide⟩,
    ⟨mgr0, by decide, by decide, by decide⟩,
    ⟨plant0, cfg0, cfg0.ip, by decide, by decide, by decide, by decide, by decide⟩,
    ⟨plant0, cfg0, nextHop cfg0, by decide, by decide, by decide, by decide, by decide⟩,
    ⟨plant0, cfg0, by decide, by decide, by decide, by decide, by decide⟩,
    ⟨plant0.modHost fun h => { h with echoes := List.replicate 10 0 }, cfg0, by decide, by decide, by decide, by decide, by decide⟩⟩

theorem witness_HostPlantLoops_2 :
    (∃ s : State, ∃ d : List Byte, ∃ r : List (List Byte), s.live = true ∧ s.host.plantWait = d :: r) ∧
    (∃ s : State, s.live = true ∧ s.isManager = true ∧ plantUp s = false ∧ s.host.plant = none) ∧
    (∃ s : State, s.live = true ∧ ∃ c, s.isManager = true ∧ plantUp s = false ∧ s.host.plant = some c) ∧
    (∃ s : State, s.live = true ∧ plantUp s = true) ∧
    (∃ s : State, s.live = true ∧ s.isManager = true ∧ s.fwRuns = true ∧ s.host.plant.isSome = true) ∧
    (∃ s : State, ∃ r : StatementSet, ∃ l : List StatementSet, s.live = true ∧ s.host.repeats = r :: l ∧ 1 < r.left) ∧
    (∃ s : State, ∃ r : StatementSet, ∃ l : List StatementSet, s.live = true ∧ s.host.repeats = r :: l ∧ r.left ≤ 1) ∧
    (∃ s : State, ∃ n : Fin 2, ∃ ua : BitVec 15, s.live = true ∧ let t := s.wr (Reg.LOOP_MEAS n) (BitVec.ofNat 32 ua.toNat);
      loopTarget t n ≠ 0 ∧ ua.toNat + 100 < loopTarget t n ∧ (s.loopEval n).short < 49) ∧
    (∃ s : State, ∃ n : Fin 2, ∃ ua : BitVec 15, s.live = true ∧ let t := s.wr (Reg.LOOP_MEAS n) (BitVec.ofNat 32 ua.toNat);
      loopTarget t n ≠ 0 ∧ ua.toNat + 100 < loopTarget t n ∧ (s.loopEval n).short = 49 ∧ loopShort t n = false) :=
  ⟨
    ⟨live0.modHost fun h => { h with plantWait := [[0]] }, [0], [], by decide, by decide⟩,
    ⟨mgr0, by decide, by decide, by decide, by decide⟩,
    ⟨mgr0.modHost fun h => { h with plant := some cfg0 }, by decide, cfg0, by decide, by decide, by decide⟩,
    ⟨plant0, by decide, by decide⟩,
    ⟨plant0, by decide, by decide, by decide, by decide⟩,
    ⟨live0.modHost fun h => { h with repeats := [{ dseq := 1, body := [], left := 2 }] }, { dseq := 1, body := [], left := 2 }, [],
      by decide, by decide, by decide⟩,
    ⟨live0.modHost fun h => { h with repeats := [{ dseq := 1, body := [], left := 1 }] }, { dseq := 1, body := [], left := 1 }, [],
      by decide, by decide, by decide⟩,
    ⟨loop0.modLoop 0 fun l => { l with short := 48 }, 0, 3499, by decide, by decide, by decide, by decide⟩,
    ⟨loop0.modLoop 0 fun l => { l with short := 49 }, 0, 3499, by decide, by decide, by decide, by decide, by decide⟩⟩

theorem witness_HostPlantLoops_3 :
    (∃ s : State, ∃ n : Fin 2, ∃ ua : BitVec 15, s.live = true ∧ let t := s.wr (Reg.LOOP_MEAS n) (BitVec.ofNat 32 ua.toNat);
      loopTarget t n ≠ 0 ∧ loopTarget t n ≤ ua.toNat + 100 ∧ (s.loopEval n).fine = 999 ∧ loopShort t n = true) ∧
    (∃ s : State, ∃ n : Fin 2, (s.rdb Reg.ERR_STAT 31 = true ∨ (s.loopEval n).configured = false)) ∧
    (∃ s : State, ∃ n : Fin 2, s.rdb Reg.ERR_STAT 31 = false ∧ (s.loopEval n).configured = true ∧ loopAlarm s n = false ∧
      s.rdf (Reg.LOOP_CTRL n) 1 0 = 1) ∧
    (∃ s : State, ∃ w : List Word, ∃ r : ReplyTo, ∃ l : List (List Word × ReplyTo), s.live = true ∧ s.host.injects = (w, r) :: l) :=
  ⟨
    ⟨(loop0.modLoop 0 fun l => { l with fine := 999 }).wrb Reg.LOOP_STAT 0 true, 0, 3500, by decide, by decide, by decide, by decide,
      by decide⟩,
    ⟨live0, 0, by decide⟩,
    ⟨loop0.modLoop 0 fun l => { l with configured := true }, 0, by decide, by decide, by decide, by decide⟩,
    ⟨live0.modHost fun h => { h with injects := [([], .none)] }, [], .none, [], by decide, by decide⟩⟩

theorem witness_PavaneCommands_1 :
    (∃ s : State, ∃ m : Master, s.reaches m Reg.SYS_PAVMB_REQ = true ∧ s.rdb Reg.SYS_PAVMB_RSP 31 = false) ∧
    (∃ s : State, s.live = true ∧ s.rdb Reg.SYS_PAVMB_RSP 31 = true) ∧
    (∃ s : State, ∃ m : Master, s.reaches m Reg.PAV_CLKCFG = true) ∧
    (∃ s : State, ∃ m : Master, ∃ v : Word, s.reaches m Reg.PAV_DBG_CLOSE = true ∧ bitOf v 0 = true) ∧
    (∃ s : State, ∃ m : Master, ∃ v : Word, s.reaches m Reg.PAV_CNT_ADD = true ∧ v ≠ 0 ∧ ∃ x,
      cntRead s (s.rdf Reg.PAV_CNT_IDX 9 0) = some x ∧ x + v.toNat < 2 ^ 64) ∧
    (∃ s : State, s.live = true ∧ (cntRead s 0).isSome = true ∧ s.lcStored = 0) ∧
    (∃ s : State, s.live = true ∧ (cntRead s 0).isSome = true ∧ s.lcStored = 1) ∧
    (∃ s : State, s.live = true ∧ (cntRead s 0).isSome = true ∧ s.lcStored = 2) ∧
    (∃ s : State, ∃ n : Fin 6, s.power.phase = .running ∧ s.lc ≠ 3 ∧ s.rst.asserted = false ∧ n ≠ 5 ∧ erases s n = false) :=
  ⟨
    ⟨live0, .cc, by decide, by decide⟩,
    ⟨live0.wrb Reg.SYS_PAVMB_RSP 31 true, by decide, by decide⟩,
    ⟨live0, .en, by decide⟩,
    ⟨live0, .en, 1, by decide, by decide⟩,
    ⟨live0, .en, 1, by decide, by decide, 0, by decide, by decide⟩,
    ⟨live0, by decide, by decide, by decide⟩,
    ⟨stored0 1, by decide, by decide, by decide⟩,
    ⟨stored0 2, by decide, by decide, by decide⟩,
    ⟨live0.wr Reg.PAV_TAMPER_CFG 0, 0, by decide, by decide, by decide, by decide, by decide⟩⟩

theorem witness_PavaneCommands_2 :
    (∃ s : State, ∃ n : Fin 6, s.power.phase = .running ∧ s.lc ≠ 3 ∧ s.rst.asserted = false ∧ n ≠ 5 ∧ erases s n = true) ∧
    (∃ s : State, s.live = true ∧ s.rdf Reg.PAV_RNG_STAT 1 0 ≠ 2 ∧ s.pav.rngFails < 2) ∧
    (∃ s : State, s.live = true ∧ s.rdf Reg.PAV_RNG_STAT 1 0 ≠ 2 ∧ s.pav.rngFails = 2) ∧
    (∃ s : State, s.live = true ∧ s.rdb Reg.PAV_DBG 2 = false ∧ s.lc = 0) ∧
    (∃ s : State, s.live = true ∧ s.rdb Reg.PAV_DBG 2 = false ∧ (s.lc = 1 ∨ s.lc = 2) ∧ rngReady s = true) ∧
    (∃ s : State, ∃ nonce : List Byte, ∃ b : List Byte, ∃ k : List Byte, s.live = true ∧ s.pav.dbgNonce = some (nonce, 0) ∧ s.lc = 2 ∧
      ownerKey s = some k ∧ p256Verify k (nonce ++ [0, 2]) b = true) ∧
    (∃ s : State, ∃ nonce : List Byte, ∃ b : List Byte, ∃ k : List Byte, s.live = true ∧ s.pav.dbgNonce = some (nonce, 0) ∧ s.lc = 2 ∧
      ownerKey s = some k ∧ p256Verify k (nonce ++ [0, 2]) b = false ∧ s.pav.dbgFails < 2) ∧
    (∃ s : State, ∃ nonce : List Byte, ∃ b : List Byte, ∃ k : List Byte, s.live = true ∧ s.pav.dbgNonce = some (nonce, 0) ∧ s.lc = 2 ∧
      ownerKey s = some k ∧ p256Verify k (nonce ++ [0, 2]) b = false ∧ s.pav.dbgFails = 2) ∧
    (∃ s : State, ∃ m : Master, ∃ slot : BitVec 9, s.reaches m Reg.KEY_CMD = true ∧ slot.toNat < 320) :=
  ⟨
    ⟨(live0.wr Reg.PAV_TAMPER_CFG 0xFFFFFFFF).modPav fun p => { p with lcInForce := 2 }, 0, by decide, by decide, by decide, by decide,
      by decide⟩,
    ⟨live0, by decide, by decide, by decide⟩,
    ⟨live0.modPav fun p => { p with rngFails := 2 }, by decide, by decide, by decide⟩,
    ⟨live0, by decide, by decide, by decide⟩,
    ⟨rng0.modPav fun p => { p with lcInForce := 2 }, by decide, by decide, by decide, by decide⟩,
    ⟨dbg0 0, [0, 0, 0, 0], dbgSig, dbgVk, by decide +kernel, rfl, dbg_lc 0, owner_key 0, dbg_sig⟩,
    ⟨dbg0 0, [0, 0, 0, 0], [], dbgVk, by decide +kernel, rfl, dbg_lc 0, owner_key 0, dbg_sig0, by decide +kernel⟩,
    ⟨dbg0 2, [0, 0, 0, 0], [], dbgVk, by decide +kernel, rfl, dbg_lc 2, owner_key 2, dbg_sig0, by decide +kernel⟩,
    ⟨live0, .en, 319, by decide, by decide⟩⟩

theorem witness_PavaneCommands_3 :
    (∃ s : State, ∃ n : Nat, (s.slot n).valid = true) ∧
    (∃ s : State, ∃ n : Nat, (s.slot n).valid = false ∧ s.lc < 2) ∧
    (∃ s : State, ∃ n : Nat, swf (fun _ => {}) s.key.slots = true ∧ s.key.slots.length ≤ 320 ∧ let t := invalidateKey s n; ∃ k,
      (t.slot k).valid = true) ∧
    (∃ s : State, ∃ n : Nat, n < 320 ∧ (useSlot s n [3] [] 21 true).1 = 0) ∧
    (∃ s : State, s.live = true ∧ rngReady s = true) ∧
    (∃ s : State, s.live = true ∧ rngReady s = false ∧ s.rdb Reg.KEY_STAT 4 = false) ∧
    (∃ s : State, ∃ a : Nat, ∃ l : List Nat, s.live = true ∧ rngReady s = false ∧ s.eng.pkaQ = a :: l ∧ s.eng.pkaOut = none ∧
      (descOp s a = 1 ∨ descOp s a = 3)) :=
  ⟨
    ⟨keyed0 0, 0, by decide +kernel⟩,
    ⟨live0, 0, by decide, by decide⟩,
    ⟨keyed0 1, 5, by decide +kernel, by decide +kernel, 1, by decide +kernel⟩,
    ⟨keyed0 319, 319, by decide +kernel, by decide +kernel⟩,
    ⟨rng0, by decide, by decide⟩,
    ⟨live0, by decide, by decide, by decide⟩,
    ⟨pkaAt 0x101, 0x500A0000, [], by decide, by decide, by decide, by decide, by decide⟩⟩

theorem witness_SetupExchange_1 :
    (∃ s : State, ∃ t : State, ∃ p : Fin 2, ∃ l : List QEntry, s.live = true ∧ queuePacket s (frlQueue p.val) = (some l, t) ∧
      let f := wordsFrame l; f.typ = 0x11 ∧ s.isManager = false ∧ numAt f.payload 0 1 = 1 ∧ let pathB := decide (numAt f.payload 1 1 = 1);
      challengeAccepted t (b2n pathB) = false) ∧
    (∃ s : State, ∃ t : State, ∃ p : Fin 2, ∃ l : List QEntry, s.live = true ∧ queuePacket s (frlQueue p.val) = (some l, t) ∧
      let f := wordsFrame l; f.typ = 0x11 ∧ s.isManager = false ∧ numAt f.payload 0 1 = 1 ∧ let pathB := decide (numAt f.payload 1 1 = 1);
      challengeAccepted t (b2n pathB) = true ∧ (t.core.rootFailed = true ∨ haveGroupKey t = false)) ∧
    (∃ s : State, ∃ t : State, ∃ p : Fin 2, ∃ l : List QEntry, s.live = true ∧ queuePacket s (frlQueue p.val) = (some l, t) ∧
      let f := wordsFrame l; f.typ = 0x11 ∧ s.isManager = false ∧ numAt f.payload 0 1 = 1 ∧ let pathB := decide (numAt f.payload 1 1 = 1);
      challengeAccepted t (b2n pathB) = true ∧ t.core.rootFailed = false ∧ haveGroupKey t = true ∧ rngReady t = false) ∧
    (∃ s : State, ∃ t : State, ∃ p : Fin 2, ∃ l : List QEntry, s.live = true ∧ queuePacket s (frlQueue p.val) = (some l, t) ∧
      let f := wordsFrame l; f.typ = 0x11 ∧ s.isManager = false ∧ numAt f.payload 0 1 = 1 ∧ let pathB := decide (numAt f.payload 1 1 = 1);
      challengeAccepted t (b2n pathB) = true ∧ t.core.rootFailed = false ∧ haveGroupKey t = true ∧ rngReady t = true) ∧
    (∃ s : State, ∃ t : State, ∃ p : Fin 2, ∃ l : List QEntry, s.live = true ∧ queuePacket s (frlQueue p.val) = (some l, t) ∧
      let f := wordsFrame l; f.typ = 0x11 ∧ s.isManager = true ∧ numAt f.payload 0 1 = 2 ∧ ∃ x0,
      findSetup t f.src (decide (f.path = 1)) = some x0 ∧ numAt f.payload 1 1 ≠ 0) ∧
    (∃ s : State, ∃ t : State, ∃ p : Fin 2, ∃ l : List QEntry, s.live = true ∧ queuePacket s (frlQueue p.val) = (some l, t) ∧
      let f := wordsFrame l; f.typ = 0x11 ∧ s.isManager = true ∧ numAt f.payload 0 1 = 2 ∧ ∃ x0,
      findSetup t f.src (decide (f.path = 1)) = some x0 ∧ let x := { x0 with nw := slice f.payload 4 32, peer := slice f.payload 36 64 };
      numAt f.payload 1 1 = 0 ∧ macW t x x.nw x.peer ≠ slice f.payload 100 32) ∧
    (∃ s : State, ∃ t : State, ∃ p : Fin 2, ∃ l : List QEntry, s.live = true ∧ queuePacket s (frlQueue p.val) = (some l, t) ∧
      let f := wordsFrame l; f.typ = 0x11 ∧ s.isManager = true ∧ numAt f.payload 0 1 = 2 ∧ ∃ x0,
      findSetup t f.src (decide (f.path = 1)) = some x0 ∧ let x := { x0 with nw := slice f.payload 4 32, peer := slice f.payload 36 64 };
      numAt f.payload 1 1 = 0 ∧ macW t x x.nw x.peer = slice f.payload 100 32 ∧ rngReady t = true ∧ ∃ k,
      sessionKey x (ephemeral t).1 x.peer = some k) ∧
    (∃ s : State, ∃ t : State, ∃ p : Fin 2, ∃ l : List QEntry, s.live = true ∧ queuePacket s (frlQueue p.val) = (some l, t) ∧
      let f := wordsFrame l; f.typ = 0x11 ∧ s.isManager = false ∧ numAt f.payload 0 1 = 3 ∧ ∃ x,
      t.key.setups.find? (fun x => x.pathB == decide (f.path = 1)) = some x ∧ let qm := slice f.payload 4 64;
      macM t x qm x.pub ≠ slice f.payload 68 32) ∧
    (∃ s : State, ∃ t : State, ∃ p : Fin 2, ∃ l : List QEntry, s.live = true ∧ queuePacket s (frlQueue p.val) = (some l, t) ∧
      let f := wordsFrame l; f.typ = 0x11 ∧ s.isManager = false ∧ numAt f.payload 0 1 = 3 ∧ ∃ x,
      t.key.setups.find? (fun x => x.pathB == decide (f.path = 1)) = some x ∧ let qm := slice f.payload 4 64; ∃ k,
      macM t x qm x.pub = slice f.payload 68 32 ∧ sessionKey x x.priv qm = some k) :=
  ⟨
    ⟨framed busyWrk (rawFrame 0x11 0 [1]), _, 0, rawFrame 0x11 0 [1], by decide, rfl, by decide, by decide, by decide, by decide⟩,
    ⟨framed live0 (rawFrame 0x11 0 [1]), _, 0, rawFrame 0x11 0 [1], by decide, rfl, by decide, by decide, by decide, by decide, by decide⟩,
    ⟨framed (keyed0 2) (rawFrame 0x11 0 [1]), _, 0, rawFrame 0x11 0 [1], by decide, rfl, by decide, by decide, by decide, by decide,
      by decide, by decide, by decide⟩,
    ⟨framed ((keyed0 2).wrf Reg.PAV_RNG_STAT 1 0 1) (rawFrame 0x11 0 [1]), _, 0, rawFrame 0x11 0 [1], by decide, rfl, by decide, by decide,
      by decide, by decide, by decide, by decide, by decide⟩,
    ⟨framed mgrSetup (rawFrame 0x11 0 [0x102]), _, 0, rawFrame 0x11 0 [0x102], by decide, rfl, by decide, by decide, by decide, setup0,
      by decide, by decide⟩,
    ⟨framed mgrSetup (rawFrame 0x11 0 [2]), _, 0, rawFrame 0x11 0 [2], by decide +kernel, rfl, by decide +kernel, by decide +kernel,
      by decide +kernel, setup0, by decide +kernel, by decide +kernel, by decide +kernel⟩,
    ⟨framed grpMgr (rawFrame 0x11 0 hello2), _, 0, rawFrame 0x11 0 hello2, by decide +kernel, rfl, by decide +kernel, by decide +kernel,
      by decide +kernel, setup0, by decide +kernel, by decide +kernel, by decide +kernel, by decide +kernel, _,
      session_is (by decide +kernel)⟩,
    ⟨framed wrkSetup (rawFrame 0x11 0 [3]), _, 0, rawFrame 0x11 0 [3], by decide +kernel, rfl, by decide +kernel, by decide +kernel,
      by decide +kernel, setup0, by decide +kernel, by decide +kernel⟩,
    ⟨framed grpWrk (rawFrame 0x11 0 hello3), _, 0, rawFrame 0x11 0 hello3, by decide +kernel, rfl, by decide +kernel, by decide +kernel,
      by decide +kernel, setupW, by decide +kernel, _, by decide +kernel, session_is (by decide +kernel)⟩⟩

theorem witness_SetupExchange_2 :
    (∃ s : State, ∃ t : State, ∃ p : Fin 2, ∃ l : List QEntry, s.live = true ∧ queuePacket s (frlQueue p.val) = (some l, t) ∧
      let f := wordsFrame l; f.typ = 0x11 ∧ s.isManager = true ∧ numAt f.payload 0 1 = 4 ∧ ∃ x,
      findSetup t f.src (decide (f.path = 1)) = some x ∧ x.key ≠ [] ∧ swf (fun _ => {}) t.met.applied = true ∧
      keyCheck x.key ≠ slice f.payload 4 16) ∧
    (∃ s : State, ∃ t : State, ∃ p : Fin 2, ∃ l : List QEntry, s.live = true ∧ queuePacket s (frlQueue p.val) = (some l, t) ∧
      let f := wordsFrame l; f.typ = 0x11 ∧ s.isManager = true ∧ numAt f.payload 0 1 = 4 ∧ ∃ x,
      findSetup t f.src (decide (f.path = 1)) = some x ∧ x.key ≠ [] ∧ swf (fun _ => {}) t.met.applied = true ∧
      keyCheck x.key = slice f.payload 4 16) ∧
    (∃ s : State, ∃ pos : BitVec 8, ∃ b : Bool, ∃ x : Setup, s.live = true ∧ findSetup s pos.toNat b = some x ∧ s.isManager = true ∧
      x.key = [] ∧ x.tries < 3) ∧
    (∃ s : State, ∃ pos : BitVec 8, ∃ b : Bool, ∃ x : Setup, s.live = true ∧ findSetup s pos.toNat b = some x ∧ s.isManager = true ∧
      x.key = [] ∧ 3 ≤ x.tries) ∧
    (∃ s : State, ∃ pos : BitVec 8, ∃ b : Bool, ∃ n : Nat, ∃ l : List (Nat × Bool × Nat), s.live = true ∧ s.isManager = true ∧
      s.key.retries = (pos.toNat, b, n) :: l) ∧
    (∃ s : State, ∃ t : State, ∃ u : State, ∃ p : Fin 2, ∃ l : List QEntry, ∃ ck : List Byte, s.live = true ∧ s.isManager = false ∧
      queuePacket s (frlQueue p.val) = (some l, t) ∧ let f := wordsFrame l; f.typ = 0x10 ∧ f.rsp = false ∧ f.toEn = true ∧
      f.code = 0x0E08 ∧ admitTxn t p.val f = (true, u) ∧ keyUnwrap (sessKey u u.position f.path) (slice f.payload 8 40) = some ck ∧ ∃ v,
      installTenant u (numAt f.payload 4 2) ck (slice f.payload 48 64) 0x1FF = some v) ∧
    (∃ s : State, ∃ t : State, ∃ u : State, ∃ p : Fin 2, ∃ l : List QEntry, ∃ ck : List Byte, s.live = true ∧ s.isManager = false ∧
      queuePacket s (frlQueue p.val) = (some l, t) ∧ let f := wordsFrame l; f.typ = 0x10 ∧ f.rsp = false ∧ f.toEn = true ∧
      f.code = 0x0E08 ∧ admitTxn t p.val f = (true, u) ∧ keyUnwrap (sessKey u u.position f.path) (slice f.payload 8 40) = some ck ∧
      installTenant u (numAt f.payload 4 2) ck (slice f.payload 48 64) 0x1FF = none) :=
  ⟨
    ⟨framed (withSetup mgr0 { setup0 with key := key16 }) (rawFrame 0x11 0 [4]), _, 0, rawFrame 0x11 0 [4], by decide +kernel, rfl,
      by decide +kernel, by decide +kernel, by decide +kernel, { setup0 with key := key16 }, by decide +kernel, by decide +kernel,
      by decide +kernel, by decide +kernel⟩,
    ⟨framed (withSetup mgr0 { setup0 with key := key16 }) (rawFrame 0x11 0 (4 :: wordsOf 4 (keyCheck key16))), _, 0,
      rawFrame 0x11 0 (4 :: wordsOf 4 (keyCheck key16)), by decide +kernel, rfl, by decide +kernel, by decide +kernel, by decide +kernel,
      { setup0 with key := key16 }, by decide +kernel, by decide +kernel, by decide +kernel, by decide +kernel⟩,
    ⟨withSetup mgr0 { setup0 with tries := 2 }, 0, false, { setup0 with tries := 2 }, by decide, by decide, by decide, by decide,
      by decide⟩,
    ⟨withSetup mgr0 { setup0 with tries := 3 }, 0, false, { setup0 with tries := 3 }, by decide, by decide, by decide, by decide,
      by decide⟩,
    ⟨mgr0.modKey fun k => { k with retries := [(0, false, 0)] }, 0, false, 0, [], by decide, by decide, by decide⟩,
    ⟨framed wrkKeys (rawFrame 0x10 0x20 keysOut), _, _, 0, rawFrame 0x10 0x20 keysOut, List.replicate 32 0, by decide +kernel,
      by decide +kernel, rfl, by decide +kernel, by decide +kernel, by decide +kernel, by decide +kernel, rfl, by decide +kernel, _, rfl⟩,
    ⟨framed full0 (rawFrame 0x10 0x20 keysOut), _, _, 0, rawFrame 0x10 0x20 keysOut, List.replicate 32 0, by decide +kernel,
      by decide +kernel, rfl, by decide +kernel, by decide +kernel, by decide +kernel, by decide +kernel, rfl, by decide +kernel,
      by decide +kernel⟩⟩

theorem witness_EngineCommands_1 :
    (∃ s : State, ∃ m : Master, ∃ a : Word, let e := ((0 : Nat), Instr.digSubmit m a); s.reaches m (engBase e.1) = true ∧
      (engQueue s e.1).length < 4 ∧ descAddrOk a.toNat = true) ∧
    (∃ s : State, ∃ m : Master, ∃ a : Word, let e := ((0 : Nat), Instr.digSubmit m a); s.reaches m (engBase e.1) = true ∧
      (engQueue s e.1).length < 4 ∧ descAddrOk a.toNat = false) ∧
    (∃ s : State, ∃ m : Master, ∃ a : Word, let e := ((0 : Nat), Instr.digSubmit m a); s.reaches m (engBase e.1) = true ∧
      4 ≤ (engQueue s e.1).length) ∧
    (∃ s : State, ∃ e : Fin 3, ∃ a : Nat, ∃ r : List Nat, ∃ o : EngOut, s.live = true ∧ engQueue s e.val = a :: r ∧
      engOut s e.val = some o) ∧
    (∃ s : State, ∃ e : Fin 3, ∃ a : Nat, ∃ r : List Nat, s.live = true ∧ engQueue s e.val = a :: r ∧ engOut s e.val = none ∧
      opKnown e.val (descOp s a) = false) ∧
    (∃ s : State, ∃ t : State, ∃ u : State, ∃ v : State, ∃ w : State, ∃ a : Nat, ∃ q : List Nat, ∃ l : List Byte, ∃ m : List Byte,
      s.live = true ∧ s.eng.digQ = a :: q ∧ s.eng.digOut = none ∧ sramRead s [] a 64 = (l, 0, t) ∧ let d := descOf l;
      digFieldsOk d = true ∧ d.first = true ∧ d.last = true ∧ d.save = false ∧ d.dest = 0 ∧ d.decl = d.srcLen ∧
      let e := (Instr.engSha256, (1 : Nat), HashAlg.sha256); descOp s a = e.2.1 ∧ d.op = e.2.1 ∧ engRead (endDig t) d d.src d.srcLen = (m,
      0, u) ∧ v = (u.modEng fun x => { x with dig := none }) ∧ engWrite v d d.dst ((hashOf e.2.2 m).take d.outLen) = (0, w)) ∧
    (∃ s : State, ∃ t : State, ∃ k : State, ∃ u : State, ∃ v : State, ∃ w : State, ∃ a : Nat, ∃ q : List Nat, ∃ l : List Byte,
      ∃ m : List Byte, s.live = true ∧ s.eng.digQ = a :: q ∧ s.eng.digOut = none ∧ sramRead s [] a 64 = (l, 0, t) ∧ let d := descOf l;
      digFieldsOk d = true ∧ d.first = true ∧ d.last = true ∧ d.save = false ∧ d.dest = 0 ∧ d.decl = d.srcLen ∧
      let e := (Instr.engHmacSha256, (0x11 : Nat), HashAlg.sha256); descOp s a = e.2.1 ∧ d.op = e.2.1 ∧
      useSlot (endDig t) d.slot [4] [13] 20 d.secure = (0, k) ∧ engRead k d d.src d.srcLen = (m, 0, u) ∧
      v = (u.modEng fun x => { x with dig := none }) ∧ engWrite v d d.dst ((hmac e.2.2 (k.slot d.slot).key m).take d.outLen) = (0, w)) ∧
    (∃ s : State, ∃ t : State, ∃ k : State, ∃ u : State, ∃ v : State, ∃ a : Nat, ∃ q : List Nat, ∃ l : List Byte, ∃ m : List Byte,
      ∃ j : CipJob, s.live = true ∧ s.eng.cipQ = a :: q ∧ s.eng.cipOut = none ∧ sramRead s [] a 64 = (l, 0, t) ∧ let d := descOf l;
      descOp s a = d.op ∧ cipFieldsOk d = true ∧ cipDestOk d = true ∧ d.first = true ∧ d.last = true ∧ cipLenOk d d.srcLen = true ∧
      useSlot t d.slot [1, 2, 3] (cipUses d) 20 d.secure = (0, k) ∧ openCip k d = .more j u ∧ ctrWraps d j = false ∧
      engRead u d d.src d.srcLen = (m, 0, v) ∧ let e := ((1 : Nat), Instr.engEcbEncrypt false); d.op = e.1) ∧
    (∃ s : State, ∃ u : State, ∃ d : EngDesc, ∃ key : List Byte, ∃ m : List Byte, d.last = true ∧ d.op = 1 ∧
      engWrite s d d.dst (ecbEncrypt key m) = (0, u)) :=
  ⟨
    ⟨live0, .en, 0x500A0000, by decide, by decide, by decide⟩,
    ⟨live0, .en, 0x500A0001, by decide, by decide, by decide⟩,
    ⟨live0.modEng fun e => { e with digQ := [0, 0, 0, 0] }, .en, 0, by decide, by decide⟩,
    ⟨live0.modEng fun e => { e with digQ := [0], digOut := some { code := 0 } }, 0, 0, [], { code := 0 }, by decide, by decide, by decide⟩,
    ⟨digAt [0], 0, 0x500A0000, [], by decide, by decide, by decide, by decide⟩,
    ⟨digAt [0x301, 0, 0, 0, 0x10000000, 32], _, _, _, _, 0x500A0000, [], _, _, by decide +kernel, by decide +kernel, by decide +kernel,
      rfl, by decide +kernel, by decide +kernel, by decide +kernel, by decide +kernel, by decide +kernel, by decide +kernel,
      by decide +kernel, by decide +kernel, rfl, rfl, rfl⟩,
    ⟨hmacAt, _, endDig hmacAt, _, _, _, 0x500A0000, [], _, _, by decide +kernel, by decide +kernel, by decide +kernel, rfl,
      by decide +kernel, by decide +kernel, by decide +kernel, by decide +kernel, by decide +kernel, by decide +kernel, by decide +kernel,
      by decide +kernel, by decide +kernel, rfl, rfl, rfl⟩,
    ⟨ecbAt, _, ecbAt, _, _, 0x500A0000, [], _, _, _, by decide +kernel, by decide +kernel, by decide +kernel, rfl, by decide +kernel,
      by decide +kernel, by decide +kernel, by decide +kernel, by decide +kernel, by decide +kernel, by decide +kernel, rfl,
      by decide +kernel, rfl, by decide +kernel⟩,
    ⟨live0, _, desc0 0x301, [], [], by decide, by decide, rfl⟩⟩

theorem witness_EngineCommands_2 :
    (∃ s : State, ∃ u : State, ∃ d : EngDesc, ∃ j : CipJob, ∃ key : List Byte, ∃ m : List Byte, d.last = true ∧ d.op = 3 ∧
      engWrite s d d.dst (cbcEncBlocks key (blocks16 m) j.iv).1 = (0, u)) ∧
    (∃ s : State, ∃ u : State, ∃ d : EngDesc, ∃ j : CipJob, ∃ key : List Byte, ∃ m : List Byte, d.last = true ∧ d.op = 5 ∧
      engWrite s d d.dst (ctrCrypt key j.iv m) = (0, u)) ∧
    (∃ s : State, ∃ u : State, ∃ w : State, ∃ d : EngDesc, ∃ j : CipJob, ∃ key : List Byte, ∃ m : List Byte, d.last = true ∧
      let n := (m.length + 15) / 16; d.op = 6 ∧ engWrite s d d.dst (ctrCrypt key j.iv m) = (0, u) ∧
      let c : CipJob := { j with iv := ctrAdd j.iv n, data := j.data ++ ctrCrypt key j.iv m, count := j.count + m.length };
      engWrite (u.modEng fun e => { e with cip := some c }) d d.tag (gcmTag key j.iv0 j.aad (j.data ++ ctrCrypt key j.iv m)) = (0, w)) ∧
    (∃ s : State, ∃ w : State, ∃ d : EngDesc, ∃ j : CipJob, ∃ key : List Byte, ∃ m : List Byte, d.last = true ∧ d.op = 8 ∧ d.dest = 0 ∧
      engWrite (s.modEng fun e => { e with cip := some { j with data := j.data ++ m, count := j.count + m.length } }) d d.dst ((cmac key (j.data ++ m)).take d.outLen) = (0,
      w)) ∧
    (∃ s : State, ∃ t : State, ∃ k : State, ∃ a : Nat, ∃ q : List Nat, ∃ l : List Byte, s.live = true ∧ s.eng.cipQ = a :: q ∧
      s.eng.cipOut = none ∧ sramRead s [] a 64 = (l, 0, t) ∧ let d := descOf l; descOp s a = d.op ∧ cipFieldsOk d = true ∧
      cipDestOk d = true ∧ d.first = true ∧ cipLenOk d d.srcLen = true ∧ useSlot t d.slot [1, 2, 3] (cipUses d) 20 d.secure = (0, k) ∧
      d.op = 9) ∧
    (∃ s : State, ∃ t : State, ∃ k : State, ∃ a : Nat, ∃ q : List Nat, ∃ l : List Byte, s.live = true ∧ s.eng.cipQ = a :: q ∧
      s.eng.cipOut = none ∧ sramRead s [] a 64 = (l, 0, t) ∧ let d := descOf l; descOp s a = d.op ∧ cipFieldsOk d = true ∧
      cipDestOk d = true ∧ d.first = true ∧ cipLenOk d d.srcLen = true ∧ useSlot t d.slot [1, 2, 3] (cipUses d) 20 d.secure = (0, k) ∧
      d.op = 10) ∧
    (∃ s : State, ∃ t : State, ∃ k : State, ∃ a : Nat, ∃ q : List Nat, ∃ l : List Byte, s.live = true ∧ s.eng.cipQ = a :: q ∧
      s.eng.cipOut = none ∧ sramRead s [] a 64 = (l, 0, t) ∧ let d := descOf l; descOp s a = d.op ∧ cipFieldsOk d = true ∧
      cipDestOk d = true ∧ d.first = true ∧ cipLenOk d d.srcLen = true ∧ useSlot t d.slot [1, 2, 3] (cipUses d) 20 d.secure = (0, k) ∧
      d.op = 1) ∧
    (∃ s : State, ∃ u : State, ∃ d : EngDesc, ∃ key : List Byte, ∃ m : List Byte, ∃ x : List Byte, d.dest = 2 ∧
      engRead s d d.src d.srcLen = (m, 0, u) ∧ keyUnwrap key m = some x ∧ (u.slot d.destSlot).valid = false ∧
      slotMaterial d.destAttr d.outLen x = some x) ∧
    (∃ s : State, ∃ t : State, ∃ a : Nat, ∃ q : List Nat, ∃ l : List Byte, s.live = true ∧ s.eng.pkaQ = a :: q ∧ s.eng.pkaOut = none ∧
      sramRead s [] a 64 = (l, 0, t) ∧ let d := descOf l; descOp s a = d.op ∧ pkaFieldsOk d = true ∧ rngReady s = true ∧
      rngFailed t = false ∧ d.op = 1 ∧ d.dest = 2) :=
  ⟨
    ⟨live0, _, desc0 0x303, { op := 0 }, [], [], by decide, by decide, rfl⟩,
    ⟨live0, _, desc0 0x305, { op := 0 }, [], [], by decide, by decide, rfl⟩,
    ⟨live0, _, _, { desc0 0x306 with tag := 0x10000100 }, { op := 6 }, key16, [1], by decide +kernel, by decide +kernel, rfl, rfl⟩,
    ⟨live0, _, desc0 0x308, { op := 0 }, [], [], by decide, by decide, by decide, rfl⟩,
    ⟨wrapAt 0x109, _, wrapAt 0x109, 0x500A0000, [], _, by decide +kernel, by decide +kernel, by decide +kernel, rfl, by decide +kernel,
      by decide +kernel, by decide +kernel, by decide +kernel, by decide +kernel, by decide +kernel, by decide +kernel⟩,
    ⟨wrapAt 0x210A, _, wrapAt 0x210A, 0x500A0000, [], _, by decide +kernel, by decide +kernel, by decide +kernel, rfl, by decide +kernel,
      by decide +kernel, by decide +kernel, by decide +kernel, by decide +kernel, by decide +kernel, by decide +kernel⟩,
    ⟨ecbAt, _, ecbAt, 0x500A0000, [], _, by decide +kernel, by decide +kernel, by decide +kernel, rfl, by decide +kernel,
      by decide +kernel, by decide +kernel, by decide +kernel, by decide +kernel, by decide +kernel, by decide +kernel⟩,
    ⟨wrapped0, (engRead wrapped0 (desc0 0x210A) 0x10000000 24).2.2,
      { desc0 0x210A with src := 0x10000000, srcLen := 24, destSlot := 7, destAttr := 0x10000 }, key16, keyWrap key16 key16, key16,
      by decide +kernel, Prod.ext (by decide +kernel) (pairEq (by decide +kernel)), by decide +kernel, by decide +kernel,
      by decide +kernel⟩,
    ⟨(pkaAt 8193).wrf Reg.PAV_RNG_STAT 1 0 1, _, 0x500A0000, [], _, by decide +kernel, by decide +kernel, by decide +kernel, rfl,
      by decide +kernel, by decide +kernel, by decide +kernel, by decide +kernel, by decide +kernel, by decide +kernel⟩⟩

theorem witness_EngineCommands_3 :
    (∃ s : State, ∃ t : State, ∃ a : Nat, ∃ q : List Nat, ∃ l : List Byte, s.live = true ∧ s.eng.pkaQ = a :: q ∧ s.eng.pkaOut = none ∧
      sramRead s [] a 64 = (l, 0, t) ∧ let d := descOf l; descOp s a = d.op ∧ pkaFieldsOk d = true ∧ rngReady s = true ∧
      rngFailed t = false ∧ d.op = 2) ∧
    (∃ s : State, ∃ t : State, ∃ a : Nat, ∃ q : List Nat, ∃ l : List Byte, s.live = true ∧ s.eng.pkaQ = a :: q ∧ s.eng.pkaOut = none ∧
      sramRead s [] a 64 = (l, 0, t) ∧ let d := descOf l; descOp s a = d.op ∧ pkaFieldsOk d = true ∧ rngReady s = true ∧
      rngFailed t = false ∧ d.op = 3) ∧
    (∃ s : State, ∃ t : State, ∃ a : Nat, ∃ q : List Nat, ∃ l : List Byte, s.live = true ∧ s.eng.pkaQ = a :: q ∧ s.eng.pkaOut = none ∧
      sramRead s [] a 64 = (l, 0, t) ∧ let d := descOf l; descOp s a = d.op ∧ pkaFieldsOk d = true ∧ rngReady s = true ∧
      rngFailed t = false ∧ d.op = 4) ∧
    (∃ s : State, ∃ t : State, ∃ a : Nat, ∃ q : List Nat, ∃ l : List Byte, s.live = true ∧ s.eng.pkaQ = a :: q ∧ s.eng.pkaOut = none ∧
      sramRead s [] a 64 = (l, 0, t) ∧ let d := descOf l; descOp s a = d.op ∧ pkaFieldsOk d = true ∧ rngReady s = true ∧
      rngFailed t = false ∧ d.op = 5 ∧ d.dest = 2) ∧
    (∃ s : State, ∃ d : EngDesc, fld d.destAttr 19 16 = 5 ∧ (s.slot d.destSlot).valid = false) ∧
    (∃ s : State, ∃ k : State, ∃ u : State, ∃ d : EngDesc, useSlot s d.slot [5, 6] [] 20 d.secure = (0, k) ∧ (k.slot d.slot).kind = 5 ∧
      engWrite k d d.dst (ecBytes p256 (ecMul p256 (natBE (k.slot d.slot).key) (ecBase p256))) = (0, u)) ∧
    (∃ s : State, ∃ k : State, ∃ u : State, ∃ v : State, ∃ d : EngDesc, ∃ h : List Byte, useSlot s d.slot [5, 6] [13] 20 d.secure = (0,
      k) ∧ (k.slot d.slot).kind = 5 ∧ bitOf d.ctrl 14 = false ∧ d.srcLen = 32 ∧ engRead k d d.src 32 = (h, 0, u) ∧ ∃ sig,
      signDraw p256 (natBE (k.slot d.slot).key) h 4 u = (sig, v)) ∧
    (∃ s : State, ∃ k : State, ∃ u : State, ∃ v : State, ∃ d : EngDesc, ∃ h : List Byte, ∃ peer : List Byte, d.key = 0x1FF ∧
      bitOf d.ctrl 16 = false ∧ engRead s d d.aux 64 = (peer, 0, k) ∧ bitOf d.ctrl 14 = false ∧ d.srcLen = 32 ∧ engRead k d d.src 32 = (h,
      0, u) ∧ ∃ sig, engRead u d (d.aux + 64) 64 = (sig, 0, v) ∧ pkaValid p256 peer = true) ∧
    (∃ s : State, ∃ k : State, ∃ u : State, ∃ d : EngDesc, ∃ peer : List Byte, fld d.destAttr 19 16 = 4 ∧ fld d.destAttr 15 9 = 0x40 ∧
      useSlot s d.slot [5, 6] [15] 20 d.secure = (0, k) ∧ (k.slot d.slot).kind = 5 ∧ engRead k d d.aux 64 = (peer, 0, u) ∧
      pkaValid p256 peer = true ∧ (u.slot d.destSlot).valid = false ∧ ∃ z, ∃ y,
      ecMul p256 (natBE (k.slot d.slot).key) (some (ecPoint p256 peer)) = some (z, y)) :=
  ⟨
    ⟨(pkaAt 2).wrf Reg.PAV_RNG_STAT 1 0 1, _, 0x500A0000, [], _, by decide +kernel, by decide +kernel, by decide +kernel, rfl,
      by decide +kernel, by decide +kernel, by decide +kernel, by decide +kernel, by decide +kernel⟩,
    ⟨(pkaAt 3).wrf Reg.PAV_RNG_STAT 1 0 1, _, 0x500A0000, [], _, by decide +kernel, by decide +kernel, by decide +kernel, rfl,
      by decide +kernel, by decide +kernel, by decide +kernel, by decide +kernel, by decide +kernel⟩,
    ⟨(pkaAt 4).wrf Reg.PAV_RNG_STAT 1 0 1, _, 0x500A0000, [], _, by decide +kernel, by decide +kernel, by decide +kernel, rfl,
      by decide +kernel, by decide +kernel, by decide +kernel, by decide +kernel, by decide +kernel⟩,
    ⟨(pkaAt 8197).wrf Reg.PAV_RNG_STAT 1 0 1, _, 0x500A0000, [], _, by decide +kernel, by decide +kernel, by decide +kernel, rfl,
      by decide +kernel, by decide +kernel, by decide +kernel, by decide +kernel, by decide +kernel, by decide +kernel⟩,
    ⟨live0, { desc0 0x2001 with destSlot := 7, destAttr := 0x50000 }, by decide, by decide⟩,
    ⟨ecAt, (useSlot ecAt ecD.slot [5, 6] [] 20 ecD.secure).2, _, ecD, pairEq (by decide +kernel), by decide +kernel,
      pairEq (by decide +kernel)⟩,
    ⟨ecAt, signK, signU, (signDraw p256 (natBE (signK.slot signD.slot).key) signH 4 signU).2, signD, signH, pairEq (by decide +kernel),
      by decide +kernel, by decide +kernel, rfl, Prod.ext (Eq.refl signH) (pairEq (by decide +kernel)),
      (signDraw p256 (natBE (signK.slot signD.slot).key) signH 4 signU).1, eta_pair _⟩,
    ⟨live0.setBytes 0x10000100 basePoint, _, _, _, { desc0 0x3 with key := 0x1FF, src := 0x10000000, srcLen := 32, aux := 0x10000100 }, _,
      basePoint, by decide +kernel, by decide +kernel, Prod.ext (by decide +kernel) (pairEq (by decide +kernel)), by decide +kernel,
      by decide +kernel, rfl, _, rfl, by decide +kernel⟩,
    ⟨ecAt, (useSlot ecAt ecD.slot [5, 6] [15] 20 ecD.secure).2, _, ecD, basePoint, by decide +kernel, by decide +kernel,
      pairEq (by decide +kernel), by decide +kernel, Prod.ext (by decide +kernel) (pairEq (by decide +kernel)), by decide +kernel,
      by decide +kernel, p256.gx, p256.gy, by decide +kernel⟩⟩

theorem witness_MeteringCommands_1 :
    (∃ s : State, s.live = true ∧ haveStorageKey s = true ∧ s.isManager = false) ∧
    (∃ s : State, s.live = true ∧ haveStorageKey s = true ∧ s.isManager = true) ∧
    (∃ s : State, ∃ t : State, ∃ u : State, ∃ p : Fin 2, ∃ l : List QEntry, s.live = true ∧ queuePacket s (frlQueue p.val) = (some l, t) ∧
      let f := wordsFrame l; f.typ = 0x10 ∧ f.toEn = true ∧ s.isManager = true ∧ f.rsp = false ∧ admitTxn t p.val f = (true, u)) ∧
    (∃ s : State, ∃ t : State, ∃ p : Fin 2, ∃ l : List QEntry, s.live = true ∧ queuePacket s (frlQueue p.val) = (some l, t) ∧
      let f := wordsFrame l; f.typ = 0x10 ∧ f.toEn = true ∧ f.rsp = true ∧
      (s.ring.pend.any fun t => t.txn == f.txn.toNat && t.use == .delta) = true) ∧
    (∃ s : State, ∃ pos : Nat, ∃ b : List Byte, numAt b 0 8 ≤ (appliedOf s pos).last) ∧
    (∃ s : State, ∃ r : Nat, ∃ snap : List (TallyKey × Nat), s.met.base < r ∧ s.met.snaps.find? (fun e => e.1 == r) = some (r, snap) ∧ ∃ k,
      ∃ v, snap.find? (fun e => e.1 == k) = some (k, v)) ∧
    (∃ s : State, ∃ r : Nat, ∃ snap : List (TallyKey × Nat), s.met.base < r ∧ s.met.snaps.find? (fun e => e.1 == r) = some (r, snap) ∧ ∃ k,
      snap.find? (fun e => e.1 == k) = none) ∧
    (∃ a : Accum, ∃ cls : Nat, ∃ kind : Nat, a.entries.length ≤ 11 ∧
      (List.Pairwise (fun x y : (Nat × Nat) × Nat => x.1.1 < y.1.1 ∨ (x.1.1 = y.1.1 ∧ x.1.2 < y.1.2)) a.entries) ∧ a.entries.length = 11 ∧
      (∀ e ∈ a.entries, e.1 ≠ (cls, kind))) ∧
    (∃ s : State, s.live = true ∧ s.isManager = true ∧ haveStorageKey s = true) :=
  ⟨
    ⟨keyed0 1, by decide +kernel, by decide +kernel, by decide +kernel⟩,
    ⟨(keyed0 1).wrf Reg.SYS_ROLE 3 2 1, by decide +kernel, by decide +kernel, by decide +kernel⟩,
    ⟨framed mgr0 (rawFrame 0x10 0x20 [1]), _, _, 0, rawFrame 0x10 0x20 [1], by decide, rfl, by decide, by decide, by decide, by decide,
      rfl⟩,
    ⟨(framed live0 (rawFrame 0x10 0x30 [1])).modRing fun x => { x with pend := [{ pend0 with use := .delta }] }, _, 0,
      rawFrame 0x10 0x30 [1], by decide, rfl, by decide, by decide, by decide, by decide⟩,
    ⟨live0, 0, [], by decide⟩,
    ⟨live0.modMet fun m => { m with snaps := [(1, [((0, 0, 0), 7)])] }, 1, [((0, 0, 0), 7)], by decide, by decide, (0, 0, 0), 7, by decide⟩,
    ⟨live0.modMet fun m => { m with snaps := [(1, [((0, 0, 0), 7)])] }, 1, [((0, 0, 0), 7)], by decide, by decide, (1, 0, 0), by decide⟩,
    ⟨{ period := 0, start := 0, entries := (List.range 11).map fun i => ((i, 0), 1) }, 11, 0, by decide, by decide, by decide, by decide⟩,
    ⟨(keyed0 1).wrf Reg.SYS_ROLE 3 2 1, by decide +kernel, by decide +kernel, by decide +kernel⟩⟩

theorem witness_MeteringCommands_2 :
    (∃ s : State, ∃ n : Nat, enclaveTime s ≤ n) ∧
    (∃ s : State, s.met.closing.isSome = true) ∧
    (∃ s : State, ∃ t : Nat, ∃ v : Option Nat, s.met.closing = none ∧ accOf s t = none ∧ v = none) ∧
    (∃ s : State, ∃ a : Applet, ∃ i : Fin 8, ∃ rest : List (Hook × Nat), s.live = true ∧ s.isManager = true ∧ s.met.run = none ∧
      s.met.applets[i] = some a ∧ a.faulted = false ∧ let e := (Instr.hookInit, Hook.init); s.met.hooks = (e.2, i.val) :: rest ∧
      a.entry.toList.getD (hookIndex e.2) 0xFFFF ≠ 0xFFFF) ∧
    (∃ s : State, ∃ a : Applet, ∃ ask : LoadAsk, ∃ i : Fin 8, ∃ rest : List (Hook × Nat), ∃ l : List LoadAsk, s.live = true ∧
      s.met.run = none ∧ s.met.hooks = (.loadCheck, i.val) :: rest ∧ s.met.applets[i] = some a ∧ a.faulted = false ∧
      a.entry.toList.getD 1 0xFFFF = 0xFFFF ∧ s.met.loads = ask :: l) :=
  ⟨
    ⟨live0, 0, by decide⟩,
    ⟨live0.modMet fun m => { m with closing := some { tenant := 0, snap := { period := 0, start := 0 }, endAt := 0, untimed := false, reply := .none, revoke := none } },
      by decide⟩,
    ⟨live0, 0, none, by decide, by decide, by decide⟩,
    ⟨mgr0.modMet fun m => { m with hooks := [(.init, 0)], applets := m.applets.set 0 (some (applet0 [])) }, applet0 [], 0, [], by decide,
      by decide, by decide, by decide, by decide, by decide, by decide⟩,
    ⟨mgr0.modMet fun m => { m with hooks := [(.loadCheck, 0)], loads := [ask0], applets := m.applets.set 0 (some (applet0 [])) },
      applet0 [], ask0, 0, [], [], by decide, by decide, by decide, by decide, by decide, by decide, by decide⟩⟩

theorem witness_AcsisInstructions_1 :
    (∃ s : State, ∃ r : AcsRun, s.live = true ∧ s.met.run = some r ∧ r.count < 200000 ∧ let code := (runApplet s r).code;
      r.pc < code.length ∧ let op := codeByte code r.pc; let imm := fun n => codeImm code r.pc n; r.stack.length < 64 ∧
      let e := (Instr.acsPush8, (0x01 : Nat), (1 : Nat), signExtend 8 (imm 1)); op = e.2.1) ∧
    (∃ s : State, ∃ r : AcsRun, s.live = true ∧ s.met.run = some r ∧ r.count < 200000 ∧ let code := (runApplet s r).code;
      r.pc < code.length ∧ let op := codeByte code r.pc; r.stack.length = 64 ∧ let e := (Instr.acsPush8, (0x01 : Nat)); op = e.2) ∧
    (∃ s : State, ∃ r : AcsRun, s.live = true ∧ s.met.run = some r ∧ r.count < 200000 ∧ let code := (runApplet s r).code;
      r.pc < code.length ∧ let op := codeByte code r.pc; ∃ a : Word, ∃ st : List Word, r.stack = a :: st ∧ op = 0x05) ∧
    (∃ s : State, ∃ r : AcsRun, s.live = true ∧ s.met.run = some r ∧ r.count < 200000 ∧ let code := (runApplet s r).code;
      r.pc < code.length ∧ let op := codeByte code r.pc; ∃ a : Word, ∃ st : List Word, r.stack = a :: st ∧ op = 0x1A ∧ st.length < 64) ∧
    (∃ s : State, ∃ r : AcsRun, s.live = true ∧ s.met.run = some r ∧ r.count < 200000 ∧ let code := (runApplet s r).code;
      r.pc < code.length ∧ let op := codeByte code r.pc; ∃ a : Word, ∃ st : List Word, r.stack = a :: st ∧ op = 0x04 ∧ st.length < 63) ∧
    (∃ s : State, ∃ r : AcsRun, s.live = true ∧ s.met.run = some r ∧ r.count < 200000 ∧ let code := (runApplet s r).code;
      r.pc < code.length ∧ let op := codeByte code r.pc; let imm := fun n => codeImm code r.pc n; ∃ a, op = 0x08 ∧
      r.stack[imm 1]? = some a ∧ r.stack.length < 64) ∧
    (∃ s : State, ∃ r : AcsRun, s.live = true ∧ s.met.run = some r ∧ r.count < 200000 ∧ let code := (runApplet s r).code;
      r.pc < code.length ∧ let op := codeByte code r.pc; ∃ a : Word, ∃ b : Word, ∃ st : List Word, r.stack = b :: a :: st ∧
      st.length < 62 ∧ let e := (Instr.acsAdd, (0x10 : Nat), a + b); op = e.2.1) ∧
    (∃ s : State, ∃ r : AcsRun, s.live = true ∧ s.met.run = some r ∧ r.count < 200000 ∧ let code := (runApplet s r).code;
      r.pc < code.length ∧ let op := codeByte code r.pc; ∃ a : Word, ∃ b : Word, ∃ st : List Word, r.stack = b :: a :: st ∧
      st.length < 62 ∧ let e := (Instr.acsDivu, (0x13 : Nat), a / b); op = e.2.1 ∧ b ≠ 0) ∧
    (∃ s : State, ∃ r : AcsRun, s.live = true ∧ s.met.run = some r ∧ r.count < 200000 ∧ let code := (runApplet s r).code;
      r.pc < code.length ∧ let op := codeByte code r.pc; ∃ a : Word, ∃ b : Word, ∃ st : List Word, r.stack = b :: a :: st ∧
      st.length < 62 ∧ let e := (Instr.acsDivu, (0x13 : Nat), a / b); op = e.2.1 ∧ b = 0) :=
  ⟨
    ⟨acsAt [1, 0xFF] (acsRun (List.replicate 63 0)), acsRun (List.replicate 63 0), by decide, by decide, by decide, by decide, by decide,
      by decide⟩,
    ⟨acsAt [1, 0xFF] (acsRun (List.replicate 64 0)), acsRun (List.replicate 64 0), by decide, by decide, by decide, by decide, by decide,
      by decide⟩,
    ⟨acsAt [5] (acsRun [1]), acsRun [1], by decide, by decide, by decide, by decide, 1, [], by decide, by decide⟩,
    ⟨acsAt [0x1A] (acsRun (List.replicate 64 0)), acsRun (List.replicate 64 0), by decide, by decide, by decide, by decide, 0,
      List.replicate 63 0, by decide, by decide, by decide⟩,
    ⟨acsAt [4] (acsRun [1]), acsRun [1], by decide, by decide, by decide, by decide, 1, [], by decide, by decide, by decide⟩,
    ⟨acsAt [8, 0] (acsRun [1]), acsRun [1], by decide, by decide, by decide, by decide, 1, by decide, by decide, by decide⟩,
    ⟨acsAt [0x10] (acsRun [1, 2]), acsRun [1, 2], by decide, by decide, by decide, by decide, 2, 1, [], by decide, by decide, by decide⟩,
    ⟨acsAt [0x13] (acsRun [1, 2]), acsRun [1, 2], by decide, by decide, by decide, by decide, 2, 1, [], by decide, by decide, by decide,
      by decide⟩,
    ⟨acsAt [0x13] (acsRun [0, 2]), acsRun [0, 2], by decide, by decide, by decide, by decide, 2, 0, [], by decide, by decide, by decide,
      by decide⟩⟩

theorem witness_AcsisInstructions_2 :
    (∃ s : State, ∃ r : AcsRun, s.live = true ∧ s.met.run = some r ∧ r.count < 200000 ∧ let code := (runApplet s r).code;
      r.pc < code.length ∧ let op := codeByte code r.pc; ∃ a : Word, ∃ b : Word, ∃ st : List Word, r.stack = b :: a :: st ∧
      st.length < 62 ∧ op = 0x06) ∧
    (∃ s : State, ∃ r : AcsRun, s.live = true ∧ s.met.run = some r ∧ r.count < 200000 ∧ let code := (runApplet s r).code;
      r.pc < code.length ∧ let op := codeByte code r.pc; ∃ a : Word, ∃ b : Word, ∃ st : List Word, r.stack = b :: a :: st ∧
      st.length < 62 ∧ op = 0x07) ∧
    (∃ s : State, ∃ r : AcsRun, s.live = true ∧ s.met.run = some r ∧ r.count < 200000 ∧ let code := (runApplet s r).code;
      r.pc < code.length ∧ let op := codeByte code r.pc; ∃ a : Word, ∃ b : Word, ∃ st : List Word, r.stack = b :: a :: st ∧
      st.length < 62 ∧ op = 0x24) ∧
    (∃ s : State, ∃ r : AcsRun, s.live = true ∧ s.met.run = some r ∧ r.count < 200000 ∧ let code := (runApplet s r).code;
      r.pc < code.length ∧ let op := codeByte code r.pc; ∃ al : Word, ∃ ah : Word, ∃ bl : Word, ∃ bh : Word, ∃ st : List Word,
      r.stack = bh :: bl :: ah :: al :: st ∧ st.length < 62 ∧ op = 0x21) ∧
    (∃ s : State, ∃ r : AcsRun, s.live = true ∧ s.met.run = some r ∧ r.count < 200000 ∧ let code := (runApplet s r).code;
      r.pc < code.length ∧ let op := codeByte code r.pc; ∃ al : Word, ∃ ah : Word, ∃ bl : Word, ∃ bh : Word, ∃ st : List Word,
      r.stack = bh :: bl :: ah :: al :: st ∧ st.length < 62 ∧ op = 0x22) ∧
    (∃ s : State, ∃ r : AcsRun, s.live = true ∧ s.met.run = some r ∧ r.count < 200000 ∧ let code := (runApplet s r).code;
      r.pc < code.length ∧ let op := codeByte code r.pc; ∃ al : Word, ∃ ah : Word, ∃ bl : Word, ∃ bh : Word, ∃ st : List Word,
      r.stack = bh :: bl :: ah :: al :: st ∧ st.length < 62 ∧ op = 0x23) ∧
    (∃ s : State, ∃ r : AcsRun, s.live = true ∧ s.met.run = some r ∧ r.count < 200000 ∧ let code := (runApplet s r).code;
      r.pc < code.length ∧ let op := codeByte code r.pc; ∃ a : Word, ∃ st : List Word, r.stack = a :: st ∧ st.length < 64 ∧
      a.toNat < 4096 ∧ op = 0x30 ∧ a.toNat % 4 = 0) ∧
    (∃ s : State, ∃ r : AcsRun, s.live = true ∧ s.met.run = some r ∧ r.count < 200000 ∧ let code := (runApplet s r).code;
      r.pc < code.length ∧ let op := codeByte code r.pc; ∃ a : Word, ∃ st : List Word, r.stack = a :: st ∧ st.length < 64 ∧
      a.toNat < 4096 ∧ op = 0x30 ∧ a.toNat % 4 ≠ 0) ∧
    (∃ s : State, ∃ r : AcsRun, s.live = true ∧ s.met.run = some r ∧ r.count < 200000 ∧ let code := (runApplet s r).code;
      r.pc < code.length ∧ let op := codeByte code r.pc; ∃ a : Word, ∃ st : List Word, r.stack = a :: st ∧ st.length < 64 ∧
      a.toNat < 4096 ∧ op = 0x32) :=
  ⟨
    ⟨acsAt [6] (acsRun [1, 2]), acsRun [1, 2], by decide, by decide, by decide, by decide, 2, 1, [], by decide, by decide, by decide⟩,
    ⟨acsAt [7] (acsRun [1, 2]), acsRun [1, 2], by decide, by decide, by decide, by decide, 2, 1, [], by decide, by decide, by decide⟩,
    ⟨acsAt [0x24] (acsRun [1, 2]), acsRun [1, 2], by decide, by decide, by decide, by decide, 2, 1, [], by decide, by decide, by decide⟩,
    ⟨acsAt [0x21] (acsRun [1, 2, 3, 4]), acsRun [1, 2, 3, 4], by decide, by decide, by decide, by decide, 4, 3, 2, 1, [], by decide,
      by decide, by decide⟩,
    ⟨acsAt [0x22] (acsRun [1, 2, 3, 4]), acsRun [1, 2, 3, 4], by decide, by decide, by decide, by decide, 4, 3, 2, 1, [], by decide,
      by decide, by decide⟩,
    ⟨acsAt [0x23] (acsRun [1, 2, 3, 4]), acsRun [1, 2, 3, 4], by decide, by decide, by decide, by decide, 4, 3, 2, 1, [], by decide,
      by decide, by decide⟩,
    ⟨acsAt [0x30] (acsRun [4092]), acsRun [4092], by decide, by decide, by decide, by decide, 4092, [], by decide, by decide, by decide,
      by decide, by decide⟩,
    ⟨acsAt [0x30] (acsRun [4095]), acsRun [4095], by decide, by decide, by decide, by decide, 4095, [], by decide, by decide, by decide,
      by decide, by decide⟩,
    ⟨acsAt [0x32] (acsRun [4095]), acsRun [4095], by decide, by decide, by decide, by decide, 4095, [], by decide, by decide, by decide,
      by decide⟩⟩

theorem witness_AcsisInstructions_3 :
    (∃ s : State, ∃ r : AcsRun, s.live = true ∧ s.met.run = some r ∧ r.count < 200000 ∧ let code := (runApplet s r).code;
      r.pc < code.length ∧ let op := codeByte code r.pc; ∃ a : Word, ∃ st : List Word, r.stack = a :: st ∧ st.length < 64 ∧
      a.toNat < 4096 ∧ ∃ v : Word, ∃ tl : List Word, st = v :: tl ∧ op = 0x31 ∧ a.toNat % 4 = 0) ∧
    (∃ s : State, ∃ r : AcsRun, s.live = true ∧ s.met.run = some r ∧ r.count < 200000 ∧ let code := (runApplet s r).code;
      r.pc < code.length ∧ let op := codeByte code r.pc; ∃ a : Word, ∃ st : List Word, r.stack = a :: st ∧ st.length < 64 ∧
      a.toNat < 4096 ∧ ∃ v : Word, ∃ tl : List Word, st = v :: tl ∧ op = 0x33) ∧
    (∃ s : State, ∃ r : AcsRun, s.live = true ∧ s.met.run = some r ∧ r.count < 200000 ∧ let code := (runApplet s r).code;
      r.pc < code.length ∧ let op := codeByte code r.pc; let imm := fun n => codeImm code r.pc n;
      let target : Int := r.pc + 3 + (signExtend 16 (imm 2)).toInt; 0 ≤ target ∧ target < code.length ∧ op = 0x40) ∧
    (∃ s : State, ∃ r : AcsRun, s.live = true ∧ s.met.run = some r ∧ r.count < 200000 ∧ let code := (runApplet s r).code;
      r.pc < code.length ∧ let op := codeByte code r.pc; let imm := fun n => codeImm code r.pc n;
      let target : Int := r.pc + 3 + (signExtend 16 (imm 2)).toInt; 0 ≤ target ∧ target < code.length ∧ ∃ a, ∃ st, r.stack = a :: st ∧
      op = 0x41) ∧
    (∃ s : State, ∃ r : AcsRun, s.live = true ∧ s.met.run = some r ∧ r.count < 200000 ∧ let code := (runApplet s r).code;
      r.pc < code.length ∧ let op := codeByte code r.pc; let imm := fun n => codeImm code r.pc n;
      let target : Int := r.pc + 3 + (signExtend 16 (imm 2)).toInt; 0 ≤ target ∧ target < code.length ∧ ∃ a, ∃ st, r.stack = a :: st ∧
      op = 0x42) ∧
    (∃ s : State, ∃ r : AcsRun, s.live = true ∧ s.met.run = some r ∧ r.count < 200000 ∧ let code := (runApplet s r).code;
      r.pc < code.length ∧ let op := codeByte code r.pc; let imm := fun n => codeImm code r.pc n;
      let target : Int := r.pc + 3 + (signExtend 16 (imm 2)).toInt; (target < 0 ∨ code.length ≤ target) ∧ op = 0x40) ∧
    (∃ s : State, ∃ r : AcsRun, s.live = true ∧ s.met.run = some r ∧ r.count < 200000 ∧ let code := (runApplet s r).code;
      r.pc < code.length ∧ let op := codeByte code r.pc; let imm := fun n => codeImm code r.pc n; op = 0x43 ∧ r.calls.length < 16 ∧
      imm 2 < code.length) ∧
    (∃ s : State, ∃ r : AcsRun, s.live = true ∧ s.met.run = some r ∧ r.count < 200000 ∧ let code := (runApplet s r).code;
      r.pc < code.length ∧ let op := codeByte code r.pc; op = 0x43 ∧ 16 ≤ r.calls.length) ∧
    (∃ s : State, ∃ r : AcsRun, s.live = true ∧ s.met.run = some r ∧ r.count < 200000 ∧ let code := (runApplet s r).code;
      r.pc < code.length ∧ let op := codeByte code r.pc; op = 0x44 ∧ ∃ a, ∃ l, r.calls = a :: l ∧ a < code.length) :=
  ⟨
    ⟨acsAt [0x31] (acsRun [4092, 7]), acsRun [4092, 7], by decide, by decide, by decide, by decide, 4092, [7], by decide, by decide,
      by decide, 7, [], by decide, by decide, by decide⟩,
    ⟨acsAt [0x33] (acsRun [4095, 7]), acsRun [4095, 7], by decide, by decide, by decide, by decide, 4095, [7], by decide, by decide,
      by decide, 7, [], by decide, by decide⟩,
    ⟨acsAt [0x40, 0xFD, 0xFF] (acsRun []), acsRun [], by decide, by decide, by decide, by decide, by decide, by decide, by decide⟩,
    ⟨acsAt [0x41, 0xFD, 0xFF] (acsRun [0]), acsRun [0], by decide, by decide, by decide, by decide, by decide, by decide, 0, [], by decide,
      by decide⟩,
    ⟨acsAt [0x42, 0xFD, 0xFF] (acsRun [0]), acsRun [0], by decide, by decide, by decide, by decide, by decide, by decide, 0, [], by decide,
      by decide⟩,
    ⟨acsAt [0x40, 0, 0] (acsRun []), acsRun [], by decide, by decide, by decide, by decide, by decide, by decide⟩,
    ⟨acsAt [0x43, 0, 0] ({ acsRun [] with calls := List.replicate 15 0 }), { acsRun [] with calls := List.replicate 15 0 }, by decide,
      by decide, by decide, by decide, by decide, by decide, by decide⟩,
    ⟨acsAt [0x43, 0, 0] ({ acsRun [] with calls := List.replicate 16 0 }), { acsRun [] with calls := List.replicate 16 0 }, by decide,
      by decide, by decide, by decide, by decide, by decide⟩,
    ⟨acsAt [0x44] ({ acsRun [] with calls := [0] }), { acsRun [] with calls := [0] }, by decide, by decide, by decide, by decide,
      by decide, 0, [], by decide, by decide⟩⟩

theorem witness_AcsisInstructions_4 :
    (∃ s : State, ∃ r : AcsRun, s.live = true ∧ s.met.run = some r ∧ r.count < 200000 ∧ let code := (runApplet s r).code;
      r.pc < code.length ∧ let op := codeByte code r.pc; op = 0x44 ∧ r.calls = []) ∧
    (∃ s : State, ∃ r : AcsRun, s.live = true ∧ s.met.run = some r ∧ r.count < 200000 ∧ let code := (runApplet s r).code;
      r.pc < code.length ∧ let op := codeByte code r.pc; op = 0x45) ∧
    (∃ s : State, ∃ r : AcsRun, s.live = true ∧ s.met.run = some r ∧ r.count < 200000 ∧ let code := (runApplet s r).code;
      r.pc < code.length ∧ let op := codeByte code r.pc; (op = 0x09 ∨ op = 0x60 ∨ op = 0)) ∧
    (∃ s : State, ∃ r : AcsRun, s.live = true ∧ s.met.run = some r ∧ r.count < 200000 ∧ let code := (runApplet s r).code;
      r.pc < code.length ∧ let op := codeByte code r.pc; let imm := fun n => codeImm code r.pc n; op = 0x50 ∧ (imm 1 = 0x0C ∨ imm 1 = 0)) ∧
    (∃ s : State, ∃ r : AcsRun, s.live = true ∧ s.met.run = some r ∧ r.count < 200000 ∧ let code := (runApplet s r).code;
      r.pc < code.length ∧ let op := codeByte code r.pc; let imm := fun n => codeImm code r.pc n; op = 0x50 ∧ r.stack.length < 62 ∧
      imm 1 = 1) ∧
    (∃ s : State, ∃ r : AcsRun, s.live = true ∧ s.met.run = some r ∧ r.count < 200000 ∧ let code := (runApplet s r).code;
      r.pc < code.length ∧ let op := codeByte code r.pc; let imm := fun n => codeImm code r.pc n; op = 0x50 ∧ r.stack.length < 62 ∧
      imm 1 = 2) ∧
    (∃ s : State, ∃ r : AcsRun, s.live = true ∧ s.met.run = some r ∧ r.count < 200000 ∧ let code := (runApplet s r).code;
      r.pc < code.length ∧ let op := codeByte code r.pc; let imm := fun n => codeImm code r.pc n; op = 0x50 ∧ r.stack.length < 62 ∧
      let a := runApplet s r; imm 1 = 3 ∧ ∃ id, ∃ kind, ∃ st, r.stack = kind :: id :: st ∧ accOf s a.tenant = none) ∧
    (∃ s : State, ∃ r : AcsRun, s.live = true ∧ s.met.run = some r ∧ r.count < 200000 ∧ let code := (runApplet s r).code;
      r.pc < code.length ∧ let op := codeByte code r.pc; let imm := fun n => codeImm code r.pc n; op = 0x50 ∧ r.stack.length < 62 ∧
      let a := runApplet s r; imm 1 = 4 ∧ ∃ v, cntRead s (0x200 + a.tenant) = some v ∧ v < 2 ^ 64) ∧
    (∃ s : State, ∃ r : AcsRun, s.live = true ∧ s.met.run = some r ∧ r.count < 200000 ∧ let code := (runApplet s r).code;
      r.pc < code.length ∧ let op := codeByte code r.pc; let imm := fun n => codeImm code r.pc n; op = 0x50 ∧ r.stack.length < 62 ∧
      let a := runApplet s r; imm 1 = 5 ∧ ∃ lo, ∃ hi, ∃ st, ∃ v, r.stack = hi :: lo :: st ∧ cntRead s (0x200 + a.tenant) = some v ∧
      let w := lo.toNat + 2 ^ 32 * hi.toNat; w ≤ v) :=
  ⟨
    ⟨acsAt [0x44] (acsRun []), acsRun [], by decide, by decide, by decide, by decide, by decide, by decide⟩,
    ⟨acsAt [0x45] (acsRun []), acsRun [], by decide, by decide, by decide, by decide, by decide⟩,
    ⟨acsAt [9] (acsRun []), acsRun [], by decide, by decide, by decide, by decide, by decide⟩,
    ⟨acsAt [0x50, 0x0C] (acsRun []), acsRun [], by decide, by decide, by decide, by decide, by decide, by decide⟩,
    ⟨acsAt [0x50, 1] (acsRun []), acsRun [], by decide, by decide, by decide, by decide, by decide, by decide, by decide⟩,
    ⟨acsAt [0x50, 2] (acsRun []), acsRun [], by decide, by decide, by decide, by decide, by decide, by decide, by decide⟩,
    ⟨acsAt [0x50, 3] (acsRun [1, 2]), acsRun [1, 2], by decide, by decide, by decide, by decide, by decide, by decide, by decide, 2, 1, [],
      by decide, by decide⟩,
    ⟨acsAt [0x50, 4] (acsRun []), acsRun [], by decide, by decide, by decide, by decide, by decide, by decide, by decide, 0, by decide,
      by decide⟩,
    ⟨acsAt [0x50, 5] (acsRun [0, 0]), acsRun [0, 0], by decide, by decide, by decide, by decide, by decide, by decide, by decide, 0, 0, [],
      0, by decide, by decide, by decide⟩⟩

theorem witness_AcsisInstructions_5 :
    (∃ s : State, ∃ r : AcsRun, s.live = true ∧ s.met.run = some r ∧ r.count < 200000 ∧ let code := (runApplet s r).code;
      r.pc < code.length ∧ let op := codeByte code r.pc; let imm := fun n => codeImm code r.pc n; op = 0x50 ∧ r.stack.length < 62 ∧
      let a := runApplet s r; imm 1 = 5 ∧ ∃ lo, ∃ hi, ∃ st, ∃ v, r.stack = hi :: lo :: st ∧ cntRead s (0x200 + a.tenant) = some v ∧
      let w := lo.toNat + 2 ^ 32 * hi.toNat; v < w) ∧
    (∃ s : State, ∃ r : AcsRun, s.live = true ∧ s.met.run = some r ∧ r.count < 200000 ∧ let code := (runApplet s r).code;
      r.pc < code.length ∧ let op := codeByte code r.pc; let imm := fun n => codeImm code r.pc n; op = 0x50 ∧ r.stack.length < 62 ∧
      imm 1 = 6 ∧ ∃ at', ∃ len, ∃ out, ∃ st, r.stack = out :: len :: at' :: st ∧ at'.toNat + len.toNat ≤ 4096 ∧ out.toNat + 32 ≤ 4096) ∧
    (∃ s : State, ∃ r : AcsRun, s.live = true ∧ s.met.run = some r ∧ r.count < 200000 ∧ let code := (runApplet s r).code;
      r.pc < code.length ∧ let op := codeByte code r.pc; let imm := fun n => codeImm code r.pc n; op = 0x50 ∧ r.stack.length < 62 ∧
      imm 1 = 7 ∧ rngReady s = true) ∧
    (∃ s : State, ∃ r : AcsRun, s.live = true ∧ s.met.run = some r ∧ r.count < 200000 ∧ let code := (runApplet s r).code;
      r.pc < code.length ∧ let op := codeByte code r.pc; let imm := fun n => codeImm code r.pc n; op = 0x50 ∧ r.stack.length < 62 ∧
      imm 1 = 8) ∧
    (∃ s : State, ∃ r : AcsRun, s.live = true ∧ s.met.run = some r ∧ r.count < 200000 ∧ let code := (runApplet s r).code;
      r.pc < code.length ∧ let op := codeByte code r.pc; let imm := fun n => codeImm code r.pc n; op = 0x50 ∧ r.stack.length < 62 ∧
      imm 1 = 9 ∧ r.hook = .close ∧ ∃ at', ∃ len, ∃ st, r.stack = len :: at' :: st ∧ len.toNat % 4 = 0 ∧ len.toNat ≤ 64 ∧
      at'.toNat + len.toNat ≤ 4096) ∧
    (∃ s : State, ∃ r : AcsRun, s.live = true ∧ s.met.run = some r ∧ r.count < 200000 ∧ let code := (runApplet s r).code;
      r.pc < code.length ∧ let op := codeByte code r.pc; let imm := fun n => codeImm code r.pc n; op = 0x50 ∧ r.stack.length < 62 ∧
      imm 1 = 9 ∧ r.hook ≠ .close) ∧
    (∃ s : State, ∃ r : AcsRun, s.live = true ∧ s.met.run = some r ∧ r.count < 200000 ∧ let code := (runApplet s r).code;
      r.pc < code.length ∧ let op := codeByte code r.pc; let imm := fun n => codeImm code r.pc n; op = 0x50 ∧ r.stack.length < 62 ∧
      imm 1 = 10 ∧ r.hook = .loadCheck ∧ ∃ x, ∃ l, s.met.loads = x :: l) ∧
    (∃ s : State, ∃ r : AcsRun, s.live = true ∧ s.met.run = some r ∧ r.count < 200000 ∧ let code := (runApplet s r).code;
      r.pc < code.length ∧ let op := codeByte code r.pc; let imm := fun n => codeImm code r.pc n; op = 0x50 ∧ r.stack.length < 62 ∧
      imm 1 = 11) ∧
    (let bounded := fun s : State => ∀ r, s.met.run = some r → r.stack.length ≤ 64 ∧ r.calls.length ≤ 16 ∧ r.count ≤ 200000; ∃ s : State,
      ∃ t : State, bounded s ∧ ∃ c, c ∈ [Instr.acsPush8, .acsPush16, .acsPush32, .acsDup, .acsDrop, .acsSwap, .acsOver, .acsPick, .acsAdd,
      .acsSub, .acsMul, .acsDivu, .acsRemu, .acsDivs, .acsRems, .acsAnd, .acsOr, .acsXor, .acsNot, .acsShl, .acsShr, .acsSar, .acsEq,
      .acsLtu, .acsLts, .acsAdd64, .acsSub64, .acsLtu64, .acsMulu64, .acsLdw, .acsStw, .acsLdb, .acsStb, .acsJmp, .acsJz, .acsJnz,
      .acsCall, .acsRet, .acsEnd, .acsSysTime, .acsPeriod, .acsTally, .acsFloor, .acsRaiseFloor, .acsHmac, .acsRandom, .acsCloseReq,
      .acsOut, .acsLoadInfo, .acsLanes] ∧ exec c s = .next t) :=
  ⟨
    ⟨acsAt [0x50, 5] (acsRun [0, 1]), acsRun [0, 1], by decide, by decide, by decide, by decide, by decide, by decide, by decide, 1, 0, [],
      0, by decide, by decide, by decide⟩,
    ⟨acsAt [0x50, 6] (acsRun [4064, 1, 0]), acsRun [4064, 1, 0], by decide, by decide, by decide, by decide, by decide, by decide,
      by decide, 0, 1, 4064, [], by decide, by decide, by decide⟩,
    ⟨(acsAt [0x50, 7] (acsRun [])).wrf Reg.PAV_RNG_STAT 1 0 1, acsRun [], by decide, by decide, by decide, by decide, by decide, by decide,
      by decide, by decide⟩,
    ⟨acsAt [0x50, 8] (acsRun []), acsRun [], by decide, by decide, by decide, by decide, by decide, by decide, by decide⟩,
    ⟨acsAt [0x50, 9] ({ acsRun [64, 4032] with hook := .close }), { acsRun [64, 4032] with hook := .close }, by decide, by decide,
      by decide, by decide, by decide, by decide, by decide, by decide, 4032, 64, [], by decide, by decide, by decide, by decide⟩,
    ⟨acsAt [0x50, 9] (acsRun []), acsRun [], by decide, by decide, by decide, by decide, by decide, by decide, by decide, by decide⟩,
    ⟨(acsAt [0x50, 10] { acsRun [] with hook := .loadCheck }).modMet fun m => { m with loads := [ask0] },
      { acsRun [] with hook := .loadCheck }, by decide, by decide, by decide, by decide, by decide, by decide, by decide, by decide, ask0,
      [], by decide⟩,
    ⟨acsAt [0x50, 11] (acsRun []), acsRun [], by decide, by decide, by decide, by decide, by decide, by decide, by decide⟩,
    ⟨live0, _, fun r h => absurd h (by decide +revert), .acsPush8, .head _, rfl⟩⟩

theorem witness_FirmwareCommands_1 :
    (∃ s : State, ∃ w : Switch, s.live = true ∧ s.fw.switch = some w ∧ w.phase = 1) ∧
    (∃ s : State, ∃ w : Switch, s.live = true ∧ s.fw.switch = some w ∧ w.at' ≤ s.ct.toNat + ticksPerSecond ∧ w.asking = false ∧
      w.phase < 3) ∧
    (∃ s : State, ∃ w : Switch, s.live = true ∧ s.fw.switch = some w ∧ w.at' ≤ s.ct.toNat + ticksPerSecond ∧ w.asking = false ∧
      w.phase = 3 ∧ w.waiting = [] ∧ admitted s = []) ∧
    (∃ s : State, ∃ w : Switch, s.live = true ∧ s.fw.switch = some w ∧ w.at' ≤ s.ct.toNat + ticksPerSecond ∧ w.asking = false ∧
      w.phase = 3 ∧ w.waiting = [] ∧ admitted s ≠ []) ∧
    (∃ s : State, ∃ l : ChainLoad, ∃ h : List Byte, s.live = true ∧ s.isManager = true ∧ s.fwRuns = true ∧ s.fw.load = some l ∧
      loadHead s l.source = some h ∧ l.phase = .sending ∧ l.sent + 1 < headChunks h + 8 * headBlocks h) ∧
    (∃ s : State, ∃ l : ChainLoad, ∃ h : List Byte, s.live = true ∧ s.isManager = true ∧ s.fwRuns = true ∧ s.fw.load = some l ∧
      loadHead s l.source = some h ∧ l.phase = .sending ∧ headChunks h + 8 * headBlocks h ≤ l.sent + 1) ∧
    (∃ s : State, ∃ l : ChainLoad, ∃ h : List Byte, s.live = true ∧ s.isManager = true ∧ s.fwRuns = true ∧ s.fw.load = some l ∧
      loadHead s l.source = some h ∧ ∃ p, ∃ c, ∃ r, l.phase = .repairing ∧ l.repair = (p, c) :: r ∧ r ≠ []) ∧
    (∃ s : State, ∃ l : ChainLoad, ∃ h : List Byte, s.live = true ∧ s.isManager = true ∧ s.fwRuns = true ∧ s.fw.load = some l ∧
      loadHead s l.source = some h ∧ ∃ p, ∃ c, l.phase = .repairing ∧ l.repair = [(p, c)]) ∧
    (∃ s : State, ∃ src : Nat, s.live = true ∧ s.isManager = true ∧ s.fwRuns = true ∧ s.fw.load = none ∧ s.fw.switch = none ∧
      runSource s = some src ∧ s.fw.want = [] ∧ s.fw.behind ≠ []) :=
  ⟨
    ⟨live0.modFw fun f => { f with switch := some { at' := 0, phase := 1, slot := 0 } }, { at' := 0, phase := 1, slot := 0 }, by decide,
      by decide, by decide⟩,
    ⟨live0.modFw fun f => { f with switch := some { at' := 200000000, phase := 2, slot := 0 } },
      { at' := 200000000, phase := 2, slot := 0 }, by decide, by decide, by decide, by decide, by decide⟩,
    ⟨live0.modFw fun f => { f with switch := some { at' := 200000000, phase := 3, slot := 0 } },
      { at' := 200000000, phase := 3, slot := 0 }, by decide, by decide, by decide, by decide, by decide, by decide, by decide⟩,
    ⟨chain0.modFw fun f => { f with running := [1], switch := some { at' := 200000000, phase := 3, slot := 0 } },
      { at' := 200000000, phase := 3, slot := 0 }, by decide +kernel, by decide +kernel, by decide +kernel, by decide +kernel,
      by decide +kernel, by decide +kernel, by decide +kernel⟩,
    ⟨(loading .sending 0 []).setBytes 0x10000108 [1], chainLoad .sending 0 [], _, by decide +kernel, by decide +kernel, by decide +kernel,
      by decide +kernel, rfl, by decide +kernel, by decide +kernel⟩,
    ⟨loading .sending 1000 [], chainLoad .sending 1000 [], _, by decide +kernel, by decide +kernel, by decide +kernel, by decide +kernel,
      rfl, by decide +kernel, by decide +kernel⟩,
    ⟨loading .repairing 0 [(0, chunk0), (1, chunk0)], chainLoad .repairing 0 [(0, chunk0), (1, chunk0)], _, by decide, by decide,
      by decide, by decide, rfl, 0, chunk0, [(1, chunk0)], by decide, by decide, by decide⟩,
    ⟨loading .repairing 0 [(0, chunk0)], chainLoad .repairing 0 [(0, chunk0)], _, by decide, by decide, by decide, by decide, rfl, 0,
      chunk0, by decide, by decide⟩,
    ⟨(mgr0.wrf Reg.FW_STAT 3 2 0).modFw fun f => { f with behind := [1] }, _, by decide, by decide, by decide, by decide, by decide, rfl,
      by decide, by decide⟩⟩

theorem witness_FirmwareCommands_2 :
    (∃ s : State, ∃ t : State, ∃ p : Fin 2, ∃ l : List QEntry, s.live = true ∧ s.isManager = false ∧ s.core.mode = .firmware ∧
      queuePacket s (frlQueue p.val) = (some l, t) ∧ (wordsFrame l).typ = 0x20 ∧ (takeChunk t (wordsFrame l).payload).core.mode ≠ .listen) ∧
    (∃ s : State, ∃ b : List Byte, (s.area (areaIndex s (numAt b 8 1))).session ≠ some (wordLE b)) ∧
    (∃ k : Nat, ∃ h : List Byte, ∃ s : State, ∃ b : Nat, ∃ c : Fin 8 → List Byte, k < 2 ∧ (∀ i : Fin 8,
      (s.area k).chunks.find? (fun e => e.1 == (b, i.val)) = some ((b, i.val), c i)) ∧ b ∉ (s.area k).good ∧
      let block := c 0 ++ c 1 ++ c 2 ++ c 3 ++ c 4 ++ c 5 ++ c 6 ++ c 7; blockOk (h.drop 256) block b = true ∧ ∃ e,
      e ∈ ((takeBlock k h s b).area k).chunks) ∧
    (∃ k : Nat, ∃ h : List Byte, ∃ s : State, ∃ b : Nat, ∃ c : Fin 8 → List Byte, k < 2 ∧ (∀ i : Fin 8,
      (s.area k).chunks.find? (fun e => e.1 == (b, i.val)) = some ((b, i.val), c i)) ∧ b ∉ (s.area k).good ∧
      let block := c 0 ++ c 1 ++ c 2 ++ c 3 ++ c 4 ++ c 5 ++ c 6 ++ c 7; blockOk (h.drop 256) block b = false) ∧
    (∃ s : State, ∃ t : State, ∃ u : State, ∃ p : Fin 2, ∃ l : List QEntry, s.live = true ∧ s.isManager = false ∧ s.core.mode = .firmware ∧
      queuePacket s (frlQueue p.val) = (some l, t) ∧ let f := wordsFrame l; f.typ = 0x10 ∧ f.rsp = false ∧ f.toEn = false ∧
      admitTxn t p.val f = (true, u) ∧ let b := f.payload; f.code = 0x0F01 ∧ numAt b 8 1 = 1 ∧
      (u.area (areaIndex u 1)).session ≠ some (wordLE (slice b 4 4))) ∧
    (∃ s : State, ∃ t : State, ∃ u : State, ∃ p : Fin 2, ∃ l : List QEntry, s.live = true ∧ s.isManager = false ∧ s.core.mode = .firmware ∧
      queuePacket s (frlQueue p.val) = (some l, t) ∧ let f := wordsFrame l; f.typ = 0x10 ∧ f.rsp = false ∧ f.toEn = false ∧
      admitTxn t p.val f = (true, u) ∧ f.code = 0x0F02) ∧
    (∃ s : State, ∃ t : State, ∃ u : State, ∃ p : Fin 2, ∃ l : List QEntry, s.live = true ∧ s.isManager = false ∧ s.core.mode = .firmware ∧
      queuePacket s (frlQueue p.val) = (some l, t) ∧ let f := wordsFrame l; f.typ = 0x10 ∧ f.rsp = false ∧ f.toEn = false ∧
      admitTxn t p.val f = (true, u) ∧ let b := f.payload; f.code = 0x0F03 ∧ areaComplete u (1 - runArea u) = true ∧
      u.bytesAt (areaBase (1 - runArea u) + 0x60) 16 = slice b 12 16) ∧
    (∃ s : State, ∃ t : State, ∃ u : State, ∃ p : Fin 2, ∃ l : List QEntry, s.live = true ∧ s.isManager = false ∧ s.core.mode = .firmware ∧
      queuePacket s (frlQueue p.val) = (some l, t) ∧ let f := wordsFrame l; f.typ = 0x10 ∧ f.rsp = false ∧ f.toEn = false ∧
      admitTxn t p.val f = (true, u) ∧ f.code = 0x0F03 ∧ areaComplete u (1 - runArea u) = false) ∧
    (∃ s : State, ∃ t : State, ∃ u : State, ∃ p : Fin 2, ∃ l : List QEntry, s.live = true ∧ s.isManager = false ∧ s.core.mode = .firmware ∧
      queuePacket s (frlQueue p.val) = (some l, t) ∧ let f := wordsFrame l; f.typ = 0x10 ∧ f.rsp = false ∧ f.toEn = false ∧
      admitTxn t p.val f = (true, u) ∧ f.code = 0x0F04) :=
  ⟨
    ⟨framed fw0 (rawFrame 0x20 0 [1]), _, 0, rawFrame 0x20 0 [1], by decide, by decide, by decide, rfl, by decide, by decide⟩,
    ⟨live0, [], by decide⟩,
    ⟨1, List.replicate 384 0 ++ sha256 (List.replicate 8 0),
      live0.modFw fun f => { f with areas := f.areas.set 1 { chunks := ((List.range 8).map fun i => ((0, i), [0])) ++ [((1, 0), [0])] } },
      0, fun _ => [0], by decide +kernel, by decide +kernel, by decide +kernel, by decide +kernel, ((1, 0), [0]), by decide +kernel⟩,
    ⟨1, [], live0.modFw fun f => { f with areas := f.areas.set 1 { chunks := (List.range 8).map fun i => ((0, i), [0]) } }, 0,
      fun _ => [0], by decide +kernel, by decide +kernel, by decide +kernel, by decide +kernel⟩,
    ⟨framed fw0 (rawFrame 0x10 0 [0x0F01, 5, 1]), _, _, 0, rawFrame 0x10 0 [0x0F01, 5, 1], by decide, by decide, by decide, rfl, by decide,
      by decide, by decide, rfl, by decide, by decide, by decide⟩,
    ⟨framed fw0 (rawFrame 0x10 0 [0x0F02]), _, _, 0, rawFrame 0x10 0 [0x0F02], by decide, by decide, by decide, rfl, by decide, by decide,
      by decide, rfl, by decide⟩,
    ⟨framed (fw0.setArea 1 { headerOk := true }) (rawFrame 0x10 0 [0x0F03]), _, _, 0, rawFrame 0x10 0 [0x0F03], by decide +kernel,
      by decide +kernel, by decide +kernel, rfl, by decide +kernel, by decide +kernel, by decide +kernel, rfl, by decide +kernel,
      by decide +kernel, by decide +kernel⟩,
    ⟨framed fw0 (rawFrame 0x10 0 [0x0F03]), _, _, 0, rawFrame 0x10 0 [0x0F03], by decide, by decide, by decide, rfl, by decide, by decide,
      by decide, rfl, by decide, by decide⟩,
    ⟨framed fw0 (rawFrame 0x10 0 [0x0F04]), _, _, 0, rawFrame 0x10 0 [0x0F04], by decide, by decide, by decide, rfl, by decide, by decide,
      by decide, rfl, by decide⟩⟩

theorem witness_FirmwareCommands_3 :
    (∃ s : State, ∃ m : Master, s.reaches m Reg.FW_READY = true ∧ s.fw.owesBad = [] ∧ s.fw.owesStart = false ∧ s.fw.owesRevert = false) ∧
    (∃ s : State, ∃ m : Master, s.reaches m Reg.FW_CONFIRM = true ∧ ∃ v : Word, v ≠ 0x0000C0F1) ∧
    (∃ s : State, inProbation s = true) ∧
    (∃ s : State, s.live = true ∧ s.isManager = true ∧ s.fwRuns = true ∧ healthy s = true ∧ s.fw.healthy < 3) ∧
    (∃ s : State, s.live = true ∧ s.isManager = true ∧ s.fwRuns = true ∧ healthy s = true ∧ s.fw.healthy = 3) ∧
    (∃ s : State, s.live = true ∧ s.isManager = true ∧ s.fwRuns = true ∧ healthy s = false) :=
  ⟨
    ⟨live0, .cc, by decide, by decide, by decide, by decide⟩,
    ⟨live0, .cc, by decide, 0, by decide⟩,
    ⟨live0.wrb Reg.FW_STAT 0 true, by decide⟩,
    ⟨healthy0 2, by decide, by decide, by decide, by decide, by decide⟩,
    ⟨healthy0 3, by decide, by decide, by decide, by decide, by decide⟩,
    ⟨mgr0, by decide, by decide, by decide, by decide⟩⟩

theorem witness_ErrorsAndService_1 :
    (∃ s : State, ∃ code : Half, ∃ k : Nat, s.canon = true ∧ k < 5 ∧ s.rdb Reg.ERR_STAT (16 + k) = true ∧ errClass code ≠ 3) ∧
    (∃ s : State, ∃ t : State, ∃ l : List Raise, s.canon = true ∧ s.rdb Reg.ERR_STAT 31 = true ∧ exec (.errorRaise l) s = .next t) ∧
    (∃ s : State, ∃ code : Half, s.canon = true ∧ errClass code = 3 ∧ s.rdb Reg.ERR_STAT 19 = true ∧ s.rdb Reg.ERR_STAT 31 = false) ∧
    (∃ s : State, s.canon = true ∧ s.rdb Reg.ERR_STAT 31 = false) ∧
    (∃ s : State, s.live = true) ∧
    (∃ s : State, s.live = true ∧ s.rdb Reg.ERR_STAT 19 = true) ∧
    (∃ s : State, ∃ m : Master, s.reaches m Reg.ERR_SAFE_REQ = true ∧ ∃ v : Word, v ≠ 0x00005AFE) ∧
    (∃ s : State, ∃ m : Master, s.reaches m Reg.ERR_DONE = true ∧ s.canon = true ∧ m ≠ .cc) ∧
    (∃ s : State, ∃ k : Fin 5, s.reaches .cc Reg.ERR_DONE = true ∧ s.rdb Reg.ERR_STAT (16 + k.val) = true) :=
  ⟨
    ⟨live0.wrb Reg.ERR_STAT 20 true, 0, 4, by decide, by decide, by decide, by decide⟩,
    ⟨live0.wrb Reg.ERR_STAT 31 true, _, [], by decide, by decide, rfl⟩,
    ⟨live0.wrb Reg.ERR_STAT 19 true, 0x1016, by decide, by decide, by decide, by decide⟩,
    ⟨live0, by decide, by decide⟩,
    ⟨live0, by decide⟩,
    ⟨live0.wrb Reg.ERR_STAT 19 true, by decide, by decide⟩,
    ⟨live0, .cc, by decide, 0, by decide⟩,
    ⟨live0, .en, by decide, by decide, by decide⟩,
    ⟨live0.wrb Reg.ERR_STAT 20 true, 4, by decide, by decide⟩⟩

theorem witness_ErrorsAndService_2 :
    (∃ s : State, ∃ t : State, ∃ u : State, ∃ p : Fin 2, ∃ l : List QEntry, s.live = true ∧ s.isManager = true ∧ s.fwRuns = true ∧
      queuePacket s (frlQueue p.val) = (some l, t) ∧ let f := wordsFrame l; f.typ = 0x10 ∧ f.rsp = false ∧ f.toEn = false ∧
      f.code = 0x0E01 ∧ admitTxn t p.val f = (true, u)) ∧
    (∃ s : State, ∃ lane : BitVec 7, s.live = true ∧ s.isManager = true ∧ s.fwRuns = true ∧ s.ring.duplicate = false ∧
      admitAsked s lane.toNat = true ∧ lane.toNat = s.ownLane ∧ admitReady s = true) ∧
    (∃ s : State, ∃ lane : BitVec 7, s.live = true ∧ s.isManager = true ∧ s.fwRuns = true ∧ s.ring.duplicate = false ∧
      admitAsked s lane.toNat = true ∧ lane.toNat ≠ s.ownLane) ∧
    (∃ s : State, ∃ lane : BitVec 7, s.live = true ∧ s.isManager = true ∧ s.fwRuns = true ∧ (s.lane lane.toNat).state = .admitting ∧
      (s.lane lane.toNat).faults.flag = true) ∧
    (∃ s : State, ∃ lane : BitVec 7, s.live = true ∧ s.isManager = true ∧ s.fwRuns = true ∧ s.svc.shutterRetry.contains lane.toNat = true) ∧
    (∃ s : State, s.live = true ∧ s.isStandby = true ∧ s.fwRuns = true ∧ s.position ≠ 0xFF ∧ s.svc.probes < 5) ∧
    (∃ s : State, s.live = true ∧ s.isStandby = true ∧ s.fwRuns = true ∧ s.svc.probes = 5) :=
  ⟨
    ⟨framed mgr0 (rawFrame 0x10 0 [0x0E01]), _, _, 0, rawFrame 0x10 0 [0x0E01], by decide, by decide, by decide, rfl, by decide, by decide,
      by decide, by decide, rfl⟩,
    ⟨(((idle0.wrb Reg.FAB_STAT 31 true).wrb Reg.CLK_STAT 2 true).wr Reg.CAL_SLOTSTAT 1).modSvc fun v => { v with shutters := 1 }, 0,
      by decide +kernel, by decide +kernel, by decide +kernel, by decide +kernel, by decide +kernel, by decide +kernel, by decide +kernel⟩,
    ⟨mgr0.modLane 1 fun l => { l with state := .idle }, 1, by decide, by decide, by decide, by decide, by decide, by decide⟩,
    ⟨mgr0.modLane 1 fun l => { l with state := .admitting, faults := { flag := true } }, 1, by decide, by decide, by decide, by decide,
      by decide⟩,
    ⟨mgr0.modSvc fun v => { v with shutterRetry := [1] }, 1, by decide, by decide, by decide, by decide⟩,
    ⟨stby0 4, by decide, by decide, by decide, by decide, by decide⟩,
    ⟨stby0 5, by decide, by decide, by decide, by decide⟩⟩

end Sys2Proof.Tests
end

section
/-! Register writes and reads by their field types (O19), and the state after reset (O3). -/

namespace Sys2Proof.Machine

/-! ## Field types -/

/-- The bits of a register that a write sets to what is written: RW, and RWL while the lock is open (R6). -/
theorem getLsbD_settable (d : RegDesc) (locked : Bool) (i : Nat) :
    (if locked then d.rw else d.rw ||| d.rwl).getLsbD i = (d.rw.getLsbD i || d.rwl.getLsbD i && !locked) := by
  cases locked <;> simp

/-- What a register's bit becomes by its field type: W1S over W1C over what the write sets (R6). -/
theorem getLsbD_applyFields (d : RegDesc) (locked : Bool) (old v : Word) {i : Nat} (hi : i < 32) :
    (applyFields d locked old v).getLsbD i =
      (v.getLsbD i && d.w1s.getLsbD i || !(v.getLsbD i && d.w1c.getLsbD i) &&
        (if d.rw.getLsbD i || d.rwl.getLsbD i && !locked then v.getLsbD i else old.getLsbD i)) := by
  simp only [applyFields, BitVec.getLsbD_or, BitVec.getLsbD_and, BitVec.getLsbD_not, getLsbD_settable, hi, decide_true, Bool.true_and]
  cases d.rw.getLsbD i || d.rwl.getLsbD i && !locked with
  | true => simp [Bool.or_comm, Bool.and_comm]
  | false => simp [Bool.or_comm, Bool.and_comm]

theorem fieldWrite_of_regDesc {s : State} {a : Nat} {d : RegDesc} (v : Word) (h : regDesc a = some d) :
    fieldWrite s a v = s.wr a (applyFields d (regLocked s d a) (s.rd a) v) := by
  simp [fieldWrite, h]

/-- A bit of a register after a write by its field types. -/
theorem getLsbD_rd_fieldWrite {s : State} {a : Nat} {d : RegDesc} (v : Word) {i : Nat} (hs : s.canon = true)
    (h : regDesc a = some d) (hi : i < 32) :
    ((fieldWrite s a v).rd a).getLsbD i =
      (v.getLsbD i && d.w1s.getLsbD i || !(v.getLsbD i && d.w1c.getLsbD i) &&
        (if d.rw.getLsbD i || d.rwl.getLsbD i && !regLocked s d a then v.getLsbD i else (s.rd a).getLsbD i)) := by
  rw [fieldWrite_of_regDesc v h, rd_wr_same s a _ (canon_parts hs).2, getLsbD_applyFields d _ _ v hi]

theorem rd_fieldWrite_other {s : State} {a b : Nat} (v : Word) (hs : s.canon = true) (hb : b ≠ a) :
    (fieldWrite s a v).rd b = s.rd b := by
  unfold fieldWrite
  split
  · rfl
  · exact rd_wr_other s a b _ (canon_parts hs).2 hb

theorem mem_fieldWrite (s : State) (a : Nat) (v : Word) : (fieldWrite s a v).mem = s.mem := by
  unfold fieldWrite
  split <;> rfl

/-- A read answers the register's value; its RC fields are cleared by it, and no other register changes. -/
theorem plainRead_of_regDesc {s : State} {a : Nat} {d : RegDesc} (hs : s.canon = true) (h : regDesc a = some d) :
    (plainRead s a).1 = s.rd a ∧ (plainRead s a).2.rd a = s.rd a &&& ~~~d.rc ∧ ∀ b, b ≠ a → (plainRead s a).2.rd b = s.rd b := by
  have hr := (canon_parts hs).2
  by_cases hrc : d.rc = 0
  · have e : plainRead s a = (s.rd a, s) := by simp only [plainRead, h, if_pos hrc]
    rw [e, hrc]
    exact ⟨rfl, by simp only [BitVec.ofNat_eq_ofNat, BitVec.not_zero, BitVec.and_allOnes], fun _ _ => rfl⟩
  · have e : plainRead s a = (s.rd a, s.wr a (s.rd a &&& ~~~d.rc)) := by simp only [plainRead, h, if_neg hrc]
    rw [e]
    exact ⟨rfl, rd_wr_same s a _ hr, fun b hb => rd_wr_other s a b _ hr hb⟩

/-- Settles O19: the last clause is the first one at a bit that only W1S may cover. -/
theorem fieldTypesAndLocks : Obligations.FieldTypesAndLocks := by
  unfold Obligations.FieldTypesAndLocks
  refine ⟨fun s a v d hs h => ⟨fun i hi => ?_, fun b hb => ?_, ?_⟩, fun s a d hs h => plainRead_of_regDesc hs h,
    fun s a v d i hs h hi hrw hrwl hw1c hset => ?_⟩
  · exact getLsbD_rd_fieldWrite v hs h hi
  · exact rd_fieldWrite_other v hs hb
  · exact mem_fieldWrite s a v
  · rw [State.rdb, bitOf] at hset ⊢
    simp [getLsbD_rd_fieldWrite v hs h hi, hrw, hrwl, hw1c, hset]

/-! ## The state after reset -/

/-- Settles O3: each part of the reset state, read off its definition. -/
theorem resetLeaves : Obligations.ResetLeaves := by
  unfold Obligations.ResetLeaves
  refine ⟨rfl, rfl, rfl, by decide, by decide, by decide, by decide, fun q => ?_, rfl, by decide, by decide⟩
  simp [State.queue, State.reset]

end Sys2Proof.Machine
end

section
/-! How the `Keeps` lemmas are put together along a command's meaning: a choice keeps what both its branches keep, a command that takes
from a queue first keeps what taking keeps, and a shared row keeps what its own part keeps. -/

namespace Sys2Proof.Machine

/-! ## A choice between two states -/

theorem keeps_branch {r a b : State} {c : Prop} [Decidable c] (h : Keeps r a) (k : Keeps r b) : Keeps r (if c then a else b) :=
  keeps_ite (fun _ => h) fun _ => k

theorem keeps_branch3 {α β : Type} {r : State} {a b : α × β × State} {c : Prop} [Decidable c] (h : Keeps r a.2.2)
    (k : Keeps r b.2.2) : Keeps r (if c then a else b).2.2 :=
  keeps_ite3 (fun _ => h) fun _ => k

theorem keepsO_branch {r : State} {a b : Host.Outcome State Fault Refusal} {c : Prop} [Decidable c] (h : KeepsO r a)
    (k : KeepsO r b) : KeepsO r (if c then a else b) :=
  keepsO_ite (fun _ => h) fun _ => k

theorem keepsOut_branch {r : State} {a b : CellOut} {c : Prop} [Decidable c] (h : KeepsOut r a) (k : KeepsOut r b) :
    KeepsOut r (if c then a else b) :=
  keepsOut_ite (fun _ => h) fun _ => k

theorem keepsA_branch {r : State} {a b : AcsRes} {c : Prop} [Decidable c] (h : KeepsA r a) (k : KeepsA r b) :
    KeepsA r (if c then a else b) :=
  keepsA_ite (fun _ => h) fun _ => k

/-! ## What a command takes from a queue first -/

theorem keeps_tookPacket {s t : State} {q : Fin 24} {l : Option (List QEntry)} (h : queuePacket s q = (l, t)) : Keeps s t :=
  keeps_of_eq h (keeps_queuePacket _ _ (.refl s))

theorem keeps_tookFrame {s t : State} {p : Nat} {test : Frame → Bool} {f : Option Frame} (h : takeFrame s p test = (f, t)) :
    Keeps s t :=
  keeps_of_eq h (keeps_takeFrame _ _ _ (.refl s))

theorem keeps_tookSetup {s t : State} {p msg : Nat} {f : Option Frame} (h : takeSetup s p msg = (f, t)) : Keeps s t :=
  keeps_of_eq h (keeps_takeSetup _ _ _ (.refl s))

theorem keeps_tookLink {s t : State} {p typ : Nat} {f : Option (Frame × DWord)} (h : takeLink s p typ = (f, t)) : Keeps s t :=
  keeps_of_eq h (keeps_takeLink _ _ _ (.refl s))

/-- The request of a ring transaction is taken from its queue, then judged (R352). -/
theorem keeps_admitted {r s t : State} {p : Nat} {test : Frame → Bool} {f : Option Frame} {g : Frame} {b : Bool}
    (h : takeFrame r p test = (f, s)) (k : admitTxn s p g = (b, t)) : Keeps r t :=
  keeps_of_eq k (keeps_admitTxn _ _ _ (keeps_tookFrame h))

/-! ## The shared rows, run on the state that they are compared with -/

theorem keepsO_live {s : State} {f : State → State} (hf : ∀ t, Keeps t (f t)) : KeepsO s (.next (whenLive s f)) :=
  keepsO_next (keeps_whenLive _ _ hf (.refl s))

theorem keepsO_writeRow {s : State} {m : Master} {a : Nat} {v : Word} {effect : State → Word → State}
    (hf : ∀ t v, Keeps t (effect t v)) : KeepsO s (writeRow m a v effect s) :=
  keeps_writeRow _ _ _ _ _ hf (.refl s)

theorem keepsO_cellIssue {s : State} {i : Issue} {w : Word} {u : Uses} {f : State → CellOut} (hf : ∀ t, KeepsOut t (f t)) :
    KeepsO s (cellIssue i w u f s) :=
  keeps_cellIssue _ _ _ _ _ hf (.refl s)

theorem keepsO_acsRow {s : State} {op imm : Nat} {sys : Option Nat} {f : Nat → AcsRun → State → AcsRes}
    (hf : ∀ v r t, KeepsA t (f v r t)) : KeepsO s (acsRow op imm sys f s) :=
  keeps_acsRow _ _ _ _ _ hf (.refl s)

theorem keepsO_acsSys {s : State} {n : Nat} {f : AcsRun → State → AcsRes} (hf : ∀ r t, KeepsA t (f r t)) : KeepsO s (acsSys n f s) :=
  keeps_acsSys _ _ _ hf (.refl s)

theorem keepsO_engRow {s : State} {e op : Nat} {run : EngDesc → State → EngOut × State} (hf : ∀ d t, Keeps t (run d t).2) :
    KeepsO s (engRow e op run s) :=
  keeps_engRow _ _ _ _ hf (.refl s)

theorem keepsO_fwTxn {s : State} {p : Fin 2} {code : Nat} {run : State → List Byte → List Byte × State}
    (hf : ∀ t b, Keeps t (run t b).2) : KeepsO s (fwTxn p code run s) :=
  keeps_fwTxn _ _ _ _ hf (.refl s)

theorem keepsO_hostCmd {s : State} {c : HostCmd} {code : Half} {ok : List Byte → Bool} {run : State → HostJob → State}
    (hf : ∀ t j, Keeps t (run t j)) : KeepsO s (hostCmd c code ok run s) :=
  keeps_hostCmd _ _ _ _ _ hf (.refl s)

theorem keepsO_hostNow {s : State} {c : HostCmd} {code : Half} {ok : List Byte → Bool}
    {f : State → List Byte → Half × List Byte × State} (hf : ∀ t b, Keeps t (f t b).2.2) :
    KeepsO s (hostCmd c code ok (hostNow f) s) :=
  keepsO_hostCmd fun t _ => keeps_hostNow _ _ _ hf (.refl t)

end Sys2Proof.Machine
end

section
/-! What the commands keep whose meaning is more than one row or one function: the queue of commands, and the canonical form of memory
and registers. Each proof follows the branches of the command's definition. -/

namespace Sys2Proof.Machine

/-! ## Commands of `Machine/Sram.lean` -/

theorem keepsO_execSramRead (m : Master) (addr : Word) (len : Nat) (found : List Upset) (s : State) :
    KeepsO s (execSramRead m addr len found s) :=
  keepsO_live fun _ => keeps_branch (.refl _) <|
    keeps_gated _ _ _
        (fun _ =>
          keeps_branch (keeps_State_resp _ _ _ _ <| keeps_sramRead _ _ _ _ (.refl _)) <|
          keeps_branch (keeps_State_resp _ _ _ _ (.refl _)) <| keeps_State_resp _ _ _ _ (.refl _)) <|
    keeps_flushPairs _ _ _ (.refl _)

theorem keepsO_execSramWrite (m : Master) (addr : Word) (data : List Byte) (found : List Upset) (s : State) :
    KeepsO s (execSramWrite m addr data found s) := by
  refine keepsO_live fun _ => keeps_branch (.refl _) ?_
  dsimp only
  split
  · exact keeps_refusedResp _ _ _ <| keeps_refuseAccess _ _ _ <| keeps_flushPairs _ _ _ (.refl _)
  · exact keeps_branch (keeps_sramStore _ _ _ _ _ (.refl _)) <| keeps_State_resp _ _ _ _ <| keeps_flushPairs _ _ _ (.refl _)

theorem keepsO_execScrubWord (encl : Bool) (bits : List Nat) (s : State) : KeepsO s (execScrubWord encl bits s) := by
  refine keepsO_live fun t => keeps_branch (keeps_modMs <| keeps_scrubOne _ _ _ (.refl t)) <| keeps_branch ?_ (.refl t)
  extract_lets i s1
  have h1 : Keeps t s1 := keeps_modMs <| keeps_scrubBanks _ _ _ _ (.refl t)
  exact keeps_branch (keeps_State_bump _ _ _ _ _ h1) h1

/-! ## Commands of `Machine/Mram.lean` -/

theorem keepsO_execMramRead (m : Master) (addr : Word) (len : Nat) (found : List Upset) (s : State) :
    KeepsO s (execMramRead m addr len found s) :=
  keepsO_live fun _ => keeps_branch (.refl _) <|
    keeps_gated _ _ _
        (fun _ => keeps_branch (keeps_State_resp _ _ _ _ <| keeps_mramReadWords _ _ _ _ (.refl _)) <| keeps_State_resp _ _ _ _ (.refl _)) <|
    keeps_flushPairs _ _ _ (.refl _)

theorem keepsO_execMramWrite (m : Master) (addr : Word) (data : List Byte) (s : State) : KeepsO s (execMramWrite m addr data s) := by
  refine keepsO_live fun _ => keeps_branch (.refl _) ?_
  dsimp only
  split
  · exact keeps_refusedResp _ _ _ <| keeps_refuseAccess _ _ _ <| keeps_flushPairs _ _ _ (.refl _)
  · refine keeps_branch (keeps_State_resp _ _ _ _ <| keeps_flushPairs _ _ _ (.refl _)) ?_
    split
    · exact keeps_mramWrite _ _ _ _ <| keeps_flushPairs _ _ _ <| keeps_dropPair _ _ (.refl _)
    · exact keeps_branch (keeps_holdPair _ _ _ _ <| keeps_flushPairs _ _ _ (.refl _)) <|
        keeps_mramWrite _ _ _ _ <| keeps_flushPairs _ _ _ (.refl _)

theorem keepsO_execMramWordProgrammed (s : State) : KeepsO s (execMramWordProgrammed s) := by
  refine keepsO_live fun t => ?_
  split
  · exact .refl t
  · extract_lets s1 s2
    have h2 : Keeps t s2 := keeps_modMram <| keeps_State_setBytes _ _ _ (.refl t)
    exact keeps_branch (keeps_State_resp _ _ _ _ h2) h2

theorem keepsO_execClearStepDone (s : State) : KeepsO s (execClearStepDone s) := by
  refine keepsO_live fun t => ?_
  split
  · exact .refl t
  · refine keeps_branch (.refl t) ?_
    extract_lets lo s1
    have h1 : Keeps t s1 := keeps_modMram <| keeps_State_zeroRange _ _ _ (.refl t)
    exact keeps_branch (keeps_mramEvent _ <| keeps_modMram <| keeps_setSectorStatus _ _ _ h1) <|
      keeps_branch (keeps_modMram <| keeps_setSectorStatus _ _ _ h1) <| keeps_modMram h1

theorem keepsO_execRetirementDone (lost : List (BitVec 9)) (s : State) : KeepsO s (execRetirementDone lost s) := by
  refine keepsO_live fun t => ?_
  split
  · exact .refl t
  · extract_lets left s1 s2 s3
    have h2 : Keeps t s2 := keeps_raise _ _ _ _ <| keeps_mramEvent _ <| keeps_State_wrf _ _ _ _ _ <| keeps_modMram (.refl t)
    have h3 : Keeps t s3 := by
      dsimp only [s3]
      split
      · exact keeps_startClear _ _ _ <| keeps_modMram h2
      · exact h2
    exact keeps_sparesCheck _ <| keeps_branch (keeps_foldl _ _ _ (fun _ _ => keeps_retireSector _ _ (.refl _)) h3) h3

/-! ## Commands of `Machine/Queues.lean` -/

theorem keepsO_execQueueStallRelease (q : Fin 24) (s : State) : KeepsO s (execQueueStallRelease q s) :=
  keepsO_live fun _ => keeps_branch (.refl _) <|
    keeps_branch (keeps_releaseStalled _ _ _ (.refl _)) <| keeps_branch (keeps_pushAbort _ _ (.refl _)) (.refl _)

theorem keepsO_execQDropComplete (q : Fin 24) (s : State) : KeepsO s (execQDropComplete q s) := by
  refine keepsO_live fun _ => keeps_branch ?_ (.refl _)
  split
  · exact .refl _
  · exact keeps_State_modQueue _ _ _ (.refl _)

/-! ## Commands of `Machine/RegIo.lean` -/

theorem keepsO_execGateRuleWrite (m : Master) (addr v : Word) (s : State) : KeepsO s (execGateRuleWrite m addr v s) :=
  keepsO_live fun _ => keeps_branch (keeps_regWrite _ _ _ _ _ (fun _ _ => keeps_ruleWrite _ _ _ _ (.refl _)) (.refl _)) (.refl _)

/-! ## Commands of `Machine/FrontEnd.lean` -/

theorem keepsO_execFptMeasure (raw : Word) (snsUv : Nat) (s : State) : KeepsO s (execFptMeasure raw snsUv s) := by
  refine keepsO_live fun t => keeps_branch (.refl t) ?_
  extract_lets isOpen isShort s0 s1
  have h1 : Keeps t s1 := keeps_modFe <| keeps_State_wr _ _ _ (.refl t)
  exact keeps_branch (keeps_fptFault _ _ _ _ <| keeps_State_wrb _ _ _ _ h1) <|
    keeps_branch (keeps_fptFault _ _ _ _ <| keeps_State_wrb _ _ _ _ h1) <|
    keeps_State_wr _ _ _ <| keeps_State_wr _ _ _ <| keeps_fptConvert _ _ h1

/-! ## Commands of `Machine/Shutter.lean` -/

theorem keepsO_execShtPulseEnd (volts : BitVec 8) (s : State) : KeepsO s (execShtPulseEnd volts s) := by
  refine keepsO_live fun _ => ?_
  split
  · exact .refl _
  · exact keeps_seqTryOpen _ <| keeps_modPower <| keeps_modSht (.refl _)

theorem keepsO_execReservoirReady (s : State) : KeepsO s (execReservoirReady s) :=
  keepsO_next <| keeps_branch (.refl _) <|
    keeps_whenLive _ _ (fun _ => keeps_seqTryOpen _ (.refl _)) <| keeps_modSht <| keeps_modPower (.refl _)

theorem keepsO_execShtRecoverEnd (s : State) : KeepsO s (execShtRecoverEnd s) := by
  refine keepsO_live fun t => keeps_branch (.refl t) ?_
  extract_lets s1 s2
  have h1 : Keeps t s1 := keeps_modSht (.refl t)
  have h2 : Keeps t s2 := keeps_modNuc <| keeps_eventEnded _ _ h1
  exact keeps_branch (keeps_branch h2 <| keeps_State_modLane _ _ _ h2) h1

/-! ## Commands of `Machine/Pipeline.lean` -/

theorem keepsO_execNucCoefRead (m : Master) (s : State) : KeepsO s (execNucCoefRead m s) :=
  keepsO_live fun _ => keeps_branch (.refl _) <|
    keeps_gated _ _ _ (fun _ => keeps_State_resp _ _ _ _ <| keeps_coefReadEffect _ (.refl _)) <| keeps_flushPairs _ _ _ (.refl _)

theorem keepsO_execPipelineSample (code : BitVec 14) (clip : Bool) (ecc : List (Fin 4 × Bool)) (s : State) :
    KeepsO s (execPipelineSample code clip ecc s) := by
  refine keepsO_live fun _ => ?_
  split
  · exact .refl _
  · exact keeps_branch (keeps_pipelineSample _ _ _ _ _ (.refl _)) (.refl _)

/-! ## Commands of `Machine/Cells.lean` -/

theorem keepsO_execCellPop (i : Issue) (d : Fin 16) (slot : Fin 4) (s : State) : KeepsO s (execCellPop i d slot s) := by
  refine keepsO_cellIssue fun _ => keepsOut_branch keepsOut_fault ?_
  dsimp only
  split
  · exact keepsOut_done <| keeps_pumpPorts _ <| keeps_State_modCell _ _ _ (.refl _)
  · exact keepsOut_stallPop

theorem keepsO_execCellPush (i : Issue) (a : Fin 16) (slot : Fin 4) (e : Bool) (q : BitVec 2) (x : Bool) (s : State) :
    KeepsO s (execCellPush i a slot e q x s) :=
  keepsO_cellIssue fun _ => keepsOut_branch keepsOut_fault <|
    keepsOut_branch keepsOut_stallPush <|
    keepsOut_done <|
    keeps_foldl _ _ _ (fun _ _ => keeps_portPush _ _ _ (.refl _)) <|
    keeps_foldl _ _ _ (fun _ _ => keeps_deliver _ _ _ (.refl _)) (.refl _)

theorem keepsO_execCellDrop (i : Issue) (slot : Fin 4) (s : State) : KeepsO s (execCellDrop i slot s) :=
  keepsO_cellIssue fun _ => keepsOut_branch keepsOut_fault <| keepsOut_done <| keeps_pumpPorts _ <| keeps_State_modCell _ _ _ (.refl _)

theorem keepsO_execCellAvail (i : Issue) (d : Fin 16) (slot : Fin 4) (s : State) : KeepsO s (execCellAvail i d slot s) :=
  keepsO_cellIssue fun _ => keepsOut_branch keepsOut_fault <|
    keepsOut_done <| keeps_State_modCell _ _ _ <| keeps_availCount _ _ (.refl _)

theorem keepsO_execCellRds (i : Issue) (d : Fin 16) (sel : BitVec 3) (s : State) : KeepsO s (execCellRds i d sel s) := by
  refine keepsO_cellIssue fun _ => ?_
  dsimp only
  split
  · exact keepsOut_done <| keeps_State_modCell _ _ _ (.refl _)
  · exact keepsOut_done <| keeps_State_modCell _ _ _ (.refl _)
  · exact keepsOut_done <| keeps_State_modCell _ _ _ (.refl _)
  · exact keepsOut_done <| keeps_State_modCell _ _ _ (.refl _)
  · exact keepsOut_done <| keeps_State_modCell _ _ _ (.refl _)
  · exact keepsOut_done <| keeps_State_modCell _ _ _ (.refl _)
  · exact keepsOut_done <| keeps_State_modCell _ _ _ <| keeps_State_drawWord _ (.refl _)

theorem keepsO_execCellGpw (i : Issue) (a pin : Fin 16) (s : State) : KeepsO s (execCellGpw i a pin s) := by
  refine keepsO_cellIssue fun _ => ?_
  split
  · exact keepsOut_branch (keepsOut_done <| keeps_modFab (.refl _)) keepsOut_fault
  · exact keepsOut_fault

theorem keepsO_execCellMemAccess (m : Master) (wr : Bool) (addr : Word) (len : Nat) (data : List Byte) (s : State) :
    KeepsO s (execCellMemAccess m wr addr len data s) :=
  keepsO_live fun _ => keeps_branch (.refl _) <|
    keeps_gated _ _ _
        (fun _ =>
          keeps_branch (keeps_State_resp _ _ _ _ (.refl _)) <|
          keeps_branch (keeps_State_resp _ _ _ _ (.refl _)) <|
          keeps_branch (keeps_State_resp _ _ _ _ <| keeps_State_setBytes _ _ _ (.refl _)) <| keeps_State_resp _ _ _ _ (.refl _)) <|
    keeps_flushPairs _ _ _ (.refl _)

/-! ## Commands of `Machine/Ejection.lean` -/

theorem keepsO_execDecisionRecord (s : State) : KeepsO s (execDecisionRecord s) := by
  refine keepsO_live fun _ => ?_
  split
  · exact .refl _
  next hp => exact keeps_recordJudge _ _ <| keeps_releaseStalled _ _ _ <| keeps_tookPacket hp

theorem keepsO_execFireDue (port : Fin 4) (s : State) : KeepsO s (execFireDue port s) :=
  keepsO_live fun _ => keeps_branch (.refl _) <|
    keeps_ejTurn _ _ _
        (fun _ =>
          keeps_branch (keeps_State_modEjp _ _ _ <| keeps_State_bump _ _ _ _ _ (.refl _)) <|
          keeps_ejStart _ _ _ _ <| keeps_State_modEjp _ _ _ <| keeps_State_bump _ _ _ _ _ (.refl _)) <|
    .refl _

theorem keepsO_execSyncDue (port : Fin 4) (s : State) : KeepsO s (execSyncDue port s) :=
  keepsO_live fun _ =>
    keeps_branch (keeps_ejTurn _ _ _ (fun _ => keeps_branch (.refl _) <| keeps_ejStart _ _ _ _ (.refl _)) (.refl _)) (.refl _)

theorem keepsO_execStatusPoll (port : Fin 4) (s : State) : KeepsO s (execStatusPoll port s) :=
  keepsO_live fun _ => keeps_branch (.refl _) <|
    keeps_ejTurn _ _ _ (fun _ => keeps_branch (.refl _) <| keeps_ejStart _ _ _ _ (.refl _)) (.refl _)

theorem keepsO_execLinkOpenProbe (port : Fin 4) (s : State) : KeepsO s (execLinkOpenProbe port s) := by
  refine keepsO_live fun _ => ?_
  dsimp only
  split
  · exact keeps_ejTurn _ _ _ (fun _ => keeps_ejStart _ _ _ _ (.refl _)) (.refl _)
  · exact keeps_branch (keeps_ejTurn _ _ _ (fun _ => .refl _) (.refl _)) (.refl _)
  · exact .refl _

theorem keepsO_execFireAck (port : Fin 4) (seq : Byte) (res : List Byte) (conf : List EjConf) (s : State) :
    KeepsO s (execFireAck port seq res conf s) :=
  keepsO_live fun _ =>
    keeps_ejAnswer _ _ _ _ _
        (fun _ _ =>
          keeps_foldl _ _ _ (fun _ _ => keeps_confOne _ _ _ (.refl _)) <|
          keeps_fireResults _ _ _ _ _ <| keeps_branch (.refl _) <| keeps_ejViolation _ _ (.refl _)) <|
    .refl _

theorem keepsO_execStatusFrame (port : Fin 4) (seq nvalves flags : Byte) (conf : List EjConf) (s : State) :
    KeepsO s (execStatusFrame port seq nvalves flags conf s) :=
  keepsO_live fun _ =>
    keeps_ejAnswer _ _ _ _ _
        (fun _ _ =>
          keeps_foldl _ _ _ (fun _ _ => keeps_confOne _ _ _ (.refl _)) <|
          keeps_State_modEjp _ _ _ <|
          keeps_branch (keeps_State_bump _ _ _ _ _ <| keeps_branch (keeps_State_modEjp _ _ _ (.refl _)) (.refl _)) <|
          keeps_branch (keeps_State_modEjp _ _ _ (.refl _)) (.refl _)) <|
    .refl _

theorem keepsO_execEjNoconf (port : Fin 4) (id : Half) (s : State) : KeepsO s (execEjNoconf port id s) := by
  refine keepsO_live fun _ => ?_
  dsimp only
  split
  · exact .refl _
  · exact keeps_branch (.refl _) <| keeps_raise _ _ _ _ <| keeps_State_modEjp _ _ _ <| keeps_State_bump _ _ _ _ _ (.refl _)

theorem keepsO_execSyncRsp (port : Fin 4) (seq : Byte) (t2 t3 : Word) (t4 : CTime) (s : State) :
    KeepsO s (execSyncRsp port seq t2 t3 t4 s) :=
  keepsO_live fun _ =>
    keeps_ejAnswer _ _ _ _ _
        (fun _ _ =>
          keeps_branch (keeps_ejViolation _ _ <| keeps_State_modEjp _ _ _ (.refl _)) <|
          keeps_branch
              (keeps_branch (keeps_ejDown _ _ _ <| keeps_State_modEjp _ _ _ (.refl _)) <| keeps_State_modEjp _ _ _ (.refl _)) <|
          keeps_pairAccept _ _ _ _ (.refl _)) <|
    .refl _

/-! ## Commands of `Machine/KeyStore.lean` -/

theorem keepsO_execKeyRemask (s : State) : KeepsO s (execKeyRemask s) :=
  keepsO_live fun _ => keeps_branch (keeps_State_wrb _ _ _ _ <| keeps_modFree <| keeps_modKey (.refl _)) <|
    keeps_branch (.refl _) <| keeps_raise _ _ _ _ <| keeps_State_wrb _ _ _ _ (.refl _)

/-! ## Commands of `Machine/Link.lean` -/

theorem keepsO_execSignalLost (p : Fin 2) (s : State) : KeepsO s (execSignalLost p s) :=
  keepsO_live fun _ => keeps_branch
      (keeps_State_modFrl _ _ _ <| keeps_State_bump _ _ _ _ _ <| keeps_setFrlState _ _ _ (.refl _)) <|
    .refl _

theorem keepsO_execTrainReceived (p : Fin 2) (letter state : Byte) (s : State) : KeepsO s (execTrainReceived p letter state s) :=
  keepsO_live fun _ =>
    keeps_branch (keeps_branch (keeps_raise _ _ _ _ <| keeps_setFrlState _ _ _ (.refl _)) <| keeps_trainStep _ _ _ (.refl _)) (.refl _)

theorem keepsO_execAck (p : Fin 2) (s0 s1 chk : Byte) (s : State) : KeepsO s (execAck p s0 s1 chk s) :=
  keepsO_live fun _ => keeps_branch (.refl _) <|
    keeps_branch (keeps_State_bump _ _ _ _ _ (.refl _)) <| keeps_pumpPort _ _ <| keeps_ackFrames _ _ _ (.refl _)

theorem keepsO_execNak (p : Fin 2) (s0 s1 chk : Byte) (s : State) : KeepsO s (execNak p s0 s1 chk s) :=
  keepsO_live fun _ => keeps_branch (.refl _) <|
    keeps_branch (keeps_State_bump _ _ _ _ _ (.refl _)) <|
    keeps_branch (keeps_State_modFrl _ _ _ <| keeps_ackFrames _ _ _ (.refl _)) <|
    keeps_branch (keeps_pumpPort _ _ <| keeps_ackFrames _ _ _ (.refl _)) <| keeps_replay _ _ <| keeps_ackFrames _ _ _ (.refl _)

theorem keepsO_execFrameHeader (p : Fin 2) (hdr : List Byte) (stamp : DWord) (s : State) :
    KeepsO s (execFrameHeader p hdr stamp s) := by
  refine keepsO_live fun t => keeps_branch (.refl t) ?_
  extract_lets u
  have hu : Keeps t u := keeps_State_modFrl _ _ _ <| keeps_abortCut _ _ (.refl t)
  exact keeps_branch (keeps_sendNak _ _ <| keeps_State_bump _ _ _ _ _ hu) <|
    keeps_branch (keeps_acceptHeader _ _ _ _ hu) <| keeps_branch (keeps_sendAck _ _ hu) <| keeps_sendNak _ _ hu

theorem keepsO_execFrameEnd (p : Fin 2) (payload : List Byte) (fcs : Word) (eof fault : Bool) (s : State) :
    KeepsO s (execFrameEnd p payload fcs eof fault s) := by
  refine keepsO_live fun _ => ?_
  split
  · exact .refl _
  · exact keeps_branch (keeps_acceptEnd _ _ _ _ _ (.refl _)) <|
      keeps_sendNak _ _ <| keeps_State_modFrl _ _ _ <| keeps_abortCut _ _ <| keeps_State_bump _ _ _ _ _ (.refl _)

/-! ## Commands of `Machine/Setup.lean` -/

theorem keepsO_execSetupChallenge (p : Fin 2) (s : State) : KeepsO s (execSetupChallenge p s) := by
  refine keepsO_live fun _ => keeps_branch (.refl _) ?_
  split
  · exact .refl _
  next hp =>
    exact keeps_branch (keeps_State_bump _ _ _ _ _ <| keeps_tookSetup hp) <|
      keeps_branch (keeps_sendSetup _ _ _ _ <| keeps_tookSetup hp) <|
      keeps_branch (keeps_sendSetup _ _ _ _ <| keeps_tookSetup hp) <|
      keeps_sendSetup _ _ _ _ <| keeps_putSetup _ _ <| keeps_ephemeral _ <| keeps_State_drawBytes _ _ <| keeps_tookSetup hp

theorem keepsO_execSetupResponse (p : Fin 2) (s : State) : KeepsO s (execSetupResponse p s) := by
  refine keepsO_live fun _ => keeps_branch (.refl _) ?_
  split
  · exact .refl _
  next hp =>
    dsimp only
    split
    · exact keeps_tookSetup hp
    · refine keeps_branch (keeps_abandonSetup _ _ <| keeps_tookSetup hp) <|
        keeps_branch (keeps_membershipFail _ _ <| keeps_tookSetup hp) <| keeps_branch (keeps_abandonSetup _ _ <| keeps_tookSetup hp) ?_
      split
      · exact keeps_membershipFail _ _ <| keeps_ephemeral _ <| keeps_tookSetup hp
      · exact keeps_sendSetup _ _ _ _ <|
          keeps_restartPseq _ _ _ <| keeps_putSetup _ _ <| keeps_fillKey _ _ _ _ _ _ <| keeps_ephemeral _ <| keeps_tookSetup hp

theorem keepsO_execSetupConfirm (p : Fin 2) (s : State) : KeepsO s (execSetupConfirm p s) := by
  refine keepsO_live fun _ => keeps_branch (.refl _) ?_
  split
  · exact .refl _
  next hp =>
    dsimp only
    split
    · exact keeps_tookSetup hp
    · refine keeps_branch (keeps_membershipFail _ _ <| keeps_tookSetup hp) ?_
      split
      · exact keeps_membershipFail _ _ <| keeps_tookSetup hp
      · exact keeps_sendSetup _ _ _ _ <|
          keeps_modMet <| keeps_restartPseq _ _ _ <| keeps_setSess _ _ _ <| keeps_dropSetup _ _ _ <| keeps_tookSetup hp

theorem keepsO_execSetupDone (p : Fin 2) (s : State) : KeepsO s (execSetupDone p s) := by
  refine keepsO_live fun r => keeps_branch (.refl r) ?_
  split
  · exact .refl r
  next f t hp =>
    have ht : Keeps r t := keeps_tookSetup hp
    extract_lets pathB
    split
    · exact ht
    next x _ =>
      refine keeps_branch ht <| keeps_branch (keeps_membershipFail _ _ ht) ?_
      extract_lets t1 t2
      have h1 : Keeps r t1 := keeps_modMet <| keeps_dropSetup _ _ _ ht
      have h2 : Keeps r t2 := keeps_branch (keeps_setLane _ _ _ _ h1) h1
      exact keeps_branch (keeps_modFw h2) h2

theorem keepsO_execSetupTimeout (pos : BitVec 8) (pathB : Bool) (s : State) : KeepsO s (execSetupTimeout pos pathB s) := by
  refine keepsO_live fun _ => ?_
  split
  · exact keeps_abandonSetup _ _ (.refl _)
  · exact .refl _

theorem keepsO_execSetupRetry (pos : BitVec 8) (pathB : Bool) (s : State) : KeepsO s (execSetupRetry pos pathB s) := by
  refine keepsO_live fun _ => keeps_branch (.refl _) ?_
  split
  · exact keeps_startSetup _ _ _ _ <| keeps_modKey (.refl _)
  · exact .refl _

/-! ## Commands of `Machine/Ring.lean` -/

theorem keepsO_execTime (p : Fin 2) (s : State) : KeepsO s (execTime p s) := by
  refine keepsO_live fun _ => ?_
  split
  · exact .refl _
  next hp =>
    exact keeps_branch (keeps_modRing <| keeps_tookLink hp) <|
      keeps_branch (keeps_sendOn _ _ _ _ _ <| keeps_tookLink hp) <|
      keeps_branch (keeps_correctTime _ _ <| keeps_noteTime _ _ _ _ <| keeps_sendOn _ _ _ _ _ <| keeps_tookLink hp) <|
      keeps_noteTime _ _ _ _ <| keeps_sendOn _ _ _ _ _ <| keeps_tookLink hp

theorem keepsO_execTimeSourceSwitch (s : State) : KeepsO s (execTimeSourceSwitch s) := by
  refine keepsO_live fun _ => keeps_branch (.refl _) ?_
  split
  · exact keeps_branch (keeps_State_wrf _ _ _ _ _ <| keeps_State_wrf _ _ _ _ _ (.refl _)) (.refl _)
  · exact .refl _

theorem keepsO_execTimePeriod (s : State) : KeepsO s (execTimePeriod s) :=
  keepsO_live fun _ =>
    keeps_branch
        (keeps_modRing <|
          keeps_foldl _ _ _ (fun _ _ => keeps_branch (keeps_sendTime _ _ (.refl _)) (.refl _)) <|
          keeps_checkReturn _ _ <| keeps_checkReturn _ _ (.refl _)) <|
    .refl _

theorem keepsO_execPdelayReq (p : Fin 2) (s : State) : KeepsO s (execPdelayReq p s) := by
  refine keepsO_live fun _ => ?_
  split
  · exact .refl _
  next hp => exact keeps_sendOn _ _ _ _ _ <| keeps_tookLink hp

theorem keepsO_execPdelayRsp (p : Fin 2) (s : State) : KeepsO s (execPdelayRsp p s) := by
  refine keepsO_live fun _ => ?_
  split
  · exact .refl _
  next hp => exact keeps_branch (keeps_tookLink hp) <| keeps_State_wr _ _ _ <| keeps_State_modFrl _ _ _ <| keeps_tookLink hp

theorem keepsO_execEnum (p : Fin 2) (s : State) : KeepsO s (execEnum p s) := by
  refine keepsO_live fun _ => ?_
  split
  · exact .refl _
  next hp =>
    exact keeps_branch
        (keeps_branch (keeps_sendOn _ _ _ _ _ <| keeps_tookLink hp) <| keeps_enumManager _ _ _ _ <| keeps_tookLink hp) <|
      keeps_enumNode _ _ _ _ <| keeps_tookLink hp

theorem keepsO_execEnumRound (s : State) : KeepsO s (execEnumRound s) := by
  refine keepsO_live fun _ => keeps_branch (.refl _) ?_
  split
  · exact keeps_branch (keeps_startEnum _ (.refl _)) (.refl _)
  · exact keeps_enumEvaluate _ <| keeps_sendRound _ _ <| keeps_modRing (.refl _)

theorem keepsO_execAssign (p : Fin 2) (s : State) : KeepsO s (execAssign p s) := by
  refine keepsO_live fun _ => ?_
  split
  · exact .refl _
  next hp =>
    exact keeps_branch (keeps_takePosition _ _ <| keeps_tookLink hp) <|
      keeps_branch (keeps_tookLink hp) <|
      keeps_branch (keeps_takePosition _ _ <| keeps_sendOn _ _ _ _ _ <| keeps_tookLink hp) <|
      keeps_sendOn _ _ _ _ _ <| keeps_tookLink hp

/-! ## Commands of `Machine/Visible.lean` -/

theorem keepsO_execVisLockLost (s : State) : KeepsO s (execVisLockLost s) :=
  keepsO_live fun _ =>
    keeps_branch
        (keeps_raise _ _ _ _ <|
          keeps_State_bump _ _ _ _ _ <|
          keeps_State_wrb _ _ _ _ <| keeps_branch (keeps_visLineLost _ (.refl _)) <| keeps_modVis (.refl _)) <|
    .refl _

theorem keepsO_execVisLineEnd (clocks : List PixClock) (s : State) : KeepsO s (execVisLineEnd clocks s) := by
  refine keepsO_live fun _ => ?_
  split
  · exact .refl _
  · exact keeps_branch (keeps_visAccept _ _ _ (.refl _)) <|
      keeps_branch (keeps_State_bump _ _ _ _ _ <| keeps_visLineLost _ (.refl _)) <|
      keeps_raise _ _ _ _ <| keeps_modVis <| keeps_State_bump _ _ _ _ _ <| keeps_visLineLost _ (.refl _)

theorem keepsO_execVisTrigger (high : Bool) (s : State) : KeepsO s (execVisTrigger high s) :=
  keepsO_live fun _ => keeps_branch (.refl _) <|
    keeps_branch (keeps_modVis (.refl _)) <| keeps_branch (keeps_modVis (.refl _)) (.refl _)

/-! ## Commands of `Machine/Choreo.lean` -/

theorem keepsO_execTallyEntry (s : State) : KeepsO s (execTallyEntry s) := by
  refine keepsO_live fun _ => ?_
  split
  next hp =>
    exact keeps_branch (keeps_State_wr64 _ _ _ _ <| keeps_tookPacket hp) <|
      keeps_raise _ _ _ _ <| keeps_State_bump _ _ _ _ _ <| keeps_tookPacket hp
  next hp => exact keeps_tookPacket hp

theorem keepsO_execCheckPassDone (failed : Bool) (s : State) : KeepsO s (execCheckPassDone failed s) := by
  refine keepsO_live fun _ => ?_
  split
  · refine keeps_branch (keeps_loadAbandoned _ (.refl _)) <| keeps_branch (keeps_branch (keeps_loadEnd _ _ _ (.refl _)) ?_) (.refl _)
    split
    · exact keeps_checkPassed _ _ _ (.refl _)
    · exact keeps_loadEnd _ _ _ (.refl _)
  · exact .refl _

theorem keepsO_execApplyDone (failed : Bool) (s : State) : KeepsO s (execApplyDone failed s) := by
  refine keepsO_live fun _ => ?_
  split
  · refine keeps_branch (keeps_branch (keeps_applyFailed _ _ (.refl _)) ?_) (.refl _)
    split
    · exact keeps_applyPassed _ _ _ (.refl _)
    · exact keeps_applyFailed _ _ (.refl _)
  · exact .refl _

theorem keepsO_execDrainEnd (s : State) : KeepsO s (execDrainEnd s) := by
  refine keepsO_live fun _ => ?_
  split
  · exact keeps_branch (keeps_applyBegins _ _ (.refl _)) (.refl _)
  · exact keeps_branch (keeps_unloadDone _ _ (.refl _)) (.refl _)
  · exact .refl _

/-! ## Commands of `Machine/Pavane.lean` -/

theorem keepsO_execTamperSensor (sensor : Fin 6) (s : State) : KeepsO s (execTamperSensor sensor s) :=
  keepsO_next <| keeps_branch (.refl _) <|
    keeps_branch (.refl _) <|
    keeps_branch
        (keeps_eraseResponse _ _ <| keeps_State_wrb _ _ _ _ <| keeps_branch (keeps_modPav (.refl _)) (.refl _)) <|
    keeps_alertResponse _ _ <| keeps_branch (keeps_modPav (.refl _)) (.refl _)

theorem keepsO_execRngWindow (pass : Bool) (s : State) : KeepsO s (execRngWindow pass s) := by
  refine keepsO_live fun t => keeps_branch (.refl t) <| keeps_branch (keeps_State_wrf _ _ _ _ _ <| keeps_modPav (.refl t)) ?_
  extract_lets n s1
  have h1 : Keeps t s1 := keeps_State_bump _ _ _ _ _ <| keeps_modPav (.refl t)
  exact keeps_branch (keeps_raise _ _ _ _ <| keeps_State_wrf _ _ _ _ _ h1) h1

/-! ## Commands of `Machine/Plant.lean` -/

theorem keepsO_execStatementResend (s : State) : KeepsO s (execStatementResend s) := by
  refine keepsO_live fun _ => ?_
  split
  · exact .refl _
  · exact keeps_modHost <| keeps_sendSet _ _ _ _ (.refl _)

theorem keepsO_execArpRequest (ip : Word) (s : State) : KeepsO s (execArpRequest ip s) := by
  refine keepsO_live fun _ => ?_
  split
  · exact keeps_branch (keeps_State_emit _ _ (.refl _)) (.refl _)
  · exact .refl _

theorem keepsO_execArpRefresh (s : State) : KeepsO s (execArpRefresh s) := by
  refine keepsO_live fun _ => ?_
  split
  · exact keeps_branch (keeps_State_emit _ _ (.refl _)) (.refl _)
  · exact .refl _

theorem keepsO_execArpReply (ip : Word) (s : State) : KeepsO s (execArpReply ip s) := by
  refine keepsO_live fun _ => ?_
  split
  · exact keeps_branch
        (keeps_foldl _ _ _ (fun _ _ => keeps_sendDatagram _ _ (.refl _)) <| keeps_modHost <| keeps_State_wrb _ _ _ _ (.refl _)) <|
      .refl _
  · exact .refl _

theorem keepsO_execPlantNoarp (s : State) : KeepsO s (execPlantNoarp s) := by
  refine keepsO_live fun _ => ?_
  split
  · exact .refl _
  · exact keeps_raise _ _ _ _ <| keeps_State_bump _ _ _ _ _ <| keeps_modHost (.refl _)

theorem keepsO_execIcmpEcho (data : List Byte) (s : State) : KeepsO s (execIcmpEcho data s) :=
  keepsO_live fun _ =>
    keeps_branch (keeps_branch (keeps_State_emit _ _ <| keeps_modHost (.refl _)) <| keeps_State_bump _ _ _ _ _ (.refl _)) (.refl _)

theorem keepsO_execPlantLinkUp (s : State) : KeepsO s (execPlantLinkUp s) := by
  refine keepsO_live fun t => keeps_branch ?_ (.refl t)
  extract_lets s1
  have h1 : Keeps t s1 := keeps_State_wrb _ _ _ _ <| keeps_State_wrb _ _ _ _ (.refl t)
  split
  · exact keeps_State_emit _ _ h1
  · exact h1

theorem keepsO_execPlantLinkDown (s : State) : KeepsO s (execPlantLinkDown s) :=
  keepsO_live fun _ => keeps_branch (keeps_raise _ _ _ _ <| keeps_State_wrb _ _ _ _ <| keeps_State_wrb _ _ _ _ (.refl _)) (.refl _)

/-! ## Commands of `Machine/Metering.lean` -/

theorem keepsO_execDeltaReport (s : State) : KeepsO s (execDeltaReport s) :=
  keepsO_live fun _ => keeps_branch (.refl _) <|
    keeps_branch (keeps_takeAck _ _ <| keeps_applyReport _ _ _ <| keeps_State_wr _ _ _ <| keeps_modMet (.refl _)) <|
    keeps_startTxn _ _ _ _ _ <| keeps_State_wr _ _ _ <| keeps_modMet (.refl _)

theorem keepsO_execDeltaReportApply (p : Fin 2) (s : State) : KeepsO s (execDeltaReportApply p s) := by
  refine keepsO_live fun _ => keeps_branch (.refl _) ?_
  split
  · exact .refl _
  next hp =>
    split
    next ha => exact keeps_admitted hp ha
    next ha => exact keeps_respondTxn _ _ _ _ <| keeps_applyReport _ _ _ <| keeps_admitted hp ha

theorem keepsO_execDeltaAck (p : Fin 2) (s : State) : KeepsO s (execDeltaAck p s) := by
  refine keepsO_live fun _ => ?_
  split
  · exact .refl _
  next hp => exact keeps_takeAck _ _ <| keeps_modRing <| keeps_tookFrame hp

theorem keepsO_execPersistenceRound (s : State) : KeepsO s (execPersistenceRound s) := by
  refine keepsO_live fun _ => keeps_branch (.refl _) <| keeps_modMet <| keeps_foldl _ _ _ (fun _ _ => ?_) (.refl _)
  split
  · exact keeps_branch (keeps_accWrite _ _ _ (.refl _)) (.refl _)
  · exact .refl _

/-! ## Commands of `Machine/EngineQueue.lean` -/

theorem keepsO_execDescriptorComplete (eng : Fin 3) (s : State) : KeepsO s (execDescriptorComplete eng s) := by
  refine keepsO_live fun _ => ?_
  split
  · exact keeps_completeDesc _ _ _ _ (.refl _)
  · exact keeps_branch (.refl _) <| keeps_completeDesc _ _ _ _ (.refl _)
  · exact .refl _

/-! ## Commands of `Machine/Acsis.lean` -/

theorem keepsO_execAcsPick (s : State) : KeepsO s (execAcsPick s) := by
  refine keepsO_acsRow fun _ _ _ => ?_
  split
  · exact keeps_acsPush _ _ _ (.refl _)
  · exact keepsA_trap

theorem keepsO_execAcsStw (s : State) : KeepsO s (execAcsStw s) :=
  keepsO_acsRow fun _ _ _ => keeps_acsPop2 _ _ fun _ _ _ => keepsA_branch (keepsA_go <| keeps_acsStore _ _ _ _ (.refl _)) keepsA_trap

theorem keepsO_execAcsStb (s : State) : KeepsO s (execAcsStb s) :=
  keepsO_acsRow fun _ _ _ => keeps_acsPop2 _ _ fun _ _ _ => keepsA_branch (keepsA_go <| keeps_acsStore _ _ _ _ (.refl _)) keepsA_trap

theorem keepsO_execAcsRet (s : State) : KeepsO s (execAcsRet s) := by
  refine keepsO_acsRow fun _ _ _ => ?_
  split
  · exact keepsA_stop (.refl _)
  · exact keeps_acsJump _ _ _ (.refl _)

theorem keepsO_execAcsBadOpcode (s : State) : KeepsO s (execAcsBadOpcode s) := by
  refine keepsO_live fun _ => ?_
  split
  · exact .refl _
  · exact keeps_branch (keeps_acsTrap _ _ _ (.refl _)) <|
      keeps_branch (keeps_branch (.refl _) <| keeps_acsTrap _ _ _ (.refl _)) <| keeps_branch (.refl _) <| keeps_acsTrap _ _ _ (.refl _)

theorem keepsO_execAcsRaiseFloor (s : State) : KeepsO s (execAcsRaiseFloor s) :=
  keepsO_acsSys fun _ _ => keeps_acsPop2 _ _ fun _ _ _ => keepsA_branch (keeps_acsPush _ _ _ (.refl _)) <|
    keeps_acsPush _ _ _ <| keeps_raiseCounter _ _ _ (.refl _)

theorem keepsO_execAcsHmac (s : State) : KeepsO s (execAcsHmac s) := by
  refine keepsO_acsSys fun _ _ => keeps_acsPop3 _ _ fun _ _ _ _ => keepsA_branch keepsA_trap ?_
  dsimp only
  split
  · exact keeps_acsPush _ _ _ (.refl _)
  · exact keeps_acsPush _ _ _ <| keeps_acsStore _ _ _ _ (.refl _)

theorem keepsO_execAcsRandom (s : State) : KeepsO s (execAcsRandom s) :=
  keepsO_acsSys fun _ _ => keepsA_branch (keeps_acsPush _ _ _ <| keeps_State_drawWord _ (.refl _)) <|
    keepsA_branch keepsA_trap keepsA_wait

theorem keepsO_execRngRequestTimeout (s : State) : KeepsO s (execRngRequestTimeout s) := by
  refine keepsO_live fun _ => keeps_branch (.refl _) ?_
  split
  · refine keeps_branch (keeps_setEngOut _ _ _ (.refl _)) ?_
    split
    · exact keeps_branch (keeps_acsTrap _ _ _ (.refl _)) (.refl _)
    · exact .refl _
  · split
    · exact keeps_branch (keeps_acsTrap _ _ _ (.refl _)) (.refl _)
    · exact .refl _

theorem keepsO_execAcsOut (s : State) : KeepsO s (execAcsOut s) :=
  keepsO_acsSys fun _ _ => keepsA_branch keepsA_trap <|
    keeps_acsPop2 _ _ fun _ _ _ => keepsA_branch (keeps_acsPush _ _ _ (.refl _)) <|
    keepsA_branch keepsA_trap <| keeps_acsPush _ _ _ (.refl _)

theorem keepsO_execAcsLoadInfo (s : State) : KeepsO s (execAcsLoadInfo s) := by
  refine keepsO_acsSys fun _ _ => keepsA_branch keepsA_trap ?_
  split
  · exact keeps_acsPush _ _ _ (.refl _)
  · exact keeps_acsPush _ _ _ (.refl _)

theorem keepsO_execHookTick (slot : Fin 8) (s : State) : KeepsO s (execHookTick slot s) := by
  refine keepsO_live fun _ => keeps_branch (.refl _) ?_
  split
  · split
    · exact keeps_branch (.refl _) <| keeps_startHook _ _ _ (.refl _)
    · exact .refl _
  · exact keeps_branch (keeps_takeHook _ _ (.refl _)) <| keeps_tickWaits _ _ (.refl _)
  · exact keeps_tickWaits _ _ (.refl _)

/-! ## Commands of `Machine/Loops.lean` -/

theorem keepsO_execLoopMeasure (n : Fin 2) (ua : BitVec 15) (s : State) : KeepsO s (execLoopMeasure n ua s) := by
  refine keepsO_live fun t => ?_
  extract_lets s1 low e short fine s2
  have h1 : Keeps t s1 := keeps_State_wr _ _ _ (.refl t)
  have h2 : Keeps t s2 := keeps_State_modLoop _ _ _ h1
  exact keeps_branch (keeps_State_modLoop _ _ _ h1) <|
    keeps_branch (keeps_raise _ _ _ _ <| keeps_State_wrb _ _ _ _ <| keeps_State_wrb _ _ _ _ h2) <|
    keeps_branch (keeps_State_wrb _ _ _ _ <| keeps_State_wrb _ _ _ _ h2) h2

/-! ## Commands of `Machine/Tenant.lean` -/

theorem keepsO_execTenantKeyDelivery (p : Fin 2) (s : State) : KeepsO s (execTenantKeyDelivery p s) := by
  refine keepsO_live fun _ => keeps_branch (.refl _) ?_
  split
  · exact .refl _
  next hp =>
    split
    next ha => exact keeps_admitted hp ha
    next ha =>
      split
      · exact keeps_respondTxn _ _ _ _ <| keeps_admitted hp ha
      · split
        next hr => exact keeps_respondTxn _ _ _ _ <| keeps_installTenant _ _ _ _ _ (keeps_admitted hp ha) _ hr
        · exact keeps_respondTxn _ _ _ _ <| keeps_admitted hp ha

/-! ## Commands of `Machine/Rows.lean` -/

theorem keepsO_execRowBoundary (s : State) : KeepsO s (execRowBoundary s) := by
  refine keepsO_live fun _ => keeps_branch (.refl _) ?_
  split
  · exact keeps_rowStart _ _ <| keeps_frameSettings _ (.refl _)
  · exact keeps_branch (.refl _) <|
      keeps_branch (keeps_rowStart _ _ <| keeps_calRow _ (.refl _)) <|
      keeps_branch (keeps_rowStart _ _ <| keeps_frameSettings _ <| keeps_frameEnd _ <| keeps_calRow _ (.refl _)) <|
      keeps_feStops _ <| keeps_frameSettings _ <| keeps_frameEnd _ <| keeps_calRow _ (.refl _)

/-! ## Commands of `Machine/ErrCtl.lean` -/

theorem keepsO_execErrReport (p : Fin 2) (s : State) : KeepsO s (execErrReport p s) := by
  refine keepsO_live fun _ => keeps_branch (.refl _) ?_
  split
  · exact .refl _
  next hp =>
    split
    next ha => exact keeps_admitted hp ha
    next ha =>
      exact keeps_respondTxn _ _ _ _ <|
        keeps_reportAction _ _ _ <| keeps_reportEvent _ _ _ <| keeps_errLog _ _ _ <| keeps_admitted hp ha

/-! ## Commands of `Machine/Firmware.lean` -/

theorem keeps_execChunkSend_openDue {z0 : State} (s : State) (hk : Keeps z0 s) : Keeps z0 (execChunkSend.openDue s) := by
  unfold execChunkSend.openDue
  split
  · exact hk
  · refine keeps_branch ?_ <| keeps_branch (keeps_openLoad _ _ _ _ _ hk) hk
    extract_lets fresh rest s1
    have h1 : Keeps z0 s1 := keeps_foldl _ _ _ (fun _ _ => keeps_sendFwQuery _ _ _ (.refl _)) <| keeps_modFw hk
    exact keeps_branch h1 <| keeps_openLoad _ _ _ _ _ h1

theorem keepsO_execChunkSend (s : State) : KeepsO s (execChunkSend s) := by
  refine keepsO_live fun _ => keeps_branch (.refl _) ?_
  split
  · split
    · exact .refl _
    · split
      · exact .refl _
      · exact .refl _
      · exact keeps_branch (keeps_askAll _ _ <| keeps_sendChunk _ _ _ _ (.refl _)) <|
          keeps_putLoad _ _ <| keeps_sendChunk _ _ _ _ (.refl _)
      · split
        · exact keeps_branch (keeps_askAll _ _ <| keeps_sendRepair _ _ _ _ _ (.refl _)) <|
            keeps_putLoad _ _ <| keeps_sendRepair _ _ _ _ _ (.refl _)
        · exact keeps_askAll _ _ (.refl _)
  · split
    · exact keeps_branch (keeps_branch (keeps_armSwitch _ _ _ (.refl _)) <| keeps_openLoad _ _ _ _ _ (.refl _)) <|
        keeps_execChunkSend_openDue _ (.refl _)
    · exact keeps_execChunkSend_openDue _ (.refl _)

theorem keepsO_execCopyDone (s : State) : KeepsO s (execCopyDone s) := by
  refine keepsO_live fun r => ?_
  split
  · refine keeps_branch (.refl r) ?_
    split
    next t hs => exact keeps_cancelSwitch _ <| keeps_of_eq hs <| keeps_checkStaging _ (.refl r)
    next t hs =>
      have ht : Keeps r t := keeps_of_eq hs <| keeps_checkStaging _ (.refl r)
      split
      · exact keeps_cancelSwitch _ <| keeps_raise _ _ _ _ ht
      · split
        next hc => exact keeps_setSwitch _ _ <| keeps_modBoot _ _ <| keeps_of_eq hc <| keeps_copyToSlot _ _ _ ht
        next hc => exact keeps_cancelSwitch _ <| keeps_raise _ _ _ _ <| keeps_of_eq hc <| keeps_copyToSlot _ _ _ ht
  · exact .refl r

theorem keepsO_execSwitchCommit (s : State) : KeepsO s (execSwitchCommit s) := by
  refine keepsO_live fun _ => ?_
  split
  · exact keeps_branch (.refl _) <|
      keeps_branch (keeps_cancelSwitch _ (.refl _)) <|
      keeps_branch (keeps_commitSwitch _ _ (.refl _)) <|
      keeps_foldl _ _ _ (fun _ _ => keeps_sendFwQuery _ _ _ (.refl _)) <| keeps_setSwitch _ _ (.refl _)
  · exact .refl _

theorem keepsO_execHealthCheck (s : State) : KeepsO s (execHealthCheck s) :=
  keepsO_live fun _ => keeps_branch (.refl _) <|
    keeps_branch (keeps_branch (keeps_fwConfirmEffect _ _ <| keeps_modFw (.refl _)) <| keeps_modFw (.refl _)) <| keeps_modFw (.refl _)

/-! ## Commands of `Machine/Feature.lean` -/

theorem keepsO_execFeatureSend (s : State) : KeepsO s (execFeatureSend s) := by
  refine keepsO_live fun _ => ?_
  split
  · exact .refl _
  next hp =>
    refine keeps_branch (keeps_featureOut _ _ _ <| keeps_tookPacket hp) ?_
    split
    · exact keeps_branch (keeps_State_bump _ _ _ _ _ <| keeps_tookPacket hp) <|
        keeps_modRing <| keeps_sendParts _ _ _ _ <| keeps_tookPacket hp
    · exact keeps_State_bump _ _ _ _ _ <| keeps_tookPacket hp

theorem keepsO_execFeature (p : Fin 2) (s : State) : KeepsO s (execFeature p s) := by
  refine keepsO_live fun _ => keeps_branch (.refl _) ?_
  split
  next hp => exact keeps_joinPart _ _ _ <| keeps_tookFrame hp
  · exact .refl _

/-! ## Commands of `Machine/Power.lean` -/

theorem keepsO_execDbgLevelWrite (secure : Bool) (s : State) : KeepsO s (execDbgLevelWrite secure s) :=
  keepsO_live fun _ => keeps_branch (.refl _) <|
    keeps_branch (keeps_openDebug _ _ (.refl _)) <|
    keeps_branch (.refl _) <| keeps_State_emit _ _ <| keeps_modPav <| keeps_State_drawBytes _ _ (.refl _)

theorem keepsO_execDbgSignature (lulomus owner : List Byte) (s : State) : KeepsO s (execDbgSignature lulomus owner s) := by
  refine keepsO_live fun _ => ?_
  split
  · exact .refl _
  · exact keeps_branch (keeps_openDebug _ _ <| keeps_modPav (.refl _)) <|
      keeps_raise _ _ _ _ <|
      keeps_branch (keeps_State_wrb _ _ _ _ <| keeps_modPav <| keeps_modPav (.refl _)) <| keeps_modPav <| keeps_modPav (.refl _)

theorem keepsO_execPllLock (s : State) : KeepsO s (execPllLock s) :=
  keepsO_next <| keeps_branch
      (keeps_setBank _ _ _ <| keeps_setBank _ _ _ <| keeps_modPower <| keeps_State_wrf _ _ _ _ _ <| keeps_State_wrf _ _ _ _ _ (.refl _)) <|
    .refl _

theorem keepsO_execPorRelease (role : BitVec 2) (recover : Bool) (s : State) : KeepsO s (execPorRelease role recover s) :=
  keepsO_next <| keeps_branch
      (keeps_releaseReset _ _ _ <| keeps_modPower <| keeps_branch (keeps_State_wrf _ _ _ _ _ (.refl _)) (.refl _)) <|
    .refl _

theorem keepsO_execBankDisable (bank : Fin 2) (s : State) : KeepsO s (execBankDisable bank s) :=
  keepsO_next <| keeps_branch (.refl _) <|
    keeps_branch (keeps_whenLive _ _ (fun _ => keeps_bank1Lost _ (.refl _)) <| keeps_setBank _ _ _ (.refl _)) <|
    keeps_branch (keeps_State_wrb _ _ _ _ <| keeps_powerOnReset _ _ _ <| keeps_setBank _ _ _ (.refl _)) <| keeps_setBank _ _ _ (.refl _)

theorem keepsO_execRegulatorFault (rail : Fin 3) (s : State) : KeepsO s (execRegulatorFault rail s) :=
  keepsO_next <| keeps_branch (.refl _) <|
    keeps_State_wrb _ _ _ _ <| keeps_State_wrf _ _ _ _ _ <| keeps_banksOff _ <| keeps_powerOnReset _ _ _ (.refl _)

theorem keepsO_execClockFail (resonator : Bool) (s : State) : KeepsO s (execClockFail resonator s) :=
  keepsO_next <| keeps_branch (.refl _) <|
    keeps_modRst <|
    keeps_deviceReset _ _ <| keeps_modCore <| keeps_State_wrb _ _ _ _ <| keeps_State_wrb _ _ _ _ <| keeps_State_bump _ _ _ _ _ (.refl _)

/-! ## Commands of `Machine/Start.lean` -/

theorem keepsO_execFwBlock (p : Fin 2) (s : State) : KeepsO s (execFwBlock p s) := by
  refine keepsO_live fun _ => keeps_branch (.refl _) ?_
  split
  · exact .refl _
  next hp =>
    exact keeps_branch (keeps_workerUp _ <| keeps_takeChunk _ _ <| keeps_tookFrame hp) <| keeps_takeChunk _ _ <| keeps_tookFrame hp

theorem keepsO_execRootSecretDone (okA okB : Bool) (s : State) : KeepsO s (execRootSecretDone okA okB s) := by
  refine keepsO_live fun t => keeps_branch (.refl t) ?_
  extract_lets e s2 s3 installed repaired failed
  have h3 : Keeps t s3 := keeps_modEng <| keeps_State_drawWord _ <| keeps_romErase _ <| keeps_countStart _ (.refl t)
  have hi : Keeps t installed := keeps_installRoot _ <| keeps_State_wrf _ _ _ _ _ <| keeps_modCore h3
  have hr : Keeps t repaired := keeps_branch (keeps_repairHelper _ _ _ hi) <| keeps_branch (keeps_repairHelper _ _ _ hi) hi
  have hf : Keeps t failed := keeps_State_wrf _ _ _ _ _ <| keeps_modCore h3
  exact keeps_branch (keeps_romGoesOn _ _ _ hr) <| keeps_romGoesOn _ _ _ <| keeps_raise _ _ _ _ hf

theorem keepsO_execWarmPathDone (s : State) : KeepsO s (execWarmPathDone s) :=
  keepsO_live fun _ => keeps_branch (.refl _) <|
    keeps_branch (keeps_modCore (.refl _)) <|
    keeps_branch (keeps_branch (keeps_deviceReset _ _ (.refl _)) <| keeps_managerStart _ _ _ (.refl _)) <| keeps_workerWarm _ (.refl _)

theorem keepsO_execSwitchover (s : State) : KeepsO s (execSwitchover s) := by
  refine keepsO_live fun t => keeps_branch (.refl t) ?_
  extract_lets s1
  have h1 : Keeps t s1 := keeps_State_wrb _ _ _ _ (.refl t)
  exact keeps_branch (keeps_ccRestart _ _ <| keeps_setSwitch _ _ <| keeps_State_wrb _ _ _ _ h1) <|
    keeps_branch (keeps_ccRestart _ _ h1) <| keeps_State_wrb _ _ _ _ h1

theorem keepsO_execProbationExpired (s : State) : KeepsO s (execProbationExpired s) := by
  refine keepsO_live fun _ => ?_
  split
  · exact keeps_branch (.refl _) <| keeps_ccRestart _ _ <| keeps_State_wrb _ _ _ _ <| keeps_modFw (.refl _)
  · exact .refl _

/-! ## Commands of `Machine/Service.lean` -/

theorem keepsO_execAdmit (lane : BitVec 7) (s : State) : KeepsO s (execAdmit lane s) :=
  keepsO_live fun _ => keeps_branch (.refl _) <|
    keeps_branch (keeps_startTxn _ _ _ _ _ (.refl _)) <| keeps_branch (keeps_shtRequest _ _ (.refl _)) <| keeps_admitOwn _ (.refl _)

/-! ## Commands of `Machine/Timers.lean` -/

theorem keepsO_execCtRead (m : Master) (s : State) : KeepsO s (execCtRead m s) :=
  keepsO_live fun _ => keeps_gated _ _ _ (fun _ => keeps_State_resp _ _ _ _ <| keeps_ctReadLo _ _ (.refl _)) <|
    keeps_flushPairs _ _ _ (.refl _)

/-! ## Commands of `Machine/Bus.lean` -/

theorem keepsO_execGateSyncReturn (s : State) : KeepsO s (execGateSyncReturn s) := by
  refine keepsO_live fun _ => ?_
  split
  · exact keeps_syncReturn _ _ (.refl _)
  · exact .refl _

theorem keepsO_execGateSyncTimeout (m : Master) (s : State) : KeepsO s (execGateSyncTimeout m s) := by
  refine keepsO_live fun _ => ?_
  split
  · exact keeps_State_resp _ _ _ _ <| keeps_regReads _ _ _ _ <| keeps_modGate (.refl _)
  · exact .refl _

/-! ## Commands of `Machine/LaneCmd.lean` -/

theorem keepsO_execInjectTimeout (s : State) : KeepsO s (execInjectTimeout s) := by
  refine keepsO_live fun _ => ?_
  split
  · exact .refl _
  · exact keeps_finishReply _ _ _ _ <| keeps_modHost (.refl _)

theorem keepsO_execCalWriteDone (s : State) : KeepsO s (execCalWriteDone s) := by
  refine keepsO_live fun _ => keeps_branch ?_ (.refl _)
  split
  next hr => exact keeps_reportRecord _ <| keeps_of_eq hr <| keeps_calWriteDone _ (.refl _)
  next hr => exact keeps_of_eq hr <| keeps_calWriteDone _ (.refl _)

/-! ## Commands of `Machine/Host.lean` -/

theorem keepsO_execHello (c : HostCmd) (s : State) : KeepsO s (execHello c s) :=
  keepsO_live fun _ =>
    keeps_hostFrame _ _
        (fun _ =>
          keeps_branch (keeps_answer _ _ _ _ _ (.refl _)) <|
          keeps_branch (keeps_answer _ _ _ _ _ (.refl _)) <|
          keeps_branch (keeps_answer _ _ _ _ _ <| keeps_modHost (.refl _)) <|
          keeps_sendEvents _ <| keeps_answer _ _ _ _ _ <| keeps_modHost (.refl _)) <|
    .refl _

theorem keepsO_execStatus (c : HostCmd) (s : State) : KeepsO s (execStatus c s) :=
  keepsO_live fun _ =>
    keeps_hostFrame _ _ (fun _ => keeps_branch (keeps_answer _ _ _ _ _ (.refl _)) <| keeps_answer _ _ _ _ _ (.refl _)) (.refl _)

theorem keepsO_execEventMask (c : HostCmd) (s : State) : KeepsO s (execEventMask c s) := by
  refine keepsO_hostNow fun t _ => ?_
  dsimp only
  exact keeps_modHost (.refl t)

theorem keepsO_execStatementRead (c : HostCmd) (s : State) : KeepsO s (execStatementRead c s) := by
  refine keepsO_hostNow fun _ _ => ?_
  split
  · exact .refl _
  · exact .refl _

theorem keepsO_execHostFrameInvalid (foreign : Bool) (s : State) : KeepsO s (execHostFrameInvalid foreign s) :=
  keepsO_live fun _ => keeps_branch (.refl _) <|
    keeps_branch (keeps_State_bump _ _ _ _ _ (.refl _)) <| keeps_State_bump _ _ _ _ _ (.refl _)

theorem keepsO_execEventAck (epoch eseq : Word) (s : State) : KeepsO s (execEventAck epoch eseq s) :=
  keepsO_live fun _ => keeps_hostFrame _ _ (fun _ => keeps_branch (.refl _) <| keeps_eventLost _ <| keeps_modHost (.refl _)) (.refl _)

theorem keepsO_execHostLinkUp (s : State) : KeepsO s (execHostLinkUp s) := by
  refine keepsO_live fun t => keeps_branch (.refl t) ?_
  extract_lets s1
  have h1 : Keeps t s1 :=
    keeps_State_wrb _ _ _ _ <| keeps_State_wrb _ _ _ _ <| keeps_State_wrb _ _ _ _ <| keeps_State_wrb _ _ _ _ (.refl t)
  exact keeps_branch (keeps_sendEvents _ h1) h1

theorem keepsO_execHostLinkDown (s : State) : KeepsO s (execHostLinkDown s) := by
  refine keepsO_live fun t => keeps_branch (.refl t) ?_
  extract_lets s1
  have h1 : Keeps t s1 := keeps_State_wrb _ _ _ _ <| keeps_State_wrf _ _ _ _ _ (.refl t)
  exact keeps_branch (keeps_raise _ _ _ _ h1) h1

/-! ## Commands of `Machine/TxnRows.lean` -/

theorem keepsO_execTxn (p : Fin 2) (s : State) : KeepsO s (execTxn p s) := by
  refine keepsO_live fun _ => ?_
  split
  · exact .refl _
  next hp =>
    split
    next ha => exact keeps_admitted hp ha
    next ha => exact keeps_txnRun _ _ <| keeps_admitted hp ha

theorem keepsO_execTxnResponse (p : Fin 2) (s : State) : KeepsO s (execTxnResponse p s) := by
  refine keepsO_live fun _ => ?_
  split
  · exact .refl _
  next hp =>
    split
    · exact keeps_tookFrame hp
    · exact keeps_hostAdvance _ <| keeps_admitAdvance _ <| keeps_txnDone _ _ _ <| keeps_modRing <| keeps_tookFrame hp

theorem keepsO_execTxnRetry (txn : Word) (s : State) : KeepsO s (execTxnRetry txn s) := by
  refine keepsO_live fun _ => ?_
  split
  · exact .refl _
  · exact keeps_branch (.refl _) <|
      keeps_branch (keeps_hostAdvance _ <| keeps_admitAdvance _ <| keeps_txnFailed _ _ (.refl _)) <|
      keeps_sendTxnFrame _ _ <| keeps_modRing (.refl _)

end Sys2Proof.Machine
end

section
/-! What every command keeps (O4), and with the tick what every step keeps (O5). -/

namespace Sys2Proof.Machine

/-- Every command is carried out, and keeps the queue and the canonical form. A command that is one row or one function is settled in its
place, every other one by its lemma above. -/
theorem keepsO_exec (c : Instr) (s : State) : KeepsO s (exec c s) := by
  delta exec
  cases c with dsimp only
  | registerWrite => exact keepsO_live fun _ => keeps_writeAccess _ _ _ _ (.refl _)
  | readClear | gateSync => exact keepsO_live fun _ => keeps_readAccess _ _ _ _ (.refl _)
  | powerUp => exact keepsO_next <| keeps_branch (keeps_modPower (.refl _)) (.refl _)
  | pllLock => exact keepsO_execPllLock ..
  | porRelease => exact keepsO_execPorRelease ..
  | bankEnable => exact keepsO_next <| keeps_branch (.refl _) <| keeps_setBank _ _ _ (.refl _)
  | bankDisable => exact keepsO_execBankDisable ..
  | powerFail =>
    exact keepsO_next <| keeps_branch (.refl _) <| keeps_State_wrf _ _ _ _ _ <| keeps_banksOff _ <| keeps_powerOnReset _ _ _ (.refl _)
  | regulatorFault => exact keepsO_execRegulatorFault ..
  | resetNAssert => exact keepsO_next <| keeps_branch (keeps_deviceReset _ _ <| keeps_modRst (.refl _)) <| keeps_modRst (.refl _)
  | resetNRise => exact keepsO_next <| keeps_modRst (.refl _)
  | deviceResetRelease => exact keepsO_next <| keeps_branch (keeps_releaseReset _ _ _ (.refl _)) (.refl _)
  | rootSecretDone => exact keepsO_execRootSecretDone ..
  | gpioEdge => exact keepsO_next <| keeps_whenLive _ _ (fun _ => keeps_recordEdge _ _ _ (.refl _)) <| keeps_modPower (.refl _)
  | timerArm => exact keepsO_writeRow fun _ _ => keeps_timerCtrlEffect _ _ _ (.refl _)
  | timerExpired => exact keepsO_live fun _ => keeps_timerTick _ _ (.refl _)
  | clockFail => exact keepsO_execClockFail ..
  | clockRecovery => exact keepsO_next <| keeps_branch (keeps_modRst <| keeps_State_wrf _ _ _ _ _ (.refl _)) (.refl _)
  | ctRead => exact keepsO_execCtRead ..
  | ctLoad => exact keepsO_writeRow fun _ _ => keeps_ctCtrlEffect _ _ (.refl _)
  | softwareReset => exact keepsO_writeRow fun _ _ => keeps_softResetEffect _ _ (.refl _)
  | ccRestartRequest => exact keepsO_writeRow fun _ _ => keeps_ccRestartEffect _ _ (.refl _)
  | warmPathDone => exact keepsO_execWarmPathDone ..
  | wdogKick => exact keepsO_writeRow fun _ _ => keeps_kickEffect _ _ (.refl _)
  | wdogExpire => exact keepsO_live fun _ => keeps_branch (keeps_ccRestart _ _ (.refl _)) (.refl _)
  | sramRead => exact keepsO_execSramRead ..
  | sramWrite => exact keepsO_execSramWrite ..
  | scrubWord => exact keepsO_execScrubWord ..
  | mramRead => exact keepsO_execMramRead ..
  | mramWrite => exact keepsO_execMramWrite ..
  | mramWordProgrammed => exact keepsO_execMramWordProgrammed ..
  | mramClrStart | mramClrSuspend | mramClrResume => exact keepsO_live fun _ => keeps_mramClrWrite _ _ _ (.refl _)
  | clearStepDone => exact keepsO_execClearStepDone ..
  | patrolRead => exact keepsO_live fun _ => keeps_branch (keeps_mramCheck _ _ _ <| keeps_modMram (.refl _)) <| keeps_modMram (.refl _)
  | retirementDone => exact keepsO_execRetirementDone ..
  | queueWrite => exact keepsO_live fun _ => keeps_fabricWrite _ _ _ (.refl _)
  | queueStallRelease => exact keepsO_execQueueStallRelease ..
  | qDrop => exact keepsO_writeRow fun _ _ => keeps_qDropPort _ _ (.refl _)
  | qDropComplete => exact keepsO_execQDropComplete ..
  | gateRuleWrite => exact keepsO_execGateRuleWrite ..
  | gateSyncReturn => exact keepsO_execGateSyncReturn ..
  | gateSyncTimeout => exact keepsO_execGateSyncTimeout ..
  | feRun | feStop => exact keepsO_writeRow fun _ _ => keeps_feCtrlFull _ _ (.refl _)
  | feConfigWrite => exact keepsO_branch (keepsO_writeRow fun _ _ => keeps_feConfigTau _ _ _ (.refl _)) <| keepsO_next (.refl _)
  | bfeOutWrite => exact keepsO_writeRow fun _ _ => keeps_feOutEffect _ _ (.refl _)
  | rowBoundary => exact keepsO_execRowBoundary ..
  | biasWrite => exact keepsO_writeRow fun _ _ => keeps_biasEffect _ _ _ (.refl _)
  | biasLimit | ejDriverHot => exact keepsO_live fun _ => keeps_branch (.refl _) <| keeps_raise _ _ _ _ <| keeps_State_wrb _ _ _ _ (.refl _)
  | fptMeasure => exact keepsO_execFptMeasure ..
  | fptStale => exact keepsO_live fun _ => keeps_branch (.refl _) <| keeps_State_wrb _ _ _ _ (.refl _)
  | shtPosChange =>
    exact keepsO_live fun _ => keeps_branch (.refl _) <| keeps_branch (.refl _) <| keeps_positionChanged _ _ _ <| keeps_modSht (.refl _)
  | shtPosFault => exact keepsO_live fun _ => keeps_branch (keeps_raise _ _ _ _ (.refl _)) (.refl _)
  | shtClose | shtOpen | shtEvent => exact keepsO_writeRow fun _ _ => keeps_shtCmdEffect _ _ (.refl _)
  | shtPulseEnd => exact keepsO_execShtPulseEnd ..
  | shtSettleTimeout =>
    exact keepsO_live fun _ => keeps_branch (keeps_settleNoClose _ (.refl _)) <| keeps_branch (keeps_settleNoOpen _ (.refl _)) (.refl _)
  | shtDwellEnd => exact keepsO_live fun _ => keeps_branch (keeps_seqTryOpen _ <| keeps_modSht (.refl _)) (.refl _)
  | shtRecoverEnd => exact keepsO_execShtRecoverEnd ..
  | reservoirReady => exact keepsO_execReservoirReady ..
  | pipelineSample => exact keepsO_execPipelineSample ..
  | nucCoefWrite => exact keepsO_writeRow fun _ _ => keeps_coefWriteEffect _ _ (.refl _)
  | nucCoefRead => exact keepsO_execNucCoefRead ..
  | nucSetsel => exact keepsO_writeRow fun _ _ => keeps_setselEffect _ _ (.refl _)
  | tdiApply => exact keepsO_writeRow fun _ _ => keeps_tdiCtrlEffect _ _ (.refl _)
  | calBegin | calPointReady | calCommit | calDiscard | calAbort | calStatus | calExport | calImport | choreoLoad | choreoUnload |
    diagRead | resetDevice | serviceFire | shutterEvent | inject | loopSet | loopStatus =>
    exact keepsO_hostCmd fun _ _ => keeps_hostLane _ _ (.refl _)
  | calComputeDone => exact keepsO_live fun _ => keeps_branch (keeps_calCompute _ (.refl _)) (.refl _)
  | calWriteDone => exact keepsO_execCalWriteDone ..
  | calSettleTimeout | calWaitTimeout => exact keepsO_live fun _ => keeps_branch (keeps_calAbort _ _ (.refl _)) (.refl _)
  | calDriftTimeout => exact keepsO_live fun _ => keeps_branch (keeps_modCal <| keeps_calEnter _ _ (.refl _)) (.refl _)
  | calReselect => exact keepsO_live fun _ => keeps_branch (keeps_reselect _ (.refl _)) (.refl _)
  | calExpiryCheck => exact keepsO_live fun _ => keeps_branch (keeps_evaluateSlots _ (.refl _)) (.refl _)
  | visEnable => exact keepsO_writeRow fun _ _ => keeps_visCtrlEffect _ _ (.refl _)
  | visLock => exact keepsO_live fun _ => keeps_branch (keeps_State_wr _ _ _ <| keeps_State_wrb _ _ _ _ (.refl _)) (.refl _)
  | visLockLost => exact keepsO_execVisLockLost ..
  | visLineStart =>
    exact keepsO_live fun _ => keeps_branch (keeps_modVis <| keeps_branch (keeps_State_wrb _ _ _ _ (.refl _)) (.refl _)) (.refl _)
  | visLineEnd => exact keepsO_execVisLineEnd ..
  | visSwap => exact keepsO_writeRow fun _ _ => keeps_visSwapEffect _ _ (.refl _)
  | visRegWrite => exact keepsO_branch (keepsO_writeRow fun _ _ => keeps_visRegEffect _ _ _ (.refl _)) <| keepsO_next (.refl _)
  | visTrigEnable => exact keepsO_writeRow fun _ _ => keeps_visTrigEffect _ _ (.refl _)
  | visTrigger => exact keepsO_execVisTrigger ..
  | checkPassDone => exact keepsO_execCheckPassDone ..
  | drainEnd => exact keepsO_execDrainEnd ..
  | applyDone => exact keepsO_execApplyDone ..
  | tallyEntry => exact keepsO_execTallyEntry ..
  | cellMemAccess => exact keepsO_execCellMemAccess ..
  | cellAdd | cellAdds | cellSub | cellSubs | cellAnd | cellOr | cellXor | cellAndn | cellMul | cellMuls | cellMin | cellMax |
    cellMinu | cellMaxu | cellShl | cellShr | cellSar | cellRor | cellNeg | cellNegs | cellAbs | cellAbss =>
    exact keeps_aluRow _ _ _ _ _ _ _ _ _ _ _ (.refl _)
  | cellMulh | cellMulhu | cellClz | cellMov => exact keeps_aluRow32 _ _ _ _ _ _ _ _ _ (.refl _)
  | cellMac | cellMacs => exact keeps_macRow _ _ _ _ _ _ _ _ (.refl _)
  | cellCmp | cellTst | cellCmpi => exact keeps_flagRow _ _ _ _ _ (.refl _)
  | cellAddi | cellAddis | cellAndi | cellOri | cellXori | cellShi | cellMovl => exact keeps_immRow _ _ _ _ _ _ _ _ (.refl _)
  | cellMovh => exact keepsO_cellIssue fun _ => keeps_writeAlu _ _ _ _ _ (.refl _)
  | cellMova | cellRda | cellAdda | cellWrf => exact keepsO_cellIssue fun _ => keepsOut_done <| keeps_State_modCell _ _ _ (.refl _)
  | cellDiv | cellDivu | cellRem | cellRemu | cellRecip | cellSqrt | cellSqrtq => exact keeps_dsuRow _ _ _ _ _ _ _ (.refl _)
  | dsuResult => exact keepsO_live fun _ => keeps_State_modCell _ _ _ (.refl _)
  | cellLdw | cellLdh | cellLdhu | cellLdb | cellLdbu => exact keeps_loadRow _ _ _ _ _ _ _ _ _ _ (.refl _)
  | cellStw | cellSth | cellStb => exact keeps_storeRow _ _ _ _ _ _ _ _ _ (.refl _)
  | cellB => exact keepsO_cellIssue fun _ => keepsOut_branch (keepsOut_jump <| keeps_squashNext _ _ _ (.refl _)) <| keepsOut_done (.refl _)
  | cellJal => exact keepsO_cellIssue fun _ => keepsOut_jump <| keeps_State_modCell _ _ _ <| keeps_squashNext _ _ _ (.refl _)
  | cellJr => exact keepsO_cellIssue fun _ => keepsOut_jump <| keeps_squashNext _ _ _ (.refl _)
  | cellHalt => exact keepsO_cellIssue fun _ => keepsOut_jump <| keeps_State_wr _ _ _ <| keeps_squashNext _ _ _ (.refl _)
  | cellPop => exact keepsO_execCellPop ..
  | cellPush => exact keepsO_execCellPush ..
  | cellDrop => exact keepsO_execCellDrop ..
  | cellAvail => exact keepsO_execCellAvail ..
  | cellSpace | cellGpr | cellTrd =>
    exact keepsO_cellIssue fun _ => keepsOut_branch keepsOut_fault <| keepsOut_done <| keeps_State_modCell _ _ _ (.refl _)
  | cellRds => exact keepsO_execCellRds ..
  | cellGpw => exact keepsO_execCellGpw ..
  | cellTarm => exact keepsO_cellIssue fun _ => keepsOut_branch keepsOut_fault <| keepsOut_done <| keeps_modFab (.refl _)
  | cellTwait =>
    exact keepsO_cellIssue fun _ => keepsOut_branch keepsOut_fault <| keepsOut_branch (keepsOut_done (.refl _)) keepsOut_stallPop
  | cellNop => exact keepsO_cellIssue fun _ => keepsOut_done (.refl _)
  | decisionRecord => exact keepsO_execDecisionRecord ..
  | ejEnable | ejArm => exact keepsO_writeRow fun _ _ => keeps_ejCtrlEffect _ _ (.refl _)
  | fireDue => exact keepsO_execFireDue ..
  | syncDue => exact keepsO_execSyncDue ..
  | statusPoll => exact keepsO_execStatusPoll ..
  | linkOpenProbe => exact keepsO_execLinkOpenProbe ..
  | portReprobe => exact keepsO_live fun _ => keeps_branch (keeps_setEjState _ _ _ <| keeps_State_modEjp _ _ _ (.refl _)) (.refl _)
  | fireAck => exact keepsO_execFireAck ..
  | syncRsp => exact keepsO_execSyncRsp ..
  | statusFrame => exact keepsO_execStatusFrame ..
  | exchangeTimeout => exact keepsO_live fun _ => keeps_ejFail _ _ (.refl _)
  | ejNoconf => exact keepsO_execEjNoconf ..
  | driverCool | biasLimitEnd => exact keepsO_live fun _ => keeps_State_wrb _ _ _ _ (.refl _)
  | admitLane => exact keepsO_execAdmit ..
  | linkSignal => exact keepsO_live fun _ => keeps_branch (keeps_State_emit _ _ <| keeps_setFrlState _ _ _ (.refl _)) (.refl _)
  | trainReceived => exact keepsO_execTrainReceived ..
  | linkDown | linkIdleTimeout => exact keepsO_live fun _ => keeps_branch (keeps_portDown _ _ (.refl _)) (.refl _)
  | frameHeader => exact keepsO_execFrameHeader ..
  | frameEnd => exact keepsO_execFrameEnd ..
  | ack => exact keepsO_execAck ..
  | nak => exact keepsO_execNak ..
  | ackTimer => exact keepsO_live fun _ => keeps_branch (keeps_sendAck _ _ (.refl _)) (.refl _)
  | busyBackoff => exact keepsO_live fun _ => keeps_branch (keeps_resendAll _ _ <| keeps_State_modFrl _ _ _ (.refl _)) (.refl _)
  | replayTimeout => exact keepsO_live fun _ => keeps_branch (keeps_replay _ _ (.refl _)) (.refl _)
  | enum => exact keepsO_execEnum ..
  | enumRound => exact keepsO_execEnumRound ..
  | assign => exact keepsO_execAssign ..
  | time => exact keepsO_execTime ..
  | timePeriod => exact keepsO_execTimePeriod ..
  | pdelayPeriod => exact keepsO_live fun _ => keeps_foldl _ _ _ (fun _ _ => keeps_sendOn _ _ _ _ _ (.refl _)) (.refl _)
  | pdelayReq => exact keepsO_execPdelayReq ..
  | pdelayRsp => exact keepsO_execPdelayRsp ..
  | timeSourceSwitch => exact keepsO_execTimeSourceSwitch ..
  | timeLost => exact keepsO_live fun _ => keeps_branch (.refl _) <| keeps_loseTime _ <| keeps_State_wrb _ _ _ _ (.refl _)
  | txn => exact keepsO_execTxn ..
  | txnResponse => exact keepsO_execTxnResponse ..
  | txnRetry => exact keepsO_execTxnRetry ..
  | featureSend => exact keepsO_execFeatureSend ..
  | feature => exact keepsO_execFeature ..
  | featureTimeout => exact keepsO_live fun _ => keeps_dropJoin _ _ (.refl _)
  | hello => exact keepsO_execHello ..
  | status => exact keepsO_execStatus ..
  | setTime => exact keepsO_hostNow fun _ _ => keeps_setTimeRun _ _ (.refl _)
  | setUtc => exact keepsO_hostNow fun _ _ => keeps_setUtc _ _ (.refl _)
  | eventMask => exact keepsO_execEventMask ..
  | reenumerate => exact keepsO_hostCmd fun _ _ => keeps_hostAdvance _ (.refl _)
  | uploadOpen => exact keepsO_hostNow fun _ _ => keeps_noBody _ <| keeps_uploadOpenRun _ _ (.refl _)
  | uploadData => exact keepsO_hostNow fun _ _ => keeps_noBody _ <| keeps_uploadDataRun _ _ (.refl _)
  | uploadClose => exact keepsO_hostNow fun _ _ => keeps_noBody _ <| keeps_uploadCloseRun _ _ (.refl _)
  | downloadRead | fwStatus => exact keepsO_hostNow fun _ _ => .refl _
  | fwStage => exact keepsO_hostNow fun _ _ => keeps_fwStageHost _ _ (.refl _)
  | fwSchedule => exact keepsO_hostNow fun _ _ => keeps_branch3 (.refl _) <| keeps_noBody _ <| keeps_fwScheduleRun _ _ (.refl _)
  | fwCancel => exact keepsO_hostNow fun _ _ => keeps_noBody _ <| keeps_fwCancelRun _ (.refl _)
  | tenantKeys => exact keepsO_hostCmd fun _ _ => keeps_packageRun _ _ _ (fun _ _ _ => keeps_tenantKeysRun _ _ _ _ (.refl _)) (.refl _)
  | appletLoad => exact keepsO_hostCmd fun _ _ => keeps_packageRun _ _ _ (fun _ _ _ => keeps_appletLoadRun _ _ _ (.refl _)) (.refl _)
  | statementRead => exact keepsO_execStatementRead ..
  | periodClose => exact keepsO_hostCmd fun _ _ => keeps_closePeriod _ _ _ _ <| keeps_markBegun _ _ (.refl _)
  | plantConfig => exact keepsO_hostNow fun _ _ => keeps_noBody _ <| keeps_plantConfig _ _ (.refl _)
  | plantStatus => exact keepsO_hostNow fun _ _ => keeps_plantStatusRun _ (.refl _)
  | hostFrameInvalid => exact keepsO_execHostFrameInvalid ..
  | eventAck => exact keepsO_execEventAck ..
  | eventResend => exact keepsO_live fun _ => keeps_branch (keeps_sendEvents _ (.refl _)) (.refl _)
  | hostLinkDown => exact keepsO_execHostLinkDown ..
  | plantStatusDatagram => exact keepsO_live fun _ => keeps_branch (keeps_newSet _ _ _ (.refl _)) (.refl _)
  | statementResend => exact keepsO_execStatementResend ..
  | arpRequest => exact keepsO_execArpRequest ..
  | arpRefresh => exact keepsO_execArpRefresh ..
  | plantNoarp => exact keepsO_execPlantNoarp ..
  | icmpEcho => exact keepsO_execIcmpEcho ..
  | plantRxDiscard => exact keepsO_live fun _ => keeps_branch (keeps_State_bump _ _ _ _ _ (.refl _)) (.refl _)
  | plantLinkUp => exact keepsO_execPlantLinkUp ..
  | plantLinkDown => exact keepsO_execPlantLinkDown ..
  | loopMeasure => exact keepsO_execLoopMeasure ..
  | mailboxRequest => exact keepsO_writeRow fun _ _ => keeps_mailboxEffect _ _ (.refl _)
  | mailboxResponse => exact keepsO_live fun _ => keeps_branch (keeps_State_wr _ _ _ <| keeps_State_wr _ _ _ (.refl _)) (.refl _)
  | counterIncrement => exact keepsO_writeRow fun _ _ => keeps_cntAddEffect _ _ (.refl _)
  | lcTransition => exact keepsO_live fun _ => keeps_lcRequest _ _ _ (.refl _)
  | tamperSensor => exact keepsO_execTamperSensor ..
  | rngWindow => exact keepsO_execRngWindow ..
  | dbgLevelWrite => exact keepsO_execDbgLevelWrite ..
  | dbgSignature => exact keepsO_execDbgSignature ..
  | dbgClose => exact keepsO_writeRow fun _ _ => keeps_dbgCloseEffect _ _ (.refl _)
  | spreadMode => exact keepsO_writeRow fun _ _ => keeps_spreadEffect _ _ (.refl _)
  | clearWrite | invalidate | loadSess | zeroSess => exact keepsO_writeRow fun _ _ => keeps_keyCmdEffect _ _ (.refl _)
  | keyRemask => exact keepsO_execKeyRemask ..
  | setupChallenge => exact keepsO_execSetupChallenge ..
  | setupResponse => exact keepsO_execSetupResponse ..
  | setupConfirm => exact keepsO_execSetupConfirm ..
  | setupDone => exact keepsO_execSetupDone ..
  | setupTimeout => exact keepsO_execSetupTimeout ..
  | setupRetry => exact keepsO_execSetupRetry ..
  | tenantKeyDelivery => exact keepsO_execTenantKeyDelivery ..
  | digSubmit | cipSubmit | pkaSubmit => exact keeps_submitRow _ _ _ _ (.refl _)
  | engSha256 | engSha384 | engSha512 | engHmacSha256 | engHmacSha384 | engHmacSha512 =>
    exact keepsO_engRow fun _ _ => keeps_runDigest _ _ (.refl _)
  | engEcbEncrypt | engEcbDecrypt | engCbcEncrypt | engCbcDecrypt | engCtr | engGcmEncrypt | engGcmDecrypt | engCmac | engKeyWrap |
    engKeyUnwrap =>
    exact keepsO_engRow fun _ _ => keeps_runCipher _ _ _ (.refl _)
  | engKeygen | engPublic | engSign | engVerify | engEcdh => exact keepsO_engRow fun _ _ => keeps_runPka _ _ _ (.refl _)
  | descriptorComplete => exact keepsO_execDescriptorComplete ..
  | deltaReport => exact keepsO_execDeltaReport ..
  | deltaReportApply => exact keepsO_execDeltaReportApply ..
  | deltaAck => exact keepsO_execDeltaAck ..
  | persistenceRound => exact keepsO_execPersistenceRound ..
  | highWaterUpdate => exact keepsO_live fun _ => keeps_branch (keeps_raiseHigh _ (.refl _)) (.refl _)
  | hookInit | hookClose | hookLoadCheck => exact keepsO_live fun _ => keeps_takeHook _ _ (.refl _)
  | hookTick => exact keepsO_execHookTick ..
  | acsPush8 | acsPush16 | acsPush32 => exact keepsO_acsRow fun _ _ _ => keeps_acsPush _ _ _ (.refl _)
  | acsDup | acsNot => exact keepsO_acsRow fun _ _ _ => keeps_acsPop1 _ _ fun _ _ => keeps_acsPush _ _ _ (.refl _)
  | acsDrop => exact keepsO_acsRow fun _ _ _ => keeps_acsPop1 _ _ fun _ _ => keepsA_go (.refl _)
  | acsSwap | acsOver | acsMulu64 => exact keepsO_acsRow fun _ _ _ => keeps_acsPop2 _ _ fun _ _ _ => keeps_acsPush _ _ _ (.refl _)
  | acsPick => exact keepsO_execAcsPick ..
  | acsAdd | acsSub | acsMul | acsAnd | acsOr | acsXor | acsShl | acsShr | acsSar | acsEq | acsLtu | acsLts =>
    exact keeps_acsBin _ _ _ (.refl _)
  | acsDivu | acsRemu | acsDivs | acsRems => exact keeps_acsDivision _ _ _ (.refl _)
  | acsAdd64 | acsSub64 => exact keeps_acsWide _ _ _ (.refl _)
  | acsLtu64 => exact keepsO_acsRow fun _ _ _ => keeps_acsPop4 _ _ fun _ _ _ => keeps_acsPush _ _ _ (.refl _)
  | acsLdw | acsLdb =>
    exact keepsO_acsRow fun _ _ _ => keeps_acsPop1 _ _ fun _ _ => keepsA_branch (keeps_acsPush _ _ _ (.refl _)) keepsA_trap
  | acsStw => exact keepsO_execAcsStw ..
  | acsStb => exact keepsO_execAcsStb ..
  | acsJmp => exact keepsO_acsRow fun _ _ _ => keeps_acsJump _ _ _ (.refl _)
  | acsJz =>
    exact keepsO_acsRow fun _ _ _ => keeps_acsPop1 _ _ fun _ _ => keepsA_branch (keeps_acsJump _ _ _ (.refl _)) <| keepsA_go (.refl _)
  | acsJnz =>
    exact keepsO_acsRow fun _ _ _ => keeps_acsPop1 _ _ fun _ _ => keepsA_branch (keepsA_go (.refl _)) <| keeps_acsJump _ _ _ (.refl _)
  | acsCall => exact keepsO_acsRow fun _ _ _ => keepsA_branch keepsA_trap <| keeps_acsJump _ _ _ (.refl _)
  | acsRet => exact keepsO_execAcsRet ..
  | acsEnd => exact keepsO_acsRow fun _ _ _ => keepsA_stop (.refl _)
  | acsSysTime | acsPeriod | acsFloor | acsLanes => exact keepsO_acsSys fun _ _ => keeps_acsPush _ _ _ (.refl _)
  | acsTally => exact keepsO_acsSys fun _ _ => keeps_acsPop2 _ _ fun _ _ _ => keeps_acsPush _ _ _ (.refl _)
  | acsRaiseFloor => exact keepsO_execAcsRaiseFloor ..
  | acsHmac => exact keepsO_execAcsHmac ..
  | acsRandom => exact keepsO_execAcsRandom ..
  | acsCloseReq => exact keepsO_acsSys fun _ _ => keepsA_go (.refl _)
  | acsOut => exact keepsO_execAcsOut ..
  | acsLoadInfo => exact keepsO_execAcsLoadInfo ..
  | copyDone => exact keepsO_execCopyDone ..
  | chunkSend => exact keepsO_execChunkSend ..
  | fwBlock => exact keepsO_execFwBlock ..
  | fwOpen => exact keepsO_fwTxn fun _ _ => keeps_fwOpenRun _ _ (.refl _)
  | fwQuery => exact keepsO_fwTxn fun _ _ => .refl _
  | fwArm => exact keepsO_fwTxn fun _ _ => keeps_fwArmRun _ _ (.refl _)
  | fwDisarm => exact keepsO_fwTxn fun _ _ => keeps_fwDisarmRun _ (.refl _)
  | chainLoadRetry => exact keepsO_live fun _ => keeps_branch (.refl _) <| keeps_modFw (.refl _)
  | switchCommit => exact keepsO_execSwitchCommit ..
  | switchover => exact keepsO_execSwitchover ..
  | fwReady => exact keepsO_writeRow fun _ _ => keeps_fwReadyEffect _ _ (.refl _)
  | healthConfirm => exact keepsO_writeRow fun _ _ => keeps_fwConfirmEffect _ _ (.refl _)
  | healthCheck => exact keepsO_execHealthCheck ..
  | probationExpired => exact keepsO_execProbationExpired ..
  | errorRaise => exact keepsO_live fun _ => keeps_raiseMany _ _ (.refl _)
  | errDone => exact keepsO_writeRow fun _ _ => keeps_errDoneEffect _ _ _ (.refl _)
  | safeRequest => exact keepsO_writeRow fun _ _ => keeps_safeReqEffect _ _ (.refl _)
  | safeTimeout => exact keepsO_live fun _ => keeps_branch (keeps_enterSafe _ _ (.refl _)) (.refl _)
  | errReport => exact keepsO_execErrReport ..
  | takeoverProbe =>
    exact keepsO_live fun _ => keeps_branch (.refl _) <| keeps_sendProbe _ _ <| keeps_sendProbe _ _ <| keeps_modSvc (.refl _)
  | takeover => exact keepsO_live fun _ => keeps_branch (keeps_takeOver _ (.refl _)) (.refl _)
  | runhrsUpdate => exact keepsO_live fun _ => keeps_mramStoreBytes _ _ _ <| keeps_State_wr _ _ _ (.refl _)
  | bankResponseDiscarded =>
    exact keepsO_live fun _ => keeps_branch (.refl _) <| keeps_ejFail _ _ <| keeps_branch (keeps_ejViolation _ _ (.refl _)) (.refl _)
  | signalLost => exact keepsO_execSignalLost ..
  | hostLinkUp => exact keepsO_execHostLinkUp ..
  | unknownCommand => exact keepsO_branch (keepsO_next (.refl _)) <| keepsO_hostNow fun _ _ => .refl _
  | arpReply => exact keepsO_execArpReply ..
  | trstNAssert => exact keepsO_next <| keeps_modPower (.refl _)
  | illegalInstruction => exact keepsO_live fun _ => keeps_branch (keeps_cellRun _ _ _ _ (fun _ => keepsOut_fault) (.refl _)) (.refl _)
  | acsBadOpcode => exact keepsO_execAcsBadOpcode ..
  | admittingShutterRetry => exact keepsO_live fun _ => keeps_branch (keeps_orderShutter _ _ _ (.refl _)) (.refl _)
  | admissionShutterRetry => exact keepsO_live fun _ => keeps_branch (keeps_orderShutter _ _ _ <| keeps_modSvc (.refl _)) (.refl _)
  | injectTimeout => exact keepsO_execInjectTimeout ..
  | rngRequestTimeout => exact keepsO_execRngRequestTimeout ..

/-- Settles O4: each command's meaning is a next state that keeps the queue. -/
theorem everyCommandCompletes : Obligations.EveryCommandCompletes := by
  unfold Obligations.EveryCommandCompletes
  intro c s
  obtain ⟨t, ht, hk⟩ := keepsO_exec c s
  exact ⟨t, ht, hk.pending⟩

/-- Settles O5: the tick and each command's meaning keep the canonical form. -/
theorem stepKeepsCanonicalForm : Obligations.StepKeepsCanonicalForm := by
  unfold Obligations.StepKeepsCanonicalForm
  intro s t hs h
  unfold step at h
  split at h
  · cases h
    exact (keeps_idle s (.refl s)).canon hs
  next c rest hp =>
    obtain ⟨u, hu, hk⟩ := keepsO_exec c { s with pending := rest }
    rw [hu] at h
    cases h
    exact hk.canon hs

end Sys2Proof.Machine
end

section
/-! What the acceptance of a machine-link command decides (R378, R386), each refusal said once for every command row (O50). -/

namespace Sys2Proof.Machine

/-! ## Who takes the frame -/

/-- What an accepted command does as a job: ROM in recovery refuses what it does not take, then the body is checked (R375, R386). -/
def hostAccepted (c : HostCmd) (code : Half) (ok : List Byte → Bool) (run : State → HostJob → State) (t : State) (j : HostJob) : State :=
  if inRecovery t && !recoveryCode code then finishReply t j.reply 0x800E []
  else if !ok c.body then finishReply t j.reply 0x8008 []
  else run t j

section
variable {s : State} (c : HostCmd) (code : Half) (ok : List Byte → Bool) (run : State → HostJob → State)

theorem hostCmd_linkDown (hl : s.live = true) (hh : s.hostLink = false) : hostCmd c code ok run s = .next s := by
  simp [hostCmd, whenLive_live _ hl, hostFrame, hh]

theorem hostCmd_unserved (hl : s.live = true) (hh : s.hostLink = true) (hs : hostServed (s.bump Reg.HOST_RXFRAMES 31 0) = false) :
    hostCmd c code ok run s = .next (s.bump Reg.HOST_RXFRAMES 31 0) := by
  simp [hostCmd, whenLive_live _ hl, hostFrame, hh, hs]

/-- A link that is up and served: the frame is counted, and the one manager alone decides on the command. -/
theorem hostCmd_served (hl : s.live = true) (hh : s.hostLink = true) (hs : hostServed (s.bump Reg.HOST_RXFRAMES 31 0) = true) :
    hostCmd c code ok run s = .next (
      let t := s.bump Reg.HOST_RXFRAMES 31 0
      if !t.isManager || t.ring.duplicate then answer t c code 0x8007 [] else hostJudge t c code (hostAccepted c code ok run)) := by
  simp only [hostCmd, whenLive_live _ hl, hostFrame, hh, hs, Bool.not_true, Bool.false_eq_true, if_false, if_true]
  rfl

theorem hostCmd_otherManager (hl : s.live = true) (hh : s.hostLink = true) (hs : hostServed (s.bump Reg.HOST_RXFRAMES 31 0) = true)
    (hm : (s.bump Reg.HOST_RXFRAMES 31 0).isManager = false ∨ (s.bump Reg.HOST_RXFRAMES 31 0).ring.duplicate = true) :
    hostCmd c code ok run s = .next (answer (s.bump Reg.HOST_RXFRAMES 31 0) c code 0x8007 []) := by
  rw [hostCmd_served c code ok run hl hh hs]
  rcases hm with h | h
  · simp only [h, Bool.not_false, Bool.true_or, if_true]
  · simp only [h, Bool.or_true, if_true]

theorem hostCmd_judged (hl : s.live = true) (hh : s.hostLink = true) (hs : hostServed (s.bump Reg.HOST_RXFRAMES 31 0) = true)
    (hm : (s.bump Reg.HOST_RXFRAMES 31 0).isManager = true) (hd : (s.bump Reg.HOST_RXFRAMES 31 0).ring.duplicate = false) :
    hostCmd c code ok run s = .next (hostJudge (s.bump Reg.HOST_RXFRAMES 31 0) c code (hostAccepted c code ok run)) := by
  rw [hostCmd_served c code ok run hl hh hs]
  simp only [hm, hd, Bool.not_true, Bool.or_self, Bool.false_eq_true, if_false]

end

/-! ## The decision of R378 -/

section
variable {t : State} {c : HostCmd} {code : Half} {run : State → HostJob → State}

theorem hostJudge_otherEpoch (h : c.epoch ≠ t.host.epoch) : hostJudge t c code run = answer t c code 0x8005 [] := by
  rw [hostJudge, if_pos h]

theorem hostJudge_recorded {r} (he : c.epoch = t.host.epoch) (hr : t.host.records.find? (fun r => r.txn == c.txn) = some r) :
    hostJudge t c code run = if r.code = code then answer t c code r.status r.body else answer t c code 0x8006 [] := by
  simp only [hostJudge, he, hr, ne_eq, not_true_eq_false, if_false]

/-- A TXN that is not on record is judged by the commands that execute, HIGHEST and the room for one more. -/
theorem hostJudge_unrecorded (he : c.epoch = t.host.epoch) (hr : t.host.records.find? (fun r => r.txn == c.txn) = none) :
    hostJudge t c code run =
      if t.host.jobs.any (fun j => j.txn == c.txn) then answer t c code 0x8002 []
      else if txnStale t c.txn then answer t c code 0x8006 []
      else if 16 ≤ t.host.jobs.length then answer t c code 0x8004 []
      else run (t.modHost fun h => { h with highest := some c.txn.toNat, jobs := h.jobs ++ [hostJob c code] }) (hostJob c code) := by
  simp only [hostJudge, he, hr, hostJob, ne_eq, not_true_eq_false, if_false]

end

/-- An accepted command that ROM recovery does not take completes with 0x800E (R386). -/
theorem hostAccepted_recovery {t : State} {c : HostCmd} {code : Half} (ok run) (h : inRecovery t = true) (hc : recoveryCode code = false) :
    hostAccepted c code ok run t (hostJob c code) = hostDone t c code 0x800E [] := by
  simp [hostAccepted, h, hc, hostDone]

/-! ## The rows that go through acceptance -/

/-- A row is a command of R383 that goes through acceptance under its CODE. -/
def AcceptanceRow (c : HostCmd) (e : Instr × Half) : Prop := ∃ ok run, ∀ s, exec e.1 s = hostCmd c e.2 ok run s

/-- Settles O50: each row is a use of `hostCmd`, whose tests are those of the statement in the same order. -/
theorem hostRefusals : Obligations.HostRefusals := by
  unfold Obligations.HostRefusals
  intro s c hl rows e hmem t
  have hrows : ∀ e ∈ rows, AcceptanceRow c e := by
    simp only [rows, List.cons_append, List.nil_append, List.forall_mem_cons, List.not_mem_nil, false_implies, implies_true,
      and_true]
    and_intros
    all_goals delta AcceptanceRow exec
    all_goals exact ⟨_, _, fun _ => rfl⟩
  obtain ⟨ok, run, hrow⟩ := hrows e hmem
  rw [hrow]
  refine ⟨fun hh => hostCmd_linkDown c _ ok run hl hh, fun hh hs => hostCmd_unserved c _ ok run hl hh hs,
    fun hh hs hm => hostCmd_otherManager c _ ok run hl hh hs hm, fun hh hs hm hd => ?_⟩
  simp only [hostCmd_judged c _ ok run hl hh hs hm hd, Host.Outcome.next.injEq]
  refine ⟨hostJudge_otherEpoch, fun he => ⟨fun r hr => hostJudge_recorded he hr, fun hr => ?_⟩⟩
  rw [hostJudge_unrecorded he hr]
  refine ⟨fun hx => ?_, fun hx => ⟨fun hst => ?_, fun hst hf => ?_, fun hst hf hrec hcode => ?_⟩⟩
  · rw [if_pos hx]
  · simp only [hx, hst, Bool.false_eq_true, if_false, if_true]
  · simp only [hx, hst, hf, Bool.false_eq_true, if_false, if_true]
  · simp only [hx, hst, Nat.not_le.2 hf, Bool.false_eq_true, if_false]
    exact hostAccepted_recovery ok run hrec hcode

end Sys2Proof.Machine
end

section
/-! Starts and restarts of the control core (R90, R96-R101, R421, R422, R518, R523; O9). -/

namespace Sys2Proof.Machine

/-! ## The root secret (R421, R422) -/

/-- ROM after the start has counted and a pending erasure has completed: the conditioner holds a word of the entropy source. -/
def rootCounted (s : State) : State :=
  (romErase (countStart s)).2.drawWord.2.modEng fun e => { e with gen := (romErase (countStart s)).2.drawWord.1 }

section
variable {s : State} (hl : s.live = true) (hm : s.core.mode = .romStart) (hr : s.core.rootSecret = false) (hf : s.core.rootFailed = false)
include hl hm hr hf

theorem exec_rootSecretDone_bothCopies :
    exec (.rootSecretDone true true) s = .next (romGoesOn
      (installRoot (((rootCounted s).modCore fun c => { c with rootSecret := true }).wrf Reg.KEY_STAT 9 8 1)) true
      (romErase (countStart s)).1) := by
  change execRootSecretDone true true s = _
  simp [execRootSecretDone, whenLive_live _ hl, hm, hr, hf, rootCounted]

theorem exec_rootSecretDone_noCopy :
    exec (.rootSecretDone false false) s = .next (romGoesOn
      (raise (((rootCounted s).modCore fun c => { c with rootFailed := true }).wrf Reg.KEY_STAT 9 8 2) Err.KEY_ROOT_FAIL (pavSrc 1)) false
      (romErase (countStart s)).1) := by
  change execRootSecretDone false false s = _
  simp [execRootSecretDone, whenLive_live _ hl, hm, hr, hf, rootCounted]

end

theorem romGoesOn_notManager {s : State} (ok erased : Bool) (h : s.isManager = false) :
    romGoesOn s ok erased = s.modCore fun c => { c with mode := .listen } := by
  simp only [romGoesOn, h, Bool.not_false, or_true, if_true]

/-! ## Restarts by a write, the watchdog, a switchover and the end of probation -/

section
variable {s : State} (hl : s.live = true)
include hl

theorem exec_wdogExpire : exec .wdogExpire s = .next (if s.rdb Reg.RST_WDOG 16 then ccRestart s 2 else s) := by
  change execWdogExpire s = _
  rw [execWdogExpire, whenLive_live _ hl]

theorem exec_warmPathDone_retired (hm : s.core.mode = .warm) (h : s.lc = 3) :
    exec .warmPathDone s = .next (s.modCore fun c => { c with mode := .listen }) := by
  change execWarmPathDone s = _
  rw [execWarmPathDone, whenLive_live _ hl, if_neg (not_not.2 hm), if_pos h]

/-- A due switchover of the manager clears its own FW_SWITCH_CTRL and restarts the core with cause 1 (R518). -/
theorem exec_switchover_manager (he : s.rdb Reg.FW_SWITCH_CTRL 0 = true)
    (hd : s.rd64 Reg.FW_SWITCH_AT_LO Reg.FW_SWITCH_AT_HI ≤ s.ct.toNat) (hm : (s.wrb Reg.ERR_EVT 14 true).isManager = true) :
    exec .switchover s = .next (ccRestart (setSwitch ((s.wrb Reg.ERR_EVT 14 true).wrb Reg.FW_SWITCH_CTRL 0 false) none) 1) := by
  change execSwitchover s = _
  simp only [execSwitchover, whenLive_live _ hl, he, Nat.not_lt.2 hd, hm, Bool.not_true, decide_false, Bool.or_self, Bool.false_eq_true,
    if_false, if_true]

theorem exec_probationExpired_due {e : CTime} (he : s.fw.probEnd = some e) (hd : e.toNat ≤ s.ct.toNat) :
    exec .probationExpired s = .next (ccRestart ((s.modFw fun f => { f with probEnd := none }).wrb Reg.ERR_EVT 14 true) 1) := by
  change execProbationExpired s = _
  simp only [execProbationExpired, whenLive_live _ hl, he, Nat.not_lt.2 hd, if_false]

end

/-! ## What a restart changes (R90, R92) -/

/-- RST_CAUSE takes the cause and counts the restart. -/
def restartCounted (s : State) (cause : Nat) : State := (s.wrf Reg.RST_CAUSE 19 16 cause).bump Reg.RST_CAUSE 31 24

theorem rd_wrf_other {s : State} (a b hi lo v : Nat) (hs : s.canon = true) (h : b ≠ a) : (s.wrf a hi lo v).rd b = s.rd b :=
  rd_wr_other s a b _ (canon_parts hs).2 h

theorem calState_restartCounted {s : State} (cause : Nat) (hs : s.canon = true) : calState (restartCounted s cause) = calState s := by
  have hw : (s.wrf Reg.RST_CAUSE 19 16 cause).canon = true := canon_wr s _ _ hs
  have hne : Reg.CAL_STATE ≠ Reg.RST_CAUSE := by decide
  rw [calState, State.rdf, restartCounted, State.bump, rd_wrf_other _ _ _ _ _ hw hne, rd_wrf_other _ _ _ _ _ hs hne, calState, State.rdf]

theorem calAbort_noDialogue {s : State} (cause : Nat) (h : calState s = 0) : calAbort s cause = s := by
  rw [calAbort, if_pos h]

theorem calState_modCore (s : State) (f : CoreSt → CoreSt) : calState (s.modCore f) = calState s := by
  simp only [calState, State.rdf, State.rd, State.modCore_regs]

theorem modCore_congr (s : State) (f g : CoreSt → CoreSt) (h : f s.core = g s.core) : s.modCore f = s.modCore g := by
  simp only [State.modCore, h]

/-- Without a calibration dialogue, a restart changes RST_CAUSE and the core alone. -/
theorem ccRestart_noDialogue {s : State} (cause : Nat) (hs : s.canon = true) (hc : calState s = 0) (hm : s.core.mode ≠ .romStart) :
    ccRestart s cause = (restartCounted s cause).modCore fun c =>
      { c with mode := .warm, kick := s.svc.ticks, owesWdog := c.owesWdog || cause == 2 } := by
  have hcal : calState (restartCounted s cause) = 0 := (calState_restartCounted cause hs).trans hc
  have hmode : (restartCounted s cause).core.mode ≠ .romStart := by
    simpa only [restartCounted, State.bump, State.wrf, State.wr, State.modRegs_core] using hm
  rw [ccRestart, ← restartCounted, calAbort_noDialogue _ ((calState_modCore ..).trans hcal)]
  exact modCore_congr _ _ _ (by rw [if_neg hmode])

/-- Settles O9, clause by clause; the last one is what a restart leaves of CAL_STATE. -/
theorem coreRestarts : Obligations.CoreRestarts := by
  unfold Obligations.CoreRestarts
  refine ⟨fun s t hl hm hr hf ht => ?_, fun s ok erased h => romGoesOn_notManager ok erased h, fun s m h => ⟨?_, fun v hv => ?_⟩,
    fun s m h => ⟨?_, fun v hv => ?_⟩, fun s hl h => ?_, fun s hl h => ?_, fun s hl hm h => exec_warmPathDone_retired hl hm h,
    fun s hl he hd hm => exec_switchover_manager hl he hd hm, fun s e hl he hd => exec_probationExpired_due hl he hd,
    fun s cause hs hc hm => ccRestart_noDialogue cause hs hc hm⟩
  · subst ht
    exact ⟨exec_rootSecretDone_bothCopies hl hm hr hf, exec_rootSecretDone_noCopy hl hm hr hf⟩
  · exact writeRow_reaches 0x0000CC5A ccRestartEffect h
  · refine (writeRow_reaches v ccRestartEffect h).trans ?_
    rw [ccRestartEffect, if_neg hv]
  · exact writeRow_reaches 0x0000A5C3 kickEffect h
  · refine (writeRow_reaches v kickEffect h).trans ?_
    rw [kickEffect, if_neg hv]
  · rw [exec_wdogExpire hl, if_pos h]
  · rw [exec_wdogExpire hl, h]
    rfl

end Sys2Proof.Machine
end

section
/-! The supplies' power-up sequence (O6), device resets by the clock monitor (O7), and GPIO edges, general timers and curtain time (O10). -/

namespace Sys2Proof.Machine

/-! ## Supplies and IO banks (R43-R57) -/

theorem setBank_phase (s : State) (b : Fin 2) (v : BankState) : (setBank s b v).power.phase = s.power.phase := by
  simp only [setBank, State.wrb, State.wrf, State.wr, State.modRegs_power, State.modPower_power]
  split <;> rfl

section
variable {s : State}

theorem exec_powerUp_off (d : Bool) (h : s.power.phase = .off) :
    exec (.powerUp d) s = .next (s.modPower fun p => { p with phase := .ramping, drained := p.drained || d }) := by
  change execPowerUp d s = _
  rw [execPowerUp, if_pos h]

/-- Lock reports the modes that the two banks have at that time (R51, R56). -/
theorem exec_pllLock_ramping (h : s.power.phase = .ramping) :
    exec .pllLock s = .next (setBank (setBank (((s.wrf Reg.CLK_STAT 1 0 3).wrf Reg.SYS_SUPPLY 5 3 7).modPower fun p => { p with phase := .locked })
      0 s.power.bank1) 1 s.power.bank2) := by
  change execPllLock s = _
  rw [execPllLock, if_pos h]
  rfl

theorem exec_porRelease_locked (role : BitVec 2) (rec : Bool) (hp : s.power.phase = .locked) (hb : s.power.bank2 ≠ .disabled)
    (hr : s.rst.resetNLow = false) (hd : s.power.drained = false) :
    exec (.porRelease role rec) s = .next (releaseReset (s.modPower fun p => { p with phase := .running, drained := false }) role rec) := by
  change execPorRelease role rec s = _
  simp only [execPorRelease, if_pos (show _ ∧ _ ∧ _ from ⟨hp, hb, hr⟩), hd, Bool.false_eq_true, if_false]

theorem exec_bankEnable_disabled {b : Fin 2} (v33 : Bool) (hp : s.power.phase ≠ .off) (hb : ioBank s b = .disabled) :
    exec (.bankEnable b v33) s = .next (setBank s b (if v33 then .on33 else .on18)) := by
  change execBankEnable b v33 s = _
  rw [execBankEnable, if_neg (not_or.2 ⟨hp, not_not.2 hb⟩)]

/-- What the loss of a bank does by the bank and by whether the device runs (R43-R45). -/
theorem exec_bankDisable_enabled {b : Fin 2} (hp : s.power.phase ≠ .off) (hb : ioBank s b ≠ .disabled) :
    exec (.bankDisable b) s = .next (
      if b = 0 then whenLive (setBank s b .disabled) bank1Lost
      else if s.power.phase = .running then (powerOnReset (setBank s b .disabled) 3 .ramping).wrb Reg.CLK_STAT 1 false
      else setBank s b .disabled) := by
  change execBankDisable b s = _
  simp only [execBankDisable, if_neg (not_or.2 ⟨hp, hb⟩), setBank_phase]

/-- Before the device runs, the loss of a bank is reported and nothing more: bank 1 stops nothing, bank 2 resets nothing. -/
theorem exec_bankDisable_notRunning {b : Fin 2} (hp : s.power.phase ≠ .off) (hr : s.power.phase ≠ .running)
    (hb : ioBank s b ≠ .disabled) : exec (.bankDisable b) s = .next (setBank s b .disabled) := by
  have hdead : (setBank s b .disabled).live = false := by simp [State.live, setBank_phase, hr]
  rw [exec_bankDisable_enabled hp hb, whenLive_dead _ hdead, if_neg hr, ite_self]

theorem exec_bankDisable_bank2_running (hr : s.power.phase = .running) (hb : s.power.bank2 ≠ .disabled) :
    exec (.bankDisable 1) s = .next ((powerOnReset (setBank s 1 .disabled) 3 .ramping).wrb Reg.CLK_STAT 1 false) := by
  have hp : s.power.phase ≠ .off := by simp [hr]
  have hb2 : ioBank s 1 ≠ .disabled := hb
  rw [exec_bankDisable_enabled hp hb2, if_neg (by decide), if_pos hr]

theorem exec_powerFail_on (back : Bool) (h : s.power.phase ≠ .off) :
    exec (.powerFail back) s = .next ((banksOff (powerOnReset s 1 (if back then .ramping else .off))).wrf Reg.CLK_STAT 1 0 0) := by
  change execPowerFail back s = _
  rw [execPowerFail, if_neg h]

theorem exec_regulatorFault_on (rail : Fin 3) (h : s.power.phase ≠ .off) :
    exec (.regulatorFault rail) s =
      .next (((banksOff (powerOnReset s 2 .ramping)).wrf Reg.CLK_STAT 1 0 0).wrb Reg.SYS_SUPPLY (3 + rail.val) false) := by
  change execRegulatorFault rail s = _
  rw [execRegulatorFault, if_neg h]

end

/-- Settles O6: each clause is a supply command in the phase in which it acts. -/
theorem supplySequence : Obligations.SupplySequence := by
  unfold Obligations.SupplySequence
  exact ⟨fun s d h => exec_powerUp_off d h, fun s h => exec_pllLock_ramping h,
    fun s role rec hp hb hr hd => exec_porRelease_locked role rec hp hb hr hd,
    fun s b hp hb => ⟨exec_bankEnable_disabled true hp hb, exec_bankEnable_disabled false hp hb⟩,
    fun s hp hr b hb => exec_bankDisable_notRunning hp hr hb, fun s hr hb => exec_bankDisable_bank2_running hr hb,
    fun s h => ⟨exec_powerFail_on false h, exec_powerFail_on true h⟩, fun s rail h => exec_regulatorFault_on rail h⟩

/-! ## The clock monitor (R81-R83) -/

/-- A running device after a clock failure. RES_OK falls with the resonator and no failure raises it. -/
def clockLost (s : State) (resonator : Bool) : State :=
  (deviceReset ((((s.bump Reg.CLK_STAT 31 16).wrb Reg.CLK_STAT 1 false).wrb Reg.CLK_STAT 0 (s.rdb Reg.CLK_STAT 0 && !resonator)).modCore
    fun c => { c with owesClockFail := true }) 2).modRst fun r => { r with clockBad := true }

theorem exec_clockFail_running {s : State} (resonator : Bool) (h : s.power.phase = .running) :
    exec (.clockFail resonator) s = .next (clockLost s resonator) := by
  change execClockFail resonator s = _
  rw [execClockFail, if_neg (not_not.2 h)]
  rfl

/-- The device after its resonator has failed: the clock failure holds its reset, and RES_OK is 0 (R83). -/
def resonatorLost : State := clockLost State.reset true

/-- The row that leads there from the state after reset. -/
theorem exec_clockFail_reset : exec (.clockFail true) State.reset = .next resonatorLost := exec_clockFail_running true rfl

/-- A failure of the PLL while the resonator is lost leaves RES_OK at 0. -/
theorem resOk_pllFail_resonatorLost : (clockLost resonatorLost false).rdb Reg.CLK_STAT 0 = false := by decide +kernel

/-- Refutes O7: its clause on CLOCK_FAIL writes RES_OK = 1 whenever the PLL is what fails. The monitor also watches a held reset (R83):
after a failure of the resonator, one of the PLL leaves RES_OK at 0 in the model, and the clause asks for 1. -/
theorem not_deviceResetSources : ¬ Obligations.DeviceResetSources := by
  unfold Obligations.DeviceResetSources
  rintro ⟨-, -, -, hclock, -⟩
  have hrun : resonatorLost.power.phase = .running := rfl
  have hclaim := (exec_clockFail_running false hrun).symm.trans (hclock resonatorLost false hrun)
  have hres := resOk_pllFail_resonatorLost
  rw [Host.Outcome.next.inj hclaim] at hres
  exact absurd hres (by decide +kernel)

/-! ## GPIO edges (R58) -/

theorem bitOf_or_two_pow (w : BitVec 16) (n : Fin 16) : bitOf (w ||| BitVec.ofNat 16 (2 ^ n.val)) n.val = true := by
  simp only [bitOf, BitVec.getLsbD_or, BitVec.getLsbD_ofNat, n.isLt, decide_true, Nat.testBit_two_pow_self, Bool.and_self, Bool.or_true]

/-- A pin that the device does not drive reads what the outside drives. -/
theorem pinLevel_input {s : State} {n : Nat} (hd : pinDrive s n = none) (hb : pinBankOn s n = true) :
    pinLevel s n = bitOf s.power.gpioIn n := by
  simp only [pinLevel, hb, hd, Option.getD_none, Bool.true_and]

/-- No level change of a pin is an edge while neither of its edges is selected. -/
theorem edgeSelected_none {s : State} {n : Nat} (before after : Bool) (h : s.rdf Reg.SYS_GPIO_IRQ_CFG (2 * n + 1) (2 * n) = 0) :
    edgeSelected s n before after = false := by
  have hbit (k : Nat) (hk : k < 2) : s.rdb Reg.SYS_GPIO_IRQ_CFG (2 * n + k) = false := by
    have ht := testBit_fld (s.rd Reg.SYS_GPIO_IRQ_CFG) (2 * n + 1) (2 * n) k
    rw [show fld _ _ _ = 0 from h, Nat.zero_testBit, decide_eq_true (by omega), Bool.true_and] at ht
    exact ht.symm
  rw [edgeSelected, hbit _ (by split <;> decide), Bool.and_false]

/-- The outside level of a ball is set or cleared. -/
def ballDriven (s : State) (n : Fin 16) (level : Bool) : State :=
  s.modPower fun p => { p with gpioIn :=
    if level then p.gpioIn ||| BitVec.ofNat 16 (2 ^ n.val) else p.gpioIn &&& ~~~(BitVec.ofNat 16 (2 ^ n.val)) }

theorem exec_gpioEdge {s : State} (n : Fin 16) (level : Bool) (hl : s.live = true) :
    exec (.gpioEdge n level) s = .next (recordEdge (ballDriven s n level) n.val (pinLevel s n.val)) :=
  congrArg Host.Outcome.next (whenLive_live _ hl)

theorem exec_gpioEdge_rising {s : State} {n : Fin 16} (hl : s.live = true) (hc : claimed s 1 n.val = false)
    (hd : pinDrive s n.val = none) (hb : pinBankOn s n.val = true) (hlow : bitOf s.power.gpioIn n.val = false)
    (hsel : s.rdb Reg.SYS_GPIO_IRQ_CFG (2 * n.val) = true) :
    exec (.gpioEdge n true) s = .next ((ballDriven s n true).wrb Reg.SYS_GPIO_IRQ_STAT n.val true) := by
  have hbefore : pinLevel s n.val = false := (pinLevel_input hd hb).trans hlow
  have hafter : pinLevel (ballDriven s n true) n.val = true :=
    (pinLevel_input (s := ballDriven s n true) hd hb).trans (bitOf_or_two_pow _ n)
  have hedge : edgeSelected (ballDriven s n true) n.val false true = true := hsel
  have hc' : claimed (ballDriven s n true) 1 n.val = false := hc
  rw [exec_gpioEdge n true hl, recordEdge, hbefore, hafter, hedge, hc']
  rfl

theorem exec_gpioEdge_unselected {s : State} {n : Fin 16} (level : Bool) (hl : s.live = true)
    (hsel : s.rdf Reg.SYS_GPIO_IRQ_CFG (2 * n.val + 1) (2 * n.val) = 0) :
    exec (.gpioEdge n level) s = .next (ballDriven s n level) := by
  have hedge (b a : Bool) : edgeSelected (ballDriven s n level) n.val b a = false := edgeSelected_none b a hsel
  rw [exec_gpioEdge n level hl, recordEdge, hedge, Bool.and_false]
  rfl

/-! ## General timers and curtain time (R58, R87, R88) -/

theorem timerCtrlEffect_claimed {s : State} {k : Nat} (v : Word) (h : claimed s 2 k = true) : timerCtrlEffect k s v = s := by
  rw [timerCtrlEffect, if_pos h]

theorem timerCtrlEffect_unclaimed {s : State} {k : Nat} (v : Word) (h : claimed s 2 k = false) :
    timerCtrlEffect k s v = s.wr (Reg.SYS_TMR_CTRL k) (BitVec.ofNat 32
      (b2n (bitOf v 0) + 2 * b2n (s.rdb (Reg.SYS_TMR_CTRL k) 1 && !bitOf v 0 && !bitOf v 1))) := by
  rw [timerCtrlEffect, h]
  rfl

/-- A tick at a timer that no cell has armed is the comparison of R58 alone. -/
theorem timerTick_noCellTimer {s : State} {k : Fin 8} (h : s.fab.timers[k] = (none, false)) :
    timerTick s k = if timerDue s k.val then s.wrb (Reg.SYS_TMR_CTRL k.val) 1 true else s := by
  have hcell (t : State) (ht : t.fab = s.fab) : cellTimerDue t k = false := by
    rw [cellTimerDue, ht, h]
  rw [timerTick, hcell _ (by split <;> rfl)]
  rfl

/-- An armed timer that has not expired is due once curtain time has reached its value. -/
theorem timerDue_armed {s : State} {k : Nat} (hc : claimed s 2 k = false) (hen : s.rdb (Reg.SYS_TMR_CTRL k) 0 = true)
    (hexp : s.rdb (Reg.SYS_TMR_CTRL k) 1 = false) :
    timerDue s k = decide (s.rd64 (Reg.SYS_TMR_LO k) (Reg.SYS_TMR_HI k) ≤ s.ct.toNat) := by
  rw [timerDue, timerOn, timerExpired, hc, hen, hexp]
  rfl

theorem exec_timerExpired {s : State} (k : Fin 8) (hl : s.live = true) : exec (.timerExpired k) s = .next (timerTick s k) :=
  congrArg Host.Outcome.next (whenLive_live _ hl)

/-- A permitted read of CLK_CT_LO answers the low half and fills this master's shadow. -/
theorem exec_ctRead_reads {s : State} {m : Master} (h : s.readsFrom m Reg.CLK_CT_LO = true) :
    exec (.ctRead m) s = .next ((ctReadLo s m).2.resp m (bytesLE 4 (ctReadLo s m).1.toNat)) := by
  obtain ⟨hl, -, hp, -⟩ := permits_parts h
  change execCtRead m s = _
  rw [execCtRead, whenLive_live _ hl, flushPairs_nil s m _ hp, gated_permitted _ h]

/-- Settles O10, clause by clause: an edge, a write of a timer, a tick, and the two accesses to curtain time. -/
theorem gpioTimersAndTime : Obligations.GpioTimersAndTime := by
  unfold Obligations.GpioTimersAndTime
  refine ⟨fun s n hl hc hd hb hlow hsel => exec_gpioEdge_rising hl hc hd hb hlow hsel,
    fun s n hl hsel => exec_gpioEdge_unselected false hl hsel, fun s m k v h hc => ?_, fun s m k v h hc => ?_,
    fun s k hl hk hc hen hexp => ?_, fun s m h => exec_ctRead_reads h, fun s m v h => writeRow_reaches v ctCtrlEffect h⟩
  · rw [← timerCtrlEffect_unclaimed v hc]
    exact writeRow_reaches v (timerCtrlEffect k.val) h
  · refine (writeRow_reaches v (timerCtrlEffect k.val) h).trans ?_
    rw [timerCtrlEffect_claimed v hc]
  · rw [exec_timerExpired k hl, timerTick_noCellTimer hk, timerDue_armed hc hen hexp]
    simp only [decide_eq_true_eq]

end Sys2Proof.Machine
end

section
/-! Ejector links (R71, R319-R329; O44): exchanges, confirmations, port states and drivers. -/

namespace Sys2Proof.Machine

/-! ## One ejector port -/

section
variable {s : State} {n : Fin 4}

@[simp] theorem ejp_modEjp (f : EjPort → EjPort) : (s.modEjp n.val f).ejp n.val = f (s.ejp n.val) := by
  simp [State.ejp, State.modEjp, n.isLt]

theorem modEjp_modEjp (f g : EjPort → EjPort) :
    (s.modEjp n.val f).modEjp n.val g = s.modEjp n.val fun p => g (f p) := by
  simp [State.modEjp, State.modEj, n.isLt]

/-! ## What starts, ends and fails an exchange (R319-R322) -/

/-- A free port that owes no LINK_OPEN starts the exchange it is asked for. -/
theorem ejTurn_free (f : State → State) (hx : (s.ejp n.val).exch = none) (ho : (s.ejp n.val).openNext = false) :
    ejTurn s n.val f = f s := by
  simp only [ejTurn, hx, ho, Option.isSome_none, Bool.false_eq_true, if_false]

theorem fireIsDue_emptyQueue (h : (s.ejp n.val).queue = []) : fireIsDue s n.val = false := by
  rw [fireIsDue, h]

/-- A response of the right TYPE and SEQ ends the exchange and is judged. -/
theorem ejAnswer_echoed {x : EjExch} {kinds : List EjFrame} (f : State → EjExch → State)
    (hx : (s.ejp n.val).exch = some x) (hk : x.kind ∈ kinds) (hq : x.seq < 256) :
    ejAnswer s n.val (BitVec.ofNat 8 x.seq).toNat kinds f =
      f (s.modEjp n.val fun p => { p with exch := none, fails := 0 }) x := by
  have hseq : (BitVec.ofNat 8 x.seq).toNat = x.seq := Nat.mod_eq_of_lt hq
  rw [ejAnswer, hx]
  simp only [hseq, List.contains_iff_mem.2 hk, beq_self_eq_true, Bool.and_self, if_true]

/-- A frame without commands is resent while retries last: no command of it can be too late. -/
theorem ejFail_resend {x : EjExch} (hx : (s.ejp n.val).exch = some x) (hk : x.kind ≠ .fire) (hc : x.cmds = [])
    (ht : x.tries < s.rdf (Reg.EJ_PCFG n.val) 26 24) :
    ejFail s n.val =
      ejSend (((s.bump (Reg.EJ_PLATE n.val) 31 0 0).modEjp n.val fun p => { p with exch := none }).bump (Reg.EJ_PRETRY n.val) 31 0)
        n.val { x with tries := x.tries + 1 } := by
  obtain ⟨kind, seq, cmds, tries, sent⟩ := x
  subst hc
  have hnotFire : kind ≠ .fire := hk
  rw [ejFail, hx]
  simp only [if_pos ht, List.filter_nil, hnotFire, false_and, if_false, List.length_nil, List.nil_append]

/-! ## New exchanges (R321, R322, R327) -/

section
variable (hl : s.live = true)
include hl

theorem exec_syncDue_up (hu : (s.ejp n.val).state = .up) (hx : (s.ejp n.val).exch = none)
    (ho : (s.ejp n.val).openNext = false) (hq : (s.ejp n.val).queue = []) :
    exec (.syncDue n) s = .next (ejStart s n.val .sync) := by
  change execSyncDue n s = _
  rw [execSyncDue, whenLive_live _ hl, if_pos (.inl hu), ejTurn_free _ hx ho, fireIsDue_emptyQueue hq, Bool.and_false]
  rfl

theorem exec_statusPoll_up (hu : (s.ejp n.val).state = .up) (hx : (s.ejp n.val).exch = none)
    (ho : (s.ejp n.val).openNext = false) (hq : (s.ejp n.val).queue = []) :
    exec (.statusPoll n) s = .next (ejStart s n.val .statusReq) := by
  change execStatusPoll n s = _
  rw [execStatusPoll, whenLive_live _ hl, if_neg (not_not.2 hu), ejTurn_free _ hx ho, fireIsDue_emptyQueue hq]
  rfl

theorem exec_linkOpenProbe_probing (hp : (s.ejp n.val).state = .probing) (hx : (s.ejp n.val).exch = none)
    (ho : (s.ejp n.val).openNext = false) :
    exec (.linkOpenProbe n) s = .next (ejStart s n.val .linkOpen) := by
  change execLinkOpenProbe n s = _
  simp only [execLinkOpenProbe, whenLive_live _ hl, hp, ejTurn_free _ hx ho]

theorem exec_portReprobe_down (hd : (s.ejp n.val).state = .down) :
    exec (.portReprobe n) s = .next (setEjState (s.modEjp n.val ejFresh) n.val .probing) := by
  change execPortReprobe n s = _
  rw [execPortReprobe, whenLive_live _ hl, if_pos hd]

/-! ## Responses of the bank (R319, R323, R325) -/

/-- The one command of a FIRE awaits confirmation when its RES is ARMED or DUPLICATE. -/
theorem exec_fireAck_armed {x : EjExch} {c : FireCmd} {r : Byte} (hx : (s.ejp n.val).exch = some x) (hk : x.kind = .fire)
    (hq : x.seq < 256) (hc : x.cmds = [c]) (hr : r.toNat ≤ 1) :
    exec (.fireAck n (BitVec.ofNat 8 x.seq) [r] []) s = .next (s.modEjp n.val fun p =>
      { p with exch := none, fails := 0, await := c :: p.await }) := by
  have hkind : x.kind ∈ [EjFrame.fire] := List.mem_singleton.2 hk
  have hlen : [r].length = x.cmds.length := by rw [hc]; rfl
  change execFireAck n _ [r] [] s = _
  rw [execFireAck, whenLive_live _ hl, ejAnswer_echoed _ hx hkind hq, if_pos hlen, hc]
  simp only [List.foldl_nil, fireResults, fireResult, List.head?_cons, if_pos hr, modEjp_modEjp]

/-- The NVALVES of a STATUS that answers the LINK_OPEN of PROBING is recorded. -/
theorem exec_statusFrame_opens {x : EjExch} (v : Byte) (hx : (s.ejp n.val).exch = some x) (hk : x.kind = .linkOpen)
    (hq : x.seq < 256) (hp : (s.ejp n.val).state = .probing) :
    exec (.statusFrame n (BitVec.ofNat 8 x.seq) v 0 []) s = .next (s.modEjp n.val fun p =>
      { p with exch := none, fails := 0, opened := some v.toNat, overflow := false }) := by
  have hkind : x.kind ∈ [EjFrame.statusReq, .linkOpen] := by simp [hk]
  have hflag : bitOf (0 : Byte) 1 = false := by decide
  change execStatusFrame n _ v 0 [] s = _
  rw [execStatusFrame, whenLive_live _ hl, ejAnswer_echoed _ hx hkind hq]
  simp only [ejp_modEjp, hk, hp, hflag, and_self, if_true, Bool.false_and, Bool.false_eq_true, if_false, List.foldl_nil,
    modEjp_modEjp]

theorem exec_syncRsp_outOfBounds {x : EjExch} {t2 t3 : Word} (t4 : CTime) (hx : (s.ejp n.val).exch = some x)
    (hk : x.kind = .sync) (hq : x.seq < 256) (hd : (t3 - t2).toInt < 80 ∨ 180 < (t3 - t2).toInt) :
    exec (.syncRsp n (BitVec.ofNat 8 x.seq) t2 t3 t4) s =
      .next (ejViolation ((s.modEjp n.val fun p => { p with exch := none, fails := 0 }).modEjp n.val fun p => { p with good := 0 })
        n.val) := by
  have hkind : x.kind ∈ [EjFrame.sync] := List.mem_singleton.2 hk
  change execSyncRsp n _ t2 t3 t4 s = _
  rw [execSyncRsp, whenLive_live _ hl, ejAnswer_echoed _ hx hkind hq, if_pos hd]

/-- The first pair has nothing to be compared with: the bank's time is taken as it stands. -/
theorem exec_syncRsp_firstPair {x : EjExch} {t2 t3 : Word} (t4 : CTime) (hx : (s.ejp n.val).exch = some x)
    (hk : x.kind = .sync) (hq : x.seq < 256) (hlo : 80 ≤ (t3 - t2).toInt) (hhi : (t3 - t2).toInt ≤ 180)
    (hp : (s.ejp n.val).pairs = []) :
    exec (.syncRsp n (BitVec.ofNat 8 x.seq) t2 t3 t4) s =
      .next (pairAccept (s.modEjp n.val fun p => { p with exch := none, fails := 0 }) n.val ((x.sent.toNat + t4.toNat) / 2)
        ((t2 + BitVec.ofInt 32 ((t3 - t2).toInt / 2)).toNat : Int)) := by
  have hkind : x.kind ∈ [EjFrame.sync] := List.mem_singleton.2 hk
  have hin : ¬((t3 - t2).toInt < 80 ∨ 180 < (t3 - t2).toInt) := by omega
  change execSyncRsp n _ t2 t3 t4 s = _
  rw [execSyncRsp, whenLive_live _ hl, ejAnswer_echoed _ hx hkind hq, if_neg hin]
  simp only [ejp_modEjp, hp, List.isEmpty_nil, Bool.not_true, Bool.false_and, Bool.false_eq_true, if_false, if_true]

/-! ## Failed exchanges (R319, R320) -/

theorem exec_exchangeTimeout : exec (.exchangeTimeout n) s = .next (ejFail s n.val) := by
  change execExchangeTimeout n s = _
  rw [execExchangeTimeout, whenLive_live _ hl]

theorem exec_bankResponseDiscarded_awaited {x : EjExch} (wrong : Bool) (hx : (s.ejp n.val).exch = some x) :
    exec (.bankResponseDiscarded n wrong) s = .next (ejFail (if wrong then ejViolation s n.val else s) n.val) := by
  have hawaited : ¬(s.ejp n.val).exch.isNone = true := by simp [hx]
  change execBankResponseDiscarded n wrong s = _
  rw [execBankResponseDiscarded, whenLive_live _ hl, if_neg hawaited]

/-! ## Missing confirmations and hot drivers (R71, R325, R329) -/

/-- 5 ms after its end, a command that still awaits confirmation has an unknown fate. -/
theorem exec_ejNoconf_overdue {id : Half} {c : FireCmd} (hf : (s.ejp n.val).await.find? (fun c => c.id == id.toNat) = some c)
    (ht : c.tOn + 200 * c.width + 1000000 ≤ s.ct.toNat) :
    exec (.ejNoconf n id) s = .next (raise ((s.bump (Reg.EJ_PNOCONF n.val) 31 0).modEjp n.val fun p =>
      { p with await := p.await.filter (·.id != c.id), unknown := c :: p.unknown }) Err.EJ_NOCONF ejSrc
      (BitVec.ofNat 64 (n.val * 65536 + id.toNat))) := by
  change execEjNoconf n id s = _
  simp only [execEjNoconf, whenLive_live _ hl, hf, if_neg (Nat.not_lt.2 ht)]

theorem exec_ejDriverHot : exec (.ejDriverHot n) s = .next (if s.rdb (Reg.EJ_PSTAT n.val) 29 then s
    else raise (s.wrb (Reg.EJ_PSTAT n.val) 29 true) Err.EJ_DRIVER_HOT ejSrc (BitVec.ofNat 64 n.val)) := by
  change execEjDriverHot n s = _
  rw [execEjDriverHot, whenLive_live _ hl]

theorem exec_driverCool : exec (.driverCool n) s = .next (s.wrb (Reg.EJ_PSTAT n.val) 29 false) := by
  change execDriverCool n s = _
  rw [execDriverCool, whenLive_live _ hl]

end

end

/-- Settles O44, clause by clause: exchanges, answers, failures, confirmations and drivers. -/
theorem ejectorLinks : Obligations.EjectorLinks := by
  unfold Obligations.EjectorLinks
  refine ⟨fun s n hl hu hx ho hq => ⟨exec_syncDue_up hl hu hx ho hq, exec_statusPoll_up hl hu hx ho hq⟩,
    fun s n hl hp hx ho => exec_linkOpenProbe_probing hl hp hx ho, fun s n hl hd => exec_portReprobe_down hl hd,
    fun s n x c r hl hx hk hq hc hr => exec_fireAck_armed hl hx hk hq hc hr,
    fun s n x v hl hx hk hq hp => exec_statusFrame_opens hl v hx hk hq hp,
    fun s n x t2 t3 t4 hl hx hk hq => ⟨exec_syncRsp_outOfBounds hl t4 hx hk hq, exec_syncRsp_firstPair hl t4 hx hk hq⟩,
    fun s n x hl hx hk hc ht => ?_, fun s n x hl hx => exec_bankResponseDiscarded_awaited hl true hx,
    fun s n id c hl hf ht => exec_ejNoconf_overdue hl hf ht, fun s n hl => ⟨exec_ejDriverHot hl, exec_driverCool hl⟩⟩
  rw [← ejFail_resend hx hk hc ht]
  exact ⟨exec_exchangeTimeout hl, exec_bankResponseDiscarded_awaited hl false hx⟩

end Sys2Proof.Machine
end

section
/-! What a device reset leaves of memory (R92, R93; O8), and the masters' shadows of curtain time (R87; O11). -/

namespace Sys2Proof.Machine

/-! ## Memory after a reset (R92, R93) -/

/-- On a device that is not in reset, a device reset is `afterReset` with its cause and the assertion noted (R91). -/
theorem deviceReset_first {s : State} (cause : Nat) (hr : s.rst.asserted = false) : deviceReset s cause =
    ((afterReset s).wrf Reg.RST_CAUSE 3 0 cause).modRst fun r => { r with asserted := true, due := false } := by
  rw [deviceReset, hr, if_neg Bool.false_ne_true]

theorem deviceReset_mem {s : State} (cause : Nat) (hr : s.rst.asserted = false) : (deviceReset s cause).mem = keptMemory s := by
  rw [deviceReset_first cause hr]
  rfl

theorem deviceReset_ms {s : State} (cause : Nat) (hr : s.rst.asserted = false) : (deviceReset s cause).ms = {} := by
  rw [deviceReset_first cause hr]
  rfl

/-- The memory of which a reset keeps MRAM: the word in the programming engine has been stored (R120). -/
def storedMemory (s : State) : Memory :=
  match s.mram.engine with
  | some w => putBytes s.mem w.addr (bytesLE 8 w.data.toNat)
  | none => s.mem

theorem storedMemory_idle {s : State} (h : s.mram.engine = none) : storedMemory s = s.mem := by
  rw [storedMemory, h]

theorem wf_storedMemory {s : State} (w : s.mem.wf = true) : (storedMemory s).wf = true := by
  unfold storedMemory
  split
  · exact wf_putBytes _ _ _ w
  · exact w

/-- A reset keeps the bytes of MRAM, and every other byte reads zero. -/
theorem sget_keptMemory {s : State} (a : Nat) (w : s.mem.wf = true) :
    sget memDefault (keptMemory s) a = if 0x20000000 ≤ a ∧ a < 0x20800000 then sget memDefault (storedMemory s) a else 0 := by
  have hfilter := sget_filterFrom memDefault (fun c => decide (0x20000000 ≤ c.1) && decide (c.1 < 0x20800000)) a
    (storedMemory s) 0 (wf_storedMemory w)
  simp only [Bool.and_eq_true, decide_eq_true_eq] at hfilter
  exact hfilter

/-- Settles O8: `keptMemory` is MRAM alone, and the marks of `afterReset` are the reset value's. -/
theorem deviceResetClearsSram : Obligations.DeviceResetClearsSram := by
  unfold Obligations.DeviceResetClearsSram
  refine fun s cause hr w => ⟨?_, fun a ha => ?_, fun he a hlo hhi => ?_⟩
  · rw [deviceReset_ms cause hr]
  · rw [State.byteAt, deviceReset_mem cause hr, sget_keptMemory a w, if_neg (by omega)]
  · rw [State.byteAt, deviceReset_mem cause hr, sget_keptMemory a w, if_pos ⟨hlo, hhi⟩, storedMemory_idle he, State.byteAt]

/-! ## The shadows of curtain time (R87) -/

/-- The master that has the shadow at a place. -/
def masterAt : Fin 6 → Master
  | 0 => .cc | 1 => .en | 2 => .fd | 3 => .ld | 4 => .hd | 5 => .dbg

theorem masterAt_masterIdx (m : Master) : masterAt (masterIdx m) = m := by cases m <;> rfl

/-- Each master has a shadow of its own. -/
theorem masterIdx_injective : Function.Injective masterIdx := Function.LeftInverse.injective masterAt_masterIdx

/-- What a master reads at CLK_CT_HI rests on the shadows, and neither on curtain time nor on responses sent. -/
theorem ctReadHi_congr {s t : State} (m : Master) (h : t.gate = s.gate) : ctReadHi t m = ctReadHi s m := by
  rw [ctReadHi, ctReadHi, h]

theorem ctReadHi_ctReadLo_same (s : State) (m : Master) : ctReadHi (ctReadLo s m).2 m = BitVec.ofNat 32 (s.ct.toNat / 2 ^ 32) :=
  Vector.getElem_set_self _

theorem ctReadHi_ctReadLo_other (s : State) {m m' : Master} (h : m' ≠ m) : ctReadHi (ctReadLo s m).2 m' = ctReadHi s m' := by
  have hidx : (masterIdx m).val ≠ (masterIdx m').val := fun e => h (masterIdx_injective (Fin.ext e)).symm
  exact Vector.getElem_set_ne (masterIdx m).isLt (masterIdx m').isLt hidx

theorem ctReadLo_value (s : State) (m : Master) : (ctReadLo s m).1.toNat = s.ct.toNat % 2 ^ 32 :=
  BitVec.toNat_ofNat _ _

/-- Settles O11: the capture fills the reading master's shadow alone, and curtain time does not enter it again. -/
theorem curtainTimeLatch : Obligations.CurtainTimeLatch := by
  unfold Obligations.CurtainTimeLatch
  refine fun s m h => ⟨_, exec_ctRead_reads h, ?_, fun c => ?_, fun m' hm => ?_, rfl, rfl, rfl⟩
  · rw [ctReadLo_value]
    rfl
  · exact (ctReadHi_congr m rfl).trans (ctReadHi_ctReadLo_same s m)
  · exact (ctReadHi_congr m' rfl).trans (ctReadHi_ctReadLo_other s hm)

end Sys2Proof.Machine
end

section
/-! What leaves memory alone: the raise of an error and all that may follow it (R28-R30, R531-R536), and runs of bytes read from memory. -/

namespace Sys2Proof.Machine

/-! ## Raises leave memory alone -/

theorem foldl_mem {α : Type} (f : State → α → State) (hf : ∀ t x, (f t x).mem = t.mem) :
    ∀ (l : List α) (s : State), (l.foldl f s).mem = s.mem
  | [], _ => rfl
  | x :: l, s => (foldl_mem f hf l (f s x)).trans (hf s x)

@[simp] theorem wr_mem (s : State) (a : Nat) (v : Word) : (s.wr a v).mem = s.mem := rfl
@[simp] theorem wrb_mem (s : State) (a k : Nat) (b : Bool) : (s.wrb a k b).mem = s.mem := rfl

/-- A choice leaves memory alone when both its branches do. -/
theorem mem_branch {r a b : State} {c : Prop} [Decidable c] (h : a.mem = r.mem) (k : b.mem = r.mem) :
    (if c then a else b).mem = r.mem := by
  split
  · exact h
  · exact k

@[simp] theorem postEvent_mem (s : State) (code : Half) (lane : Nat) (body : List Byte) : (postEvent s code lane body).mem = s.mem :=
  mem_branch (mem_branch rfl rfl) (mem_branch rfl (mem_branch rfl rfl))

@[simp] theorem modLane_mem (s : State) (p : Nat) (f : Lane → Lane) : (s.modLane p f).mem = s.mem := mem_branch rfl rfl

@[simp] theorem setLane_mem (s : State) (p : Nat) (st : LaneState) (cause : Half) : (setLane s p st cause).mem = s.mem := by
  unfold setLane
  simp only [apply_ite State.mem, postEvent_mem, modLane_mem, State.modFw_mem, State.modRing_mem, State.modLanes_mem, ite_self]

@[simp] theorem ownLaneFault_mem (s : State) (cause : Half) (f : LaneFaults → LaneFaults) : (ownLaneFault s cause f).mem = s.mem :=
  mem_branch ((setLane_mem _ _ _ _).trans (modLane_mem _ _ _)) (mem_branch (modLane_mem _ _ _) rfl)

@[simp] theorem ejDisarm_mem (s : State) : (ejDisarm s).mem = s.mem := by
  unfold ejDisarm setPermit
  rw [State.modPower_mem]
  refine (foldl_mem _ ?_ _ _).trans (wrb_mem _ _ _ _)
  exact fun _ _ => rfl

@[simp] theorem cellsStop_mem (s : State) : (cellsStop s).mem = s.mem := by
  unfold cellsStop
  rw [State.modFab_mem, wrb_mem]
  exact foldl_mem _ (fun _ _ => wrb_mem _ _ _ _) _ _

@[simp] theorem loadAbandon_mem (s : State) : (loadAbandon s).mem = s.mem := by
  unfold loadAbandon
  split
  · exact mem_branch rfl rfl
  · rfl

@[simp] theorem latchError_mem (s : State) (code : Half) (src : Byte) (detail : DWord) : (latchError s code src detail).mem = s.mem := by
  have hfatal : (if (errClass code).val = 3 then s.modFw fun w => { w with sawFatal := true } else s).mem = s.mem := mem_branch rfl rfl
  exact mem_branch hfatal hfatal

@[simp] theorem safeEffects_mem (s : State) (cause : Half) : (safeEffects s cause).mem = s.mem := by
  simp only [safeEffects, setLane_mem, ejDisarm_mem, loadAbandon_mem, cellsStop_mem]

@[simp] theorem enterSafe_mem (s : State) (cause : Half) : (enterSafe s cause).mem = s.mem :=
  mem_branch rfl ((safeEffects_mem _ _).trans (latchError_mem _ _ _ _))

/-- The raise of an error, entry into the safe state included, leaves memory alone. -/
@[simp] theorem raise_mem (s : State) (code : Half) (src : Byte) (detail : DWord) : (raise s code src detail).mem = s.mem := by
  have hlatched : (if errClass code = 4 then countSecurity (latchError s code src detail) else latchError s code src detail).mem = s.mem :=
    mem_branch (latchError_mem s code src detail) (latchError_mem s code src detail)
  exact mem_branch ((enterSafe_mem _ _).trans hlatched) hlatched

/-- An exception of a cell stores nothing (R303). -/
@[simp] theorem cellFault_mem (s : State) (c cause : Nat) : (cellFault s c cause).mem = s.mem := by
  have hstopped := (wr_mem (cellsStop s) (Reg.CELL_STAT c) (BitVec.ofNat 32 (2 ^ 29 + cause * 2 ^ 25 + (s.cell c).pc.toNat))).trans
    (cellsStop_mem s)
  simp only [cellFault, ownLaneFault_mem]
  rw [wrb_mem, raise_mem]
  exact mem_branch hstopped ((wr_mem _ _ _).trans hstopped)

/-! ## Runs of bytes -/

theorem bytesAt_congr {s t : State} (h : t.mem = s.mem) : ∀ n a, t.bytesAt a n = s.bytesAt a n
  | 0, _ => rfl
  | n + 1, a => by rw [State.bytesAt, State.bytesAt, bytesAt_congr h n, State.byteAt, State.byteAt, h]

@[simp] theorem length_bytesAt (s : State) : ∀ n a, (s.bytesAt a n).length = n
  | 0, _ => rfl
  | n + 1, a => by rw [State.bytesAt, List.length_cons, length_bytesAt s n]

theorem bytesAt_add (s : State) (n : Nat) : ∀ m a, s.bytesAt a (m + n) = s.bytesAt a m ++ s.bytesAt (a + m) n
  | 0, a => by simp [State.bytesAt]
  | m + 1, a => by
    rw [Nat.add_right_comm, State.bytesAt, bytesAt_add s n m, State.bytesAt, List.cons_append, Nat.add_assoc, Nat.add_comm 1 m]

/-- Part of a run of bytes is the run at its own address. -/
theorem take_drop_bytesAt (s : State) (a : Nat) {k len n : Nat} (h : k + len ≤ n) :
    ((s.bytesAt a n).drop k).take len = s.bytesAt (a + k) len := by
  obtain ⟨r, rfl⟩ := Nat.exists_eq_add_of_le h
  rw [Nat.add_assoc, bytesAt_add, List.drop_left' (length_bytesAt s k a), bytesAt_add, List.take_left' (length_bytesAt s len _)]

/-- Bytes outside those stored read as before. -/
theorem byteAt_setBytes_outside {s : State} {a b : Nat} {l : List Byte} (w : s.mem.wf = true) (h : b < a ∨ a + l.length ≤ b) :
    (s.setBytes a l).byteAt b = s.byteAt b := by
  rw [byteAt_setBytes s a b l w, dif_neg (by omega)]

/-- Memory out of canonical form: its keys do not rise, so that a zero stored at `a` does not remove the entry there. -/
def unsortedMem (a : Nat) : Memory := [(a + 1, 1), (a, 1)]

end Sys2Proof.Machine
end

section
/-! System SRAM and enclave SRAM (R108-R115, R400; O12, O13): reads, full and partial writes, write pairs and the scrubbers. -/

namespace Sys2Proof.Machine

/-! ## Words and their check bits (R110) -/

theorem upsetBits_nil (w : Nat) : upsetBits [] w = 0 := rfl

theorem sramCheck_noUpset (s : State) (w : Nat) : sramCheck s w 0 = s := by
  rw [sramCheck, if_pos rfl, ite_self]

theorem sramReadWord_clean {s : State} {w : Nat} (h : w ∉ s.ms.poison) : sramReadWord s w 0 = (s.bytesAt w 8, 0, s) := by
  simp only [sramReadWord, sramCheck_noUpset, if_neg h]

theorem sramReadWord_poisoned {s : State} {w : Nat} (h : w ∈ s.ms.poison) (hg : gateOf w = 1) :
    sramReadWord s w 0 = (List.replicate 8 0, Err.MEM_POISON, s.bump Reg.MEM_POISON_HITS 15 0) := by
  simp only [sramReadWord, sramCheck_noUpset, if_pos h, if_pos hg]

theorem sramReadWords_clean {s : State} : ∀ {n w : Nat}, (∀ i < n, w + 8 * i ∉ s.ms.poison) →
    sramReadWords s [] w n = (s.bytesAt w (8 * n), 0, s)
  | 0, _, _ => rfl
  | n + 1, w, h => by
    have hfirst : w ∉ s.ms.poison := h 0 n.succ_pos
    have hrest : ∀ i < n, w + 8 + 8 * i ∉ s.ms.poison := fun i hi => by
      have := h (i + 1) (Nat.succ_lt_succ hi)
      rwa [Nat.mul_succ, Nat.add_comm (8 * i), ← Nat.add_assoc] at this
    rw [sramReadWords, upsetBits_nil, sramReadWord_clean hfirst]
    simp only [sramReadWords_clean hrest, if_true, Nat.mul_succ, Nat.add_comm (8 * n), bytesAt_add s (8 * n) 8 w]

/-- An access within one word touches that word alone. -/
theorem wordSpan_oneWord {a len : Nat} (hpos : 0 < len) (hfit : a % 8 + len ≤ 8) : wordSpan a len = 1 := by
  rw [wordSpan, if_neg (by omega)]
  omega

/-- An access that is not empty lies within the words it touches. -/
theorem wordSpan_covers {a len : Nat} (hpos : 0 < len) :
    a % 8 + len ≤ 8 * wordSpan a len ∧ ∀ i < wordSpan a len, a / 8 * 8 + 8 * i < a + len := by
  rw [wordSpan, if_neg (by omega)]
  exact ⟨by omega, fun i hi => by omega⟩

/-- A read that touches no poisoned word and finds no bit in error answers the bytes from its address and changes nothing. -/
theorem sramRead_clean {s : State} {a len : Nat} (hp : ∀ w ∈ s.ms.poison, w + 8 ≤ a ∨ a + len ≤ w) :
    sramRead s [] a len = (s.bytesAt a len, 0, s) := by
  rcases Nat.eq_zero_or_pos len with rfl | hpos
  · rfl
  · obtain ⟨hcover, htouch⟩ := wordSpan_covers (a := a) hpos
    have hclean : ∀ i < wordSpan a len, a / 8 * 8 + 8 * i ∉ s.ms.poison := fun i hi hm => by
      have := htouch i hi
      have := hp _ hm
      omega
    simp only [sramRead, sramReadWords_clean hclean, take_drop_bytesAt s _ hcover, Nat.div_add_mod']

/-- A read of one poisoned word of system SRAM answers zeros with the precise error, and counts a hit. -/
theorem sramRead_poisoned {s : State} {a : Nat} (h : a ∈ s.ms.poison) (hg : gateOf a = 1) (ha : a % 8 = 0) :
    sramRead s [] a 8 = (List.replicate 8 0, Err.MEM_POISON, s.bump Reg.MEM_POISON_HITS 15 0) := by
  have hword : a / 8 * 8 = a := by omega
  rw [sramRead, wordSpan_oneWord (by decide) (by omega), hword, ha]
  simp only [sramReadWords, upsetBits_nil, sramReadWord_poisoned h hg, List.append_nil, List.drop_zero]
  rfl

/-- A single bit in error of enclave SRAM is corrected, counted and raised (R400). -/
theorem sramCheck_corrected {s : State} {w : Nat} (hg : gateOf w ≠ 1) (hp : w ∉ s.ms.poison) : sramCheck s w 1 =
    raise (s.bump Reg.PAV_MEMCE 15 0) Err.MEM_CE 0x80 (BitVec.ofNat 64 w) := by
  simp only [sramCheck, if_neg hp, Nat.one_ne_zero, if_false, if_true, sramCorrected, sramSrc, if_neg hg]

/-- Two bits in error of enclave SRAM poison the word and are raised (R110, R400). -/
theorem sramCheck_uncorrectable {s : State} {w bits : Nat} (hg : gateOf w ≠ 1) (hp : w ∉ s.ms.poison) (hb : 2 ≤ bits) :
    sramCheck s w bits = raise (s.modMs fun x => { x with poison := nsAdd x.poison w }) Err.MEM_UE 0x80 (BitVec.ofNat 64 w) := by
  have hnone : bits ≠ 0 := by omega
  have hone : bits ≠ 1 := by omega
  simp only [sramCheck, if_neg hp, hnone, hone, if_false, sramPoison, sramSrc, if_neg hg]

/-! ## Gates of words -/

theorem gateOf_eq_one_iff (a : Nat) : gateOf a = 1 ↔ 0x10000000 ≤ a ∧ a < 0x10400000 := by
  unfold gateOf
  refine ⟨fun h => ?_, fun h => by rw [if_neg (by omega), if_pos h]⟩
  split_ifs at h <;> omega

/-- Every byte of a word has the word's source block. -/
theorem sramSrc_word (a : Nat) : sramSrc (a / 8 * 8) = sramSrc a := by
  have hgate : gateOf (a / 8 * 8) = 1 ↔ gateOf a = 1 := by
    rw [gateOf_eq_one_iff, gateOf_eq_one_iff]
    omega
  simp only [sramSrc, hgate]

/-- The words that the scrubber of enclave SRAM visits are none of system SRAM's. -/
theorem gateOf_enclaveWord {i : Nat} (h : i < 32768) : gateOf (enclaveBase + 8 * i) ≠ 1 := by
  rw [Ne, gateOf_eq_one_iff, enclaveBase]
  omega

/-! ## Writes within one word (R111-R114) -/

theorem sramWriteWord_full (s : State) (w bits : Nat) {d : List Byte} (hd : d.length = 8) : sramWriteWord s w 0 d bits =
    (false, (s.setBytes w d).modMs fun x => { x with poison := nsDel x.poison w }) := by
  rw [sramWriteWord, if_pos ⟨rfl, hd⟩]

theorem sramWriteWord_partial (s : State) (w off : Nat) {d : List Byte} (hd : d.length ≠ 8) : sramWriteWord s w off d 0 =
    (decide (w ∈ s.ms.poison), s.setBytes (w + off) d) := by
  rw [sramWriteWord, if_neg fun h => hd h.2]
  simp only [sramCheck_noUpset]

/-- A write within one word is one write of its word. -/
theorem sramWriteWords_oneWord (s : State) {a : Nat} {d : List Byte} (hpos : 0 < d.length) (hfit : a % 8 + d.length ≤ 8) :
    sramWriteWords s [] (wordSpan a d.length) a d =
      (if (sramWriteWord s (a / 8 * 8) (a % 8) d 0).1 then some (a / 8 * 8) else none, (sramWriteWord s (a / 8 * 8) (a % 8) d 0).2) := by
  rw [wordSpan_oneWord hpos hfit, sramWriteWords]
  simp only [List.take_of_length_le (show d.length ≤ 8 - a % 8 by omega)]
  rfl

theorem sramWrite_full (s : State) (m : Master) {a : Nat} {d : List Byte} (ha : a % 8 = 0) (hd : d.length = 8) :
    sramWrite s m [] a d = ((s.setBytes a d).modMs fun x => { x with poison := nsDel x.poison a }).resp m [] := by
  have hword : a / 8 * 8 = a := by omega
  rw [sramWrite, sramWriteWords_oneWord s (by omega) (by omega), hword, ha, sramWriteWord_full s a 0 hd]
  rfl

theorem sramWrite_partial (s : State) (m : Master) {a : Nat} {d : List Byte} (hpos : 0 < d.length) (hlen : d.length < 4)
    (hfit : a % 8 + d.length ≤ 8) : sramWrite s m [] a d =
      if a / 8 * 8 ∈ s.ms.poison then
        if postedWrite m a then impreciseNotice ((s.setBytes a d).resp m [])
          { master := m, write := true, addr := a / 8 * 8, len := d.length } Err.MEM_WR_POISON (sramSrc a)
        else (s.setBytes a d).resp m [] Err.MEM_WR_POISON
      else (s.setBytes a d).resp m [] := by
  rw [sramWrite, sramWriteWords_oneWord s hpos hfit, sramWriteWord_partial s _ _ (by omega), Nat.div_add_mod']
  by_cases hp : a / 8 * 8 ∈ s.ms.poison
  · simp only [hp, decide_true, if_true, sramSrc_word]
  · simp only [hp, decide_false, if_false, Bool.false_eq_true]

/-! ## The pair buffer (R112) -/

theorem matchingPair_nil {s : State} (m : Master) (a len : Nat) (h : s.ms.pairs = []) : matchingPair s m a len = none := by
  simp only [matchingPair, h, List.find?_nil, ite_self]

/-- With nothing held, a write that is no low half goes to its words. -/
theorem sramStore_notLowHalf {s : State} (m : Master) (found : List Upset) {a : Nat} {d : List Byte} (h : s.ms.pairs = [])
    (hd : ¬(d.length = 4 ∧ a % 8 = 0)) : sramStore s m found a d = sramWrite s m found a d := by
  simp only [sramStore, matchingPair_nil m a _ h, flushPairs_nil s m a h, if_neg hd]

theorem sramStore_lowHalf {s : State} (m : Master) (found : List Upset) {a : Nat} {d : List Byte} (h : s.ms.pairs = [])
    (hd : d.length = 4) (ha : a % 8 = 0) : sramStore s m found a d = holdPair s m a d := by
  simp only [sramStore, matchingPair_nil m a _ h, flushPairs_nil s m a h, hd, ha, and_self, if_true]

/-- The high half completes the one half that is held to a pair, and the pair buffer is empty afterwards. -/
theorem sramStore_highHalf {s : State} {m : Master} (found : List Upset) {a : Nat} {d h : List Byte} (ha : a % 8 = 0)
    (hh : h.length = 4) (hp : s.ms.pairs = [{ master := m, addr := a, data := d }]) :
    sramStore s m found (a + 4) h = sramWrite (s.modMs fun x => { x with pairs := [] }) m found a (d ++ h) := by
  have hmatch : matchingPair s m (a + 4) h.length = some { master := m, addr := a, data := d } := by
    rw [matchingPair, if_pos ⟨hh, by omega⟩, hp]
    simp
  have hdrop : dropPair s { master := m, addr := a, data := d } = s.modMs fun x => { x with pairs := [] } := by
    simp [dropPair, State.modMs, hp]
  simp only [sramStore, hmatch, hdrop]
  rw [flushPairs_nil _ _ _ rfl]

/-! ## Commands -/

section
variable {s : State} {m : Master} {a : Word}

theorem exec_sramRead_permitted {len : Nat} (found : List Upset)
    (hp : s.permits { master := m, write := false, addr := a.toNat, len := len } = true) (hs : isSram a.toNat = true) :
    exec (.sramRead m a len found) s = .next
      ((sramRead s found a.toNat len).2.2.resp m (sramRead s found a.toNat len).1 (sramRead s found a.toNat len).2.1) := by
  obtain ⟨hlive, hacc, hpairs, -⟩ := permits_parts hp
  change execSramRead m a len found s = _
  simp only [execSramRead, whenLive_live _ hlive, hacc, Bool.not_true, Bool.false_eq_true, if_false, flushPairs_nil s m _ hpairs,
    gated_permitted _ hp, if_pos hs]

/-- A write that its gate permits goes through the pair buffer, whatever that holds. -/
theorem exec_sramWrite_permitted {d : List Byte} (found : List Upset) (hl : s.live = true) (hc : canAccess s m = true)
    (hg : gateRefusal s { master := m, write := true, addr := a.toNat, len := d.length } = none) (hs : isSram a.toNat = true) :
    exec (.sramWrite m a d found) s = .next (sramStore s m found a.toNat d) := by
  change execSramWrite m a d found s = _
  simp only [execSramWrite, whenLive_live _ hl, hc, Bool.not_true, Bool.false_eq_true, if_false, hg, if_pos hs]

/-- With nothing held, a write that is no low half is done at once. -/
theorem exec_sramWrite_notLowHalf {d : List Byte} (found : List Upset)
    (hp : s.permits { master := m, write := true, addr := a.toNat, len := d.length } = true) (hs : isSram a.toNat = true)
    (hd : ¬(d.length = 4 ∧ a.toNat % 8 = 0)) : exec (.sramWrite m a d found) s = .next (sramWrite s m found a.toNat d) := by
  obtain ⟨hlive, hacc, hpairs, hgate⟩ := permits_parts hp
  rw [exec_sramWrite_permitted found hlive hacc hgate hs, sramStore_notLowHalf m found hpairs hd]

theorem exec_sramRead_clean {len : Nat} (hp : s.permits { master := m, write := false, addr := a.toNat, len := len } = true)
    (hs : isSram a.toNat = true) (hclean : ∀ w ∈ s.ms.poison, w + 8 ≤ a.toNat ∨ a.toNat + len ≤ w) :
    exec (.sramRead m a len []) s = .next (s.resp m (s.bytesAt a.toNat len)) := by
  rw [exec_sramRead_permitted [] hp hs, sramRead_clean hclean]

theorem exec_sramWrite_full {d : List Byte} (hp : s.permits { master := m, write := true, addr := a.toNat, len := 8 } = true)
    (hs : isSram a.toNat = true) (ha : a.toNat % 8 = 0) (hd : d.length = 8) : exec (.sramWrite m a d []) s =
      .next (((s.setBytes a.toNat d).modMs fun x => { x with poison := nsDel x.poison a.toNat }).resp m []) := by
  rw [← hd] at hp
  rw [exec_sramWrite_notLowHalf [] hp hs (by omega), sramWrite_full s m ha hd]

end

/-! ## Scrubbers (R115, R400) -/

theorem scrubBanks_clean (s : State) (i : Nat) : ∀ n, scrubBanks s i [] n = s
  | 0 => rfl
  | n + 1 => by rw [scrubBanks, scrubBanks_clean s i n, scrubOne, List.getD_nil, sramCheck_noUpset]

theorem exec_scrubWord_enclave {s : State} (bits : List Nat) (hl : s.live = true) : exec (.scrubWord true bits) s =
    .next ((sramCheck s (enclaveBase + 8 * s.ms.scrubEn) (bits.getD 0 0)).modMs fun x =>
      { x with scrubEn := (s.ms.scrubEn + 1) % 32768 }) := by
  change execScrubWord true bits s = _
  simp only [execScrubWord, whenLive_live _ hl, if_true, scrubOne]

theorem exec_scrubWord_system_clean {s : State} (hl : s.live = true) (hon : s.rdb Reg.MEM_SCRUB_CTRL 16 = true) :
    exec (.scrubWord false []) s = .next (if s.ms.scrub = 65535
      then (s.modMs fun x => { x with scrub := (x.scrub + 1) % 65536 }).bump Reg.MEM_SCRUB_PASS 31 0
      else s.modMs fun x => { x with scrub := (x.scrub + 1) % 65536 }) := by
  change execScrubWord false [] s = _
  simp only [execScrubWord, whenLive_live _ hl, Bool.false_eq_true, if_false, hon, if_true, scrubBanks_clean]
  rfl

theorem exec_scrubWord_off {s : State} (bits : List Nat) (hl : s.live = true) (hoff : s.rdb Reg.MEM_SCRUB_CTRL 16 = false) :
    exec (.scrubWord false bits) s = .next s := by
  change execScrubWord false bits s = _
  simp only [execScrubWord, whenLive_live _ hl, Bool.false_eq_true, if_false, hoff]

/-! ## The statements -/

/-- What the second part of O12 says of a full write holds where memory is in canonical form, as it is in every state that a run
from reset comes to (O5). -/
theorem sramFullWrite_canonical {s : State} {m : Master} {a : Word} {d : List Byte} (w : s.mem.wf = true)
    (hp : s.permits { master := m, write := true, addr := a.toNat, len := 8 } = true) (hs : isSram a.toNat = true)
    (ha : a.toNat % 8 = 0) (hd : d.length = 8) : exec (.sramWrite m a d []) s =
      .next (((s.setBytes a.toNat d).modMs fun x => { x with poison := nsDel x.poison a.toNat }).resp m []) ∧
    (s.setBytes a.toNat d).bytesAt a.toNat 8 = d ∧
    ∀ b, b < a.toNat ∨ a.toNat + 8 ≤ b → (s.setBytes a.toNat d).byteAt b = s.byteAt b := by
  refine ⟨exec_sramWrite_full hp hs ha hd, ?_, fun b hb => byteAt_setBytes_outside w (hd.symm ▸ hb)⟩
  rw [← hd]
  exact bytesAt_setBytes_same s a.toNat d w

/-- The state after reset, but with unsorted memory at the base of system SRAM. -/
def unsortedSram : State := State.reset.modMem fun _ => unsortedMem 0x10000000

/-- Refutes O12: the state need not be in canonical form, and in `unsortedSram` a full write of zeros at 0x10000000 reads back with a 1
in its first byte. In canonical form the statement holds (`exec_sramRead_clean`, `sramFullWrite_canonical`). -/
theorem not_sramReadsAndFullWrites : ¬ Obligations.SramReadsAndFullWrites := by
  unfold Obligations.SramReadsAndFullWrites
  rintro ⟨-, hwrite⟩
  obtain ⟨-, hread, -⟩ := hwrite unsortedSram .cc 0x10000000 (List.replicate 8 0) (by decide) (by decide) (by decide) (by decide)
  exact absurd hread (by decide)

/-- Settles O13, clause by clause: poison, partial writes, the pair buffer and the scrubbers. -/
theorem sramErrorsAndScrub : Obligations.SramErrorsAndScrub := by
  unfold Obligations.SramErrorsAndScrub
  refine ⟨fun s m a hp hg ha hpoison => ?_, fun s m a d hp hs hpos hlen hfit => ?_, fun s m a d hp hs ha hd => ?_,
    fun s m a d h hl hc hg hlt hs ha hd hh hpairs => ?_, fun s hl => ?_, fun s hl hon => ?_, fun s b hl hoff => ?_,
    fun s n hl hn hclean hlt => ⟨?_, ?_⟩⟩
  · have hs : isSram a.toNat = true := by simp [isSram, hg]
    rw [exec_sramRead_permitted [] hp hs, sramRead_poisoned hpoison hg ha]
  · rw [exec_sramWrite_notLowHalf [] hp hs (by omega), sramWrite_partial s m hpos hlen hfit]
  · obtain ⟨hl, hc, hpairs, hg⟩ := permits_parts hp
    rw [exec_sramWrite_permitted [] hl hc (by rw [hd]; exact hg) hs, sramStore_lowHalf m [] hpairs hd ha, holdPair]
  · have haddr : (a + 4).toNat = a.toNat + 4 := by bv_omega
    rw [← haddr] at hg hs
    rw [exec_sramWrite_permitted [] hl hc (by rw [hh]; exact hg) hs, haddr, sramStore_highHalf [] ha hh hpairs,
      sramWrite_full _ m ha (by rw [List.length_append, hd, hh])]
    rfl
  · rw [exec_scrubWord_enclave [] hl, List.getD_nil, sramCheck_noUpset]
    rfl
  · exact exec_scrubWord_system_clean hl hon
  · exact exec_scrubWord_off b hl hoff
  · rw [exec_scrubWord_enclave [n] hl, List.getD_cons_zero, sramCheck_uncorrectable (gateOf_enclaveWord hlt) hclean hn]
    rfl
  · rw [exec_scrubWord_enclave [1] hl, List.getD_cons_zero, sramCheck_corrected (gateOf_enclaveWord hlt) hclean]

end Sys2Proof.Machine
end

section
/-! MRAM (R118-R121, R130, R579, R580; O14): reads, word programming and the patrol. -/

namespace Sys2Proof.Machine

/-! ## Reads of one word (R118, R121) -/

theorem retireSector_mem (s : State) (sec : Nat) : (retireSector s sec).mem = s.mem :=
  mem_branch rfl (mem_branch (raise_mem _ _ _ _) rfl)

theorem wearEvaluate_mem (s : State) (sec corrected : Nat) : (wearEvaluate s sec corrected).mem = s.mem := by
  have hraised : (raise (s.wr Reg.MRAM_WEAR_SECTOR (BitVec.ofNat 32 sec)) Err.MRAM_WEAR 0x04 (BitVec.ofNat 64 sec)).mem = s.mem :=
    (raise_mem _ _ _ _).trans (wr_mem _ _ _)
  exact mem_branch rfl (mem_branch ((retireSector_mem _ _).trans hraised) hraised)

/-- The count of a sector's wear, its evaluation and a retirement included, leaves memory alone. -/
theorem wearCount_mem (s : State) (sec corrected : Nat) : (wearCount s sec corrected).mem = s.mem :=
  mem_branch ((wearEvaluate_mem _ _ _).trans (State.modMram_mem _ _)) (State.modMram_mem _ _)

theorem mramCheck_readable {s : State} {w : Nat} (h : w ∉ s.mram.bad) : mramCheck s w 0 = (false, wearCount s (mramSector w) 0) := by
  have hreadable : ¬(3 ≤ 0 ∨ w ∈ s.mram.bad) := by simp [h]
  simp only [mramCheck, if_neg hreadable, if_true]

theorem mramReadWord_readable {s : State} {w : Nat} (hv : sectorValid s (mramSector w) = true) (h : w ∉ s.mram.bad) :
    mramReadWord s w 0 = (s.bytesAt w 8, 0, wearCount s (mramSector w) 0) := by
  simp only [mramReadWord, hv, Bool.not_true, Bool.false_eq_true, if_false, mramCheck_readable h,
    bytesAt_congr (wearCount_mem s (mramSector w) 0)]

theorem mramReadWord_notValid {s : State} {w : Nat} (bits : Nat) (hv : sectorValid s (mramSector w) = false) :
    mramReadWord s w bits = (List.replicate 8 0, Err.MRAM_NOT_VALID, s) := by
  rw [mramReadWord, hv, Bool.not_false, if_pos rfl]

/-! ## Writes (R119, R580) -/

/-- The one word that a write within a word touches. -/
theorem wordsTouched_oneWord {a len : Nat} (hpos : 0 < len) (hfit : a % 8 + len ≤ 8) :
    (List.range (wordSpan a len)).map (fun i => a / 8 * 8 + 8 * i) = [a / 8 * 8] := by
  rw [wordSpan_oneWord hpos hfit]
  rfl

theorem mramWriteRefusal_partial (s : State) {a len : Nat} (hpos : 0 < len) (hlen : len < 8) (hfit : a % 8 + len ≤ 8)
    (hc : inCounters (a / 8 * 8) = false) : mramWriteRefusal s a len = some Err.MRAM_ALIGN := by
  have halign : a % 8 ≠ 0 ∨ len % 8 ≠ 0 := by omega
  simp only [mramWriteRefusal, wordsTouched_oneWord hpos hfit, List.any_cons, List.any_nil, hc, Bool.or_false, Bool.false_eq_true,
    if_false, if_pos halign]

theorem mramWriteRefusal_word {s : State} {a : Nat} (ha : a % 8 = 0) (hc : inCounters a = false)
    (hv : sectorValid s (mramSector a) = true) : mramWriteRefusal s a 8 = none := by
  have hwords := wordsTouched_oneWord (a := a) (len := 8) (by decide) (by omega)
  have hword : a / 8 * 8 = a := by omega
  have halign : ¬(a % 8 ≠ 0 ∨ 8 % 8 ≠ 0) := by omega
  rw [hword] at hwords
  simp only [mramWriteRefusal, hword, hwords, List.any_cons, List.any_nil, hc, hv, Bool.not_true, Bool.or_false, Bool.false_eq_true,
    if_false, if_neg halign]

/-- An idle controller puts a word that arrives into the programming engine. -/
theorem mramAdvance_idle {x : MramSt} (w : MWord) (n : Nat) (he : x.engine = none) (hb : x.buffer = []) (hw : x.waiting = [])
    (hr : x.retiring = []) :
    mramAdvance { x with waiting := x.waiting ++ [w], nextId := n } = { x with engine := some w, nextId := n } := by
  obtain ⟨status, bad, wear, engine, buffer, waiting, clear, patrol, retiring, remapped, clearWait, nextId⟩ := x
  subst he hb hw hr
  rfl

theorem mramAdvance_nothingWaiting {x : MramSt} (hb : x.buffer = []) (hw : x.waiting = []) : mramAdvance x = x := by
  obtain ⟨status, bad, wear, engine, buffer, waiting, clear, patrol, retiring, remapped, clearWait, nextId⟩ := x
  subst hb hw
  cases engine <;> rfl

theorem modMram_congr (s : State) (f g : MramSt → MramSt) (h : f s.mram = g s.mram) : s.modMram f = s.modMram g := by
  simp only [State.modMram, h]

/-- A whole word on an idle controller goes into the programming engine; memory is as it was (R119). -/
theorem mramWrite_word {s : State} (m : Master) {a : Nat} {d : List Byte} (hr : mramWriteRefusal s a d.length = none)
    (hd : d.length = 8) (he : s.mram.engine = none) (hb : s.mram.buffer = []) (hw : s.mram.waiting = []) (ht : s.mram.retiring = []) :
    mramWrite s m a d = s.modMram fun x => { x with
      engine := some { id := x.nextId, master := m, addr := a, data := BitVec.ofNat 64 (natLE d), last := true },
      nextId := x.nextId + 1 } := by
  have hwords : ∀ id, mwords id m (d.length / 8) a d =
      [{ id := id, master := m, addr := a, data := BitVec.ofNat 64 (natLE d), last := true }] := fun id => by
    simp only [hd, mwords, List.take_of_length_le hd.le]
    rfl
  simp only [mramWrite, hr, hwords]
  exact modMram_congr _ _ _ (mramAdvance_idle _ _ he hb hw ht)

/-! ## Commands -/

section
variable {s : State} {m : Master} {a : Word}

/-- A permitted read of one aligned word of the MRAM window is what the controller answers for the word. -/
theorem exec_mramRead_word (hp : s.permits { master := m, write := false, addr := a.toNat, len := 8 } = true)
    (hg : gateOf a.toNat = 2) (ha : a.toNat % 8 = 0) {d : List Byte} {e : Half} {t : State}
    (hr : mramReadWord s a.toNat 0 = (d, e, t)) (hd : d.length = 8) : exec (.mramRead m a 8 []) s = .next (t.resp m d e) := by
  obtain ⟨hlive, hacc, hpairs, -⟩ := permits_parts hp
  have hword : a.toNat / 8 * 8 = a.toNat := by omega
  have hspan : wordSpan a.toNat 8 = 1 := wordSpan_oneWord (by decide) (by omega)
  have hread : mramReadWords s [] a.toNat 1 = (d, e, t) := by
    rw [mramReadWords, upsetBits_nil, hr]
    have herr : (if e = 0 then 0 else e) = e := ite_eq_right_iff.2 Eq.symm
    simp only [mramReadWords, List.append_nil, herr]
  change execMramRead m a 8 [] s = _
  simp only [execMramRead, whenLive_live _ hlive, hacc, Bool.not_true, Bool.false_eq_true, if_false, flushPairs_nil s m _ hpairs,
    gated_permitted _ hp, if_pos hg, hword, hspan, hread, ha, List.drop_zero, List.take_of_length_le hd.le]

/-- A permitted write of the MRAM window that is no low half goes to the controller. -/
theorem exec_mramWrite_notLowHalf {d : List Byte} (hp : s.permits { master := m, write := true, addr := a.toNat, len := d.length } = true)
    (hg : gateOf a.toNat = 2) (hd : d.length ≠ 4) : exec (.mramWrite m a d) s = .next (mramWrite s m a.toNat d) := by
  obtain ⟨hlive, hacc, hpairs, hgate⟩ := permits_parts hp
  change execMramWrite m a d s = _
  simp only [execMramWrite, whenLive_live _ hlive, hacc, Bool.not_true, Bool.false_eq_true, if_false, hgate, hg, ne_eq, not_true_eq_false,
    matchingPair_nil m _ _ hpairs, flushPairs_nil s m _ hpairs, hd, false_and]

end

section
variable {s : State} (hl : s.live = true)
include hl

/-- With nothing buffered, the word in the engine is stored, the engine is free, and its writer is answered (R119, R120). -/
theorem exec_mramWordProgrammed_last {w : MWord} (he : s.mram.engine = some w) (hb : s.mram.buffer = []) (hw : s.mram.waiting = [])
    (hlast : w.last = true) : exec .mramWordProgrammed s = .next (((s.setBytes w.addr (bytesLE 8 w.data.toNat)).modMram fun x =>
      { x with engine := none, bad := nsDel x.bad w.addr }).resp w.master []) := by
  have hidle : mramAdvance { s.mram with engine := none, bad := nsDel s.mram.bad w.addr } =
      { s.mram with engine := none, bad := nsDel s.mram.bad w.addr } := mramAdvance_nothingWaiting hb hw
  change execMramWordProgrammed s = _
  simp only [execMramWordProgrammed, whenLive_live _ hl, he, hlast, if_true]
  exact congrArg (fun x => Host.Outcome.next (State.resp x w.master [])) (modMram_congr _ _ _ hidle)

theorem exec_patrolRead_valid (bits : Nat) (hv : sectorValid s (mramSector (0x20000000 + 8 * s.mram.patrol)) = true) :
    exec (.patrolRead bits) s = .next (mramCheck (s.modMram fun x => { x with patrol := (s.mram.patrol + 1) % 1048576 })
      (0x20000000 + 8 * s.mram.patrol) bits).2 := by
  change execPatrolRead bits s = _
  rw [execPatrolRead, whenLive_live _ hl]
  exact congrArg Host.Outcome.next (if_pos hv)

theorem exec_patrolRead_notValid (bits : Nat) (hv : sectorValid s (mramSector (0x20000000 + 8 * s.mram.patrol)) = false) :
    exec (.patrolRead bits) s = .next (s.modMram fun x => { x with patrol := (s.mram.patrol + 1) % 1048576 }) := by
  change execPatrolRead bits s = _
  rw [execPatrolRead, whenLive_live _ hl]
  exact congrArg Host.Outcome.next (if_neg (Bool.eq_false_iff.1 hv))

end

/-- Settles O14, clause by clause: reads, writes and programming of words, and the patrol. -/
theorem mramWords : Obligations.MramWords := by
  unfold Obligations.MramWords
  refine ⟨fun s m a hp hg ha hv hbad => ?_, fun s m a hp hg ha hv => ?_, fun s m a d hp hg ha hd hc hv he hb hw hr => ?_,
    fun s m a d hp hg hc hpos hlen hfit => ?_, fun s w hl he hb hw hlast => exec_mramWordProgrammed_last hl he hb hw hlast,
    fun s hl hv hbad => ?_, fun s b hl hv => exec_patrolRead_notValid hl b hv⟩
  · exact exec_mramRead_word hp hg ha (mramReadWord_readable hv hbad) (length_bytesAt s 8 _)
  · exact exec_mramRead_word hp hg ha (mramReadWord_notValid 0 hv) rfl
  · rw [← hd] at hp
    rw [exec_mramWrite_notLowHalf hp hg (by omega), mramWrite_word m (hd ▸ mramWriteRefusal_word ha hc hv) hd he hb hw hr]
  · rw [exec_mramWrite_notLowHalf hp hg (by omega), mramWrite, mramWriteRefusal_partial s hpos (by omega) hfit hc]
  · rw [exec_patrolRead_valid hl 0 hv, mramCheck_readable (by exact hbad)]

end Sys2Proof.Machine
end

section
/-! Crossing queues keep their order (R133, R135; O17). -/

namespace Sys2Proof.Machine

section
variable (s : State) (q : Fin 24)

@[simp] theorem queue_modQueue_same (f : Queue → Queue) : (s.modQueue q f).queue q = f (s.queue q) := by
  simp [State.queue, State.modQueue]

theorem queue_modQueue_other (f : Queue → Queue) {p : Fin 24} (h : p ≠ q) : (s.modQueue q f).queue p = s.queue p := by
  have hidx : q.val ≠ p.val := fun e => h (Fin.ext e.symm)
  simp [State.queue, State.modQueue, Vector.getElem_set_ne, hidx]

@[simp] theorem queue_modFree (f : Nat → Nat) : (s.modFree f).queue q = s.queue q := rfl

/-- What the writer sees of a queue is that it is full, or, of one that is not, some answer at the cost of at most a free value. -/
theorem seesFull_cases : (queueFull s q = true ∧ seesFull s q = (true, s)) ∨
    (queueFull s q = false ∧ ∃ full f, seesFull s q = (full, s.modFree f)) := by
  cases hfull : queueFull s q with
  | true => exact .inl ⟨rfl, by rw [seesFull, hfull, if_pos rfl]⟩
  | false =>
    refine .inr ⟨rfl, ?_⟩
    rw [seesFull, hfull, if_neg Bool.false_ne_true]
    split
    · exact ⟨false, id, rfl⟩
    · split
      · exact ⟨_, _, rfl⟩
      · exact ⟨false, id, rfl⟩

/-- An entry presented to a "Stall" queue waits behind those that wait, or enters at the back of a queue that has room and for which
none waits (R135). -/
theorem writeStall_cases (e : QEntry) :
    ((writeStall s q e).queue q = { s.queue q with stalled := (s.queue q).stalled ++ [e] }) ∨
    (queueFull s q = false ∧ (s.queue q).stalled = [] ∧
      (writeStall s q e).queue q = { s.queue q with slots := (s.queue q).slots ++ [{ entry := e, time := s.ct }] }) := by
  obtain ⟨-, hsees⟩ | ⟨hroom, full, f, hsees⟩ := seesFull_cases s q
  · left
    simp only [writeStall, hsees, Bool.true_or, if_true, queue_modQueue_same]
  · simp only [writeStall, hsees, queue_modFree]
    split
    · left
      simp only [queue_modQueue_same, queue_modFree]
    · next hfree =>
      right
      simp only [Bool.or_eq_true, Bool.not_eq_true', not_or, Bool.not_eq_false, List.isEmpty_iff] at hfree
      exact ⟨hroom, hfree.2, by simp only [pushSlot, queue_modQueue_same, queue_modFree, State.modFree_ct]⟩

theorem queueWrite_stalling (e : QEntry) (hq : queueStalls q.val = true) (hd : (s.queue q).dropping = false) :
    queueWrite s q e = writeStall s q e := by
  simp only [queueWrite, hd, Bool.false_and, Bool.false_eq_true, if_false, hq, if_true]

theorem queuePop_front {e : QSlot} {r : List QSlot} (hd : (s.queue q).dropping = false) (hs : (s.queue q).slots = e :: r) :
    queuePop s q = (some e.entry, s.modQueue q fun x =>
      { x with slots := r, begun := !e.entry.eop, freedAt := if queueFull s q then some s.ct else x.freedAt }) := by
  rw [queuePop, hd, hs]

end

/-- Settles O17: the entry joins one of the two lists at its end, and the reader takes the head of the first. -/
theorem queuesKeepOrder : Obligations.QueuesKeepOrder := by
  unfold Obligations.QueuesKeepOrder
  refine ⟨fun s q e hq hd => ?_, fun s q e r hd hs => ?_⟩
  · rw [queueWrite_stalling s q e hq hd]
    obtain hwaits | ⟨hroom, hnone, henters⟩ := writeStall_cases s q e
    · rw [hwaits]
      exact ⟨(List.append_assoc _ _ _).symm, id⟩
    · have hlt : (s.queue q).slots.length < queueDepth q.val := by simpa [queueFull] using hroom
      rw [henters, hnone]
      exact ⟨by simp, fun _ => by simpa using hlt⟩
  · rw [queuePop_front s q hd hs]
    exact ⟨rfl, by rw [queue_modQueue_same], fun p hp => queue_modQueue_other s q _ hp⟩

end Sys2Proof.Machine
end

section
/-! Loads and stores of the stage cells (R277, R278, R282, R303; O33). -/

namespace Sys2Proof.Machine

/-! ## An instruction that is done, and one that faults -/

/-- The state in which an instruction of a ready cell has its effect: the cycles it took are counted. -/
def cycled (s : State) (i : Issue) : State := s.modCell i.cell.val fun x => { x with cyc := x.cyc + BitVec.ofNat 32 i.cycles }

theorem cycled_mem (s : State) (i : Issue) : (cycled s i).mem = s.mem := rfl

theorem cell_cycled (s : State) (i : Issue) :
    (cycled s i).cell i.cell.val = { s.cell i.cell.val with cyc := (s.cell i.cell.val).cyc + BitVec.ofNat 32 i.cycles } :=
  cell_modCell s i.cell _

theorem modCell_setBytes (s : State) (c a : Nat) (l : List Byte) (f : CellSt → CellSt) :
    (s.setBytes a l).modCell c f = (s.modCell c f).setBytes a l := rfl

section
variable {s : State} {i : Issue} {w : Word} {u : Uses} {f : State → CellOut} (h : cellReady s i w = true)
include h

theorem cellIssue_done {t : State} (hf : f (cycled s i) = .done t) :
    cellIssue i w u f s = .next (t.modCell i.cell.val fun x => { x with pc := x.pc + 1, lateReg := u.late }) := by
  rw [cellIssue_ready u f h, ← cycled, hf]

theorem cellIssue_changesCell {g : CellSt → CellSt} (hf : f (cycled s i) = .done ((cycled s i).modCell i.cell.val g)) :
    cellIssue i w u f s = .next (cellNext s i u.late g) := by
  rw [cellIssue_done h hf, modCell_modCell, cycled, modCell_modCell]
  rfl

theorem cellIssue_stores {g : CellSt → CellSt} {a : Nat} {l : List Byte}
    (hf : f (cycled s i) = .done (((cycled s i).setBytes a l).modCell i.cell.val g)) :
    cellIssue i w u f s = .next ((cellNext s i u.late g).setBytes a l) := by
  rw [cellIssue_done h hf, modCell_modCell, modCell_setBytes, cycled, modCell_modCell]
  rfl

theorem cellIssue_fault {cause : Nat} (hf : f (cycled s i) = .fault cause) :
    cellIssue i w u f s = .next (cellFault (cycled s i) i.cell.val cause) := by
  rw [cellIssue_ready u f h, ← cycled, hf]

end

/-! ## Loads and stores of a ready cell -/

/-- The effective address of a memory instruction of a cell, and its address register afterwards. -/
def cellEff (s : State) (i : Issue) (a : Fin 4) (p : Bool) (off : Half) : BitVec 15 × BitVec 15 :=
  effAddr (s.cell i.cell.val).a[a] p off

theorem cellEff_cycled (s : State) (i : Issue) (a : Fin 4) (p : Bool) (off : Half) :
    effAddr ((cycled s i).cell i.cell.val).a[a.val] p off = cellEff s i a p off := by
  rw [cell_cycled]
  rfl

theorem greg_cycled (s : State) (i : Issue) (d : Fin 16) : ((cycled s i).cell i.cell.val).greg d = (s.cell i.cell.val).greg d := by
  rw [cell_cycled]
  rfl

theorem cellLoad_cycled (s : State) (i : Issue) (a : BitVec 15) (n : Nat) :
    cellLoad (cycled s i) i.cell.val a n = cellLoad s i.cell.val a n :=
  congrArg natLE (bytesAt_congr (cycled_mem s i) n _)

theorem natLE_lt : ∀ l : List Byte, natLE l < 2 ^ (8 * l.length)
  | [] => Nat.one_pos
  | b :: r => by
    have hb := b.isLt
    have hr := natLE_lt r
    rw [natLE, List.length_cons, Nat.mul_succ, Nat.pow_add]
    omega

/-- The value of an unsigned load is the number that its bytes spell. -/
theorem zeroExtend_cellLoad (s : State) (c : Nat) (a : BitVec 15) (n : Nat) :
    (BitVec.ofNat (8 * n) (cellLoad s c a n)).zeroExtend 32 = BitVec.ofNat 32 (cellLoad s c a n) := by
  have hlt : cellLoad s c a n < 2 ^ (8 * n) := by
    have := natLE_lt (s.bytesAt (cellBase c + a.toNat) n)
    rwa [length_bytesAt] at this
  rw [BitVec.zeroExtend, ← BitVec.ofNat_toNat, BitVec.toNat_ofNat, Nat.mod_eq_of_lt hlt]

theorem length_bytesLE : ∀ n v, (bytesLE n v).length = n
  | 0, _ => rfl
  | n + 1, v => by rw [bytesLE, List.length_cons, length_bytesLE n]

section
variable {s : State} {i : Issue} {op n : Nat} {d : Fin 16} {a : Fin 4} {p : Bool} {off : Half}
  (h : cellReady s i (encM op d.val a.val p off) = true)
include h

theorem loadRow_misaligned (signed : Bool) (ha : (cellEff s i a p off).1.toNat % n ≠ 0) :
    loadRow i op n signed d a p off 0 s = .next (cellFault (cycled s i) i.cell.val 2) :=
  cellIssue_fault h (by simp only [cellEff_cycled, if_pos ha])

theorem storeRow_misaligned (ha : (cellEff s i a p off).1.toNat % n ≠ 0) :
    storeRow i op n d a p off 0 s = .next (cellFault (cycled s i) i.cell.val 2) :=
  cellIssue_fault h (by simp only [cellEff_cycled, if_pos ha])

/-- An aligned load in which no error is found writes the value `v` at its address, extended, to its register. -/
theorem loadRow_aligned {signed : Bool} {v : Word} (ha : (cellEff s i a p off).1.toNat % n = 0)
    (hv : (let w := BitVec.ofNat (8 * n) (cellLoad s i.cell.val (cellEff s i a p off).1 n)
      if signed then w.signExtend 32 else w.zeroExtend 32) = v) :
    loadRow i op n signed d a p off 0 s = .next (cellNext s i (some d.val) fun k =>
      { k.setG d v with a := k.a.set a.val (cellEff s i a p off).2 }) := by
  subst hv
  refine cellIssue_changesCell h ?_
  simp only [cellEff_cycled, ha, ne_eq, not_true_eq_false, if_false, Nat.le_zero_eq, OfNat.ofNat_ne_zero, Nat.zero_ne_one,
    cellLoad_cycled]

/-- An aligned store in which no error is found stores the low bytes of its register. -/
theorem storeRow_aligned (ha : (cellEff s i a p off).1.toNat % n = 0) :
    storeRow i op n d a p off 0 s = .next ((cellNext s i none fun k => { k with a := k.a.set a.val (cellEff s i a p off).2 }).setBytes
      (cellBase i.cell.val + (cellEff s i a p off).1.toNat) (bytesLE n ((s.cell i.cell.val).greg d).toNat)) := by
  refine cellIssue_stores h ?_
  simp only [cellEff_cycled, ha, ne_eq, not_true_eq_false, if_false, Nat.le_zero_eq, OfNat.ofNat_ne_zero, Nat.zero_ne_one, and_false,
    greg_cycled]

end

/-! ## The instructions, in states of canonical form and out of it -/

/-- The loads without an error in their word, with their size and the value that they write to D (R282). -/
def cellLoads (s : State) (i : Issue) (d : Fin 16) (a : Fin 4) (p : Bool) (off : Half) : List (Instr × Nat × Word) :=
  let v := cellLoad s i.cell.val (cellEff s i a p off).1
  [(.cellLdw i d a p off 0, 4, BitVec.ofNat 32 (v 4)), (.cellLdh i d a p off 0, 2, (BitVec.ofNat 16 (v 2)).signExtend 32),
    (.cellLdhu i d a p off 0, 2, BitVec.ofNat 32 (v 2)), (.cellLdb i d a p off 0, 1, (BitVec.ofNat 8 (v 1)).signExtend 32),
    (.cellLdbu i d a p off 0, 1, BitVec.ofNat 32 (v 1))]

/-- The stores without an error in their word, with their size (R282). -/
def cellStores (i : Issue) (d : Fin 16) (a : Fin 4) (p : Bool) (off : Half) : List (Instr × Nat) :=
  [(.cellStw i d a p off, 4), (.cellSth i d a p off 0, 2), (.cellStb i d a p off 0, 1)]

/-- The memory instructions of more than one byte, with their size. -/
def cellWideAccesses (i : Issue) (d : Fin 16) (a : Fin 4) (p : Bool) (off : Half) : List (Instr × Nat) :=
  [(.cellLdw i d a p off 0, 4), (.cellLdh i d a p off 0, 2), (.cellLdhu i d a p off 0, 2), (.cellStw i d a p off, 4),
    (.cellSth i d a p off 0, 2)]

section
variable {s : State} {i : Issue} {d : Fin 16} {a : Fin 4} {p : Bool} {off : Half} {w : Word}

/-- The first part of O33, of every state. -/
theorem exec_cellLoads {e : Instr × Nat × Word} (he : e ∈ cellLoads s i d a p off) (hw : cellWord e.1 = some (i, w))
    (hr : cellReady s i w = true) (ha : (cellEff s i a p off).1.toNat % e.2.1 = 0) :
    exec e.1 s = .next (cellNext s i (some d.val) fun k =>
      { k.setG d e.2.2 with a := k.a.set a.val (cellEff s i a p off).2 }) := by
  simp only [cellLoads, List.mem_cons, List.not_mem_nil, or_false] at he
  rcases he with rfl | rfl | rfl | rfl | rfl <;> obtain rfl := congrArg Prod.snd (Option.some.inj hw)
  · exact loadRow_aligned hr ha (zeroExtend_cellLoad s _ _ 4)
  · exact loadRow_aligned (signed := true) hr ha rfl
  · exact loadRow_aligned hr ha (zeroExtend_cellLoad s _ _ 2)
  · exact loadRow_aligned (signed := true) hr ha rfl
  · exact loadRow_aligned hr ha (zeroExtend_cellLoad s _ _ 1)

theorem exec_cellStores {e : Instr × Nat} (he : e ∈ cellStores i d a p off) (hw : cellWord e.1 = some (i, w))
    (hr : cellReady s i w = true) (ha : (cellEff s i a p off).1.toNat % e.2 = 0) : exec e.1 s =
      .next ((cellNext s i none fun k => { k with a := k.a.set a.val (cellEff s i a p off).2 }).setBytes
        (cellBase i.cell.val + (cellEff s i a p off).1.toNat) (bytesLE e.2 ((s.cell i.cell.val).greg d).toNat)) := by
  simp only [cellStores, List.mem_cons, List.not_mem_nil, or_false] at he
  rcases he with rfl | rfl | rfl <;> obtain rfl := congrArg Prod.snd (Option.some.inj hw) <;> exact storeRow_aligned hr ha

/-- The second part of O33 holds where memory is in canonical form, as it is in every state that a run from reset comes to (O5). -/
theorem exec_cellStores_canonical {e : Instr × Nat} (wf : s.mem.wf = true) (he : e ∈ cellStores i d a p off)
    (hw : cellWord e.1 = some (i, w)) (hr : cellReady s i w = true) (ha : (cellEff s i a p off).1.toNat % e.2 = 0) :
    ∃ t, exec e.1 s = .next t ∧ t = (cellNext s i none fun k => { k with a := k.a.set a.val (cellEff s i a p off).2 }).setBytes
        (cellBase i.cell.val + (cellEff s i a p off).1.toNat) (bytesLE e.2 ((s.cell i.cell.val).greg d).toNat) ∧
      (∀ b, b < cellBase i.cell.val + (cellEff s i a p off).1.toNat ∨ cellBase i.cell.val + (cellEff s i a p off).1.toNat + e.2 ≤ b →
        t.byteAt b = s.byteAt b) ∧
      t.bytesAt (cellBase i.cell.val + (cellEff s i a p off).1.toNat) e.2 = bytesLE e.2 ((s.cell i.cell.val).greg d).toNat := by
  refine ⟨_, exec_cellStores he hw hr ha, rfl, fun b hb => byteAt_setBytes_outside wf (by rwa [length_bytesLE]), ?_⟩
  have hback := bytesAt_setBytes_same (cellNext s i none fun k => { k with a := k.a.set a.val (cellEff s i a p off).2 })
    (cellBase i.cell.val + (cellEff s i a p off).1.toNat) (bytesLE e.2 ((s.cell i.cell.val).greg d).toNat) wf
  rwa [length_bytesLE] at hback

/-- The third part of O33, of every state. -/
theorem exec_cellWideAccesses_misaligned {e : Instr × Nat} (he : e ∈ cellWideAccesses i d a p off)
    (hw : cellWord e.1 = some (i, w)) (hr : cellReady s i w = true) (ha : (cellEff s i a p off).1.toNat % e.2 ≠ 0) :
    ∃ t, exec e.1 s = .next t ∧ t.mem = s.mem ∧ t = cellFault (cycled s i) i.cell.val 2 := by
  have hexec : exec e.1 s = .next (cellFault (cycled s i) i.cell.val 2) := by
    simp only [cellWideAccesses, List.mem_cons, List.not_mem_nil, or_false] at he
    rcases he with rfl | rfl | rfl | rfl | rfl <;> obtain rfl := congrArg Prod.snd (Option.some.inj hw)
    · exact loadRow_misaligned hr false ha
    · exact loadRow_misaligned hr true ha
    · exact loadRow_misaligned hr false ha
    · exact storeRow_misaligned hr ha
    · exact storeRow_misaligned hr ha
  exact ⟨_, hexec, (cellFault_mem _ _ _).trans (cycled_mem s i), rfl⟩

end

/-- Cell 0 is about to store the word in G0, which is 0, at the base of its data memory, and memory is unsorted there. -/
def unsortedCell : State :=
  ((State.reset.wrb (Reg.CELL_STAT 0) 31 true).modFab fun f => { f with code := [(0, encM 0x15 0 0 false 0)] }).modMem fun _ =>
    unsortedMem 0x60000000

/-- Refutes O33: the state need not be in canonical form, and in `unsortedCell` a store of the word 0 at 0x60000000 reads back with a 1
in its first byte. In canonical form each part of the statement holds (`exec_cellLoads`, `exec_cellStores_canonical`,
`exec_cellWideAccesses_misaligned`). -/
theorem not_cellMemory : ¬ Obligations.CellMemory := by
  unfold Obligations.CellMemory
  rintro ⟨-, hstores, -⟩
  obtain ⟨t, -, rfl, -, hread⟩ := hstores unsortedCell { cell := 0, cycles := 1 } 0 0 false 0 (encM 0x15 0 0 false 0)
    (.cellStw { cell := 0, cycles := 1 } 0 0 false 0, 4) List.mem_cons_self rfl (by decide) (by decide)
  exact absurd hread (by decide)

end Sys2Proof.Machine
end

section
/-! Gate rules, GATE_SYNC and whole accesses to one register (R142-R144, R157-R160, R577; O18). -/

namespace Sys2Proof.Machine

/-! ## Rule writes (R142-R144, R157) -/

/-- A rule write is a write of one register by the gate block. -/
theorem execGateRuleWrite_eq_writeRow {m : Master} {a v : Word} {s : State} (h : isRuleReg a.toNat = true) :
    execGateRuleWrite m a v s = writeRow m a.toNat v (ruleWrite m a.toNat) s := by
  simp only [execGateRuleWrite, writeRow, h, if_true]

/-- A rule write that reaches its rule register has the effect of `ruleWrite`, and completes without an error. -/
theorem exec_gateRuleWrite_reaches {s : State} {m : Master} {a : Word} (v : Word) (h : s.reaches m a.toNat = true)
    (hr : isRuleReg a.toNat = true) : exec (.gateRuleWrite m a v) s = .next ((ruleWrite m a.toNat s v).resp m []) := by
  change execGateRuleWrite m a v s = _
  rw [execGateRuleWrite_eq_writeRow hr, writeRow_reaches v _ h]

theorem ruleWrite_ignored {s : State} {m : Master} {a : Nat} (v : Word) (h : ruleIgnored s m a = true) : ruleWrite m a s v = s := by
  rw [ruleWrite, h, Bool.or_true, if_pos rfl]

theorem ruleWrite_taken {s : State} {m : Master} {a : Nat} (v : Word) (hr : isRuleReg a = true) (h : ruleIgnored s m a = false) :
    ruleWrite m a s v = ruleTaken (fieldWrite s a v) := by
  rw [ruleWrite, hr, h, Bool.not_true, Bool.or_false, if_neg Bool.false_ne_true]

/-- A field of 16 bits reads back what a register was set to, where it fits. -/
theorem fld_low16_ofNat {n : Nat} (h : n < 65536) : fld (BitVec.ofNat 32 n) 15 0 = n := by
  rw [fld, BitVec.toNat_ofNat]
  omega

/-- A rule that takes effect counts in GEN, which wraps at 0xFFFF. -/
theorem gen_ruleTaken {s : State} (hs : s.canon = true) :
    (ruleTaken s).rdf Reg.GATE_SYNC 15 0 = (s.rdf Reg.GATE_SYNC 15 0 + 1) % 65536 := by
  have hset : (ruleTaken s).rd Reg.GATE_SYNC = BitVec.ofNat 32 ((s.rdf Reg.GATE_SYNC 15 0 + 1) % 65536) :=
    rd_wr_same s Reg.GATE_SYNC _ (canon_parts hs).2
  rw [State.rdf, hset, fld_low16_ofNat (Nat.mod_lt _ (by decide))]

/-! ## One register in a whole access (R577) -/

/-- The bytes of a number, least significant first, spell it. -/
theorem natLE_bytesLE : ∀ {n v : Nat}, v < 2 ^ (8 * n) → natLE (bytesLE n v) = v
  | 0, v, h => (Nat.lt_one_iff.1 h).symm
  | n + 1, v, h => by
    have hrest : v / 256 < 2 ^ (8 * n) := by
      rw [Nat.mul_succ, Nat.pow_add] at h
      omega
    rw [bytesLE, natLE, natLE_bytesLE hrest, BitVec.toNat_ofNat]
    exact Nat.mod_add_div v 256

theorem wordLE_bytesLE (v : Word) : wordLE (bytesLE 4 v.toNat) = v := by
  rw [wordLE, List.take_of_length_le (length_bytesLE 4 _).le, natLE_bytesLE v.isLt, BitVec.ofNat_toNat, BitVec.setWidth_eq]

/-- Four bytes at a multiple of four are a whole register, for every master. -/
theorem regAligned_word (m : Master) {a : Nat} (h : a % 4 = 0) : regAligned m a 4 = true := by
  simp only [regAligned, h]
  rfl

theorem regWrites_word (s : State) (m : Master) (a : Nat) (v : Word) :
    regWrites m 1 a (bytesLE 4 v.toNat) s = regEffect s m a v := by
  have hcode : (if (regEffect s m a v).1 = 0 then 0 else (regEffect s m a v).1) = (regEffect s m a v).1 := ite_eq_right_iff.2 Eq.symm
  simp only [regWrites, wordLE_bytesLE, hcode]

/-- A permitted write of one register has that register's effect; a posted one completes without the effect's error. -/
theorem exec_registerWrite_word {s : State} {m : Master} {a : Word} (v : Word) (h : s.reaches m a.toNat = true)
    (hb : isRegBlock a.toNat = true) (ha : a.toNat % 4 = 0) : exec (.registerWrite m a (bytesLE 4 v.toNat)) s =
      .next ((regEffect s m a.toNat v).2.resp m [] (if postedWrite m a.toNat then 0 else (regEffect s m a.toNat v).1)) := by
  obtain ⟨hlive, hacc, hpairs, -⟩ := permits_parts h
  change execRegisterWrite m a (bytesLE 4 v.toNat) s = _
  simp only [execRegisterWrite, whenLive_live _ hlive, writeAccess, hacc, flushPairs_nil s m _ hpairs, length_bytesLE,
    gated_permitted _ h, hb, regAligned_word m ha, Bool.not_true, Bool.false_eq_true, if_false, if_true, Nat.div_self, Nat.zero_lt_succ,
    regWrites_word]

/-- A permitted read of one register goes to `readWords`, which holds it if the register is GATE_SYNC. -/
theorem readAccess_word {s : State} {m : Master} {a : Nat} (h : s.readsFrom m a = true) (hb : isRegBlock a = true) (ha : a % 4 = 0) :
    readAccess s m a 4 = readWords m [a] [] s := by
  obtain ⟨-, hacc, hpairs, -⟩ := permits_parts h
  simp only [readAccess, hacc, flushPairs_nil s m _ hpairs, gated_permitted _ h, hb, regAligned_word m ha, Bool.not_true,
    Bool.false_eq_true, if_false, if_true]
  rfl

/-- A register whose read nothing holds is read at once. -/
theorem readWords_word {s : State} (m : Master) {a : Nat} (h : ¬(a = Reg.GATE_SYNC ∧ syncBlocked s s.gate.mark = true)) :
    readWords m [a] [] s = (regRead s m a).2.resp m (bytesLE 4 (regRead s m a).1.toNat) := by
  simp only [readWords, if_neg h, List.nil_append]

theorem exec_readClear_word {s : State} {m : Master} {a : Word} (h : s.readsFrom m a.toNat = true) (hb : isRegBlock a.toNat = true)
    (ha : a.toNat % 4 = 0) (hne : a.toNat ≠ Reg.GATE_SYNC) :
    exec (.readClear m a 4) s = .next ((regRead s m a.toNat).2.resp m (bytesLE 4 (regRead s m a.toNat).1.toNat)) := by
  obtain ⟨hlive, -, -, -⟩ := permits_parts h
  change execReadClear m a 4 s = _
  rw [execReadClear, whenLive_live _ hlive, readAccess_word h hb ha, readWords_word m fun hsync => hne hsync.1]

/-! ## Reads of GATE_SYNC (R159, R160) -/

theorem regRead_gateSync (s : State) (m : Master) :
    regRead s m Reg.GATE_SYNC = (BitVec.ofNat 32 (s.rdf Reg.GATE_SYNC 15 0), s) := rfl

/-- GEN fits its register, so the read's word is GEN itself. -/
theorem toNat_gen (s : State) : (BitVec.ofNat 32 (s.rdf Reg.GATE_SYNC 15 0)).toNat = s.rdf Reg.GATE_SYNC 15 0 := by
  have hgen : s.rdf Reg.GATE_SYNC 15 0 < 65536 := Nat.mod_lt _ (by decide)
  rw [BitVec.toNat_ofNat]
  omega

/-- A read of GATE_SYNC waits while an access accepted under the earlier rules has not completed, and else answers GEN. -/
theorem exec_gateSync_readsFrom {s : State} {m : Master} (h : s.readsFrom m Reg.GATE_SYNC = true) :
    exec (.gateSync m) s = .next (if syncBlocked s s.gate.mark = true then
      s.modGate fun g => { g with waits := g.waits ++ [{ master := m, mark := g.mark, rest := [Reg.GATE_SYNC], got := [] }] }
      else s.resp m (bytesLE 4 (s.rdf Reg.GATE_SYNC 15 0))) := by
  obtain ⟨hlive, -, -, -⟩ := permits_parts h
  change execGateSync m s = _
  rw [execGateSync, whenLive_live _ hlive, readAccess_word h (by decide) (by decide)]
  split
  · next hblocked => rw [readWords, if_pos ⟨rfl, hblocked⟩]
  · next hfree => rw [readWords_word m fun hsync => hfree hsync.2, regRead_gateSync, toNat_gen]

theorem modGate_congr (s : State) (f g : GateSt → GateSt) (h : f s.gate = g s.gate) : s.modGate f = s.modGate g := by
  simp only [State.modGate, h]

section
variable {s : State} {w : SyncWait} (hl : s.live = true) (hw : s.gate.waits = [w])
include hw

/-- The only waiting read is taken off the list. -/
theorem modGate_eraseOnlyWait :
    (s.modGate fun g => { g with waits := g.waits.erase w }) = s.modGate fun g => { g with waits := [] } :=
  modGate_congr s _ _ (by rw [hw, List.erase_cons_head])

/-- A waiting read of GATE_SYNC alone answers the present GEN. -/
theorem syncReturn_only (hr : w.rest = [Reg.GATE_SYNC]) (hg : w.got = []) : syncReturn s w =
    (s.modGate fun g => { g with waits := [] }).resp w.master (bytesLE 4 (s.rdf Reg.GATE_SYNC 15 0)) := by
  rw [syncReturn, modGate_eraseOnlyWait hw, hr, hg]
  rfl

include hl

theorem exec_gateSyncReturn_only (hr : w.rest = [Reg.GATE_SYNC]) (hg : w.got = []) (hfree : syncBlocked s w.mark = false) :
    exec .gateSyncReturn s = .next ((s.modGate fun g => { g with waits := [] }).resp w.master
      (bytesLE 4 (s.rdf Reg.GATE_SYNC 15 0))) := by
  have hfind : (s.gate.waits.find? fun x => !syncBlocked s x.mark) = some w := by
    rw [hw]
    exact List.find?_cons_of_pos (by rw [hfree, Bool.not_false])
  change execGateSyncReturn s = _
  simp only [execGateSyncReturn, whenLive_live _ hl, hfind, syncReturn_only hw hr hg]

theorem exec_gateSyncTimeout_only (hr : w.rest = [Reg.GATE_SYNC]) (hg : w.got = []) :
    exec (.gateSyncTimeout w.master) s = .next ((s.modGate fun g => { g with waits := [] }).resp w.master
      (bytesLE 4 (s.rdf Reg.GATE_SYNC 15 0)) Err.GATE_SYNC_TIMEOUT) := by
  have hfind : (s.gate.waits.find? fun x => decide (x.master = w.master)) = some w := by
    rw [hw]
    exact List.find?_cons_of_pos (decide_eq_true rfl)
  change execGateSyncTimeout w.master s = _
  simp only [execGateSyncTimeout, whenLive_live _ hl, hfind, modGate_eraseOnlyWait hw, hr, hg]
  rfl

end

/-- Settles O18, clause by clause: rule writes, GEN, the reads of GATE_SYNC, and accesses to one register. -/
theorem gateAndRegisterAccess : Obligations.GateAndRegisterAccess := by
  unfold Obligations.GateAndRegisterAccess
  refine ⟨fun s m a v d h hr hd hi => ?_, fun s m a v h hr hi => ?_, fun s hs => gen_ruleTaken hs,
    fun s m h => exec_gateSync_readsFrom h, fun s w hl hw hr hg hfree => exec_gateSyncReturn_only hl hw hr hg hfree,
    fun s w hl hw hr hg => exec_gateSyncTimeout_only hl hw hr hg, fun s m a v h hb ha => exec_registerWrite_word v h hb ha,
    fun s m a h hb ha hne => exec_readClear_word h hb ha hne⟩
  · rw [exec_gateRuleWrite_reaches v h hr, ruleWrite_taken v hr hi, fieldWrite_of_regDesc v hd]
  · rw [exec_gateRuleWrite_reaches v h hr, ruleWrite_ignored v hi]

end Sys2Proof.Machine
end

section
/-! Fields of registers: what a field and a bit read after the hardware has set one (R11). -/

namespace Sys2Proof.Machine

theorem rdf_wrf_same {s : State} (a hi lo v : Nat) (hs : s.canon = true) (hh : hi < 32) (hl : lo ≤ hi) :
    (s.wrf a hi lo v).rdf a hi lo = v % 2 ^ (hi + 1 - lo) := by
  rw [State.rdf, State.wrf, rd_wr_same s a _ (canon_parts hs).2, fld_setFld _ _ _ _ hh hl]

/-- A field apart from the one just set, of the same register. -/
theorem rdf_wrf_otherField {s : State} (a hi lo v hi2 lo2 : Nat) (hs : s.canon = true) (hh : hi < 32) (hl : lo ≤ hi)
    (h : hi2 < lo ∨ hi < lo2) : (s.wrf a hi lo v).rdf a hi2 lo2 = s.rdf a hi2 lo2 := by
  rw [State.rdf, State.wrf, rd_wr_same s a _ (canon_parts hs).2, fld_setFld_other _ _ _ _ _ _ hh hl h, State.rdf]

theorem rdf_wr_other {s : State} (a b hi lo : Nat) (v : Word) (hs : s.canon = true) (h : b ≠ a) :
    (s.wr a v).rdf b hi lo = s.rdf b hi lo := by
  rw [State.rdf, rd_wr_other s a b v (canon_parts hs).2 h, State.rdf]

theorem canon_wrb {s : State} {a k : Nat} {b : Bool} (hs : s.canon = true) : (s.wrb a k b).canon = true :=
  (keeps_State_wrb s a k b (.refl s)).canon hs

theorem rdb_wrb_same {s : State} {a k : Nat} {b : Bool} (hs : s.canon = true) (hk : k < 32) : (s.wrb a k b).rdb a k = b := by
  rw [State.rdb, State.wrb, State.wrf, rd_wr_same s a _ (canon_parts hs).2, bitOf_setFld _ _ _ _ _ hk le_rfl]
  cases b <;> simp [b2n]

theorem rd_wrb_other {s : State} {a c k : Nat} {b : Bool} (hs : s.canon = true) (h : c ≠ a) : (s.wrb a k b).rd c = s.rd c :=
  rd_wrf_other a c k k (b2n b) hs h

end Sys2Proof.Machine
end

section
/-! Errors that neither reach Pavane nor can enter the safe state: they are counted and latched, and change nothing else
(R531, R534, R535). -/

namespace Sys2Proof.Machine

/-- An error outside the classes SECURITY and FATAL is counted and latched, and that is all (R531). -/
theorem raise_eq_latchError {s : State} {code : Half} (src : Byte) (detail : DWord) (hf : errClass code ≠ 3) (hs : errClass code ≠ 4) :
    raise s code src detail = latchError s code src detail := by
  simp only [raise, hf, hs, false_and, if_false]

/-- Only the registers and the firmware's record differ. -/
def LatchesOnly (s t : State) : Prop := ∃ fw regs, t = (s.modFw fun _ => fw).modRegs fun _ => regs

theorem latchesOnly_wr {s t : State} {a : Nat} {v : Word} (h : LatchesOnly s t) : LatchesOnly s (t.wr a v) := by
  obtain ⟨fw, regs, rfl⟩ := h
  exact ⟨fw, sset resetWord regs a v, rfl⟩

theorem latchesOnly_latchError (s : State) (code : Half) (src : Byte) (detail : DWord) :
    LatchesOnly s (latchError s code src detail) := by
  unfold latchError
  extract_lets k s0 s1 s2 s3 s4
  have hfatal : LatchesOnly s s0 := by
    by_cases h : k = 3
    · exact ⟨{ s.fw with sawFatal := true }, s.regs, (if_pos h).trans rfl⟩
    · exact ⟨s.fw, s.regs, (if_neg h).trans rfl⟩
  have hcounted : LatchesOnly s s1 := latchesOnly_wr hfatal
  have hdetail : LatchesOnly s s4 := latchesOnly_wr <| latchesOnly_wr <| latchesOnly_wr <| latchesOnly_wr hcounted
  split
  · exact latchesOnly_wr hcounted
  · exact latchesOnly_wr <| latchesOnly_wr hdetail

theorem latchesOnly_raise {s : State} {code : Half} (src : Byte) (detail : DWord) (hf : errClass code ≠ 3) (hs : errClass code ≠ 4) :
    LatchesOnly s (raise s code src detail) := by
  rw [raise_eq_latchError src detail hf hs]
  exact latchesOnly_latchError s code src detail

end Sys2Proof.Machine
end

section
/-! The radiometric pipeline (R190-R200, R207; O24): samples, coefficient records, the selection and APPLY. -/

namespace Sys2Proof.Machine

/-! ## One sample (R190, R191, R198) -/

theorem roundDiv_zero (d : Nat) : roundDiv 0 d = 0 := by
  have hhalf : (d : Int) / (2 * d) = 0 := by
    rcases Nat.eq_zero_or_pos d with rfl | hd
    · rfl
    · exact Int.ediv_eq_zero_of_lt (by omega) (by omega)
  simpa [roundDiv] using hhalf

/-- The interpolation at weight 0 is the record of the LO bank. -/
theorem interp_zero (lo hi : Int) : interp 0 lo hi = lo := by
  simp [interp, roundDiv_zero]

/-- The interpolation at weight 1 is the record of the HI bank. -/
theorem interp_one (lo hi : Int) : interp 65536 lo hi = hi := by
  simp only [interp, roundDiv]
  split
  · omega
  · omega

/-- With sets as offset source and the weight at an end, u comes from one record (R190, R198). -/
theorem stageU_oneSet {s : State} (p code : Nat) (hset : s.rdb Reg.NUC_CFG 0 = true) (hw : s.nuc.w = 0 ∨ s.nuc.w = 65536) :
    stageU s p code =
      let r := setRecord s (if s.nuc.w = 0 then s.nuc.selLo else s.nuc.selHi) p
      ((s.rd Reg.NUC_TREF_SET).toNat : Int) + roundDiv ((fld r 45 30 : Int) * ((code : Int) * 16 - (fld r 63 46 : Int))) 4 := by
  have hsets : shutterOffsets s = false := by simp [shutterOffsets, hset]
  rcases hw with hlo | hhi
  · simp [stageU, hsets, hlo, interp_zero]
  · simp [stageU, hsets, hhi, interp_one]

/-- With sets as offset source and tau-inverse off, stages 3 and 4 leave u as it is (R191, R200). -/
theorem stageY_tauOff {s : State} (p : Nat) (u : Int) (hset : s.rdb Reg.NUC_CFG 0 = true) (ht : s.nuc.tauOff = true) :
    stageY s p u = u := by
  simp [stageY, shutterOffsets, kEff, hset, ht, roundDiv_zero]

/-- A channel's record of codes is all that its change touches. -/
theorem modStuck_eq (s : State) (ch : Nat) (f : ChStuck → ChStuck) :
    ∃ v, modStuck s ch f = s.modFe fun x => { x with stuck := v } := by
  unfold modStuck
  split
  · exact ⟨_, rfl⟩
  · exact ⟨s.fe.stuck, rfl⟩

/-- A sample inside a row is appended to the row in progress, whose header, with memory and the queues, stays as it is. -/
theorem pipelineSample_midRow {s : State} (row code : Nat) (hb : s.fe.buf ≠ []) (hlast : s.fe.buf.length + 1 ≠ feCols s)
    (hset : s.rdb Reg.NUC_CFG 0 = true) (ht : s.nuc.tauOff = true) :
    ∃ t px, pipelineSample s row code false [] = t ∧ t.fe.buf = s.fe.buf ++ [px] ∧ px.code = code ∧ px.clip = false ∧
      px.y = stageU s (row * 1024 + s.fe.buf.length) code ∧ t.fe.hdr = s.fe.hdr ∧ t.mem = s.mem ∧ t.queues = s.queues := by
  have hcol : s.fe.buf.length ≠ 0 := fun h => hb (List.length_eq_zero_iff.1 h)
  obtain ⟨v, hv⟩ := modStuck_eq s (channelOf s s.fe.buf.length) fun c => stuckSample c code
  simp only [pipelineSample, hcol, if_false, List.foldl_nil, Bool.false_eq_true, hv, State.modFe_fe, State.modNuc_fe, List.length_append,
    List.length_singleton, hlast]
  exact ⟨_, _, rfl, rfl, rfl, rfl, stageY_tauOff _ _ hset ht, rfl, rfl, rfl⟩

theorem exec_pipelineSample_inRow {s : State} {row : Nat} (c : BitVec 14) (clip : Bool) (ecc : List (Fin 4 × Bool)) (hl : s.live = true)
    (hrow : s.fe.row = some row) (hrun : s.feRunning = true) (hb : s.fe.buf.length < feCols s) :
    exec (.pipelineSample c clip ecc) s = .next (pipelineSample s row c.toNat clip ecc) := by
  change execPipelineSample c clip ecc s = _
  simp only [execPipelineSample, whenLive_live _ hl, hrow, hrun, hb, decide_true, Bool.and_self, if_true]

theorem exec_pipelineSample_midRow {s : State} {row : Nat} (c : BitVec 14) (hl : s.live = true) (hrow : s.fe.row = some row)
    (hrun : s.feRunning = true) (hb : s.fe.buf ≠ []) (hlast : s.fe.buf.length + 1 < feCols s) (hset : s.rdb Reg.NUC_CFG 0 = true)
    (ht : s.nuc.tauOff = true) (hw : s.nuc.w = 0 ∨ s.nuc.w = 65536) :
    ∃ t px, exec (.pipelineSample c false []) s = .next t ∧ t.fe.buf = s.fe.buf ++ [px] ∧ px.code = c.toNat ∧ px.clip = false ∧
      px.y = (let r := setRecord s (if s.nuc.w = 0 then s.nuc.selLo else s.nuc.selHi) (row * 1024 + s.fe.buf.length)
        ((s.rd Reg.NUC_TREF_SET).toNat : Int) + roundDiv ((fld r 45 30 : Int) * ((c.toNat : Int) * 16 - (fld r 63 46 : Int))) 4) ∧
      t.fe.hdr = s.fe.hdr ∧ t.mem = s.mem ∧ t.queues = s.queues := by
  obtain ⟨t, px, hsample, hbuf, hcode, hclip, hy, hframe⟩ := pipelineSample_midRow row c.toNat hb hlast.ne hset ht
  rw [exec_pipelineSample_inRow c false [] hl hrow hrun (Nat.lt_of_succ_lt hlast), hsample]
  exact ⟨t, px, rfl, hbuf, hcode, hclip, hy.trans (stageU_oneSet _ _ hset hw), hframe⟩

/-! ## Coefficient records (R194, R195) -/

/-- The pixel index advances, and the table stays. -/
theorem nextCaddr_fields {s : State} (hs : s.canon = true) :
    (nextCaddr s).rdf Reg.NUC_CADDR 16 0 = (s.rdf Reg.NUC_CADDR 16 0 + 1) % 2 ^ 17 ∧
      (nextCaddr s).rdf Reg.NUC_CADDR 31 30 = s.rdf Reg.NUC_CADDR 31 30 :=
  ⟨rdf_wrf_same _ _ _ _ hs (by decide) (by decide), rdf_wrf_otherField _ _ _ _ _ _ hs (by decide) (by decide) (.inr (by decide))⟩

/-- The record that NUC_CADDR addresses (R194). -/
def addressedKey (s : State) : Nat := coefKey (s.rdf Reg.NUC_CADDR 31 30) (s.rdf Reg.NUC_CADDR 16 0)

/-- The addressed record is written from NUC_CDATA_HI and the word for NUC_CDATA_LO; the index has not advanced yet. -/
def recordStored (s : State) (v : Word) : State :=
  (s.wr Reg.NUC_CDATA_LO v).modNuc fun n => putCoef n (addressedKey s) (BitVec.ofNat 64 (v.toNat + 2 ^ 32 * (s.rd Reg.NUC_CDATA_HI).toNat))

/-- A record stands in NUC_CDATA_LO and NUC_CDATA_HI; the index has not advanced yet. -/
def recordLoaded (s : State) (r : DWord) : State :=
  (s.wr Reg.NUC_CDATA_LO (BitVec.ofNat 32 r.toNat)).wr Reg.NUC_CDATA_HI (BitVec.ofNat 32 (r.toNat / 2 ^ 32))

section
variable {s : State} {m : Master} (v : Word)

/-- A write of a set bank's record that is not in use stores the record and advances the index. -/
theorem coefWriteEffect_stores (ht : s.rdf Reg.NUC_CADDR 31 30 < 3) (hp : s.rdf Reg.NUC_CADDR 16 0 < 98304)
    (hu : bankInUse s (s.rdf Reg.NUC_CADDR 31 30) = false) : coefWriteEffect s v = nextCaddr (recordStored s v) := by
  simp only [coefWriteEffect, pixelCount, Nat.not_le.2 hp, ht.ne, hu, Bool.false_eq_true, if_false, recordStored, addressedKey]

/-- A record of a bank in use is refused (R195). -/
theorem coefWriteEffect_inUse (ht : s.rdf Reg.NUC_CADDR 31 30 < 3) (hp : s.rdf Reg.NUC_CADDR 16 0 < 98304)
    (hu : bankInUse s (s.rdf Reg.NUC_CADDR 31 30) = true) : coefWriteEffect s v =
      raise s Err.NUC_BANK_BUSY 0x09 (BitVec.ofNat 64 (addressedKey s)) := by
  simp only [coefWriteEffect, pixelCount, Nat.not_le.2 hp, ht.ne, hu, if_false, if_true, addressedKey]

theorem exec_nucCoefWrite_inUse (h : s.reaches m Reg.NUC_CDATA_LO = true) (ht : s.rdf Reg.NUC_CADDR 31 30 < 3)
    (hp : s.rdf Reg.NUC_CADDR 16 0 < 98304) (hu : bankInUse s (s.rdf Reg.NUC_CADDR 31 30) = true) :
    exec (.nucCoefWrite m v) s = .next ((raise s Err.NUC_BANK_BUSY 0x09 (BitVec.ofNat 64 (addressedKey s))).resp m []) := by
  rw [← coefWriteEffect_inUse v ht hp hu]
  exact writeRow_reaches v coefWriteEffect h

theorem exec_nucCoefWrite_stores (hs : s.canon = true) (h : s.reaches m Reg.NUC_CDATA_LO = true) (ht : s.rdf Reg.NUC_CADDR 31 30 < 3)
    (hp : s.rdf Reg.NUC_CADDR 16 0 < 98304) (hu : bankInUse s (s.rdf Reg.NUC_CADDR 31 30) = false)
    (hw : swf (fun _ => (0 : DWord)) s.nuc.coef = true) :
    ∃ t, exec (.nucCoefWrite m v) s = .next t ∧
      sget (fun _ => 0) t.nuc.coef (addressedKey s) = BitVec.ofNat 64 (v.toNat + 2 ^ 32 * (s.rd Reg.NUC_CDATA_HI).toNat) ∧
      t.rdf Reg.NUC_CADDR 16 0 = s.rdf Reg.NUC_CADDR 16 0 + 1 ∧ t.rdf Reg.NUC_CADDR 31 30 = s.rdf Reg.NUC_CADDR 31 30 ∧
      t.out = .busResp m [] 0 :: s.out := by
  have hrow : exec (.nucCoefWrite m v) s = .next ((nextCaddr (recordStored s v)).resp m []) := by
    rw [← coefWriteEffect_stores v ht hp hu]
    exact writeRow_reaches v coefWriteEffect h
  have hcaddr (hi lo : Nat) : (recordStored s v).rdf Reg.NUC_CADDR hi lo = s.rdf Reg.NUC_CADDR hi lo :=
    rdf_wr_other Reg.NUC_CDATA_LO Reg.NUC_CADDR hi lo v hs (by decide)
  obtain ⟨hindex, htable⟩ := nextCaddr_fields (s := recordStored s v) (canon_wr s _ v hs)
  rw [hcaddr] at hindex htable
  rw [Nat.mod_eq_of_lt (by omega)] at hindex
  exact ⟨_, hrow, (sget_sset _ _ _ _ _ hw).trans (if_pos rfl), hindex, htable, rfl⟩

end

theorem exec_nucCoefRead_reads {s : State} {m : Master} (hs : s.canon = true) (h : s.readsFrom m Reg.NUC_CDATA_LO = true) :
    let r := sget (fun _ => 0) s.nuc.coef (addressedKey s)
    ∃ t, exec (.nucCoefRead m) s = .next t ∧ t.out = .busResp m (bytesLE 4 (r.toNat % 2 ^ 32)) 0 :: s.out ∧
      t.rd Reg.NUC_CDATA_HI = BitVec.ofNat 32 (r.toNat / 2 ^ 32) ∧
      t.rdf Reg.NUC_CADDR 16 0 = (s.rdf Reg.NUC_CADDR 16 0 + 1) % 2 ^ 17 ∧ t.nuc = s.nuc := by
  intro r
  obtain ⟨hlive, hacc, hpairs, -⟩ := permits_parts h
  have hlo : (s.wr Reg.NUC_CDATA_LO (BitVec.ofNat 32 r.toNat)).canon = true := canon_wr _ _ _ hs
  have hboth : (recordLoaded s r).canon = true := canon_wr _ _ _ hlo
  have hrow : exec (.nucCoefRead m) s = .next ((nextCaddr (recordLoaded s r)).resp m (bytesLE 4 (BitVec.ofNat 32 r.toNat).toNat)) := by
    change execNucCoefRead m s = _
    rw [execNucCoefRead, whenLive_live _ hlive, flushPairs_nil s m _ hpairs, gated_permitted _ h, hacc]
    rfl
  refine ⟨_, hrow, ?_, ?_, ?_, rfl⟩
  · rw [BitVec.toNat_ofNat]
    rfl
  · exact (rd_wrf_other _ _ _ _ _ hboth (by decide)).trans (rd_wr_same _ _ _ (canon_parts hlo).2)
  · refine (nextCaddr_fields hboth).1.trans ?_
    rw [recordLoaded, rdf_wr_other _ _ _ _ _ hlo (by decide), rdf_wr_other _ _ _ _ _ hs (by decide)]

/-! ## APPLY (R207) -/

/-- APPLY with the front end running or a parameter 0 is refused. -/
theorem tdiApply_refused {s : State} (h : s.feRunning = true ∨ s.rdf Reg.TDI_PATH 30 24 = 0 ∨ s.rdf Reg.TDI_V0 15 0 = 0 ∨
    s.rdf Reg.TDI_G 15 0 = 0 ∨ s.rdf Reg.TDI_PITCH 15 0 = 0) : tdiApply s = raise s Err.TDI_CONFIG 0x0A := by
  unfold tdiApply
  refine if_pos ?_
  rcases h with h | h | h | h | h
  all_goals simp [h]

/-- Settles O24, clause by clause: samples, coefficient records, the selection, and the refusals of APPLY. -/
theorem pipelineAndCoefficients : Obligations.PipelineAndCoefficients := by
  unfold Obligations.PipelineAndCoefficients
  refine ⟨fun s row c hl hrow hrun hb hlast hset ht _ _ hw => exec_pipelineSample_midRow c hl hrow hrun hb hlast hset ht hw,
    fun s m v hs h ht hp hu hw => exec_nucCoefWrite_stores v hs h ht hp hu hw, fun s m v h ht hp hu => exec_nucCoefWrite_inUse v h ht hp hu,
    fun s m hs h => exec_nucCoefRead_reads hs h, fun s m v h => writeRow_reaches v setselEffect h, fun s m h hrefused => ?_⟩
  rw [← tdiApply_refused hrefused]
  exact writeRow_reaches 1 tdiCtrlEffect h

end Sys2Proof.Machine
end

section
/-! Front end: RUN, settings, outputs and bias DACs (R163-R166, R173-R175, R200, R223; O21). -/

namespace Sys2Proof.Machine

/-! ## RUN (R163, R166) -/

section
variable {s : State} {m : Master}

/-- A flag that firmware has read is not read again (R185). -/
theorem readFlag_posRead (h : s.sht.posRead = true) : readFlag s = s := by
  simp only [readFlag, h, Bool.true_or, if_true]

/-- Setting RUN of a stopped front end starts it, or raises 0x3001. -/
theorem feCtrlEffect_sets (hc : s.rdb Reg.BFE_CTRL 0 = false) (hr : s.feRunning = false) :
    feCtrlEffect s 1 = if geomValid s && timingValid s then startRun s else raise s Err.FE_TIMING 0x07 := by
  have hset : bitOf (1 : Word) 0 = true := by decide
  cases hv : geomValid s && timingValid s with
  | true => simp only [feCtrlEffect, hset, hc, hr, hv, Bool.false_eq_true, if_true, if_false, Bool.not_true]
  | false => simp only [feCtrlEffect, hset, hc, hv, Bool.false_eq_true, if_true, if_false, Bool.not_false]

theorem sht_feCtrlEffect_sets (hc : s.rdb Reg.BFE_CTRL 0 = false) (hr : s.feRunning = false) : (feCtrlEffect s 1).sht = s.sht := by
  rw [feCtrlEffect_sets hc hr]
  split
  · rfl
  · obtain ⟨fw, regs, hraise⟩ := latchesOnly_raise (s := s) (code := Err.FE_TIMING) 0x07 0 (by decide) (by decide)
    rw [hraise]
    rfl

theorem exec_feRun_stopped (h : s.reaches m Reg.BFE_CTRL = true) (hc : s.rdb Reg.BFE_CTRL 0 = false) (hr : s.feRunning = false)
    (hp : s.sht.posRead = true) :
    exec (.feRun m) s = .next ((if geomValid s && timingValid s then startRun s else raise s Err.FE_TIMING 0x07).resp m []) := by
  have hread : readFlag (feCtrlEffect s 1) = feCtrlEffect s 1 := readFlag_posRead (by rw [sht_feCtrlEffect_sets hc hr, hp])
  rw [← feCtrlEffect_sets hc hr, ← hread]
  refine (writeRow_reaches 1 feCtrlFull h).trans ?_
  simp only [feCtrlFull, hc, Bool.false_and, Bool.false_eq_true, if_false]

/-- What a start leaves in the front end's registers and in the row's record. -/
theorem startRun_runs (hs : s.canon = true) : (startRun s).feRunning = true ∧ (startRun s).rdb Reg.BFE_CTRL 0 = true ∧
    (startRun s).rd Reg.BFE_FRAME = 0 ∧ (startRun s).fe.row = none ∧ (startRun s).fe.buf = [] := by
  have hctrl : (s.wrb Reg.BFE_CTRL 0 true).canon = true := canon_wrb hs
  have hstat : ((s.wrb Reg.BFE_CTRL 0 true).wrb Reg.BFE_STAT 0 true).canon = true := canon_wrb hctrl
  have hframe : (((s.wrb Reg.BFE_CTRL 0 true).wrb Reg.BFE_STAT 0 true).wr Reg.BFE_FRAME 0).canon = true := canon_wr _ _ _ hstat
  have hrest {a : Nat} (ha : a ≠ Reg.NUC_STAT) :
      (startRun s).rd a = (((s.wrb Reg.BFE_CTRL 0 true).wrb Reg.BFE_STAT 0 true).wr Reg.BFE_FRAME 0).rd a :=
    (rd_wrb_other (canon_wrb hframe) ha).trans (rd_wrb_other hframe ha)
  refine ⟨?_, ?_, ?_, rfl, rfl⟩
  · rw [State.feRunning, State.rdb, hrest (by decide), rd_wr_other _ _ _ _ (canon_parts hstat).2 (by decide)]
    exact rdb_wrb_same hctrl (by decide)
  · rw [State.rdb, hrest (by decide), rd_wr_other _ _ _ _ (canon_parts hstat).2 (by decide), rd_wrb_other hctrl (by decide)]
    exact rdb_wrb_same hs (by decide)
  · rw [hrest (by decide), rd_wr_same _ _ _ (canon_parts hstat).2]

/-- Clearing RUN with no calibration dialogue clears the bit alone. -/
theorem exec_feStop_noDialogue (h : s.reaches m Reg.BFE_CTRL = true) (hs : s.canon = true) (hc : s.rdb Reg.BFE_CTRL 0 = true)
    (hcal : calState s = 0) : exec (.feStop m) s = .next ((s.wrb Reg.BFE_CTRL 0 false).resp m []) := by
  have hclear : feCtrlEffect s 0 = s.wrb Reg.BFE_CTRL 0 false := rfl
  have hidle : calState (s.wrb Reg.BFE_CTRL 0 false) = 0 := by
    rw [calState, State.rdf, rd_wrb_other hs (by decide)]
    exact hcal
  refine (writeRow_reaches 0 feCtrlFull h).trans ?_
  rw [feCtrlFull, hclear, hc, if_pos (by decide), calFrontEndLost, calAbort_noDialogue _ hidle]

/-! ## Settings and outputs (R164-R166, R200) -/

theorem exec_feConfigWrite_reaches {a : Word} (v : Word) (ha : a.toNat ∈ feConfigRegs) (h : s.reaches m a.toNat = true) :
    exec (.feConfigWrite m a v) s = .next ((feConfigTau a.toNat s v).resp m []) :=
  (if_pos ha).trans (writeRow_reaches v (feConfigTau a.toNat) h)

theorem feConfigTau_running (a : Nat) (v : Word) (hr : s.feRunning = true)
    (hf : framePeriod (raise s Err.FE_BUSY 0x07) = framePeriod s) : feConfigTau a s v = raise s Err.FE_BUSY 0x07 := by
  simp only [feConfigTau, feConfigEffect, hr, hf, if_true]

theorem feConfigTau_stopped (a : Nat) (v : Word) (hr : s.feRunning = false) : feConfigTau a s v =
    if framePeriod (fieldWrite s a v) = framePeriod s then fieldWrite s a v else nominalTau (fieldWrite s a v) := by
  simp only [feConfigTau, feConfigEffect, hr, Bool.false_eq_true, if_false]

theorem feOutEffect_stopped (v : Word) (hr : s.feRunning = false) : feOutEffect s v =
    (fieldWrite s Reg.BFE_OUT v).modFe fun f => { f with outNow := (fieldWrite s Reg.BFE_OUT v).rd Reg.BFE_OUT } := by
  simp only [feOutEffect, hr, Bool.false_eq_true, if_false]

theorem feOutEffect_running (v : Word) (hr : s.feRunning = true) : feOutEffect s v =
    let t := s.wr Reg.BFE_OUT (setFld (setFld (s.rd Reg.BFE_OUT) 7 0 v.toNat) 15 8 (fld s.fe.outNow 15 8))
    if fld v 15 8 = fld s.fe.outNow 15 8 then t else raise t Err.FE_BUSY 0x07 := by
  simp only [feOutEffect, hr, if_true]

/-! ## Bias DACs (R173-R175) -/

theorem regDesc_bias : ∀ n : Fin 6,
    regDesc (Reg.BFE_BIAS n.val) = some { base := 0x40070040, stride := 0x4, count := 6, rw := 0x8000FFFF } := by
  decide

/-- The code of a bias register is written as it stands, locked or not. -/
theorem biasCode_fieldWrite (n : Fin 6) (v : Word) (hs : s.canon = true) :
    (fieldWrite s (Reg.BFE_BIAS n.val) v).rdf (Reg.BFE_BIAS n.val) 15 0 = fld v 15 0 := by
  have hwritable : ∀ k < 16, (0x8000FFFF : Word).getLsbD k = true := by decide
  refine Nat.eq_of_testBit_eq fun k => ?_
  rw [State.rdf, testBit_fld, testBit_fld, Nat.zero_add]
  by_cases hk : k < 16
  · rw [bitOf, getLsbD_rd_fieldWrite v hs (regDesc_bias n) (by omega), hwritable k hk]
    simp [bitOf]
  · simp [hk]

theorem biasEffect_outside {n : Fin 6} {v : Word}
    (h : fld v 15 0 < s.rdf (biasLim n.val) 15 0 ∨ s.rdf (biasLim n.val) 31 16 < fld v 15 0) :
    biasEffect n s v = raise (s.wrb Reg.BFE_BIAS_STAT n.val true) Err.BIAS_RANGE 0x07 (BitVec.ofNat 64 n.val) := if_pos h

theorem biasEffect_stopped {n : Fin 6} {v : Word} (hr : s.feRunning = false)
    (hlo : s.rdf (biasLim n.val) 15 0 ≤ fld v 15 0) (hhi : fld v 15 0 ≤ s.rdf (biasLim n.val) 31 16) :
    biasEffect n s v = (fieldWrite s (Reg.BFE_BIAS n.val) v).modFe fun f =>
      { f with bias := f.bias.set n.val ((fieldWrite s (Reg.BFE_BIAS n.val) v).rd (Reg.BFE_BIAS n.val)) } := by
  simp only [biasEffect, Nat.not_lt.2 hlo, Nat.not_lt.2 hhi, or_self, hr, Bool.false_eq_true, if_false]

theorem out_fieldWrite (a : Nat) (v : Word) : (fieldWrite s a v).out = s.out := by
  unfold fieldWrite
  split <;> rfl

/-- A code within its limits is stored, and in force at once while the front end is stopped. -/
theorem exec_biasWrite_stopped {n : Fin 6} {v : Word} (h : s.reaches m (Reg.BFE_BIAS n.val) = true) (hr : s.feRunning = false)
    (hs : s.canon = true) (hlo : s.rdf (biasLim n.val) 15 0 ≤ fld v 15 0) (hhi : fld v 15 0 ≤ s.rdf (biasLim n.val) 31 16) :
    ∃ t, exec (.biasWrite m n v) s = .next t ∧ t.rdf (Reg.BFE_BIAS n.val) 15 0 = fld v 15 0 ∧
      t.fe.bias[n] = t.rd (Reg.BFE_BIAS n.val) ∧ t.out = .busResp m [] 0 :: s.out := by
  have hrow := writeRow_reaches v (biasEffect n) h
  rw [biasEffect_stopped hr hlo hhi] at hrow
  refine ⟨_, hrow, biasCode_fieldWrite n v hs, ?_, ?_⟩
  · exact Vector.getElem_set_self _
  · exact congrArg _ (out_fieldWrite _ v)

theorem exec_biasLimit_live (n : Fin 6) (hl : s.live = true) :
    exec (.biasLimit n) s = .next (if s.rdb Reg.BFE_BIAS_STAT (8 + n.val) then s
      else raise (s.wrb Reg.BFE_BIAS_STAT (8 + n.val) true) Err.BIAS_LIMIT 0x07 (BitVec.ofNat 64 n.val)) ∧
    exec (.biasLimitEnd n) s = .next (s.wrb Reg.BFE_BIAS_STAT (8 + n.val) false) := by
  constructor
  · change execBiasLimit n s = _
    rw [execBiasLimit, whenLive_live _ hl]
  · change execBiasLimitEnd n s = _
    rw [execBiasLimitEnd, whenLive_live _ hl]

end

/-- Settles O21, clause by clause: RUN, settings, outputs and bias DACs. -/
theorem frontEndSettings : Obligations.FrontEndSettings := by
  unfold Obligations.FrontEndSettings
  refine ⟨fun s m h hc hr hp => exec_feRun_stopped h hc hr hp, fun s hs => startRun_runs hs,
    fun s m h hs hc hcal => exec_feStop_noDialogue h hs hc hcal, fun s m a v ha h hr _ hf => ?_, fun s m a v ha h hr => ?_,
    fun s m v h hr => ?_, fun s m v h hr => ?_, fun s m n v h hv => ?_,
    fun s m n v h hr hs hlo hhi => exec_biasWrite_stopped h hr hs hlo hhi, fun s n hl => exec_biasLimit_live n hl⟩
  · rw [exec_feConfigWrite_reaches v ha h, feConfigTau_running _ v hr hf]
  · rw [exec_feConfigWrite_reaches v ha h, feConfigTau_stopped _ v hr]
  · rw [← feOutEffect_stopped v hr]
    exact writeRow_reaches v feOutEffect h
  · rw [← feOutEffect_running v hr]
    exact writeRow_reaches v feOutEffect h
  · rw [← biasEffect_outside hv]
    exact writeRow_reaches v (biasEffect n) h

end Sys2Proof.Machine
end

section
/-! What leaves the front end's own state alone: the crossing queues and the ports they feed (R133-R135, R252), the integrator's lines
(R208, R209), lane states, and the fabric at a row boundary (R270-R272). -/

namespace Sys2Proof.Machine

/-- A choice leaves the front end alone when both its branches do. -/
theorem fe_branch {r a b : State} {c : Prop} [Decidable c] (h : a.fe = r.fe) (k : b.fe = r.fe) : (if c then a else b).fe = r.fe := by
  split
  · exact h
  · exact k

theorem foldl_fe {α : Type} (f : State → α → State) (hf : ∀ t x, (f t x).fe = t.fe) :
    ∀ (l : List α) (s : State), (l.foldl f s).fe = s.fe
  | [], _ => rfl
  | x :: l, s => (foldl_fe f hf l (f s x)).trans (hf s x)

theorem latchesOnly_fe {s t : State} (h : LatchesOnly s t) : t.fe = s.fe := by
  obtain ⟨fw, regs, rfl⟩ := h
  rfl

/-! ## Crossing queues -/

theorem seesFull_fe {s s1 : State} {q : Fin 24} {full : Bool} (h : seesFull s q = (full, s1)) : s1.fe = s.fe := by
  obtain ⟨-, hsees⟩ | ⟨-, _, _, hsees⟩ := seesFull_cases s q
  · obtain ⟨-, rfl⟩ := Prod.mk.inj (hsees.symm.trans h)
    rfl
  · obtain ⟨-, rfl⟩ := Prod.mk.inj (hsees.symm.trans h)
    rfl

theorem pushAbort_fe (s : State) (q : Fin 24) : (pushAbort s q).fe = s.fe := rfl

theorem countDrop_fe (s : State) (q : Fin 24) : (countDrop s q).fe = s.fe :=
  latchesOnly_fe (latchesOnly_raise (s := s.bump (Reg.Q_STAT q.val) 31 20) _ _ (by decide) (by decide))

theorem writeStall_fe (s : State) (q : Fin 24) (e : QEntry) : (writeStall s q e).fe = s.fe := by
  unfold writeStall
  split
  next full s1 hsees => exact Eq.trans (fe_branch (r := s1) rfl rfl) (seesFull_fe hsees)

theorem writeDrop_fe (s : State) (q : Fin 24) (e : QEntry) : (writeDrop s q e).fe = s.fe := by
  unfold writeDrop
  refine fe_branch rfl ?_
  split
  next full s1 hsees =>
    extract_lets s2
    have h2 : s2.fe = s.fe := (fe_branch (r := s1) (pushAbort_fe _ _) rfl).trans (seesFull_fe hsees)
    exact fe_branch ((countDrop_fe _ q).trans h2) h2

theorem queueWrite_fe (s : State) (q : Fin 24) (e : QEntry) : (queueWrite s q e).fe = s.fe :=
  fe_branch rfl (fe_branch (writeStall_fe s q e) (writeDrop_fe s q e))

theorem queuePop_fe (s : State) (q : Fin 24) : (queuePop s q).2.fe = s.fe := by
  unfold queuePop
  split <;> rfl

theorem releaseStalled_fe (q : Fin 24) : ∀ (l : List QEntry) (s : State), (releaseStalled s q l).fe = s.fe
  | [], _ => rfl
  | e :: r, s => fe_branch rfl (releaseStalled_fe q r ((pushSlot s q e).modQueue q fun x => { x with stalled := x.stalled.drop 1 }))

/-! ## Input ports -/

theorem recordEntry_fe (s : State) (p : Nat) (stamp : Word) : (recordEntry s p stamp).fe = s.fe := by
  unfold recordEntry
  split <;> rfl

theorem beginPacket_fe (s : State) (p : Nat) (e : QEntry) : (beginPacket s p e).fe = s.fe :=
  fe_branch rfl (fe_branch (recordEntry_fe s p e.data) rfl)

theorem deliver_fe (s : State) (slots : List (Nat × Nat)) (e : SlotEntry) : (deliver s slots e).fe = s.fe :=
  foldl_fe (fun t (k : Nat × Nat) => t.modCell k.1 fun x => x.modSlot k.2 (slotPut e)) (fun _ _ => rfl) slots s

theorem portTake_fe (s : State) (p : Nat) (e : QEntry) : (portTake s p e).2.fe = s.fe := by
  unfold portTake
  extract_lets s1 after slots
  have h1 : s1.fe = s.fe := fe_branch (beginPacket_fe s p e) rfl
  have hafter (t : State) : (after t).fe = t.fe := fe_branch rfl rfl
  split
  · split
    · exact (hafter _).trans ((deliver_fe _ _ _).trans h1)
    · exact h1
  · exact (hafter _).trans h1

theorem pumpQueue_fe (q : Fin 24) (p : Nat) : ∀ (n : Nat) (s : State), (pumpQueue q p n s).fe = s.fe
  | 0, _ => rfl
  | n + 1, s => by
    unfold pumpQueue
    refine fe_branch rfl ?_
    split
    · rfl
    · next e _ _ =>
      have htake : (portTake s p e.entry).2.fe = s.fe := portTake_fe s p e.entry
      split
      · next s1 heq =>
        rw [heq] at htake
        rw [pumpQueue_fe q p n, releaseStalled_fe, queuePop_fe, htake]
      · next s1 heq =>
        rw [heq] at htake
        exact htake

theorem fabricWrite_fe (s : State) (q : Fin 24) (e : QEntry) : (fabricWrite s q e).fe = s.fe := by
  have hwrite : (queueWrite s q e).fe = s.fe := queueWrite_fe s q e
  unfold fabricWrite
  split
  · exact (pumpQueue_fe _ _ _ _).trans hwrite
  · exact (pumpQueue_fe _ _ _ _).trans hwrite
  · exact (pumpQueue_fe _ _ _ _).trans hwrite
  · exact (pumpQueue_fe _ _ _ _).trans hwrite
  · exact hwrite

theorem fabricWriteAll_fe (s : State) (q : Fin 24) (l : List QEntry) : (fabricWriteAll s q l).fe = s.fe :=
  foldl_fe _ (fun t e => fabricWrite_fe t q e) l s

/-! ## The integrator's lines -/

theorem finishLine_fe (s : State) (l : TdiLine) : (finishLine s l).fe = s.fe :=
  fe_branch (fe_branch (fabricWriteAll_fe s 9 (linePacket s l)) rfl) rfl

theorem tdiOpen_fe (s : State) : (tdiOpen s).fe = s.fe :=
  fe_branch rfl (fe_branch (finishLine_fe _ _) rfl)

/-! ## Lanes and the fabric at a row boundary -/

theorem postEvent_fe (s : State) (code : Half) (lane : Nat) (body : List Byte) : (postEvent s code lane body).fe = s.fe :=
  fe_branch (fe_branch rfl rfl) (fe_branch rfl (fe_branch rfl rfl))

theorem modLane_fe (s : State) (p : Nat) (f : Lane → Lane) : (s.modLane p f).fe = s.fe := fe_branch rfl rfl

theorem setLane_fe (s : State) (p : Nat) (st : LaneState) (cause : Half) : (setLane s p st cause).fe = s.fe := by
  unfold setLane
  simp only [apply_ite State.fe, postEvent_fe, modLane_fe, State.modFw_fe, State.modRing_fe, State.modLanes_fe, ite_self]

theorem openBoundary_fe (s : State) : (openBoundary s).fe = s.fe := fe_branch rfl rfl

theorem admitBoundary_fe (s : State) : (admitBoundary s).fe = s.fe :=
  fe_branch (fe_branch (setLane_fe _ _ _ _) rfl) rfl

theorem fabRowBoundary_fe (s : State) : (fabRowBoundary s).fe = s.fe := by
  unfold fabRowBoundary
  split
  · exact fe_branch rfl rfl
  · exact fe_branch rfl rfl
  · rfl

end Sys2Proof.Machine
end

section
/-! Row boundaries (R167, R171) and the focal-plane temperature (R176, R177) (O22). -/

namespace Sys2Proof.Machine

/-! ## Row boundaries -/

/-- The header that a row captures at its boundary (R171). -/
def rowHeader (s : State) (row : Nat) : RowHdr :=
  { stamp := s.ct, frame := s.rdf Reg.BFE_FRAME 23 0, row := row, t := (s.rd Reg.BFE_FPT_K).toNat,
    stale := s.rdb Reg.BFE_FPT_STAT 2, shut := if shtPresent s then s.sht.shut else .opened }

/-- What follows at a row's start in the integrator, the lane and the fabric leaves the front end as the row found it. -/
theorem rowStart_fe (row : Nat) (s : State) :
    (rowStart row s).fe = { s.fe with row := some row, hdr := rowHeader s row, buf := [], rows := s.fe.rows + 1 } := by
  unfold rowStart
  rw [fabRowBoundary_fe, admitBoundary_fe, openBoundary_fe, tdiOpen_fe]
  rfl

theorem rowStart_header (row : Nat) (s : State) : (rowStart row s).fe.hdr.stamp = s.ct ∧ (rowStart row s).fe.hdr.row = row ∧
    (rowStart row s).fe.hdr.t = (s.rd Reg.BFE_FPT_K).toNat ∧ (rowStart row s).fe.row = some row ∧ (rowStart row s).fe.buf = [] := by
  rw [rowStart_fe]
  exact ⟨rfl, rfl, rfl, rfl, rfl⟩

section
variable {s : State} (hl : s.live = true)
include hl

theorem exec_rowBoundary_stopped (hr : s.feRunning = false) : exec .rowBoundary s = .next s := by
  change execRowBoundary s = _
  simp only [execRowBoundary, whenLive_live _ hl, hr, Bool.not_false, if_true]

/-- The first row boundary after RUN. -/
theorem exec_rowBoundary_first (hr : s.feRunning = true) (hrow : s.fe.row = none) :
    exec .rowBoundary s = .next (rowStart 0 (frameSettings s)) := by
  change execRowBoundary s = _
  simp only [execRowBoundary, whenLive_live _ hl, hr, hrow, Bool.not_true, Bool.false_eq_true, if_false]

theorem exec_rowBoundary_incomplete {r : Nat} (hr : s.feRunning = true) (hrow : s.fe.row = some r) (hb : s.fe.buf.length < feCols s) :
    exec .rowBoundary s = .next s := by
  have hopen : rowComplete s = false := beq_false_of_ne hb.ne
  change execRowBoundary s = _
  simp only [execRowBoundary, whenLive_live _ hl, hr, hrow, hopen, Bool.not_true, Bool.not_false, Bool.false_eq_true, if_false, if_true]

theorem exec_rowBoundary_inFrame {r : Nat} (hr : s.feRunning = true) (hrow : s.fe.row = some r) (hb : s.fe.buf.length = feCols s)
    (hnext : r + 1 < feRows s) : exec .rowBoundary s = .next (rowStart (r + 1) (calRow s)) := by
  have hdone : rowComplete s = true := beq_iff_eq.2 hb
  change execRowBoundary s = _
  simp only [execRowBoundary, whenLive_live _ hl, hr, hrow, hdone, hnext, Bool.not_true, Bool.false_eq_true, if_false, if_true]

/-! ## Measurements -/

theorem exec_fptMeasure_off (raw : Word) (u : Nat) (hm : s.rdf Reg.BFE_FPT_CFG 1 0 = 0) : exec (.fptMeasure raw u) s = .next s := by
  change execFptMeasure raw u s = _
  simp only [execFptMeasure, whenLive_live _ hl, hm, if_true]

/-- A voltage above 2 V is an open, raised at its entry. -/
theorem exec_fptMeasure_open (raw : Word) {u : Nat} (hm : s.rdf Reg.BFE_FPT_CFG 1 0 ≠ 0) (hu : 2000000 < u) (ho : s.fe.fptOpen = false) :
    exec (.fptMeasure raw u) s = .next (raise ((((s.wr Reg.BFE_FPT_RAW raw).modFe fun f =>
      { f with fptOpen := true, fptShort := false }).wrb Reg.BFE_FPT_STAT 1 false).wrb Reg.BFE_FPT_STAT 0 true) Err.FPT_OPEN 0x07) := by
  change execFptMeasure raw u s = _
  simp only [execFptMeasure, whenLive_live _ hl, hm, hu, decide_true, Bool.not_true, Bool.false_and, ho, fptFault, Bool.false_eq_true,
    if_true, if_false]

/-- A short that was found before is not raised again. -/
theorem exec_fptMeasure_shortAgain (raw : Word) {u : Nat} (hm : s.rdf Reg.BFE_FPT_CFG 1 0 = 2) (hu : u < 5000)
    (hsh : s.fe.fptShort = true) : exec (.fptMeasure raw u) s = .next (((s.wr Reg.BFE_FPT_RAW raw).modFe fun f =>
      { f with fptOpen := false, fptShort := true }).wrb Reg.BFE_FPT_STAT 0 false) := by
  have hclosed : ¬2000000 < u := by omega
  change execFptMeasure raw u s = _
  simp only [execFptMeasure, whenLive_live _ hl, hm, hu, hclosed, hsh, fptFault, decide_true, decide_false, Bool.not_false, Bool.true_and,
    Bool.false_eq_true, OfNat.ofNat_ne_zero, if_true, if_false]

theorem exec_fptStale_on (hm : s.rdf Reg.BFE_FPT_CFG 1 0 ≠ 0) : exec .fptStale s = .next (s.wrb Reg.BFE_FPT_STAT 2 true) := by
  change execFptStale s = _
  simp only [execFptStale, whenLive_live _ hl, hm, if_false]

end

/-! ## The conversion table (R176) -/

/-- The RAW values of an ascending table rise from entry to entry. -/
theorem fptEntry_ascends {s : State} (h : fptAscending s = true) : ∀ {i j : Nat}, i < j → j < 16 → (fptEntry s i).1 < (fptEntry s j).1
  | i, j + 1, hij, hj => by
    have hstep : (fptEntry s j).1 < (fptEntry s (j + 1)).1 :=
      of_decide_eq_true (List.all_eq_true.1 h j (List.mem_range.2 (by omega)))
    rcases Nat.lt_succ_iff_lt_or_eq.1 hij with hlt | rfl
    · exact (fptEntry_ascends h hlt (by omega)).trans hstep
    · exact hstep

/-- The RAW value of the first entry is converted in the table's first segment. -/
theorem fptSegment_first {s : State} (h : fptAscending s = true) : fptSegment s (fptEntry s 0).1 = 0 := by
  have honly : (List.range 15).filter (fun j => decide (j = 0 ∨ (fptEntry s j).1 ≤ (fptEntry s 0).1)) = [0] := by
    have hkept : ∀ j ∈ List.range 15, decide (j = 0 ∨ (fptEntry s j).1 ≤ (fptEntry s 0).1) = decide (j = 0) := by
      intro j hj
      have habove : j ≠ 0 → ¬(fptEntry s j).1 ≤ (fptEntry s 0).1 := fun hne =>
        Nat.not_le.2 (fptEntry_ascends h (Nat.pos_of_ne_zero hne) (by have := List.mem_range.1 hj; omega))
      exact decide_eq_decide.2 ⟨fun hor => hor.elim id fun hle => by_contra fun hne => habove hne hle, .inl⟩
    rw [List.filter_congr hkept]
    decide
  rw [fptSegment, honly]
  rfl

theorem storeQ16_word (w : Word) : storeQ16 (w.toNat : Int) = (w.toNat, false) := by
  have hw : w.toNat < 2 ^ 32 := w.isLt
  rw [storeQ16, if_neg (by omega), if_neg (by omega), Int.toNat_natCast]

/-- The RAW value of the first entry converts to that entry's kelvin, inside the table. -/
theorem fptConvert_first {s : State} (h : fptAscending s = true) :
    fptConvert s (s.rd (Reg.BFE_FPT_TAB_RAW 0)).toNat = ((s.rd (Reg.BFE_FPT_TAB_K 0)).toNat, false, s) := by
  have hlast : (fptEntry s 0).1 < (fptEntry s 15).1 := fptEntry_ascends h (by decide) (by decide)
  have hraw : (s.rd (Reg.BFE_FPT_TAB_RAW 0)).toNat = (fptEntry s 0).1 := rfl
  have hk : (fptEntry s 0).2 = (s.rd (Reg.BFE_FPT_TAB_K 0)).toNat := rfl
  simp only [fptConvert, h, if_true, hraw, fptSegment_first h, sub_self, zero_mul, roundDiv_zero, add_zero, hk, storeQ16_word,
    Nat.lt_irrefl, decide_false, Bool.false_or, Nat.not_lt.2 hlast.le]

/-! ## A good measurement -/

/-- A measurement that is neither an open nor a short has arrived; it is not converted yet. -/
def fptMeasured (s : State) (raw : Word) : State :=
  (s.wr Reg.BFE_FPT_RAW raw).modFe fun f => { f with fptOpen := false, fptShort := false }

theorem rd_fptMeasured_other {s : State} {a : Nat} (raw : Word) (hs : s.canon = true) (ha : a ≠ Reg.BFE_FPT_RAW) :
    (fptMeasured s raw).rd a = s.rd a :=
  rd_wr_other s _ _ raw (canon_parts hs).2 ha

/-- The table lies apart from the measurement. -/
theorem fptEntry_fptMeasured {s : State} (raw : Word) (hs : s.canon = true) (j : Nat) : fptEntry (fptMeasured s raw) j = fptEntry s j := by
  have hraw : Reg.BFE_FPT_TAB_RAW j ≠ Reg.BFE_FPT_RAW := by
    unfold Reg.BFE_FPT_TAB_RAW Reg.BFE_FPT_RAW
    omega
  have hkelvin : Reg.BFE_FPT_TAB_K j ≠ Reg.BFE_FPT_RAW := by
    unfold Reg.BFE_FPT_TAB_K Reg.BFE_FPT_RAW
    omega
  rw [fptEntry, fptEntry, rd_fptMeasured_other raw hs hraw, rd_fptMeasured_other raw hs hkelvin]

theorem fptAscending_fptMeasured {s : State} (raw : Word) (hs : s.canon = true) : fptAscending (fptMeasured s raw) = fptAscending s := by
  simp only [fptAscending, fptEntry_fptMeasured raw hs]

/-- The RAW value of the first entry, once measured, still converts to that entry's kelvin. -/
theorem fptConvert_fptMeasured_first {s : State} (hs : s.canon = true) (ha : fptAscending s = true) :
    fptConvert (fptMeasured s (s.rd (Reg.BFE_FPT_TAB_RAW 0))) (s.rd (Reg.BFE_FPT_TAB_RAW 0)).toNat =
      ((s.rd (Reg.BFE_FPT_TAB_K 0)).toNat, false, fptMeasured s (s.rd (Reg.BFE_FPT_TAB_RAW 0))) := by
  have hfirst := fptConvert_first ((fptAscending_fptMeasured (s.rd (Reg.BFE_FPT_TAB_RAW 0)) hs).trans ha)
  rwa [rd_fptMeasured_other _ hs (by decide), rd_fptMeasured_other _ hs (by decide)] at hfirst

theorem exec_fptMeasure_good {s : State} (raw : Word) {u k : Nat} {out : Bool} {t : State} (hl : s.live = true)
    (hm : s.rdf Reg.BFE_FPT_CFG 1 0 = 2) (hlo : 5000 ≤ u) (hhi : u ≤ 2000000)
    (hc : fptConvert (fptMeasured s raw) raw.toNat = (k, out, t)) :
    exec (.fptMeasure raw u) s = .next ((t.wr Reg.BFE_FPT_K (BitVec.ofNat 32 k)).wr Reg.BFE_FPT_STAT (BitVec.ofNat 32 (8 * b2n out))) := by
  have hnotOpen : ¬2000000 < u := Nat.not_lt.2 hhi
  have hnotShort : ¬u < 5000 := Nat.not_lt.2 hlo
  rw [fptMeasured] at hc
  change execFptMeasure raw u s = _
  simp only [execFptMeasure, whenLive_live _ hl, hm, hnotOpen, hnotShort, decide_false, Bool.not_false, Bool.true_and, Bool.false_eq_true,
    OfNat.ofNat_ne_zero, if_true, if_false, hc]

/-- A good measurement at the first entry of an ascending table. -/
theorem exec_fptMeasure_first {s : State} {u : Nat} (hl : s.live = true) (hs : s.canon = true) (hm : s.rdf Reg.BFE_FPT_CFG 1 0 = 2)
    (ha : fptAscending s = true) (hlo : 5000 ≤ u) (hhi : u ≤ 2000000) :
    ∃ t, exec (.fptMeasure (s.rd (Reg.BFE_FPT_TAB_RAW 0)) u) s = .next t ∧ t.rd Reg.BFE_FPT_K = s.rd (Reg.BFE_FPT_TAB_K 0) ∧
      t.rd Reg.BFE_FPT_RAW = s.rd (Reg.BFE_FPT_TAB_RAW 0) ∧ t.rd Reg.BFE_FPT_STAT = 0 ∧ t.fe.fptOpen = false ∧ t.fe.fptShort = false := by
  have hconvert := fptConvert_fptMeasured_first hs ha
  have hcanon : (fptMeasured s (s.rd (Reg.BFE_FPT_TAB_RAW 0))).canon = true := canon_wr s _ _ hs
  have hkelvin := canon_wr _ Reg.BFE_FPT_K (BitVec.ofNat 32 (s.rd (Reg.BFE_FPT_TAB_K 0)).toNat) hcanon
  refine ⟨_, exec_fptMeasure_good _ hl hm hlo hhi hconvert, ?_, ?_, ?_, rfl, rfl⟩
  · rw [rd_wr_other _ _ _ _ (canon_parts hkelvin).2 (by decide), rd_wr_same _ _ _ (canon_parts hcanon).2, BitVec.ofNat_toNat,
      BitVec.setWidth_eq]
  · rw [rd_wr_other _ _ _ _ (canon_parts hkelvin).2 (by decide), rd_wr_other _ _ _ _ (canon_parts hcanon).2 (by decide)]
    exact rd_wr_same s _ _ (canon_parts hs).2
  · exact rd_wr_same _ _ _ (canon_parts hkelvin).2

/-- Settles O22, clause by clause: row boundaries, and measurements of the focal-plane temperature. -/
theorem rowsAndTemperature : Obligations.RowsAndTemperature := by
  unfold Obligations.RowsAndTemperature
  exact ⟨fun s hl hr => exec_rowBoundary_stopped hl hr, fun s hl hr hrow => exec_rowBoundary_first hl hr hrow,
    fun s r hl hr hrow hb => exec_rowBoundary_incomplete hl hr hrow hb,
    fun s r hl hr hrow hb hnext => exec_rowBoundary_inFrame hl hr hrow hb hnext, fun s r => rowStart_header r s,
    fun s raw u hl hm => exec_fptMeasure_off hl raw u hm, fun s u hl hs hm ha hlo hhi => exec_fptMeasure_first hl hs hm ha hlo hhi,
    fun s raw u hl hm hu ho => exec_fptMeasure_open hl raw hm hu ho,
    fun s raw u hl hm hu hsh => exec_fptMeasure_shortAgain hl raw hm hu hsh, fun s hl hm => exec_fptStale_on hl hm⟩

end Sys2Proof.Machine
end

section
/-! The shutter (R178-R184; O23): requests, pulses, positions and timeouts. -/

namespace Sys2Proof.Machine

section
variable {s : State} {m : Master}

/-! ## Requests (R179, R180) -/

/-- The three rows that write SHT_CMD ask for the request of R180 that they are named after. -/
theorem exec_shtRequests (h : s.reaches m Reg.SHT_CMD = true) :
    exec (.shtClose m) s = .next ((shtRequest s .close).2.resp m []) ∧
    exec (.shtOpen m) s = .next ((shtRequest s .opened).2.resp m []) ∧
    exec (.shtEvent m) s = .next ((shtRequest s .event).2.resp m []) :=
  ⟨writeRow_reaches 2 shtCmdEffect h, writeRow_reaches 3 shtCmdEffect h, writeRow_reaches 1 shtCmdEffect h⟩

theorem shtRequest_refused {e : Half} (r : ShtRequest) (he : shtRefusal s = some e) : (shtRequest s r).2 = raise s e 0x08 := by
  rw [shtRequest, he]

theorem shtRequest_accepted (r : ShtRequest) (he : shtRefusal s = none) : (shtRequest s r).2 = shtStart s r := by
  rw [shtRequest, he]

/-- A refused request raises its error and changes nothing else, whichever it is. -/
theorem exec_shtRequests_refused {e : Half} (h : s.reaches m Reg.SHT_CMD = true) (he : shtRefusal s = some e) :
    ∀ c ∈ [Instr.shtClose m, .shtOpen m, .shtEvent m], exec c s = .next ((raise s e 0x08).resp m []) := by
  obtain ⟨hclose, hopen, hevent⟩ := exec_shtRequests h
  rw [shtRequest_refused _ he] at hclose hopen hevent
  simp [hclose, hopen, hevent]

theorem shtRefusal_absent (hp : shtPresent s = false) : shtRefusal s = some Err.SHT_ABSENT := by
  simp [shtRefusal, hp]

theorem shtRefusal_inhibited (hp : shtPresent s = true) (hi : s.bank1On = false ∨ s.rdb Reg.ERR_STAT 31 = true) :
    shtRefusal s = some Err.SHT_INHIBITED := by
  rcases hi with hbank | hsafe
  · simp [shtRefusal, hp, hbank]
  · simp [shtRefusal, hp, hsafe]

theorem shtRefusal_busy (hp : shtPresent s = true) (hb : s.bank1On = true) (he : s.rdb Reg.ERR_STAT 31 = false)
    (hbusy : s.sht.pulse ≠ none ∨ s.sht.seq ≠ .idle) : shtRefusal s = some Err.SHT_BUSY := by
  have hsht : shtBusy s = true := by
    rcases hbusy with hpulse | hseq
    · simp [shtBusy, Option.isSome_iff_ne_none.2 hpulse]
    · simp [shtBusy, hseq]
  simp [shtRefusal, hp, hb, he, hsht]

theorem shtRefusal_notReady (hp : shtPresent s = true) (hb : s.bank1On = true) (he : s.rdb Reg.ERR_STAT 31 = false)
    (hpulse : s.sht.pulse = none) (hseq : s.sht.seq = .idle) (hres : s.power.resReady = false) :
    shtRefusal s = some Err.SHT_NOT_READY := by
  simp [shtRefusal, shtBusy, hp, hb, he, hpulse, hseq, hres]

/-- A request is accepted only with a shutter whose bank 1 is enabled. -/
theorem shtRefusal_none (he : shtRefusal s = none) : shtPresent s = true ∧ s.bank1On = true := by
  cases hp : shtPresent s with
  | false => simp [shtRefusal_absent hp] at he
  | true =>
    cases hb : s.bank1On with
    | false => simp [shtRefusal_inhibited hp (.inl hb)] at he
    | true => exact ⟨rfl, rfl⟩

theorem shtPos_present (hp : shtPresent s = true) (hb : s.bank1On = true) : shtPos s = s.sht.pos := by
  simp only [shtPos, hp, hb, Bool.not_true, Bool.false_eq_true, if_false]

/-- An open pulse that finds the flag elsewhere is not answered by its position at once. -/
theorem startOpenPulse_elsewhere (hp : shtPresent s = true) (hb : s.bank1On = true) (hpos : s.sht.pos ≠ .opened) :
    startOpenPulse s = ((startPulse s false).modNuc fun n =>
      { n with ofsWin := if ofsFrames s ≤ n.frames.length then some (n.frames.take (ofsFrames s)) else none }).modSht fun x =>
      { x with shut := .moving } := by
  unfold startOpenPulse
  extract_lets s1 s2 s3
  have hpos3 : shtPos s3 = s.sht.pos := shtPos_present (s := s3) hp hb
  rw [hpos3, if_neg hpos]

/-- An OPEN that finds the flag elsewhere starts its pulse, and rows carry MOVING until the flag is OPEN (R181). -/
theorem shtStart_opened (hp : shtPresent s = true) (hb : s.bank1On = true) (hpos : s.sht.pos ≠ .opened) :
    shtStart s .opened = (((s.modSht fun x =>
      { x with pulse := some false, commanded := true, recovered := false, watch := some false, shut := .moving, retried := false,
               event := false, noClose := false }).modPower fun p => { p with resReady := false }).modNuc fun n =>
      { n with ofsWin := if ofsFrames s ≤ n.frames.length then some (n.frames.take (ofsFrames s)) else none }) := by
  rw [shtStart]
  refine Eq.trans (startOpenPulse_elsewhere ?_ ?_ ?_) rfl
  · exact hp
  · exact hb
  · exact hpos

theorem exec_shtRequests_accepted (h : s.reaches m Reg.SHT_CMD = true) (he : shtRefusal s = none) :
    exec (.shtClose m) s = .next (((s.modSht fun x =>
      { x with pulse := some true, commanded := true, recovered := false, watch := some true, shut := .moving, retried := false,
               event := false, noClose := false }).modPower fun p => { p with resReady := false }).resp m []) ∧
    (s.sht.pos ≠ .opened → exec (.shtOpen m) s = .next ((((s.modSht fun x =>
      { x with pulse := some false, commanded := true, recovered := false, watch := some false, shut := .moving, retried := false,
               event := false, noClose := false }).modPower fun p => { p with resReady := false }).modNuc fun n =>
      { n with ofsWin := if ofsFrames s ≤ n.frames.length then some (n.frames.take (ofsFrames s)) else none }).resp m [])) ∧
    exec (.shtEvent m) s = .next ((((s.modSht fun x =>
      { x with pulse := some true, commanded := true, recovered := false, watch := none, shut := .moving, retried := false,
               event := true, noClose := false, seq := .closing, failed := false }).modPower fun p =>
      { p with resReady := false }).modNuc fun n =>
      { n with closeWin := {}, openWin := {}, frames := [], ofsWin := none, apply := false }).resp m []) := by
  obtain ⟨hclose, hopen, hevent⟩ := exec_shtRequests h
  rw [shtRequest_accepted _ he] at hclose hopen hevent
  refine ⟨hclose, fun hpos => ?_, hevent⟩
  obtain ⟨hp, hb⟩ := shtRefusal_none he
  rw [hopen, shtStart_opened hp hb hpos]

/-! ## Pulses and the reservoir (R69, R104, R181) -/

/-- The sequencer issues no pulse while none is due. -/
theorem seqTryOpen_notDue (h : s.sht.seq ≠ .waitOpen) : seqTryOpen s = s := if_neg fun hdue => h hdue.1

/-- Nor does it before the reservoir is ready. -/
theorem seqTryOpen_notReady (h : s.power.resReady = false) : seqTryOpen s = s :=
  if_neg fun ⟨_, _, hready, _⟩ => Bool.false_ne_true (h.symm.trans hready)

theorem exec_shtPulseEnd_pulsing {c : Bool} (v : BitVec 8) (hl : s.live = true) (hp : s.sht.pulse = some c) (hs : s.sht.seq ≠ .waitOpen) :
    exec (.shtPulseEnd v) s = .next ((s.modSht fun x => { x with pulse := none, volts := v }).modPower fun p =>
      { p with resReady := decide (190 ≤ v.toNat) }) := by
  change execShtPulseEnd v s = _
  simp only [execShtPulseEnd, whenLive_live _ hl, hp]
  exact congrArg _ (seqTryOpen_notDue hs)

theorem exec_reservoirReady_rests (hp : s.sht.pulse = none) (hv : s.rdb Reg.SYS_SUPPLY 4 = true) (hs : s.sht.seq ≠ .waitOpen) :
    exec .reservoirReady s = .next ((s.modPower fun p => { p with resReady := true }).modSht fun x => { x with volts := 190 }) := by
  have htry (t : State) (ht : t.sht.seq ≠ .waitOpen) : whenLive t seqTryOpen = t := by
    rw [whenLive, seqTryOpen_notDue ht, ite_self]
  change execReservoirReady s = _
  simp only [execReservoirReady, hp, hv, Option.isSome_none, Bool.not_true, Bool.or_self, Bool.false_eq_true, if_false]
  exact congrArg _ (htry _ hs)

/-! ## Positions (R178, R181) -/

section
variable (hl : s.live = true)
include hl

/-- CLOSED in an event starts the dwell and opens the close window. -/
theorem exec_shtPosChange_closes (hp : shtPresent s = true) (hb : s.bank1On = true) (hpos : s.sht.pos = .between)
    (hs : s.sht.seq = .closing) (hn : s.sht.noClose = false) :
    exec (.shtPosChange false true) s =
      .next ((s.modSht fun x => { x with pos := .closed, shut := .closed, seq := .dwell }).modNuc fun n =>
        { n with closeWin := { armed := true } }) := by
  change execShtPosChange false true s = _
  simp only [execShtPosChange, whenLive_live _ hl, hp, hb, decodePos, hpos, positionChanged, State.modSht_sht, hs, hn, Bool.not_true,
    Bool.or_self, Bool.false_eq_true, reduceCtorEq, if_true, if_false]
  rfl

theorem exec_shtPosChange_absent (a b : Bool) (hp : shtPresent s = false) : exec (.shtPosChange a b) s = .next s := by
  change execShtPosChange a b s = _
  simp only [execShtPosChange, whenLive_live _ hl, hp, Bool.not_false, Bool.true_or, if_true]

theorem exec_shtPosFault_present (hp : shtPresent s = true) (hb : s.bank1On = true) :
    exec .shtPosFault s = .next (if s.sht.pos = .fault then raise s Err.SHT_POS_FAULT 0x08 else s) := by
  change execShtPosFault s = _
  simp only [execShtPosFault, whenLive_live _ hl, hp, hb, Bool.and_self, Bool.true_and, decide_eq_true_eq]

/-! ## Timeouts (R181, R182, R184) -/

/-- A flag that has not closed in time is 0x3041; the open pulse waits for the reservoir. -/
theorem exec_shtSettleTimeout_closing (hs : s.sht.seq = .closing) (hres : s.power.resReady = false) :
    exec .shtSettleTimeout s = .next (raise (s.modSht fun x =>
      { x with failed := x.event, noClose := true, seq := .waitOpen, watch := none }) Err.SHT_NO_CLOSE 0x08) := by
  obtain ⟨fw, regs, hraise⟩ := latchesOnly_raise (code := Err.SHT_NO_CLOSE) 0x08 0 (by decide) (by decide)
    (s := s.modSht fun x => { x with failed := x.event, noClose := true, seq := .waitOpen, watch := none })
  change execShtSettleTimeout s = _
  simp only [execShtSettleTimeout, whenLive_live _ hl, hs, true_or, if_true, settleNoClose]
  rw [hraise]
  exact congrArg _ (seqTryOpen_notReady hres)

/-- A flag that has not opened a second time ends the event as failed, and costs the lane SORTING. -/
theorem exec_shtSettleTimeout_retried (hs : s.sht.seq = .opening) (hw : s.sht.watch = none) (hr : s.sht.retried = true)
    (he : s.sht.event = true) : exec .shtSettleTimeout s = .next (ownLaneFault (((
      (raise s Err.SHT_NO_OPEN 0x08).modSht fun x => { x with seq := .idle, event := false, watch := none }).bump Reg.SHT_EVCNT 31 16).wrb
      Reg.ERR_EVT 3 true) Err.SHT_NO_OPEN fun f => { f with flag := true }) := by
  change execShtSettleTimeout s = _
  simp [execShtSettleTimeout, whenLive_live _ hl, hs, hw, settleNoOpen, hr, he, eventEnded]

theorem exec_shtDwellEnd_waits (hs : s.sht.seq = .dwell) (hres : s.power.resReady = false) :
    exec .shtDwellEnd s = .next (s.modSht fun x => { x with seq := .waitOpen }) := by
  change execShtDwellEnd s = _
  simp only [execShtDwellEnd, whenLive_live _ hl, hs, if_true]
  exact congrArg _ (seqTryOpen_notReady hres)

theorem exec_shtRecoverEnd_noEvent (hshut : s.sht.shut = .recovering) (hr : s.sht.recovered = false) (he : s.sht.event = false)
    (hs : s.sht.seq = .recovering ∨ s.sht.seq = .idle) : exec .shtRecoverEnd s = .next (s.modSht fun x =>
      { x with recovered := true, seq := .idle, event := false, commanded := false, retried := false }) := by
  have hidle : (if s.sht.seq = .recovering then ShtSeq.idle else s.sht.seq) = .idle := by
    rcases hs with h | h
    · rw [if_pos h]
    · rw [h, if_neg (by decide)]
  change execShtRecoverEnd s = _
  simp only [execShtRecoverEnd, whenLive_live _ hl, hshut, hr, he, State.modSht, hidle, ne_eq, not_true_eq_false, Bool.false_eq_true,
    or_self, and_false, if_false]

end

end

/-- Settles O23, clause by clause: requests, pulses, positions and timeouts. -/
theorem shutterCommands : Obligations.ShutterCommands := by
  unfold Obligations.ShutterCommands
  refine ⟨fun s m h => ⟨fun hp => ?_, fun hp hi => ?_, fun hp hb he hbusy => ?_, fun hp hb he hpulse hseq hres => ?_⟩,
    fun s m h he => exec_shtRequests_accepted h he, fun s v c hl hp hs => exec_shtPulseEnd_pulsing v hl hp hs,
    fun s hp hv hs => exec_reservoirReady_rests hp hv hs,
    fun s hl hp hb hpos hs hn => exec_shtPosChange_closes hl hp hb hpos hs hn, fun s a b hl hp => exec_shtPosChange_absent hl a b hp,
    fun s hl hp hb => exec_shtPosFault_present hl hp hb, fun s hl hs hres _ => exec_shtSettleTimeout_closing hl hs hres,
    fun s hl hs hw hr he => exec_shtSettleTimeout_retried hl hs hw hr he, fun s hl hs hres => exec_shtDwellEnd_waits hl hs hres,
    fun s hl hshut hr he hs => exec_shtRecoverEnd_noEvent hl hshut hr he hs⟩
  · exact exec_shtRequests_refused h (shtRefusal_absent hp)
  · exact exec_shtRequests_refused h (shtRefusal_inhibited hp hi)
  · exact exec_shtRequests_refused h (shtRefusal_busy hp hb he hbusy)
  · exact exec_shtRequests_refused h (shtRefusal_notReady hp hb he hpulse hseq hres)

end Sys2Proof.Machine
end

section
/-! An APPLY that is accepted: the path it takes and the delays it stores (R207; O25). -/

namespace Sys2Proof.Machine

/-! ## Tables of registers -/

/-- Words written to a table change the registers alone. -/
theorem foldl_wr_onlyRegs (a : Nat → Nat) (v : Nat → Word) :
    ∀ (l : List Nat) (s : State), ∃ regs, l.foldl (fun t k => t.wr (a k) (v k)) s = s.modRegs fun _ => regs
  | [], s => ⟨s.regs, rfl⟩
  | k :: l, s => foldl_wr_onlyRegs a v l (s.wr (a k) (v k))

/-- Each entry of a table whose entries have addresses of their own reads as the word written to it. -/
theorem rd_foldl_wr_range {a : Nat → Nat} (v : Nat → Word) {s : State} (ha : a.Injective) (hs : s.canon = true) {n k : Nat} (hk : k < n) :
    ((List.range n).foldl (fun t k => t.wr (a k) (v k)) s).rd (a k) = v k := by
  induction n with
  | zero => exact absurd hk (Nat.not_lt_zero k)
  | succ n ih =>
    have hregs := (canon_parts ((keeps_foldl (fun t k => t.wr (a k) (v k)) (List.range n) s
      (fun t j => keeps_State_wr t (a j) (v j) (.refl t)) (.refl s)).canon hs)).2
    rw [List.range_succ, List.foldl_append, List.foldl_cons, List.foldl_nil]
    rcases Nat.lt_succ_iff_lt_or_eq.1 hk with hlt | rfl
    · rw [rd_wr_other _ _ _ _ hregs (ha.ne hlt.ne)]
      exact ih hlt
    · exact rd_wr_same _ _ _ hregs

theorem tdiDly_injective : Function.Injective Reg.TDI_DLY := fun j k h => by
  simp only [Reg.TDI_DLY] at h
  omega

/-! ## The path that APPLY takes (R207) -/

/-- The delay of path row k, a free value where the fall time does not fit its register (log 9). -/
def pathDelay (s : State) (k : Nat) : Nat :=
  let d := fallDelay (s.rdf Reg.TDI_V0 15 0) (s.rdf Reg.TDI_G 15 0) (s.rdf Reg.TDI_PITCH 15 0) k
  if d < 65536 then d else Config.freeNat (s.free + k) % 65536

/-- The integrator holds the new path; the delays do not stand in their registers yet. -/
def pathTaken (s : State) : State :=
  (s.modFree (· + s.rdf Reg.TDI_PATH 30 24)).modTdi fun t =>
    { t with first := s.rdf Reg.TDI_PATH 22 16, n := s.rdf Reg.TDI_PATH 30 24, step := max 1 (s.rdf Reg.TDI_PATH 7 0),
             up := !s.rdb Reg.BFE_GEOM 31, dly := (List.range (s.rdf Reg.TDI_PATH 30 24)).map (pathDelay s) }

/-- The delays of the path stand in TDI_DLY. -/
def delaysStored (s : State) : State :=
  (List.range s.tdi.n).foldl (fun t k => t.wr (Reg.TDI_DLY k) (BitVec.ofNat 32 (s.tdi.dly.getD k 0))) s

/-- A fall time that fits its register is the delay. -/
theorem pathDelay_fits {s : State} {k : Nat}
    (hd : fallDelay (s.rdf Reg.TDI_V0 15 0) (s.rdf Reg.TDI_G 15 0) (s.rdf Reg.TDI_PITCH 15 0) k < 65536) :
    pathDelay s k = fallDelay (s.rdf Reg.TDI_V0 15 0) (s.rdf Reg.TDI_G 15 0) (s.rdf Reg.TDI_PITCH 15 0) k := by
  simp only [pathDelay, hd, if_true]

/-- Neither the integrator nor what has left the block nor the error record sees the delays. -/
theorem delaysStored_frame (s : State) : (delaysStored s).tdi = s.tdi ∧ (delaysStored s).out = s.out ∧ (delaysStored s).err = s.err := by
  obtain ⟨regs, h⟩ : ∃ regs, delaysStored s = s.modRegs fun _ => regs := foldl_wr_onlyRegs _ _ _ _
  rw [h]
  exact ⟨rfl, rfl, rfl⟩

theorem rd_delaysStored {s : State} (hs : s.canon = true) {k : Nat} (hk : k < s.tdi.n) :
    (delaysStored s).rd (Reg.TDI_DLY k) = BitVec.ofNat 32 (s.tdi.dly.getD k 0) :=
  rd_foldl_wr_range (fun k => BitVec.ofNat 32 (s.tdi.dly.getD k 0)) tdiDly_injective hs hk

theorem pathTaken_dly (s : State) : (pathTaken s).tdi.dly = (List.range (s.rdf Reg.TDI_PATH 30 24)).map (pathDelay s) := rfl

theorem getD_pathTaken_dly {s : State} {k : Nat} (hk : k < s.rdf Reg.TDI_PATH 30 24) : (pathTaken s).tdi.dly.getD k 0 = pathDelay s k := by
  rw [pathTaken_dly, List.getD_eq_getElem _ _ (by simpa using hk), List.getElem_map, List.getElem_range]

/-- A stopped front end takes a path with nonzero parameters that lies within the array, upwards, and leaves at most 64 lines open. -/
theorem tdiApply_accepted {s : State} (hrun : s.feRunning = false) (hn : s.rdf Reg.TDI_PATH 30 24 ≠ 0)
    (hv : s.rdf Reg.TDI_V0 15 0 ≠ 0) (hg : s.rdf Reg.TDI_G 15 0 ≠ 0) (hp : s.rdf Reg.TDI_PITCH 15 0 ≠ 0) (hup : s.rdb Reg.BFE_GEOM 31 = false)
    (hrows : s.rdf Reg.TDI_PATH 22 16 + s.rdf Reg.TDI_PATH 30 24 ≤ feRows s)
    (hlines : ceilDiv (80 * fallDelay (s.rdf Reg.TDI_V0 15 0) (s.rdf Reg.TDI_G 15 0) (s.rdf Reg.TDI_PITCH 15 0)
      (s.rdf Reg.TDI_PATH 30 24 - 1) + framePeriod s) (max 1 (s.rdf Reg.TDI_PATH 7 0) * feRowPeriod s) ≤ 64) :
    tdiApply s = delaysStored (pathTaken s) := by
  unfold tdiApply
  refine (if_neg ?_).trans rfl
  simp [hrun, hn, hv, hg, hp, hup, hrows, hlines]

/-- Settles O25: the row is APPLY, which stores the delays of the path it takes. -/
theorem tdiApplyAccepted : Obligations.TdiApplyAccepted := by
  unfold Obligations.TdiApplyAccepted
  intro s m hs h hrun hn hv hg hp hup hrows hlines
  have hrow : exec (.tdiApply m) s = .next ((delaysStored (pathTaken s)).resp m []) := by
    rw [← tdiApply_accepted hrun hn hv hg hp hup hrows hlines]
    exact writeRow_reaches 1 tdiCtrlEffect h
  obtain ⟨htdi, hout, herr⟩ := delaysStored_frame (pathTaken s)
  refine ⟨_, hrow, congrArg TdiSt.first htdi, congrArg TdiSt.n htdi, congrArg TdiSt.step htdi,
    (congrArg TdiSt.up htdi).trans (congrArg (! ·) hup), congrArg (Output.busResp m [] 0 :: ·) hout, herr, fun k hk hd => ?_⟩
  have hread : (delaysStored (pathTaken s)).rd (Reg.TDI_DLY k) = BitVec.ofNat 32 (pathDelay s k) := by
    rw [rd_delaysStored (s := pathTaken s) hs hk, getD_pathTaken_dly hk]
  refine (congrArg BitVec.toNat hread).trans ?_
  rw [pathDelay_fits hd, BitVec.toNat_ofNat]
  omega

end Sys2Proof.Machine
end

section
/-! The end of the calibration dialogue (R218, R223; O27): what CAL_STATE reads after it, and what it leaves alone. -/

namespace Sys2Proof.Machine

/-! ## Registers outside the error controller keep their values when an error is latched (R531) -/

/-- The state stays canonical, and only registers of the error controller, which begin at ERR_STAT, may read anew. -/
structure ErrRegsOnly (s t : State) : Prop where
  canon : t.canon = true
  rd : ∀ b < Reg.ERR_STAT, t.rd b = s.rd b

theorem ErrRegsOnly.wr {s t : State} {a : Nat} {v : Word} (h : ErrRegsOnly s t) (ha : Reg.ERR_STAT ≤ a) : ErrRegsOnly s (t.wr a v) :=
  ⟨canon_wr t a v h.canon, fun b hb => (rd_wr_other t a b v (canon_parts h.canon).2 (hb.trans_le ha).ne).trans (h.rd b hb)⟩

theorem errRegsOnly_latchError {s : State} (code : Half) (src : Byte) (detail : DWord) (hs : s.canon = true) :
    ErrRegsOnly s (latchError s code src detail) := by
  have above {base : Nat} (n : Nat) (h : Reg.ERR_STAT ≤ base) : Reg.ERR_STAT ≤ base + n := Nat.le_add_right_of_le h
  unfold latchError
  extract_lets k s0 s1 s2 s3 s4
  have hfatal : ErrRegsOnly s s0 := by
    by_cases h : k = 3
    · rw [show s0 = _ from if_pos h]
      exact ⟨hs, fun _ _ => rfl⟩
    · rw [show s0 = _ from if_neg h]
      exact ⟨hs, fun _ _ => rfl⟩
  have hcounted : ErrRegsOnly s s1 := hfatal.wr (above _ (by decide))
  have hcode : ErrRegsOnly s s3 := (hcounted.wr le_rfl).wr (above _ (by decide))
  have hdetail : ErrRegsOnly s s4 := (hcode.wr (above _ (by decide))).wr (above _ (by decide))
  split
  · exact hcounted.wr (above _ (by decide))
  · exact (hdetail.wr (above _ (by decide))).wr (above _ (by decide))

theorem rd_raise_other {s : State} {code : Half} {b : Nat} (src : Byte) (detail : DWord) (hs : s.canon = true)
    (hf : errClass code ≠ 3) (hsec : errClass code ≠ 4) (hb : b < Reg.ERR_STAT) : (raise s code src detail).rd b = s.rd b := by
  rw [raise_eq_latchError src detail hf hsec]
  exact (errRegsOnly_latchError code src detail hs).rd b hb

/-! ## A change of CAL_STATE and its event (R387, R388) -/

/-- Only what an event leaves differs: a worker's notes, the manager's waiting events, and what has left the block. -/
def EventOnly (s t : State) : Prop :=
  ∃ ring host out, t = ((s.modRing fun _ => ring).modHost fun _ => host).modOut fun _ => out

theorem eventOnly_refl (s : State) : EventOnly s s := ⟨s.ring, s.host, s.out, rfl⟩

theorem eventOnly_branch {r a b : State} {c : Prop} [Decidable c] (h : EventOnly r a) (k : EventOnly r b) :
    EventOnly r (if c then a else b) := by
  split
  · exact h
  · exact k

theorem eventOnly_modHost (s : State) (f : HostSt → HostSt) : EventOnly s (s.modHost f) := ⟨s.ring, f s.host, s.out, rfl⟩

theorem eventOnly_modRing (s : State) (f : RingSt → RingSt) : EventOnly s (s.modRing f) := ⟨f s.ring, s.host, s.out, rfl⟩

theorem EventOnly.emit {r s : State} (o : Output) (h : EventOnly r s) : EventOnly r (s.emit o) := by
  obtain ⟨ring, host, out, rfl⟩ := h
  exact ⟨ring, host, o :: out, rfl⟩

/-- A worker leaves at most a note; the manager counts a lost event, or queues it and sends it to a bound peer (R387). -/
theorem eventOnly_postEvent (s : State) (code : Half) (lane : Nat) (body : List Byte) : EventOnly s (postEvent s code lane body) :=
  have worker := eventOnly_branch (eventOnly_modRing s _) (eventOnly_refl s)
  have queued := eventOnly_modHost s _
  eventOnly_branch worker (eventOnly_branch (eventOnly_modHost s _) (eventOnly_branch (queued.emit _) queued))

theorem rd_postEvent (s : State) (code : Half) (lane : Nat) (body : List Byte) (b : Nat) :
    (postEvent s code lane body).rd b = s.rd b := by
  obtain ⟨ring, host, out, h⟩ := eventOnly_postEvent s code lane body
  rw [h]
  rfl

/-- A change of CAL_STATE is a change of registers and at most one event. -/
theorem eventOnly_setCal (s : State) (hi lo v : Nat) : ∃ regs, EventOnly (s.modRegs fun _ => regs) (s.setCal hi lo v) := by
  unfold State.setCal
  extract_lets t
  split
  · exact ⟨t.regs, eventOnly_refl t⟩
  · exact ⟨(t.wrb Reg.ERR_EVT 5 true).regs, eventOnly_postEvent (t.wrb Reg.ERR_EVT 5 true) _ _ _⟩

theorem rd_setCal {s : State} (hi lo v : Nat) (hs : s.canon = true) :
    (s.setCal hi lo v).rd Reg.CAL_STATE = setFld (s.rd Reg.CAL_STATE) hi lo v := by
  have hset : (s.wrf Reg.CAL_STATE hi lo v).rd Reg.CAL_STATE = setFld (s.rd Reg.CAL_STATE) hi lo v :=
    rd_wr_same s _ _ (canon_parts hs).2
  unfold State.setCal
  extract_lets t
  split
  · exact hset
  · rw [rd_postEvent]
    exact (rd_wrb_other (canon_wr s _ _ hs) (by decide)).trans hset

/-! ## The end of the dialogue and the abort (R223) -/

theorem calEnd_frame (s : State) : (calEnd s).cal = { loaded := s.cal.loaded } ∧ (calEnd s).mem = s.mem ∧ (calEnd s).nuc = s.nuc ∧
    (calEnd s).mram = s.mram := by
  obtain ⟨regs, ring, host, out, h⟩ := eventOnly_setCal s 9 0 0
  rw [calEnd, h]
  exact ⟨rfl, rfl, rfl, rfl⟩

theorem rd_calEnd {s : State} (hs : s.canon = true) : (calEnd s).rd Reg.CAL_STATE = setFld (s.rd Reg.CAL_STATE) 9 0 0 :=
  rd_setCal 9 0 0 hs

theorem canon_calEnd {s : State} (hs : s.canon = true) : (calEnd s).canon = true :=
  (keeps_State_setCal s 9 0 0 (.refl s)).canon hs

theorem calAbort_dialogue {s : State} (cause : Nat) (h : calState s ≠ 0) :
    calAbort s cause = raise (calEnd (s.wrf Reg.CAL_STATE 23 16 cause)) Err.CAL_ABORTED calSrc (BitVec.ofNat 64 cause) := by
  rw [calAbort, if_neg h]

/-- CAL_ABORTED is INFO, so its raise is a latch alone (R223, R531). -/
theorem calAbort_frame {s : State} (cause : Nat) (h : calState s ≠ 0) :
    (calAbort s cause).cal = { loaded := s.cal.loaded } ∧ (calAbort s cause).mem = s.mem ∧ (calAbort s cause).nuc = s.nuc ∧
      (calAbort s cause).mram = s.mram := by
  obtain ⟨fw, regs, hraise⟩ : LatchesOnly (calEnd (s.wrf Reg.CAL_STATE 23 16 cause)) _ :=
    latchesOnly_raise (code := Err.CAL_ABORTED) calSrc (BitVec.ofNat 64 cause) (by decide) (by decide)
  rw [calAbort_dialogue cause h, hraise]
  exact calEnd_frame (s.wrf Reg.CAL_STATE 23 16 cause)

/-- CAUSE takes the cause; STATE and the count of failed captures are cleared. -/
theorem rd_calAbort {s : State} (cause : Nat) (hs : s.canon = true) (h : calState s ≠ 0) :
    (calAbort s cause).rd Reg.CAL_STATE = setFld (setFld (s.rd Reg.CAL_STATE) 23 16 cause) 9 0 0 := by
  have hcause : (s.wrf Reg.CAL_STATE 23 16 cause).canon = true := canon_wr s _ _ hs
  rw [calAbort_dialogue cause h, rd_raise_other _ _ (canon_calEnd hcause) (by decide) (by decide) (by decide), rd_calEnd hcause,
    State.wrf, rd_wr_same s _ _ (canon_parts hs).2]

/-- A field that begins at bit 0 is zero when a wider one is. -/
theorem fld_low_of_wider_zero {w : Word} {hi hi2 : Nat} (hle : hi ≤ hi2) (h : fld w hi2 0 = 0) : fld w hi 0 = 0 := by
  have hwide : 2 ^ (hi2 + 1) ∣ w.toNat := Nat.dvd_of_mod_eq_zero (by simpa [fld] using h)
  have hlow : 2 ^ (hi + 1) ∣ w.toNat := (Nat.pow_dvd_pow 2 (Nat.succ_le_succ hle)).trans hwide
  simpa [fld] using Nat.mod_eq_zero_of_dvd hlow

theorem calState_calAbort {s : State} (cause : Nat) (hs : s.canon = true) (h : calState s ≠ 0) : calState (calAbort s cause) = 0 := by
  rw [calState, State.rdf, rd_calAbort cause hs h]
  exact fld_low_of_wider_zero (hi2 := 9) (by decide) (fld_setFld _ 9 0 0 (by decide) (by decide))

theorem cause_calAbort {s : State} {cause : Nat} (hs : s.canon = true) (h : calState s ≠ 0) (hc : cause < 256) :
    (calAbort s cause).rdf Reg.CAL_STATE 23 16 = cause := by
  rw [State.rdf, rd_calAbort cause hs h, fld_setFld_other _ _ _ _ _ _ (by decide) (by decide) (.inr (by decide)),
    fld_setFld _ _ _ _ (by decide) (by decide)]
  exact Nat.mod_eq_of_lt hc

/-- Settles O27: CAL_STATE by what the two writes of its fields leave, the rest by the frames of the end and of the raise. -/
theorem abortKeepsSets : Obligations.AbortKeepsSets := by
  unfold Obligations.AbortKeepsSets
  intro s cause hs h hc
  exact ⟨calState_calAbort cause hs h, cause_calAbort hs h hc, calAbort_frame cause h⟩

end Sys2Proof.Machine
end

section
/-! The visible channel: its switch, its lock, its lines and its registration banks (R234-R244), and the camera trigger (R248; O28). -/

namespace Sys2Proof.Machine

/-! ## Writes to the channel's registers (R236, R243, R248) -/

/-- A write that sets EN of a channel that is off tests the settings; invalid ones leave EN at 0. -/
theorem visCtrlEffect_switchesOn {s : State} {v : Word} (hoff : s.rdb Reg.VIS_CTRL 0 = false) (hv : bitOf v 0 = true) :
    visCtrlEffect s v = if visValid s then
        (((fieldWrite s Reg.VIS_CTRL v).wrb Reg.VIS_STAT 0 true).wr Reg.VIS_LINECNT 0).modVis fun x =>
          { x with line := none, gap0 := false, gap1 := false, lenErr := false }
      else raise ((fieldWrite s Reg.VIS_CTRL v).wrb Reg.VIS_CTRL 0 false) Err.VIS_FORMAT visSrc := by
  simp only [visCtrlEffect, hoff, hv, if_true, Bool.false_eq_true, if_false]

/-- A write that clears EN stops the receiver and the lock, and drops the line in progress. -/
theorem visCtrlEffect_switchesOff {s : State} {v : Word} (hv : bitOf v 0 = false) :
    visCtrlEffect s v = (((fieldWrite s Reg.VIS_CTRL v).wrb Reg.VIS_STAT 0 false).wrb Reg.VIS_STAT 1 false).modVis
      fun x => { x with line := none } := by
  simp only [visCtrlEffect, hv, Bool.false_eq_true, if_false]

theorem exec_visRegWrite_reaches {s : State} {m : Master} {a : Word} (v : Word) (ha : isVisReg a.toNat = true)
    (h : s.reaches m a.toNat = true) : exec (.visRegWrite m a v) s = .next ((visRegEffect a.toNat s v).resp m []) :=
  (if_pos ha).trans (writeRow_reaches v (visRegEffect a.toNat) h)

/-- EN of a trigger that is off takes a pin that nobody holds. -/
theorem visTrigEffect_claims {s : State} {v : Word} (hoff : s.rdb Reg.VIS_TRIG 31 = false) (hv : bitOf v 31 = true)
    (hfree : claimed s 1 (fld v 19 16) = false) :
    visTrigEffect s v = ((fieldWrite s Reg.VIS_TRIG v).wrb Reg.SYS_GPIO_IRQ_STAT (fld v 19 16) false).modVis fun x =>
      { x with trigHigh := false, trigRows := 0, trigAt := s.ct } := by
  simp only [visTrigEffect, hoff, hv, hfree, Bool.not_true, Bool.false_and, Bool.false_eq_true, if_false]

/-! ## A line of the right length with both ports off (R237) -/

/-- VIS_CTRL reads the same once the line is counted, so neither port takes the line. -/
theorem visAccept_portsOff {s : State} (st : CTime) (l : List PixClock) (hs : s.canon = true) (hraw : s.rdb Reg.VIS_CTRL 1 = false)
    (hreg : s.rdb Reg.VIS_CTRL 2 = false) :
    visAccept s st l = (s.wr Reg.VIS_LINECNT (BitVec.ofNat 32 ((s.rdf Reg.VIS_LINECNT 23 0 + 1) % 2 ^ 24))).modVis fun x =>
      { x with line := none, lenErr := false } := by
  have hctrl (n : Word) (f : VisSt → VisSt) (k : Nat) : ((s.wr Reg.VIS_LINECNT n).modVis f).rdb Reg.VIS_CTRL k = s.rdb Reg.VIS_CTRL k :=
    congrArg (bitOf · k) (rd_wr_other s _ _ n (canon_parts hs).2 (by decide))
  simp only [visAccept, hctrl, hraw, hreg, Bool.false_eq_true, if_false]

/-! ## What the receiver and the trigger report to a live device (R234, R237, R239, R243, R244, R248) -/

section

variable {s : State} (hl : s.live = true)
include hl

/-- A running receiver locks on a clock in band. -/
theorem exec_visLock_running (f : BitVec 17) (hrun : s.rdb Reg.VIS_STAT 0 = true) :
    exec (.visLock f) s = .next (if 19000 ≤ f.toNat ∧ f.toNat ≤ 87000 then
      (s.wrb Reg.VIS_STAT 1 true).wr Reg.VIS_FREQ (f.zeroExtend 32) else s) := by
  change execVisLock f s = _
  simp only [execVisLock, whenLive_live _ hl, hrun, true_and, Bool.and_eq_true, decide_eq_true_eq]

theorem exec_visLockLost_betweenLines (hlock : s.rdb Reg.VIS_STAT 1 = true) (hline : s.vis.line = none) :
    exec .visLockLost s = .next (raise (((s.modVis fun x => { x with gap0 := true, gap1 := true }).wrb Reg.VIS_STAT 1 false).bump
      Reg.VIS_UNLOCK 31 0) Err.VIS_LOCK_LOST visSrc) := by
  change execVisLockLost s = _
  simp only [execVisLockLost, whenLive_live _ hl, hlock, hline, Option.isSome_none, Bool.false_eq_true, if_true, if_false]

theorem exec_visLineStart_locked (hrun : s.rdb Reg.VIS_STAT 0 = true) (hlock : s.rdb Reg.VIS_STAT 1 = true)
    (hline : s.vis.line = none) :
    exec .visLineStart s = .next ((if s.vis.swap then s.wrb Reg.VIS_STAT 8 (!s.rdb Reg.VIS_STAT 8) else s).modVis fun x =>
      { x with swap := false, line := some (s.ct + (s.rd Reg.VIS_STAMP_ADJ).signExtend 64) }) := by
  change execVisLineStart s = _
  simp only [execVisLineStart, whenLive_live _ hl, hrun, hlock, hline, Option.isNone_none, Bool.and_self, if_true]

/-- The end of a line whose clocks all carry pixels: it is accepted or discarded by its length. -/
theorem exec_visLineEnd_inLine {st : CTime} (l : List PixClock) (hline : s.vis.line = some st) (hdval : s.rdb Reg.VIS_FMT 9 = false) :
    exec (.visLineEnd l) s = .next (if l.length * visPpc (visMode s) = s.rdf Reg.VIS_LINE 13 0 then visAccept s st l
      else if s.vis.lenErr then (visLineLost s).bump Reg.VIS_LENERR 31 0
      else raise (((visLineLost s).bump Reg.VIS_LENERR 31 0).modVis fun x => { x with lenErr := true }) Err.VIS_LINE_LEN visSrc) := by
  change execVisLineEnd l s = _
  simp only [execVisLineEnd, whenLive_live _ hl, hline, hdval, Bool.false_eq_true, if_false]

theorem exec_visTrigger_falls (hen : s.rdb Reg.VIS_TRIG 31 = true) :
    exec (.visTrigger false) s = .next (s.modVis fun x => { x with trigHigh := false }) := by
  change execVisTrigger false s = _
  simp only [execVisTrigger, whenLive_live _ hl, hen, Bool.not_true, Bool.not_false, Bool.false_eq_true, if_false, if_true]

theorem exec_visTrigger_rises (hen : s.rdb Reg.VIS_TRIG 31 = true) :
    exec (.visTrigger true) s =
      .next (if visTrigDue s then s.modVis fun x => { x with trigHigh := true, trigRows := 0, trigAt := s.ct } else s) := by
  change execVisTrigger true s = _
  simp only [execVisTrigger, whenLive_live _ hl, hen, Bool.not_true, Bool.false_eq_true, if_false]

end

/-- Settles O28, clause by clause: the switch, the lock, lines, the registration banks and the trigger. -/
theorem visibleChannel : Obligations.VisibleChannel := by
  unfold Obligations.VisibleChannel
  refine ⟨fun s m v h hoff hv => ?_, fun s m v h hv => ?_, fun s f hl hrun => exec_visLock_running hl f hrun,
    fun s hl hlock hline => exec_visLockLost_betweenLines hl hlock hline,
    fun s hl hrun hlock hline => exec_visLineStart_locked hl hrun hlock hline, fun s st l hl hline hdval hlen herr => ?_,
    fun s st l hl hs hline hdval hlen hraw hreg => ?_, fun s m v h => writeRow_reaches v visSwapEffect h,
    fun s m a v ha h => exec_visRegWrite_reaches v ha h, fun s m v h hoff hv hfree => ?_,
    fun s hl hen => ⟨exec_visTrigger_falls hl hen, exec_visTrigger_rises hl hen⟩⟩
  · refine (writeRow_reaches v visCtrlEffect h).trans ?_
    rw [visCtrlEffect_switchesOn hoff hv, visSrc]
  · refine (writeRow_reaches v visCtrlEffect h).trans ?_
    rw [visCtrlEffect_switchesOff hv]
  · rw [exec_visLineEnd_inLine hl l hline hdval, if_neg hlen, herr]
    rfl
  · rw [exec_visLineEnd_inLine hl l hline hdval, if_pos hlen, visAccept_portsOff st l hs hraw hreg]
  · refine (writeRow_reaches v visTrigEffect h).trans ?_
    rw [visTrigEffect_claims hoff hv hfree]

end Sys2Proof.Machine
end

section
/-! Cell instructions and their words (R280-R282): the fields of each word, and that the word stands for its instruction alone (O37,
O39). A step runs the command at the front of the queue (O1). -/

namespace Sys2Proof.Machine

/-! ## Fields of a word spelt as a number -/

theorem b2n_lt_two (b : Bool) : b2n b < 2 := by cases b <;> decide

theorem fld_ofNat {n hi lo v : Nat} (h : n < 2 ^ 32) (hv : n / 2 ^ lo % 2 ^ (hi + 1 - lo) = v) :
    fld (BitVec.ofNat 32 n) hi lo = v := by
  rw [fld, BitVec.toNat_ofNat, Nat.mod_eq_of_lt h, hv]

/-- A bit of the word, where its place in the number holds a truth value. -/
theorem bitOf_ofNat {n k : Nat} {b : Bool} (h : n < 2 ^ 32) (hv : n / 2 ^ k % 2 = b2n b) : bitOf (BitVec.ofNat 32 n) k = b := by
  rw [bitOf, BitVec.getLsbD, BitVec.toNat_ofNat, Nat.mod_eq_of_lt h, Nat.testBit_eq_decide_div_mod_eq, hv]
  cases b <;> rfl

/-! ## Fields of the five formats (R280) -/

section
variable {op d s t fn : Nat} {f : Bool} (hop : op < 64) (hd : d < 16) (hs : s < 16) (ht : t < 16) (hfn : fn < 32)
include hop hd hs ht hfn

@[simp] theorem fields_encR : fld (encR op d s t f fn) 31 26 = op ∧ fld (encR op d s t f fn) 25 22 = d ∧
    fld (encR op d s t f fn) 21 18 = s ∧ fld (encR op d s t f fn) 17 14 = t ∧ bitOf (encR op d s t f fn) 13 = f ∧
    fld (encR op d s t f fn) 12 8 = fn ∧ fld (encR op d s t f fn) 7 0 = 0 := by
  have hf := b2n_lt_two f
  refine ⟨?_, ?_, ?_, ?_, bitOf_ofNat (by omega) (by omega), ?_, ?_⟩ <;> exact fld_ofNat (by omega) (by omega)

end

section
variable {op d s imm : Nat} {f : Bool} (hop : op < 64) (hd : d < 16) (hs : s < 16)

@[simp] theorem fields_encI (himm : imm < 2 ^ 16) (hop : op < 64) (hd : d < 16) (hs : s < 16) :
    fld (encI op d s f imm) 31 26 = op ∧ fld (encI op d s f imm) 25 22 = d ∧ fld (encI op d s f imm) 21 18 = s ∧
      bitOf (encI op d s f imm) 17 = f ∧ fld (encI op d s f imm) 16 16 = 0 ∧ fld (encI op d s f imm) 15 0 = imm := by
  have hf := b2n_lt_two f
  refine ⟨?_, ?_, ?_, bitOf_ofNat (by omega) (by omega), ?_, ?_⟩ <;> exact fld_ofNat (by omega) (by omega)

include hop hs in
/-- An address register in the place of D. -/
@[simp] theorem fields_encI_addressD (hd : d < 4) (himm : imm < 2 ^ 16) :
    fld (encI op d s f imm) 25 24 = 0 ∧ fld (encI op d s f imm) 23 22 = d := by
  have hf := b2n_lt_two f
  constructor <;> exact fld_ofNat (by omega) (by omega)

include hop hd in
/-- An address register in the place of S. -/
@[simp] theorem fields_encI_addressS (hs : s < 4) (himm : imm < 2 ^ 16) :
    fld (encI op d s f imm) 21 20 = 0 ∧ fld (encI op d s f imm) 19 18 = s := by
  have hf := b2n_lt_two f
  constructor <;> exact fld_ofNat (by omega) (by omega)

include hop hd hs in
/-- A kind and an amount of SHI in the place of the immediate. -/
@[simp] theorem fields_encI_shift {k n : Nat} (hk : k < 4) (hn : n < 64) :
    fld (encI op d s f (k * 256 + n)) 15 10 = 0 ∧ fld (encI op d s f (k * 256 + n)) 9 8 = k ∧
      fld (encI op d s f (k * 256 + n)) 7 6 = 0 ∧ fld (encI op d s f (k * 256 + n)) 5 0 = n := by
  have hf := b2n_lt_two f
  refine ⟨?_, ?_, ?_, ?_⟩ <;> exact fld_ofNat (by omega) (by omega)

include hop hd hs in
/-- A pin in the place of the immediate, and no flag. -/
@[simp] theorem fields_encI_pin (hn : imm < 16) : fld (encI op d s false imm) 17 4 = 0 ∧ fld (encI op d s false imm) 3 0 = imm := by
  have hf : b2n false = 0 := rfl
  constructor <;> exact fld_ofNat (by omega) (by omega)

include hop hd hs in
/-- A selector or a timer in the place of the immediate, and no flag. -/
@[simp] theorem fields_encI_timer (hn : imm < 8) : fld (encI op d s false imm) 17 3 = 0 ∧ fld (encI op d s false imm) 2 0 = imm := by
  have hf : b2n false = 0 := rfl
  constructor <;> exact fld_ofNat (by omega) (by omega)

include hop hd in
/-- No S and no flag. -/
@[simp] theorem fields_encI_noS (himm : imm < 2 ^ 16) : fld (encI op d 0 false imm) 21 16 = 0 ∧
    (imm < 16 → fld (encI op d 0 false imm) 21 4 = 0) ∧ (imm < 8 → fld (encI op d 0 false imm) 21 3 = 0) ∧
    (d = 0 → imm < 8 → fld (encI op d 0 false imm) 25 3 = 0) := by
  have hf : b2n false = 0 := rfl
  refine ⟨?_, fun _ => ?_, fun _ => ?_, fun _ _ => ?_⟩ <;> exact fld_ofNat (by omega) (by omega)

include hop hd hs in
/-- No immediate and no flag. -/
@[simp] theorem fields_encI_noImm (h0 : imm = 0) :
    fld (encI op d s false imm) 17 0 = 0 ∧ (d = 0 → s = 0 → fld (encI op d s false imm) 25 0 = 0) := by
  have hf : b2n false = 0 := rfl
  refine ⟨?_, fun _ _ => ?_⟩ <;> exact fld_ofNat (by omega) (by omega)

end

section
variable {op d a : Nat} {p : Bool} {off : Half} (hop : op < 64) (hd : d < 16) (ha : a < 4)
include hop hd ha

@[simp] theorem fields_encM : fld (encM op d a p off) 31 26 = op ∧ fld (encM op d a p off) 25 22 = d ∧
    fld (encM op d a p off) 21 20 = a ∧ bitOf (encM op d a p off) 19 = p ∧ fld (encM op d a p off) 18 16 = 0 ∧
    fld (encM op d a p off) 15 0 = off.toNat := by
  have hp := b2n_lt_two p
  refine ⟨?_, ?_, ?_, bitOf_ofNat (by omega) (by omega), ?_, ?_⟩ <;> exact fld_ofNat (by omega) (by omega)

end

section
variable {op d s : Nat} {off : BitVec 12}

@[simp] theorem fields_encB (hop : op < 64) (hd : d < 16) (hs : s < 16) : fld (encB op d s off) 31 26 = op ∧
    fld (encB op d s off) 25 22 = d ∧ fld (encB op d s off) 21 18 = s ∧ fld (encB op d s off) 11 0 = off.toNat ∧
    (s = 0 → fld (encB op d s off) 21 12 = 0) := by
  refine ⟨?_, ?_, ?_, ?_, fun _ => ?_⟩ <;> exact fld_ofNat (by omega) (by omega)

theorem fields_encB_noOff (h0 : off.toNat = 0) (hop : op < 64) (hd : d < 16) (hs : s < 16) :
    fld (encB op d s off) 17 0 = 0 ∧ (d = 0 → s = 0 → fld (encB op d s off) 25 0 = 0) := by
  refine ⟨?_, fun _ _ => ?_⟩ <;> exact fld_ofNat (by omega) (by omega)

end

section
variable {op r k : Nat} {e x : Bool} {q : BitVec 2}

@[simp] theorem fields_encS (hop : op < 64) (hr : r < 16) (hk : k < 4) : fld (encS op r k e q x) 31 26 = op ∧
    fld (encS op r k e q x) 25 22 = r ∧ fld (encS op r k e q x) 21 20 = k ∧ bitOf (encS op r k e q x) 19 = e ∧
    fld (encS op r k e q x) 18 17 = q.toNat ∧ bitOf (encS op r k e q x) 16 = x ∧ fld (encS op r k e q x) 15 0 = 0 := by
  have he := b2n_lt_two e
  have hx := b2n_lt_two x
  refine ⟨?_, ?_, ?_, bitOf_ofNat (by omega) (by omega), ?_, bitOf_ofNat (by omega) (by omega), ?_⟩ <;>
    exact fld_ofNat (by omega) (by omega)

theorem fld_encS_plain (hq : q.toNat = 0) (hop : op < 64) (hr : r < 16) (hk : k < 4) : fld (encS op r k false q false) 19 0 = 0 := by
  rw [encS, hq, show b2n false = 0 from rfl]
  exact fld_ofNat (by omega) (by omega)

end

/-! ## The word of an instruction -/

section
variable {i : Issue} {l : Bool} {d a b : Fin 16} {f : Bool} {fn : Nat} 

/-- A register operation is legal on the lanes that it has, with D and its flags as a comparison and T as a single operand need
them (R281, R282). -/
theorem cellLegal_encR_alu (hfn : fn ≤ 0x1D) (hl : l = true → laneFn fn = true)
    (hflag : fn = 0x16 ∨ fn = 0x17 → d.val = 0 ∧ f = true) (hone : 0x18 ≤ fn → b.val = 0) :
    cellLegal (encR (if l then 2 else 1) d.val a.val b.val f fn) = true := by
  have hlegal : ∀ op < 64, legalAlu (encR op d.val a.val b.val f fn) l = true := fun op hop => by
    obtain ⟨-, h25, -, h17, h13, h12, h7⟩ := fields_encR (f := f) hop d.isLt a.isLt b.isLt (show fn < 32 by omega)
    simp only [legalAlu, zeroAt, h25, h17, h13, h12, h7, hfn]
    split <;> split <;> cases l <;> simp_all
  cases l
  · simp (disch := omega) only [cellLegal, fields_encR, if_false, Bool.false_eq_true, hlegal]
  · simp (disch := omega) only [cellLegal, fields_encR, if_true, hlegal]

theorem aluOp_lt (l : Bool) : (if l then 2 else 1) < 64 := by cases l <;> decide

/-- Such a word stands for what its function names. -/
theorem cellCommand_encR_alu {d a b : Nat} (ecc : Nat) (hlegal : cellLegal (encR (if l then 2 else 1) d a b f fn) = true) (hd : d < 16)
    (ha : a < 16) (hb : b < 16) (hfn : fn < 32) : cellCommand i ecc (encR (if l then 2 else 1) d a b f fn) =
      aluCommand i l (encR (if l then 2 else 1) d a b f fn) := by
  rw [cellCommand, hlegal]
  cases l
  · simp (disch := omega) only [fields_encR, if_false, Bool.false_eq_true, Bool.not_true]
  · simp (disch := omega) only [fields_encR, if_false, if_true, Bool.false_eq_true, Bool.not_true]

end

/-- Each instruction's word has its unused fields at 0 (R281). -/
theorem cellLegal_cellWord {c : Instr} {i : Issue} {w : Word} (h : cellWord c = some (i, w)) : cellLegal w = true := by
  cases c with
  | cellAdd | cellAdds | cellSub | cellSubs | cellAnd | cellOr | cellXor | cellAndn | cellMul | cellMuls | cellMin | cellMax | cellMinu
  | cellMaxu | cellShl | cellShr | cellSar | cellRor =>
    cases h; exact cellLegal_encR_alu (by omega) (fun _ => rfl) (by omega) (by omega)
  | cellNeg | cellNegs | cellAbs | cellAbss =>
    cases h; exact cellLegal_encR_alu (b := 0) (by omega) (fun _ => rfl) (by omega) (fun _ => rfl)
  | cellMulh | cellMulhu | cellMac | cellMacs => cases h; exact cellLegal_encR_alu (l := false) (by omega) nofun (by omega) (by omega)
  | cellClz | cellMov => cases h; exact cellLegal_encR_alu (l := false) (b := 0) (by omega) nofun (by omega) (fun _ => rfl)
  | cellCmp | cellTst => cases h; exact cellLegal_encR_alu (l := false) (d := 0) (by omega) nofun (fun _ => ⟨rfl, rfl⟩) (by omega)
  | cellDiv | cellDivu | cellRem | cellRemu | cellRecip | cellSqrt | cellSqrtq =>
    cases h; simp (disch := omega) [cellLegal, legalDsu, zeroAt]
  | cellAddi | cellAddis | cellAndi | cellOri | cellXori | cellCmpi | cellShi | cellMovl | cellMovh | cellMova | cellRda | cellAdda =>
    cases h; simp (disch := omega) [cellLegal, zeroAt]
  | cellLdw | cellLdh | cellLdhu | cellLdb | cellLdbu | cellStw | cellSth | cellStb => cases h; simp (disch := omega) [cellLegal, zeroAt]
  | cellB | cellJal => cases h; simp (disch := omega) [cellLegal, zeroAt]
  | cellJr | cellHalt => cases h; simp (disch := omega) [cellLegal, zeroAt, fields_encB_noOff (off := 0#12) rfl]
  | cellPop | cellPush | cellDrop | cellAvail | cellSpace =>
    cases h; simp (disch := omega) [cellLegal, zeroAt, fld_encS_plain (q := 0#2) rfl]
  | cellRds | cellWrf | cellGpw | cellGpr | cellTarm | cellTwait | cellTrd | cellNop => cases h; simp (disch := omega) [cellLegal, zeroAt]
  | _ => cases h


/-- Each instruction's word stands for it, with the errors that its data access finds. -/
theorem cellCommand_cellWord {c : Instr} {i : Issue} {w : Word} (ecc : Nat) (h : cellWord c = some (i, w)) :
    cellCommand i ecc w = some (withEcc ecc c) := by
  have hlegal := cellLegal_cellWord h
  cases c with
  | cellAdd _ l | cellAdds _ l | cellSub _ l | cellSubs _ l | cellAnd _ l | cellOr _ l | cellXor _ l | cellAndn _ l | cellMul _ l
  | cellMuls _ l | cellMin _ l | cellMax _ l | cellMinu _ l | cellMaxu _ l | cellShl _ l | cellShr _ l | cellSar _ l | cellRor _ l
  | cellNeg _ l | cellNegs _ l | cellAbs _ l | cellAbss _ l =>
    cases h
    have hop := aluOp_lt l
    rw [cellCommand_encR_alu ecc hlegal (by omega) (by omega) (by omega) (by omega)]
    simp (disch := omega) [aluCommand, withEcc]
  | cellMulh | cellMulhu | cellMac | cellMacs | cellClz | cellMov | cellCmp | cellTst =>
    cases h
    rw [cellCommand, hlegal]
    simp (disch := omega) [aluCommand, withEcc]
  | cellDiv | cellDivu | cellRem | cellRemu | cellRecip | cellSqrt | cellSqrtq =>
    cases h
    rw [cellCommand, hlegal]
    simp (disch := omega) [dsuCommand, withEcc]
  | cellAddi | cellAddis | cellAndi | cellOri | cellXori | cellCmpi | cellShi | cellMovl | cellMovh | cellMova | cellRda | cellAdda
  | cellLdw | cellLdh | cellLdhu | cellLdb | cellLdbu | cellStw | cellSth | cellStb | cellB | cellJal | cellJr | cellHalt
  | cellPop | cellPush | cellDrop | cellAvail | cellSpace
  | cellRds | cellWrf | cellGpw | cellGpr | cellTarm | cellTwait | cellTrd | cellNop =>
    cases h
    rw [cellCommand, hlegal]
    simp (disch := omega) [withEcc]
  | _ => cases h

theorem cellCommand_illegal {i : Issue} {ecc : Nat} {w : Word} (h : cellLegal w = false) : cellCommand i ecc w = none := by
  simp [cellCommand, h]

/-- Settles O37: an instruction's fields are read back from its word. -/
theorem cellWordsRoundTrip : Obligations.CellWordsRoundTrip := by
  unfold Obligations.CellWordsRoundTrip
  exact ⟨fun _ _ _ ecc h => ⟨cellLegal_cellWord h, cellCommand_cellWord ecc h⟩, fun _ _ _ => cellCommand_illegal⟩

/-- Settles O39: the format of each word, evaluated. -/
theorem cellExampleWords : Obligations.CellExampleWords := by
  unfold Obligations.CellExampleWords
  exact fun _ => ⟨rfl, rfl, rfl, rfl, rfl⟩

/-- Settles O1: both sides are the same by the definition of a step, and no word spells a command. -/
theorem stepRunsFrontCommand : Obligations.StepRunsFrontCommand := by
  unfold Obligations.StepRunsFrontCommand
  exact ⟨fun _ _ _ => rfl, fun _ _ _ => rfl⟩

end Sys2Proof.Machine
end

section
/-! A cell instruction acts only where a running cell's PC holds its word (R281), and what an exception leaves (R303) (O38). -/

namespace Sys2Proof.Machine

/-! ## Issue (R281) -/

/-- The kind and the amount of SHI fit its immediate. -/
theorem toNat_shiImm (k : Fin 4) (n : BitVec 6) : (BitVec.ofNat 16 (k.val * 256 + n.toNat)).toNat = k.val * 256 + n.toNat := by
  rw [BitVec.toNat_ofNat]
  omega

/-- Every cell instruction goes through the issue of its word. -/
theorem exec_eq_cellIssue {c : Instr} {i : Issue} {w : Word} (h : cellWord c = some (i, w)) :
    ∃ u f, ∀ s, exec c s = cellIssue i w u f s := by
  cases c with
  | cellShi _ _ _ _ k n =>
    cases h
    rw [← toNat_shiImm]
    exact ⟨_, _, fun _ => rfl⟩
  | _ => cases h <;> exact ⟨_, _, fun _ => rfl⟩

/-- A word that does not issue changes nothing. -/
theorem cellIssue_notIssued {s : State} {i : Issue} {w : Word} (u : Uses) (f : State → CellOut)
    (h : cellRuns s i.cell.val = false ∨ codeAt s i.cell.val (s.cell i.cell.val).pc ≠ w) : cellIssue i w u f s = .next s := by
  have hno : (cellRuns s i.cell.val && codeAt s i.cell.val (s.cell i.cell.val).pc == w) = false := by
    rcases h with h | h <;> simp [h]
  simp [cellIssue, whenLive, hno]

/-! ## What leaves the registers alone -/

theorem postEvent_regs (s : State) (code : Half) (lane : Nat) (body : List Byte) : (postEvent s code lane body).regs = s.regs := by
  obtain ⟨ring, host, out, h⟩ := eventOnly_postEvent s code lane body
  rw [h]
  rfl

theorem modLane_regs (s : State) (p : Nat) (f : Lane → Lane) : (s.modLane p f).regs = s.regs := by
  unfold State.modLane
  split <;> rfl

theorem setLane_regs (s : State) (p : Nat) (st : LaneState) (cause : Half) : (setLane s p st cause).regs = s.regs := by
  unfold setLane
  simp only [apply_ite State.regs, postEvent_regs, modLane_regs, State.modFw_regs, State.modRing_regs, State.modLanes_regs, ite_self]

theorem ownLaneFault_regs (s : State) (cause : Half) (f : LaneFaults → LaneFaults) : (ownLaneFault s cause f).regs = s.regs := by
  unfold ownLaneFault
  simp only [apply_ite State.regs, setLane_regs, modLane_regs, ite_self]

theorem rd_congr {s t : State} (h : t.regs = s.regs) (b : Nat) : t.rd b = s.rd b := congrArg (sget resetWord · b) h

theorem canon_congr {s t : State} (hm : t.mem = s.mem) (hr : t.regs = s.regs) : t.canon = s.canon := by
  rw [State.canon, State.canon, hm, hr]

/-! ## An exception (R303) -/

/-- What one step of a loop establishes and every step keeps holds at the end of the loop. -/
theorem foldl_establishes {α : Type} {Q P : State → Prop} {f : State → α → State} (hQ : ∀ t x, Q t → Q (f t x))
    (hkeep : ∀ t x, Q t → P t → P (f t x)) {l : List α} {x : α} (hx : x ∈ l) (hest : ∀ t, Q t → P (f t x)) {s : State} (hs : Q s) :
    P (l.foldl f s) := by
  have kept : ∀ (l : List α) (t : State), Q t → P t → P (l.foldl f t) := fun l => by
    induction l with
    | nil => exact fun _ _ h => h
    | cons y l ih => exact fun t ht h => ih _ (hQ t y ht) (hkeep t y ht h)
  induction l generalizing s with
  | nil => cases hx
  | cons y l ih =>
    rcases List.mem_cons.1 hx with rfl | hx
    · exact kept l _ (hQ s x hs) (hest s hs)
    · exact ih hx (hQ s y hs)

/-- RUN of every cell is cleared. -/
def cellsHalted (s : State) : State := (List.range 32).foldl (fun t c => t.wrb (Reg.CELL_STAT c) 31 false) s

theorem canon_cellsHalted {s : State} (hs : s.canon = true) : (cellsHalted s).canon = true :=
  (keeps_foldl (fun t c => t.wrb (Reg.CELL_STAT c) 31 false) (List.range 32) s (fun t _ => keeps_State_wrb t _ _ _ (.refl t))
    (.refl s)).canon hs

/-- To the registers, the stop of the cells is RUN of every cell and PORTS_OPEN cleared. -/
theorem rd_cellsStop (s : State) (b : Nat) : (cellsStop s).rd b = ((cellsHalted s).wrb Reg.FAB_STAT 30 false).rd b := by
  unfold cellsStop cellsHalted
  exact rd_congr (State.modFab_regs _ _) b

theorem canon_cellsStop {s : State} (hs : s.canon = true) : (cellsStop s).canon = true := (keeps_cellsStop s (.refl s)).canon hs

theorem cellRuns_cellsStop {s : State} (hs : s.canon = true) (k : Fin 32) : cellRuns (cellsStop s) k.val = false := by
  have hne : Reg.CELL_STAT k.val ≠ Reg.FAB_STAT := by simp only [Reg.CELL_STAT, Reg.FAB_STAT]; omega
  rw [cellRuns, State.rdb, rd_cellsStop, rd_wrb_other (canon_cellsHalted hs) hne]
  have hclear (t : State) (ht : t.canon = true) : (t.wrb (Reg.CELL_STAT k.val) 31 false).rdb (Reg.CELL_STAT k.val) 31 = false :=
    rdb_wrb_same ht (by decide)
  unfold cellsHalted
  refine foldl_establishes (Q := fun t => t.canon = true) (P := fun t => t.rdb (Reg.CELL_STAT k.val) 31 = false)
    (fun t _ ht => canon_wrb ht) (fun t c ht h => ?_) (List.mem_range.2 k.isLt) hclear hs
  by_cases hc : Reg.CELL_STAT k.val = Reg.CELL_STAT c
  · rw [← hc]
    exact hclear t ht
  · rwa [State.rdb, rd_wrb_other ht hc]

theorem portsClosed_cellsStop {s : State} (hs : s.canon = true) : (cellsStop s).rdb Reg.FAB_STAT 30 = false := by
  rw [State.rdb, rd_cellsStop]
  exact rdb_wrb_same (canon_cellsHalted hs) (by decide)

/-- What CELL_STAT records of an exception: EXC, the cause and PC (R303). -/
def excWord (cause : Nat) (pc : BitVec 11) : Word := BitVec.ofNat 32 (2 ^ 29 + cause * 2 ^ 25 + pc.toNat)

/-- Below the error controller, an exception leaves its record in the cell's CELL_STAT, the first one also in CELL_EXC_FIRST, and
otherwise what the stop left. -/
theorem rd_cellFault {s : State} (hs : s.canon = true) (c : Fin 32) (cause b : Nat) (hb : b < Reg.ERR_STAT) (hx : b ≠ Reg.CELL_EXC_FIRST) :
    (cellFault s c.val cause).rd b =
      if b = Reg.CELL_STAT c.val then excWord cause (s.cell c.val).pc else (cellsStop s).rd b := by
  unfold cellFault
  extract_lets pc s1 s2 s3
  have h1 : s1.canon = true := canon_wr _ _ _ (canon_cellsStop hs)
  have h2 : s2.canon = true ∧ s2.rd b = s1.rd b := by
    by_cases hf : s1.rdb Reg.CELL_EXC_FIRST 31 = true
    · rw [show s2 = s1 from if_pos hf]
      exact ⟨h1, rfl⟩
    · rw [show s2 = _ from if_neg hf]
      exact ⟨canon_wr _ _ _ h1, rd_wr_other _ _ _ _ (canon_parts h1).2 hx⟩
  have h3 : s3.canon = true := (keeps_raise s2 _ _ _ (.refl s2)).canon h2.1
  rw [rd_congr (ownLaneFault_regs _ _ _), rd_wrb_other h3 (by have := hb; simp only [Reg.ERR_STAT, Reg.ERR_EVT] at *; omega),
    rd_raise_other _ _ h2.1 (by decide) (by decide) hb, h2.2, rd_wr _ _ _ _ (canon_parts (canon_cellsStop hs)).2]
  rfl

theorem fields_excWord {cause : Nat} (pc : BitVec 11) (h : cause < 16) : fld (excWord cause pc) 28 25 = cause ∧
    fld (excWord cause pc) 10 0 = pc.toNat ∧ bitOf (excWord cause pc) 31 = false := by
  have hpc := pc.isLt
  exact ⟨fld_ofNat (by omega) (by omega), fld_ofNat (by omega) (by omega), bitOf_ofNat (by omega) (by rw [b2n]; simp; omega)⟩

/-- Settles O38: an instruction whose word does not issue does nothing, and an exception stops the cells, closes the ports and records
its cause in the cell's CELL_STAT. -/
theorem cellIssueAndException : Obligations.CellIssueAndException := by
  unfold Obligations.CellIssueAndException
  refine ⟨fun c i w s hw _ h => ?_, fun s c cause hs hcause => ?_⟩
  · obtain ⟨u, f, hexec⟩ := exec_eq_cellIssue hw
    rw [hexec, cellIssue_notIssued u f h]
  · obtain ⟨hc, hpc, hrun⟩ := fields_excWord (s.cell c.val).pc hcause
    have hstat (k : Fin 32) := rd_cellFault hs c cause (Reg.CELL_STAT k.val)
      (by simp only [Reg.CELL_STAT, Reg.ERR_STAT]; omega) (by simp only [Reg.CELL_STAT, Reg.CELL_EXC_FIRST]; omega)
    have hown : (cellFault s c.val cause).rd (Reg.CELL_STAT c.val) = excWord cause (s.cell c.val).pc := (hstat c).trans (if_pos rfl)
    refine ⟨fun k => ?_, ?_, ?_, ?_, cellFault_mem s c.val cause⟩
    · rw [cellRuns, State.rdb, hstat k]
      split
      · exact hrun
      · exact cellRuns_cellsStop hs k
    · rw [State.rdb, rd_cellFault hs c cause _ (by decide) (by decide),
        if_neg (by simp only [Reg.CELL_STAT, Reg.FAB_STAT]; omega)]
      exact portsClosed_cellsStop hs
    · rw [State.rdf, hown, hc]
    · rw [State.rdf, hown, hpc]

end Sys2Proof.Machine
end

section
/-! Register, immediate and address instructions of the stage cells (R277, R280-R285, R288; O29, O31). -/

namespace Sys2Proof.Machine

section
variable {s : State} {i : Issue} {d a b : Fin 16} {f : Bool}

/-! ## Rows of one register result -/

/-- A register result changes the cell as `cellWrote` says. -/
theorem writeAlu_eq (c : Nat) (d : Fin 16) (f : Bool) (r : Arith 32) (s : State) :
    writeAlu c d f r s = .done (s.modCell c (cellWrote d f r)) := rfl

theorem aluRow_ready {fn : Nat} {l late : Bool} {op32 : Word → Word → Arith 32} {op16 : BitVec 16 → BitVec 16 → Arith 16}
    (h : cellReady s i (encR (if l then 2 else 1) d.val a.val b.val f fn) = true) :
    aluRow i fn l d a b f late op32 op16 s = .next (cellNext s i (if late then some d.val else none) (cellWrote d f
      (let x := (s.cell i.cell.val).greg a
       let y := (s.cell i.cell.val).greg b
       if l then onLanes op16 x y else op32 x y))) :=
  cellIssue_changesCell h (by simp only [greg_cycled, writeAlu_eq])

theorem aluRow32_ready {fn : Nat} {late : Bool} {op : Word → Word → Arith 32} (h : cellReady s i (encR 1 d.val a.val b.val f fn) = true) :
    aluRow32 i fn d a b f late op s = .next (cellNext s i (if late then some d.val else none) (cellWrote d f
      (op ((s.cell i.cell.val).greg a) ((s.cell i.cell.val).greg b)))) :=
  cellIssue_changesCell h (by simp only [greg_cycled, writeAlu_eq])

theorem macRow_ready {fn : Nat} {op : Word → Word → Word → Arith 32} (h : cellReady s i (encR 1 d.val a.val b.val f fn) = true) :
    macRow i fn d a b f op s = .next (cellNext s i (some d.val) (cellWrote d f
      (op ((s.cell i.cell.val).greg d) ((s.cell i.cell.val).greg a) ((s.cell i.cell.val).greg b)))) :=
  cellIssue_changesCell h (by simp only [greg_cycled, writeAlu_eq])

theorem immRow_ready {op : Nat} {imm : Half} {g : Word → Arith 32} (h : cellReady s i (encI op d.val a.val f imm.toNat) = true) :
    immRow i op d a f imm g s = .next (cellNext s i none (cellWrote d f (g ((s.cell i.cell.val).greg a)))) :=
  cellIssue_changesCell h (by simp only [greg_cycled, writeAlu_eq])

/-- An instruction that changes its own cell in a way that does not depend on the cycles counted. -/
theorem cellIssue_local {w : Word} {u : Uses} {g g' : CellSt → CellSt} (h : cellReady s i w = true)
    (hg : g { s.cell i.cell.val with cyc := (s.cell i.cell.val).cyc + BitVec.ofNat 32 i.cycles } =
      g' { s.cell i.cell.val with cyc := (s.cell i.cell.val).cyc + BitVec.ofNat 32 i.cycles }) :
    cellIssue i w u (fun s => .done (s.modCell i.cell.val g)) s = .next (cellNext s i u.late g') := by
  refine cellIssue_changesCell h (congrArg CellOut.done (modCell_congr _ _ _ _ ?_))
  rwa [cell_cycled]

end

/-! ## The statements -/

/-- Settles O29: each instruction is its row, whose two lanes each take the operation. -/
theorem cellRegisterOps : Obligations.CellRegisterOps := by
  unfold Obligations.CellRegisterOps
  refine ⟨fun s i l d a b f w => ?_, fun s i l d a b f w => ?_, fun s i a b => ⟨fun h => ?_, fun h => ?_⟩⟩
  · intro x y e he hw hr
    simp only [List.mem_cons, List.not_mem_nil, or_false] at he
    rcases he with rfl | rfl | rfl | rfl | rfl | rfl | rfl | rfl | rfl | rfl | rfl | rfl | rfl | rfl | rfl | rfl | rfl | rfl <;>
      obtain rfl := congrArg Prod.snd (Option.some.inj hw) <;> exact aluRow_ready hr
  · intro x y z e he hw hr
    simp only [List.mem_cons, List.not_mem_nil, or_false] at he
    rcases he with rfl | rfl | rfl | rfl | rfl | rfl | rfl | rfl | rfl | rfl <;>
      obtain rfl := congrArg Prod.snd (Option.some.inj hw)
    · exact aluRow_ready (b := 0) hr
    · exact aluRow_ready (b := 0) hr
    · exact aluRow_ready (b := 0) hr
    · exact aluRow_ready (b := 0) hr
    · exact aluRow32_ready hr
    · exact aluRow32_ready hr
    · exact macRow_ready hr
    · exact macRow_ready hr
    · exact aluRow32_ready (b := 0) hr
    · exact aluRow32_ready (b := 0) hr
  · exact cellIssue_local h rfl
  · exact cellIssue_local h rfl

/-- Settles O31: an immediate is a register row of its own operation, and the address instructions change the cell alone. -/
theorem cellImmediates : Obligations.CellImmediates := by
  unfold Obligations.CellImmediates
  refine ⟨fun s i d a f imm k n w => ?_, fun s i a imm h => ?_, fun s i a b h => ?_, fun s i d a h => ?_, fun s i a imm h => ?_⟩
  · intro x z e he hw hr
    simp only [List.mem_cons, List.not_mem_nil, or_false] at he
    rcases he with rfl | rfl | rfl | rfl | rfl | rfl | rfl | rfl <;> obtain rfl := congrArg Prod.snd (Option.some.inj hw)
    · exact immRow_ready (g := (aluAdd · (imm.signExtend 32))) hr
    · exact immRow_ready (g := (aluAdds · (imm.signExtend 32))) hr
    · exact immRow_ready (g := (aluAnd · (imm.zeroExtend 32))) hr
    · exact immRow_ready (g := (aluOr · (imm.zeroExtend 32))) hr
    · exact immRow_ready (g := (aluXor · (imm.zeroExtend 32))) hr
    · rw [← toNat_shiImm] at hr
      exact immRow_ready (g := shiOp k n) hr
    · exact immRow_ready (a := 0) (g := fun _ => aluMov (imm.zeroExtend 32) 0) hr
    · exact cellIssue_changesCell hr (by simp only [greg_cycled, writeAlu_eq]; rfl)
  · exact cellIssue_local h rfl
  · exact cellIssue_local h rfl
  · exact cellIssue_local h rfl
  · exact cellIssue_local h rfl

end Sys2Proof.Machine
end

section
/-! Branches, jumps and HALT of the stage cells (R283, R289, R304; O34), and their streams (R294-R297; O35). -/

namespace Sys2Proof.Machine

/-! ## Jumps -/

/-- The word behind a jump is no DSU instruction: nothing of it remains (R289, R293). -/
theorem squashNext_other {s : State} {c : Nat} {link : Option Nat} (h : fld (codeAt s c ((s.cell c).pc + 1)) 31 26 ≠ 0x0C) :
    squashNext s c link = s := by
  unfold squashNext
  exact if_pos (.inl h)

theorem squashNext_cycled {s : State} {i : Issue} {link : Option Nat}
    (h : fld (codeAt s i.cell.val ((s.cell i.cell.val).pc + 1)) 31 26 ≠ 0x0C) :
    squashNext (cycled s i) i.cell.val link = cycled s i :=
  squashNext_other (by rw [cell_cycled]; exact h)

section
variable {s : State} {i : Issue} {w : Word} {u : Uses} {f : State → CellOut} (h : cellReady s i w = true)
include h

theorem cellIssue_jump {t : State} {target : BitVec 11} (hf : f (cycled s i) = .jump t target) :
    cellIssue i w u f s = .next (t.modCell i.cell.val fun x => { x with pc := target, lateReg := none }) := by
  rw [cellIssue_ready u f h, ← cycled, hf]

/-- A jump that besides PC changes its own cell alone. -/
theorem cellIssue_jumpLocal {g g' : CellSt → CellSt} {target : BitVec 11}
    (hf : f (cycled s i) = .jump ((cycled s i).modCell i.cell.val g) target)
    (hg : { g { s.cell i.cell.val with cyc := (s.cell i.cell.val).cyc + BitVec.ofNat 32 i.cycles } with pc := target, lateReg := none } =
      g' (s.cell i.cell.val)) : cellIssue i w u f s = .next (s.modCell i.cell.val g') := by
  rw [cellIssue_jump h hf, modCell_modCell, cycled, modCell_modCell]
  exact congrArg _ (modCell_congr _ _ _ _ hg)

theorem cellIssue_stallPop (hf : f (cycled s i) = .stallPop) :
    cellIssue i w u f s = .next ((cycled s i).bump (Reg.CELL_POPSTALL i.cell.val) 31 0 i.cycles) := by
  rw [cellIssue_ready u f h, ← cycled, hf]

end

theorem modCell_id (s : State) (c : Fin 32) : s.modCell c.val id = s := by
  simp [State.modCell, State.modFab, c.isLt]

theorem condHolds_cycled (s : State) (i : Issue) (c : Nat) :
    condHolds ((cycled s i).cell i.cell.val) c = condHolds (s.cell i.cell.val) c := by
  rw [cell_cycled]
  rfl

theorem cycled_pc (s : State) (i : Issue) : ((cycled s i).cell i.cell.val).pc = (s.cell i.cell.val).pc := by
  rw [cell_cycled]

section
variable {s : State} {i : Issue} (hw : fld (codeAt s i.cell.val ((s.cell i.cell.val).pc + 1)) 31 26 ≠ 0x0C)
include hw

theorem execCellB_ready {c : Fin 16} {off : BitVec 12} (h : cellReady s i (encB 0x20 c.val 0 off) = true) :
    exec (.cellB i c off) s = .next (if condHolds (s.cell i.cell.val) c.val then
      s.modCell i.cell.val fun x => { x with cyc := x.cyc + BitVec.ofNat 32 i.cycles, pc := x.pc + off.truncate 11, lateReg := none }
      else cellNext s i none id) := by
  by_cases hc : condHolds (s.cell i.cell.val) c.val = true
  · rw [if_pos hc]
    refine cellIssue_jumpLocal h (g := id) (target := branchTarget (s.cell i.cell.val).pc off) ?_ rfl
    simp only [condHolds_cycled, hc, if_true, squashNext_cycled hw, cycled_pc, modCell_id]
  · rw [if_neg hc]
    refine cellIssue_changesCell h ?_
    simp only [condHolds_cycled, hc, if_false, modCell_id, Bool.false_eq_true]

theorem execCellJal_ready {d : Fin 16} {off : BitVec 12} (h : cellReady s i (encB 0x21 d.val 0 off) = true) :
    exec (.cellJal i d off) s = .next (s.modCell i.cell.val fun x =>
      { x.setG d ((x.pc + 1).zeroExtend 32) with cyc := x.cyc + BitVec.ofNat 32 i.cycles, pc := x.pc + off.truncate 11, lateReg := none }) := by
  refine cellIssue_jumpLocal h (g := fun y => y.setG d (((s.cell i.cell.val).pc + 1).zeroExtend 32))
    (target := branchTarget (s.cell i.cell.val).pc off) ?_ rfl
  simp only [squashNext_cycled hw, cycled_pc]

theorem execCellJr_ready {a : Fin 16} (h : cellReady s i (encB 0x22 0 a.val 0) = true) :
    exec (.cellJr i a) s = .next (s.modCell i.cell.val fun x =>
      { x with cyc := x.cyc + BitVec.ofNat 32 i.cycles, pc := (x.greg a).truncate 11, lateReg := none }) := by
  refine cellIssue_jumpLocal h (g := id) (target := ((s.cell i.cell.val).greg a).truncate 11) ?_ rfl
  simp only [squashNext_cycled hw, greg_cycled, modCell_id]

theorem execCellHalt_ready (h : cellReady s i (encB 0x23 0 0 0) = true) :
    exec (.cellHalt i) s = .next ((s.modCell i.cell.val fun x => { x with cyc := x.cyc + BitVec.ofNat 32 i.cycles, lateReg := none }).wr
      (Reg.CELL_STAT i.cell.val) (BitVec.ofNat 32 (2 ^ 30 + (s.cell i.cell.val).pc.toNat))) := by
  have hjump : exec (.cellHalt i) s = .next (((cycled s i).wr (Reg.CELL_STAT i.cell.val)
      (BitVec.ofNat 32 (2 ^ 30 + (s.cell i.cell.val).pc.toNat))).modCell i.cell.val
        fun x => { x with pc := (s.cell i.cell.val).pc, lateReg := none }) :=
    cellIssue_jump h (by simp only [squashNext_cycled hw, cycled_pc])
  have hcell : (cycled s i).modCell i.cell.val (fun x => { x with pc := (s.cell i.cell.val).pc, lateReg := none }) =
      s.modCell i.cell.val fun x => { x with cyc := x.cyc + BitVec.ofNat 32 i.cycles, lateReg := none } := by
    rw [cycled, modCell_modCell]
    exact modCell_congr _ _ _ _ rfl
  rw [hjump, ← hcell]
  rfl

end

/-- Settles O34: each jump goes to its target, and the conditions are read off their definition. -/
theorem cellControl : Obligations.CellControl := by
  unfold Obligations.CellControl
  exact ⟨fun _ _ _ _ h hw => execCellB_ready hw h, fun _ _ _ _ h hw => execCellJal_ready hw h, fun _ _ _ h hw => execCellJr_ready hw h,
    fun _ _ h hw => execCellHalt_ready hw h, fun _ => ⟨rfl, rfl, rfl, rfl, rfl, rfl, rfl, rfl, rfl⟩⟩

/-! ## Slots -/

theorem slot_cycled (s : State) (i : Issue) (c k : Nat) : ((cycled s i).cell c).slot k = (s.cell c).slot k := by
  by_cases hc : c = i.cell.val
  · rw [hc, cell_cycled]
    rfl
  · have hne : i.cell.val ≠ c := Ne.symm hc
    simp [State.cell, cycled, State.modCell, hne]

theorem slotFed_cycled (s : State) (i : Issue) (c k : Nat) : slotFed (cycled s i) c k = slotFed s c k := rfl
theorem slotRoutes_cycled (s : State) (i : Issue) (c k : Nat) : slotRoutes (cycled s i) c k = slotRoutes s c k := rfl
theorem slotPorts_cycled (s : State) (i : Issue) (c k : Nat) : slotPorts (cycled s i) c k = slotPorts s c k := rfl

theorem slotSpace_cycled (s : State) (i : Issue) (c k : Nat) : slotSpace (cycled s i) c k = slotSpace s c k := by
  rw [slotSpace, slot_cycled, slotSpace]

theorem pushReady_cycled (s : State) (i : Issue) (c k : Nat) : pushReady (cycled s i) c k = pushReady s c k := by
  simp only [pushReady, slotSpace_cycled, slotRoutes_cycled, slotPorts_cycled]
  rfl

theorem outSpace_cycled (s : State) (i : Issue) (c k : Nat) : outSpace (cycled s i) c k = outSpace s c k := by
  simp only [outSpace, slotSpace_cycled, slotRoutes_cycled, slotPorts_cycled]
  rfl

/-- Entries that have certainly arrived all count (R294). -/
theorem availCount_arrived {s : State} {q : InSlot} (hd : q.dropping = false) (h : ∀ e ∈ q.entries, e.lag < s.ct.toNat - e.time.toNat) :
    availCount s q = (q.entries.length, s) := by
  have hyoung : q.entries.reverse.takeWhile (fun e => decide (s.ct.toNat - e.time.toNat ≤ e.lag)) = [] := by
    rw [List.takeWhile_eq_nil_iff]
    intro hl
    rw [decide_eq_true_eq]
    exact Nat.not_le.2 (h _ (List.mem_reverse.1 (List.getElem_mem hl)))
  unfold availCount
  simp only [hd, hyoung, List.length_nil, Bool.false_eq_true, if_false, if_true]

/-! ## Streams (R294-R297) -/

section
variable {s : State} {i : Issue} {k : Fin 4}

theorem execCellPop_entry {d : Fin 16} {e : SlotEntry} {r : List SlotEntry} (h : cellReady s i (encS 0x28 d.val k.val false 0 false) = true)
    (hfed : slotFed s i.cell.val k.val = true) (hd : ((s.cell i.cell.val).slot k.val).dropping = false)
    (he : ((s.cell i.cell.val).slot k.val).entries = e :: r) :
    exec (.cellPop i d k) s = .next ((pumpPorts ((cycled s i).modCell i.cell.val fun x =>
      { (x.modSlot k.val fun y => { y with entries := r, begun := !e.entry.eop }).setG d e.entry.data with
        sb := BitVec.ofNat 4 (b2n e.entry.eop * 8 + b2n e.entry.abort * 4 + e.entry.qual.toNat) })).modCell i.cell.val fun x =>
      { x with pc := x.pc + 1, lateReg := some d.val }) :=
  cellIssue_done h (by simp only [slotFed_cycled, hfed, slot_cycled, hd, he, Bool.not_true, Bool.false_eq_true, if_false])

theorem execCellPop_empty {d : Fin 16} (h : cellReady s i (encS 0x28 d.val k.val false 0 false) = true)
    (hfed : slotFed s i.cell.val k.val = true) (he : ((s.cell i.cell.val).slot k.val).entries = []) :
    exec (.cellPop i d k) s = .next ((cycled s i).bump (Reg.CELL_POPSTALL i.cell.val) 31 0 i.cycles) := by
  refine cellIssue_stallPop h ?_
  simp only [slotFed_cycled, hfed, slot_cycled, he, Bool.not_true, Bool.false_eq_true, if_false]
  cases ((s.cell i.cell.val).slot k.val).dropping <;> rfl

theorem execCellPop_unfed {d : Fin 16} (h : cellReady s i (encS 0x28 d.val k.val false 0 false) = true)
    (hfed : slotFed s i.cell.val k.val = false) : exec (.cellPop i d k) s = .next (cellFault (cycled s i) i.cell.val 3) :=
  cellIssue_fault h (by simp only [slotFed_cycled, hfed, Bool.not_false, if_true])

theorem execCellPush_route {a : Fin 16} {e : Bool} {q : BitVec 2} {x : Bool} {r : Route}
    (h : cellReady s i (encS 0x29 a.val k.val e q x) = true) (hr : slotRoutes s i.cell.val k.val = [r])
    (hp : slotPorts s i.cell.val k.val = []) (hready : pushReady s i.cell.val k.val = true) :
    exec (.cellPush i a k e q x) s = .next ((deliver (cycled s i) [(r.dstCell, r.dstSlot)]
      { entry := { data := (s.cell i.cell.val).greg a, eop := e, abort := x, qual := q }, time := s.ct,
        lag := (2 + r.hops) / 2 + 1 }).modCell i.cell.val fun x => { x with pc := x.pc + 1, lateReg := none }) :=
  cellIssue_done h (by simp only [slotRoutes_cycled, slotPorts_cycled, pushReady_cycled, hr, hp, hready, greg_cycled]; rfl)

theorem execCellDrop_fed (h : cellReady s i (encS 0x2A 0 k.val false 0 false) = true) (hfed : slotFed s i.cell.val k.val = true) :
    exec (.cellDrop i k) s = .next ((pumpPorts ((cycled s i).modCell i.cell.val fun x => x.modSlot k.val slotDrop)).modCell i.cell.val
      fun x => { x with pc := x.pc + 1, lateReg := none }) :=
  cellIssue_done h (by simp only [slotFed_cycled, hfed, Bool.not_true, Bool.false_eq_true, if_false])

theorem execCellAvail_arrived {d : Fin 16} (h : cellReady s i (encS 0x2B d.val k.val false 0 false) = true)
    (hfed : slotFed s i.cell.val k.val = true) (hd : ((s.cell i.cell.val).slot k.val).dropping = false)
    (he : ∀ e ∈ ((s.cell i.cell.val).slot k.val).entries, e.lag < s.ct.toNat - e.time.toNat) :
    exec (.cellAvail i d k) s =
      .next (cellNext s i none fun x => x.setG d (BitVec.ofNat 32 ((s.cell i.cell.val).slot k.val).entries.length)) := by
  refine cellIssue_changesCell h ?_
  simp only [slotFed_cycled, hfed, slot_cycled, availCount_arrived (s := cycled s i) hd he, Bool.not_true, Bool.false_eq_true, if_false]

theorem execCellSpace_routed {d : Fin 16} (h : cellReady s i (encS 0x2C d.val k.val false 0 false) = true)
    (hr : slotRoutes s i.cell.val k.val ≠ []) :
    exec (.cellSpace i d k) s = .next (cellNext s i none fun x => x.setG d (BitVec.ofNat 32 (outSpace s i.cell.val k.val))) := by
  have hne : (slotRoutes s i.cell.val k.val).isEmpty = false := by simpa using hr
  refine cellIssue_changesCell h ?_
  simp only [slotRoutes_cycled, slotPorts_cycled, hne, outSpace_cycled, Bool.false_and, Bool.false_eq_true, if_false]

end

/-- Settles O35, instruction by instruction. -/
theorem cellStreams : Obligations.CellStreams := by
  unfold Obligations.CellStreams
  exact ⟨fun _ _ _ _ _ _ => execCellPop_entry, fun _ _ _ _ h => ⟨execCellPop_empty h, execCellPop_unfed h⟩,
    fun _ _ _ _ _ _ _ _ => execCellPush_route, fun _ _ _ => execCellDrop_fed, fun _ _ _ _ => execCellAvail_arrived,
    fun _ _ _ _ => execCellSpace_routed⟩

end Sys2Proof.Machine
end

section
/-! The passes of a load, the drain and the tally port (R263-R275; O40). -/

namespace Sys2Proof.Machine

/-! ## Passes -/

section
variable {s : State} {j : LoadJob} (hl : s.live = true) (hj : s.fab.load = some j)
include hl hj

theorem execCheckPassDone_failed (hp : j.phase = .checking) : exec (.checkPassDone true) s = .next (loadEnd s j Err.FAB_STAGING) := by
  show execCheckPassDone true s = _
  simp [execCheckPassDone, whenLive, hl, hj, hp]

theorem execCheckPassDone_refused (hp : j.phase = .checking) {c : Half} {b : Option Body}
    (h : checkChoreo s (s.buf j.buf).bytes = (c, b)) (hc : c ≠ 0) : exec (.checkPassDone false) s = .next (loadEnd s j c) := by
  show execCheckPassDone false s = _
  simp only [execCheckPassDone, whenLive_live _ hl, hj, hp, h, reduceCtorEq, Bool.false_eq_true, if_false, if_true]
  split
  next heq => exact absurd (congrArg Prod.fst heq) hc
  next heq => cases heq; rfl

theorem execCheckPassDone_passed (hp : j.phase = .checking) {b : Body} (h : checkChoreo s (s.buf j.buf).bytes = (0, some b)) :
    exec (.checkPassDone false) s = .next (checkPassed s j b) := by
  show execCheckPassDone false s = _
  simp [execCheckPassDone, whenLive, hl, hj, hp, h]

theorem execCheckPassDone_abandoned (hp : j.phase = .abandoned) (f : Bool) :
    exec (.checkPassDone f) s = .next (loadEnd s j Err.FAB_LANE_STATE) := by
  show execCheckPassDone f s = _
  simp [execCheckPassDone, whenLive, hl, hj, hp, loadAbandoned]

theorem execDrainEnd_load (hp : j.phase = .draining) : exec .drainEnd s = .next (applyBegins s j) := by
  show execDrainEnd s = _
  simp [execDrainEnd, whenLive, hl, hj, hp]

theorem execApplyDone_failed (hp : j.phase = .applying) : exec (.applyDone true) s = .next (applyFailed s j) := by
  show execApplyDone true s = _
  simp [execApplyDone, whenLive, hl, hj, hp]

theorem execApplyDone_recomputed (hp : j.phase = .applying) : exec (.applyDone false) s = .next (match reopenChoreo s j with
    | some b => applyPassed s j b
    | none => applyFailed s j) := by
  show execApplyDone false s = _
  simp only [execApplyDone, whenLive_live _ hl, hj, hp]
  rfl

end

theorem checkPassed_new {s : State} {j : LoadJob} {b : Body} (hj : j.replace = false)
    (hc : b.conf.claims.any (claimCollides s false) = false) :
    checkPassed s j b = applyBegins (takeWindows ((takeClaims s b.conf.claims).modFab fun f => { f with held := b.conf.claims }) b.conf.claims)
      { j with choreo := b.conf, keys := (tenantKeys s b.conf.tenant).getD ([], []) } := by
  simp only [checkPassed, hj, hc, Bool.false_eq_true, if_false]

theorem checkPassed_collides {s : State} {j : LoadJob} {b : Body} (hc : b.conf.claims.any (claimCollides s j.replace) = true) :
    checkPassed s j b = loadEnd s { j with choreo := b.conf } Err.FAB_CLAIM_CONFLICT := by
  unfold checkPassed
  exact if_pos hc

theorem execDrainEnd_unload {s : State} {u : UnloadJob} (hl : s.live = true) (hj : s.fab.load = none) (hu : s.fab.unload = some u)
    (hd : u.draining = true) : exec .drainEnd s = .next (unloadDone s u) := by
  show execDrainEnd s = _
  simp [execDrainEnd, whenLive, hl, hj, hu, hd]

/-! ## The tally port -/

section
variable {s t : State} {e : QEntry} {r : List QEntry} (hl : s.live = true) (hq : queuePacket s 14 = (some (e :: r), t))
include hl hq

theorem execTallyEntry_packet : exec .tallyEntry s = .next (if t.fabLoaded && decide (fld e.data 31 28 < t.fab.conf.tally.length) then
      t.wr64 (Reg.ACS_TALLY_LO (fld e.data 31 28)) (Reg.ACS_TALLY_HI (fld e.data 31 28))
        ((tallyCounter t (fld e.data 31 28) + fld e.data 15 0) % 2 ^ 48)
    else raise (t.bump Reg.FAB_TALLY_BAD 31 0) Err.FAB_TALLY_CLASS 0x0D (BitVec.ofNat 64 (fld e.data 31 28))) := by
  show execTallyEntry s = _
  simp only [execTallyEntry, whenLive_live _ hl, hq]
  rfl

end

/-- Settles O40: each pass and the drain by the phase of the job, a tally entry by its class. -/
theorem choreographyPasses : Obligations.ChoreographyPasses := by
  unfold Obligations.ChoreographyPasses
  refine ⟨fun s j hl hj hp => ⟨execCheckPassDone_failed hl hj hp, fun c b h hc => execCheckPassDone_refused hl hj hp h hc, ?_, ?_⟩,
    fun s j f hl hj hp => execCheckPassDone_abandoned hl hj hp f, fun s j hl hj hp => execDrainEnd_load hl hj hp,
    fun s u => execDrainEnd_unload, fun s j hl hj hp => ⟨execApplyDone_failed hl hj hp, fun h => ?_, fun b h => ?_⟩, ?_, ?_⟩
  · intro b h hr hc
    rw [execCheckPassDone_passed hl hj hp h, checkPassed_new hr hc]
  · intro b h hc
    rw [execCheckPassDone_passed hl hj hp h, checkPassed_collides hc]
  · rw [execApplyDone_recomputed hl hj hp, h]
  · rw [execApplyDone_recomputed hl hj hp, h]
  · intro s t e r hl hq hload hc
    rw [execTallyEntry_packet hl hq, if_pos (by simp [hload, hc])]
  · intro s t e r hl hq hc
    rw [execTallyEntry_packet hl hq, if_neg (by simp [Nat.not_lt.2 hc])]

end Sys2Proof.Machine
end

section
/-! What sending on the ring changes (R340, R348-R354), and what the completion of a request leaves of the fabric (R275, R354, R378). -/

namespace Sys2Proof.Machine

/-! ## Sending on the ring -/

/-- Only the ring's own state, what has left the block and the count of free values differ. -/
def LinkOnly (s t : State) : Prop := ∃ ring out free, t = ((s.modRing fun _ => ring).modOut fun _ => out).modFree fun _ => free

theorem LinkOnly.refl (s : State) : LinkOnly s s := ⟨s.ring, s.out, s.free, rfl⟩

theorem LinkOnly.trans {r s t : State} (h : LinkOnly r s) (k : LinkOnly s t) : LinkOnly r t := by
  obtain ⟨_, _, _, rfl⟩ := h
  obtain ⟨ring, out, free, rfl⟩ := k
  exact ⟨ring, out, free, rfl⟩

theorem linkOnly_modRing (s : State) (f : RingSt → RingSt) : LinkOnly s (s.modRing f) := ⟨f s.ring, s.out, s.free, rfl⟩

theorem linkOnly_emit (s : State) (o : Output) : LinkOnly s (s.emit o) := ⟨s.ring, o :: s.out, s.free, rfl⟩

theorem linkOnly_branch {r a b : State} {c : Prop} [Decidable c] (h : LinkOnly r a) (k : LinkOnly r b) :
    LinkOnly r (if c then a else b) := by
  split
  · exact h
  · exact k

theorem linkOnly_modFrl (s : State) (p : Nat) (f : FrlPort → FrlPort) : LinkOnly s (s.modFrl p f) := linkOnly_modRing s _

theorem linkOnly_emitFrame (s : State) (p lseq : Nat) (f : Frame) : LinkOnly s (emitFrame s p lseq f) :=
  (linkOnly_emit s _).trans (linkOnly_emit _ _)

theorem linkOnly_drawStamp (s : State) : LinkOnly s (drawStamp s).2 := ⟨s.ring, s.out, s.free + 1, rfl⟩

theorem linkOnly_emitNew (s : State) (p : Nat) (q : QFrame) : LinkOnly s (emitNew s p q) := by
  have hstamp : LinkOnly s (if q.fix.isEmpty then ((0 : DWord), s) else drawStamp s).2 := by
    split
    · exact .refl s
    · exact linkOnly_drawStamp s
  unfold emitNew
  generalize (if q.fix.isEmpty then ((0 : DWord), s) else drawStamp s) = z at hstamp ⊢
  exact hstamp.trans ((linkOnly_emitFrame _ _ _ _).trans (linkOnly_modFrl _ _ _))

theorem linkOnly_frlPump (p : Nat) : ∀ (n : Nat) (s : State), LinkOnly s (frlPump p n s)
  | 0, s => .refl s
  | n + 1, s => by
    rw [frlPump]
    refine linkOnly_branch ?_ (.refl s)
    split
    · exact ((linkOnly_modFrl s p _).trans (linkOnly_emitNew _ p _)).trans (linkOnly_frlPump p n _)
    · exact .refl s

theorem linkOnly_sendOn (s : State) (p : Nat) (c : FrlClass) (f : Frame) (fix : List Fix) : LinkOnly s (sendOn s p c f fix) :=
  linkOnly_branch ((linkOnly_modFrl s p _).trans (linkOnly_frlPump p 64 _)) (.refl s)

theorem linkOnly_sendProtected (s : State) (typ dst worker : Nat) (toEn rsp : Bool) (txn : Word) (plain : List Byte) (path : Nat) :
    LinkOnly s (sendProtected s typ dst worker toEn rsp txn plain path) :=
  linkOnly_branch (.refl s) ((linkOnly_modRing s _).trans (linkOnly_sendOn _ _ _ _ _))

theorem linkOnly_respondTxn (s : State) (src txn : Nat) (body : List Byte) : LinkOnly s (respondTxn s src txn body) := by
  unfold respondTxn
  split
  · exact .refl s
  · exact (linkOnly_modRing s _).trans (linkOnly_sendProtected _ _ _ _ _ _ _ _ _)

/-! ## Completed requests -/

/-- The registers that say what the fabric runs. -/
def FabricReg (b : Nat) : Prop := b = Reg.FAB_STAT ∨ ∃ k : Fin 32, b = Reg.CELL_STAT k.val

theorem FabricReg.lt {b : Nat} (h : FabricReg b) : b < Reg.ERR_STAT := by
  rcases h with rfl | ⟨k, rfl⟩
  · decide
  · simp only [Reg.CELL_STAT, Reg.ERR_STAT]
    omega

/-- The state is canonical, and the fabric, memory, the lanes and the registers of the fabric are as they were. -/
structure FabricKept (s t : State) : Prop where
  canon : t.canon = true
  fab : t.fab = s.fab
  mem : t.mem = s.mem
  lanes : t.lanes = s.lanes
  rd : ∀ b, FabricReg b → t.rd b = s.rd b

theorem FabricKept.refl {s : State} (hs : s.canon = true) : FabricKept s s := ⟨hs, rfl, rfl, rfl, fun _ _ => rfl⟩

theorem FabricKept.trans {r s t : State} (h : FabricKept r s) (k : FabricKept s t) : FabricKept r t :=
  ⟨k.canon, k.fab.trans h.fab, k.mem.trans h.mem, k.lanes.trans h.lanes, fun b hb => (k.rd b hb).trans (h.rd b hb)⟩

theorem FabricKept.wr {s t : State} {a : Nat} {v : Word} (h : FabricKept s t) (ha : ∀ b, FabricReg b → b ≠ a) :
    FabricKept s (t.wr a v) :=
  ⟨canon_wr t a v h.canon, h.fab, h.mem, h.lanes, fun b hb => (rd_wr_other t a b v (canon_parts h.canon).2 (ha b hb)).trans (h.rd b hb)⟩

/-- A state that differs in none of these parts. -/
theorem FabricKept.congr {s t u : State} (h : FabricKept s t) (hr : u.regs = t.regs) (hm : u.mem = t.mem) (hf : u.fab = t.fab)
    (hl : u.lanes = t.lanes) : FabricKept s u :=
  ⟨(canon_congr hm hr).trans h.canon, hf.trans h.fab, hm.trans h.mem, hl.trans h.lanes, fun b hb => (rd_congr hr b).trans (h.rd b hb)⟩

theorem FabricKept.linkOnly {s t u : State} (h : FabricKept s t) (k : LinkOnly t u) : FabricKept s u := by
  obtain ⟨_, _, _, rfl⟩ := k
  exact h.congr rfl rfl rfl rfl

theorem fabricKept_raise {s : State} {code : Half} (src : Byte) (detail : DWord) (hs : s.canon = true) (hf : errClass code ≠ 3)
    (hsec : errClass code ≠ 4) : FabricKept s (raise s code src detail) := by
  obtain ⟨fw, regs, h⟩ := latchesOnly_raise (s := s) src detail hf hsec
  exact ⟨(keeps_raise s code src detail (.refl s)).canon hs, by rw [h]; rfl, raise_mem s code src detail, by rw [h]; rfl,
    fun b hb => rd_raise_other src detail hs hf hsec hb.lt⟩

theorem fabricKept_finishReply {s : State} (r : ReplyTo) (st : Half) (body : List Byte) (hs : s.canon = true) :
    FabricKept s (finishReply s r st body) := by
  have hr := FabricKept.refl hs
  cases r with
  | none => exact hr
  | host src code txn epoch lane =>
    rw [finishReply]
    split <;> unfold emitResponse <;> split <;> exact hr.congr rfl rfl rfl rfl
  | ring txn =>
    rw [finishReply]
    split
    · exact hr.linkOnly (linkOnly_respondTxn s _ txn _)
    · exact hr
  | admission pos => exact hr.congr rfl rfl rfl rfl
  | provision =>
    rw [finishReply]
    split
    · exact hr
    · exact fabricKept_raise _ _ hs (by decide) (by decide)

/-- A request's outcome is noted and its response leaves (R275). -/
theorem fabricKept_fabFail {s : State} (r : ReplyTo) {code : Half} (hs : s.canon = true) (hf : errClass code ≠ 3)
    (hsec : errClass code ≠ 4) : FabricKept s (fabFail s r code) := by
  have hlast (b : Nat) (hb : FabricReg b) : b ≠ Reg.FAB_LAST_ERR := by
    rcases hb with rfl | ⟨k, rfl⟩
    · decide
    · simp only [Reg.CELL_STAT, Reg.FAB_LAST_ERR]
      omega
  have hevt (b : Nat) (hb : FabricReg b) : b ≠ Reg.ERR_EVT := (hb.lt.trans (by decide)).ne
  have hnoted : FabricKept s ((s.wr Reg.FAB_LAST_ERR (code.truncate 32)).wrb Reg.ERR_EVT 6 true) := ((FabricKept.refl hs).wr hlast).wr hevt
  have houtcome : FabricKept s (fabOutcome s code) := by
    unfold fabOutcome
    extract_lets s1
    split
    · exact hnoted
    · exact hnoted.trans (fabricKept_raise _ _ hnoted.canon hf hsec)
  exact houtcome.trans (fabricKept_finishReply r code [] houtcome.canon)

end Sys2Proof.Machine
end

section
/-! A failed apply pass leaves the lane without a choreography (R269, R272; O41). -/

namespace Sys2Proof.Machine

/-! ## The fabric is cleared -/

/-- The registers of one cell are cleared. -/
def cellRegsCleared (s : State) (c : Nat) : State :=
  (((s.wr (Reg.CELL_POPSTALL c) 0).wr (Reg.CELL_PUSHSTALL c) 0).wr (Reg.CELL_DSU c) 0).wr (Reg.CELL_STAT c) 0

theorem clearCellRegs_eq (s : State) :
    clearCellRegs s = (List.range 32).foldl cellRegsCleared ((s.wr Reg.CELL_CE 0).wr Reg.CELL_EXC_FIRST 0) := by
  unfold clearCellRegs cellRegsCleared
  rfl

theorem canon_cellRegsCleared {s : State} (c : Nat) (hs : s.canon = true) : (cellRegsCleared s c).canon = true :=
  canon_wr _ _ _ <| canon_wr _ _ _ <| canon_wr _ _ _ <| canon_wr _ _ _ hs

theorem rd_cellRegsCleared {s : State} (c : Nat) (k : Fin 32) (hs : s.canon = true) :
    (cellRegsCleared s c).rd (Reg.CELL_STAT k.val) = if k.val = c then 0 else s.rd (Reg.CELL_STAT k.val) := by
  have h1 : (s.wr (Reg.CELL_POPSTALL c) 0).canon = true := canon_wr _ _ _ hs
  have h2 : ((s.wr (Reg.CELL_POPSTALL c) 0).wr (Reg.CELL_PUSHSTALL c) 0).canon = true := canon_wr _ _ _ h1
  have h3 : (((s.wr (Reg.CELL_POPSTALL c) 0).wr (Reg.CELL_PUSHSTALL c) 0).wr (Reg.CELL_DSU c) 0).canon = true := canon_wr _ _ _ h2
  have hstat : Reg.CELL_STAT k.val = Reg.CELL_STAT c ↔ k.val = c := by simp only [Reg.CELL_STAT]; omega
  rw [cellRegsCleared, rd_wr _ _ _ _ (canon_parts h3).2,
    rd_wr_other _ _ _ _ (canon_parts h2).2 (by simp only [Reg.CELL_STAT, Reg.CELL_DSU]; omega),
    rd_wr_other _ _ _ _ (canon_parts h1).2 (by simp only [Reg.CELL_STAT, Reg.CELL_PUSHSTALL]; omega),
    rd_wr_other _ _ _ _ (canon_parts hs).2 (by simp only [Reg.CELL_STAT, Reg.CELL_POPSTALL]; omega)]
  simp only [hstat]

theorem rd_clearCellRegs {s : State} (k : Fin 32) (hs : s.canon = true) : (clearCellRegs s).rd (Reg.CELL_STAT k.val) = 0 := by
  rw [clearCellRegs_eq]
  refine foldl_establishes (Q := fun t => t.canon = true) (P := fun t => t.rd (Reg.CELL_STAT k.val) = 0)
    (fun t c ht => canon_cellRegsCleared c ht) (fun t c ht h => ?_) (List.mem_range.2 k.isLt) (fun t ht => ?_)
    (canon_wr _ _ _ (canon_wr _ _ _ hs))
  · rw [rd_cellRegsCleared c k ht, h, ite_self]
  · rw [rd_cellRegsCleared k.val k ht, if_pos rfl]

/-- Clearing the cells' registers changes registers alone. -/
theorem clearCellRegs_onlyRegs (s : State) : ∃ regs, clearCellRegs s = s.modRegs fun _ => regs := by
  rw [clearCellRegs_eq]
  have step : ∀ (l : List Nat) (t : State), (∃ regs, t = s.modRegs fun _ => regs) →
      ∃ regs, l.foldl cellRegsCleared t = s.modRegs fun _ => regs := fun l => by
    induction l with
    | nil => exact fun t h => h
    | cons c l ih => exact fun t ⟨regs, h⟩ => ih _ ⟨(cellRegsCleared t c).regs, by rw [h]; rfl⟩
  exact step _ _ ⟨((s.wr Reg.CELL_CE 0).wr Reg.CELL_EXC_FIRST 0).regs, rfl⟩

/-- What is left of the fabric: nothing, but the claims and the load. -/
theorem clearFabric_frame (s : State) : (clearFabric s).fab =
      { s.fab with code := [], cells := Vector.replicate 32 {}, conf := {}, openDue := false, seen0 := [], seen1 := [] } ∧
    (clearFabric s).mem = sclear s.mem 0x60000000 0x60100000 ∧ (clearFabric s).lanes = s.lanes := by
  obtain ⟨regs, h⟩ := clearCellRegs_onlyRegs (s.zeroRange 0x60000000 0x60100000)
  unfold clearFabric
  rw [h]
  exact ⟨rfl, rfl, rfl⟩

theorem rd_clearFabric {s : State} {b : Nat} (hs : s.canon = true) (hb : FabricReg b) : (clearFabric s).rd b = 0 := by
  have h0 : (clearCellRegs (s.zeroRange 0x60000000 0x60100000)).canon = true :=
    (keeps_clearCellRegs _ (.refl _)).canon (canon_zeroRange s _ _ hs)
  unfold clearFabric
  extract_lets s1 s2
  have h2 : s2.canon = true := (canon_congr (State.modFab_mem _ _) (State.modFab_regs _ _)).trans h0
  have h3 : (s2.wr Reg.FAB_STAT 0).canon = true := canon_wr _ _ _ h2
  have h4 : ((s2.wr Reg.FAB_STAT 0).wr Reg.FAB_VERSION 0).canon = true := canon_wr _ _ _ h3
  rcases hb with rfl | ⟨k, rfl⟩
  · rw [rd_wr_other _ _ _ _ (canon_parts h4).2 (by decide), rd_wr_other _ _ _ _ (canon_parts h3).2 (by decide),
      rd_wr_same _ _ _ (canon_parts h2).2]
  · rw [rd_wr_other _ _ _ _ (canon_parts h4).2 (by simp only [Reg.CELL_STAT, Reg.FAB_RES_LIMIT]; omega),
      rd_wr_other _ _ _ _ (canon_parts h3).2 (by simp only [Reg.CELL_STAT, Reg.FAB_VERSION]; omega),
      rd_wr_other _ _ _ _ (canon_parts h2).2 (by simp only [Reg.CELL_STAT, Reg.FAB_STAT]; omega)]
    exact (rd_congr (State.modFab_regs _ _) _).trans (rd_clearCellRegs k (canon_zeroRange s _ _ hs))

/-! ## The claims are dropped -/

/-- The gate block's registers lie below the fabric's. -/
theorem FabricReg.ne_gate {b a : Nat} (h : FabricReg b) (ha : a < 0x400D0000) : b ≠ a := by
  rcases h with rfl | ⟨k, rfl⟩
  · simp only [Reg.FAB_STAT]
    omega
  · simp only [Reg.CELL_STAT]
    omega

theorem FabricKept.ruleTaken {s t : State} (h : FabricKept s t) : FabricKept s (ruleTaken t) :=
  (h.wr fun _ hb => hb.ne_gate (by decide)).congr rfl rfl rfl rfl

/-- A carve-out of system SRAM takes its three registers and GATE_SYNC. -/
theorem fabricKept_claimCarve {s t : State} (h : FabricKept s t) (e base limit : Nat) (perm : Word) (he : e < 8) :
    FabricKept s (claimCarve t 1 e base limit perm) := by
  have hbase : FabricKept s (t.wr (Reg.GATE_SCO_BASE e) (BitVec.ofNat 32 base)) :=
    h.wr fun _ hb => hb.ne_gate (by simp only [Reg.GATE_SCO_BASE]; omega)
  have hlimit : FabricKept s ((t.wr (Reg.GATE_SCO_BASE e) (BitVec.ofNat 32 base)).wr (Reg.GATE_SCO_LIMIT e) (BitVec.ofNat 32 limit)) :=
    hbase.wr fun _ hb => hb.ne_gate (by simp only [Reg.GATE_SCO_LIMIT]; omega)
  exact (hlimit.wr fun _ hb => hb.ne_gate (by simp only [Reg.GATE_SCO_PERM]; omega)).ruleTaken.ruleTaken.ruleTaken

theorem fabricKept_dropWindows {s : State} (hs : s.canon = true) : FabricKept s (dropWindows s) := by
  have step : ∀ (l : List Nat) (t : State), (∀ e ∈ l, e < 8) → FabricKept s t →
      FabricKept s (l.foldl (fun t e => if t.rdb (Reg.GATE_SCO_PERM e) 29 then claimCarve t 1 e 0 0 0 else t) t) := fun l => by
    induction l with
    | nil => exact fun _ _ h => h
    | cons e l ih =>
      refine fun t hl h => ih _ (fun x hx => hl x (List.mem_cons_of_mem e hx)) ?_
      dsimp only
      split
      · exact fabricKept_claimCarve h e 0 0 0 (hl e List.mem_cons_self)
      · exact h
  exact step (List.range 8) s (fun e he => List.mem_range.1 he) (.refl hs)

/-! ## The lane -/

theorem postEvent_fab (s : State) (code : Half) (lane : Nat) (body : List Byte) : (postEvent s code lane body).fab = s.fab := by
  obtain ⟨ring, host, out, h⟩ := eventOnly_postEvent s code lane body
  rw [h]
  rfl

theorem postEvent_lanes (s : State) (code : Half) (lane : Nat) (body : List Byte) : (postEvent s code lane body).lanes = s.lanes := by
  obtain ⟨ring, host, out, h⟩ := eventOnly_postEvent s code lane body
  rw [h]
  rfl

theorem modLane_fab (s : State) (p : Nat) (f : Lane → Lane) : (s.modLane p f).fab = s.fab := by
  unfold State.modLane
  split <;> rfl

theorem setLane_fab (s : State) (p : Nat) (st : LaneState) (cause : Half) : (setLane s p st cause).fab = s.fab := by
  unfold setLane
  simp only [apply_ite State.fab, postEvent_fab, modLane_fab, State.modFw_fab, State.modRing_fab, State.modLanes_fab, ite_self]

theorem modLane_own (s : State) (f : Lane → Lane) : (s.modLane s.ownLane f).lanes.own = f s.lanes.own := by
  unfold State.modLane
  rw [if_pos rfl]
  rfl

theorem lane_own (s : State) : s.lane s.ownLane = s.lanes.own := if_pos rfl

/-- The own lane is in the state to which it is moved. -/
theorem setLane_own (s : State) (st : LaneState) (cause : Half) : (setLane s s.ownLane st cause).lanes.own.state = st := by
  unfold setLane
  extract_lets old s1 s2 own s3 s4 s5
  have h1 : s1.lanes.own.state = st := congrArg Lane.state (modLane_own s _)
  have h4 : s4.lanes.own.state = st := by
    simp only [s4, s3, s2, apply_ite State.lanes, State.modFw_lanes, State.modRing_lanes, postEvent_lanes, ite_self, h1]
  have h5 : s5.lanes.own.state = st := h4
  split
  next hold => rwa [← lane_own]
  · split
    · split
      · exact h5
      · rw [postEvent_lanes, h5]
    · split
      · rw [postEvent_lanes]
        exact h4
      · exact h4

/-! ## The failure (R269) -/

/-- The fabric is cleared, the claims are gone, and no load is under way. -/
def loadCleared (s : State) : State := (dropClaims (clearFabric s)).modFab fun f => { f with load := none }

/-- The lane, unless it is SAFE, goes to IDLE. -/
def laneIdle (s : State) : State := if s.lanes.own.state = .safe then s else setLane s s.ownLane .idle

theorem applyFailed_eq (s : State) (j : LoadJob) : applyFailed s j = fabFail (laneIdle (loadCleared s)) j.reply Err.FAB_APPLY_FAILED := by
  unfold applyFailed laneIdle loadCleared
  rfl

theorem loadCleared_frame {s : State} (hs : s.canon = true) : (loadCleared s).canon = true ∧
    (loadCleared s).fab = { (clearFabric s).fab with held := [], reserved := [], pins := 0, load := none } ∧
    (loadCleared s).mem = sclear s.mem 0x60000000 0x60100000 ∧ (loadCleared s).lanes = s.lanes ∧
    ∀ b, FabricReg b → (loadCleared s).rd b = 0 := by
  have hclear : (clearFabric s).canon = true := (keeps_clearFabric s (.refl s)).canon hs
  have hdrop := fabricKept_dropWindows hclear
  obtain ⟨-, hmem, hlanes⟩ := clearFabric_frame s
  unfold loadCleared dropClaims
  generalize dropWindows (clearFabric s) = t at hdrop
  refine ⟨hdrop.canon, ?_, hdrop.mem.trans hmem, hdrop.lanes.trans hlanes, fun b hb => (hdrop.rd b hb).trans (rd_clearFabric hs hb)⟩
  rw [← hdrop.fab]
  rfl

theorem laneIdle_frame (s : State) : (laneIdle s).fab = s.fab ∧ (laneIdle s).mem = s.mem ∧ (laneIdle s).regs = s.regs ∧
    (s.lanes.own.state ≠ .safe → (laneIdle s).lanes.own.state = .idle) := by
  by_cases h : s.lanes.own.state = .safe
  · rw [laneIdle, if_pos h]
    exact ⟨rfl, rfl, rfl, fun hn => absurd h hn⟩
  · rw [laneIdle, if_neg h]
    exact ⟨setLane_fab _ _ _ _, setLane_mem _ _ _ _, setLane_regs _ _ _ _, fun _ => setLane_own _ _ _⟩

theorem byteAt_sclear {s t : State} {lo hi : Nat} (hs : s.mem.wf = true) (h : t.mem = sclear s.mem lo hi) (a : Nat) :
    t.byteAt a = if lo ≤ a ∧ a < hi then 0 else s.byteAt a := by
  rw [State.byteAt, h, sget_sclear _ _ _ _ _ hs]
  rfl

/-- Settles O41: the pass clears the fabric, drops the claims and moves the lane, and the report of its failure touches none of them. -/
theorem applyFailureClears : Obligations.ApplyFailureClears := by
  unfold Obligations.ApplyFailureClears
  intro s j hs
  obtain ⟨hcanon, hfab, hmem, hlanes, hregs⟩ := loadCleared_frame hs
  obtain ⟨hifab, himem, hiregs, hilane⟩ := laneIdle_frame (loadCleared s)
  have hidle : (laneIdle (loadCleared s)).canon = true := (canon_congr himem hiregs).trans hcanon
  have hreport := fabricKept_fabFail j.reply (code := Err.FAB_APPLY_FAILED) hidle (by decide) (by decide)
  rw [← applyFailed_eq] at hreport
  have hrd (b : Nat) (hb : FabricReg b) : (applyFailed s j).rd b = 0 :=
    ((hreport.rd b hb).trans (rd_congr hiregs b)).trans (hregs b hb)
  have hf : (applyFailed s j).fab = { (clearFabric s).fab with held := [], reserved := [], pins := 0, load := none } :=
    (hreport.fab.trans hifab).trans hfab
  have hm := byteAt_sclear (canon_parts hs).1 ((hreport.mem.trans himem).trans hmem)
  obtain ⟨hcf, -, -⟩ := clearFabric_frame s
  refine ⟨?_, ?_, ?_, ?_, ?_, ?_, fun c => ?_, fun a h1 h2 => ?_, fun a h => ?_, fun h => ?_⟩
  · rw [State.fabLoaded, State.rdb, hrd _ (.inl rfl)]
    rfl
  · rw [hf]
  · rw [hf]
  · rw [hf]
  · rw [hf, hcf]
  · rw [hf, hcf]
  · rw [cellRuns, State.rdb, hrd _ (.inr ⟨c, rfl⟩)]
    rfl
  · rw [hm, if_pos ⟨h1, h2⟩]
  · rw [hm, if_neg (by omega)]
  · rw [hreport.lanes]
    exact hilane (by rwa [hlanes])

end Sys2Proof.Machine
end

section
/-! The ejection scheduler (R307-R313, R330; O42, O43): what a decision record changes, and when a command fires. -/

namespace Sys2Proof.Machine

/-! ## Ports that the scheduler leaves alone -/

section
variable {s : State}

/-- Two states with the same scheduler have the same ports. -/
theorem ejp_congr {t : State} (h : t.ej = s.ej) (n : Nat) : t.ejp n = s.ejp n := by
  unfold State.ejp
  rw [h]

theorem ejp_modEjp_other {m : Nat} (n : Fin 4) (f : EjPort → EjPort) (h : m ≠ n.val) : (s.modEjp m f).ejp n.val = s.ejp n.val := by
  unfold State.ejp State.modEjp
  by_cases hm : m < 4
  · simp [State.modEj, hm, Vector.getElem_set_ne _ _ h]
  · simp [State.modEj, hm]

theorem LatchesOnly.ej {t : State} (h : LatchesOnly s t) : t.ej = s.ej := by
  obtain ⟨fw, regs, rfl⟩ := h
  rfl

/-- An error of the scheduler below the classes SECURITY and FATAL touches no port. -/
theorem ejp_ejRaise {code : Half} (hf : errClass code ≠ 3) (hs : errClass code ≠ 4) (port n : Nat) :
    (ejRaise s code port).ejp n = s.ejp n := by
  have hraise (t : State) : (raise t code ejSrc (BitVec.ofNat 64 port)).ejp n = t.ejp n :=
    ejp_congr (latchesOnly_raise ejSrc _ hf hs).ej n
  unfold ejRaise
  extract_lets key
  split
  · split
    · rfl
    · exact (hraise _).trans rfl
  · exact (hraise _).trans rfl

theorem ejp_ejRefuse {code : Half} (hf : errClass code ≠ 3) (hs : errClass code ≠ 4) (count port n : Nat) :
    (ejRefuse s count code port).2.ejp n = s.ejp n := ejp_ejRaise hf hs port n

/-- The last checks of a command for one port leave every other port alone. -/
theorem ejp_fireJudge_other {m : Nat} (n : Fin 4) (part width : Nat) (mask : DWord) (tOn : Int) (cls : Option Nat) (h : m ≠ n.val) :
    (fireJudge s m part width mask tOn cls).2.ejp n.val = s.ejp n.val := by
  unfold fireJudge
  extract_lets lead
  split
  · rfl
  split
  · exact ejp_ejRefuse (by decide) (by decide) _ _ _
  split
  · exact ejp_ejRefuse (by decide) (by decide) _ _ _
  split
  · exact ejp_ejRefuse (by decide) (by decide) _ _ _
  split
  · exact ejp_ejRefuse (by decide) (by decide) _ _ _
  · exact ejp_modEjp_other n _ h

/-- A record changes the port it names, and that one only where the scheduler is armed and the port is UP (R309). -/
theorem ejp_recordJudge (l : List QEntry) (n : Fin 4) (h : s.rdb Reg.EJ_CTRL 1 = false ∨ (s.ejp n.val).state ≠ .up) :
    (recordJudge s l).ejp n.val = s.ejp n.val := by
  unfold recordJudge
  split
  · exact ejp_ejRefuse (by decide) (by decide) _ _ _
  split
  · rfl
  next harm =>
    extract_lets w m part tArr
    split
    · exact ejp_ejRefuse (by decide) (by decide) _ _ _
    next hup =>
      split
      · exact ejp_ejRefuse (by decide) (by decide) _ _ _
      · refine ejp_fireJudge_other n _ _ _ _ _ fun hm => ?_
        obtain h | h := h
        · exact harm (by rw [h]; rfl)
        · exact hup (by rwa [hm])

end

/-! ## The timed queue in order of T_ON (R313) -/

theorem mem_fireInsert {x c : FireCmd} : ∀ {l : List FireCmd}, x ∈ fireInsert c l ↔ x = c ∨ x ∈ l
  | [] => by simp [fireInsert]
  | y :: r => by
    unfold fireInsert
    split
    · simp
    · simp only [List.mem_cons, mem_fireInsert (l := r)]
      tauto

theorem length_fireInsert (c : FireCmd) : ∀ l : List FireCmd, (fireInsert c l).length = l.length + 1
  | [] => rfl
  | y :: r => by
    unfold fireInsert
    split
    · rfl
    · exact congrArg (· + 1) (length_fireInsert c r)

theorem pairwise_fireInsert (c : FireCmd) : ∀ {l : List FireCmd}, List.Pairwise (fun a b => a.tOn ≤ b.tOn) l →
    List.Pairwise (fun a b => a.tOn ≤ b.tOn) (fireInsert c l)
  | [], _ => List.pairwise_singleton ..
  | y :: r, h => by
    obtain ⟨hy, hr⟩ := List.pairwise_cons.1 h
    unfold fireInsert
    split
    next hlt =>
      refine List.pairwise_cons.2 ⟨fun x hx => ?_, h⟩
      obtain rfl | hx := List.mem_cons.1 hx
      · exact hlt.le
      · exact hlt.le.trans (hy x hx)
    next hge =>
      refine List.pairwise_cons.2 ⟨fun x hx => ?_, pairwise_fireInsert c hr⟩
      obtain rfl | hx := mem_fireInsert.1 hx
      · exact not_lt.1 hge
      · exact hy x hx

/-- Settles O43: an unarmed scheduler and a port that is not UP refuse the record before the placement. -/
theorem noFireUnlessArmed : Obligations.NoFireUnlessArmed := by
  refine ⟨fun s l n h => ?_, fun s l n h => ?_, fun s n hl h => ?_, fun c l h => ?_⟩
  · rw [ejp_recordJudge l n (.inl h)]
  · rw [ejp_recordJudge l n (.inr h)]
  · refine congrArg Host.Outcome.next ?_
    rw [whenLive_live _ hl]
    exact if_pos h
  · exact ⟨pairwise_fireInsert c h, length_fireInsert c l, mem_fireInsert.2 (.inl rfl), fun x hx => mem_fireInsert.2 (.inr hx)⟩

/-! ## Records and due commands (R307-R313) -/

section
variable {s t : State}

theorem execDecisionRecord_taken {l : List QEntry} (hl : s.live = true) (hq : queuePacket s 13 = (some l, t))
    (hst : (t.queue 13).stalled = []) : exec .decisionRecord s = .next (recordJudge t l) := by
  change execDecisionRecord s = _
  unfold execDecisionRecord
  rw [whenLive_live _ hl]
  simp only [hq, hst, releaseStalled]

/-- A record that passes the checks of R309 is placed. -/
theorem fireJudge_passed {n part width : Nat} {mask : DWord} {tOn : Int} {cls : Option Nat} (hmask : mask ≠ 0)
    (hvalves : mask.toNat / 2 ^ (t.ejp n).nvalves = 0) (hlate : 200 * (t.rdf (Reg.EJ_PLIM n) 15 0 : Int) ≤ tOn - t.ct.toNat)
    (hfar : tOn - t.ct.toNat ≤ 20000000) (hroom : partCount t part < 128) :
    fireJudge t n part width mask tOn cls = (0, firePlace t n part width mask tOn.toNat cls) := by
  simp only [fireJudge, if_neg hmask, hvalves, ne_eq, not_true_eq_false, if_false, if_neg (not_lt.2 hlate), if_neg (not_lt.2 hfar),
    if_neg (not_le.2 hroom)]

/-- The only command of a free port lies too close to its T_ON. -/
theorem execFireDue_late {n : Fin 4} {c : FireCmd} (hl : s.live = true) (hup : (s.ejp n.val).state = .up)
    (hx : (s.ejp n.val).exch = none) (ho : (s.ejp n.val).openNext = false) (hq : (s.ejp n.val).queue = [c])
    (hlate : c.tOn < s.ct.toNat + 20000) :
    exec (.fireDue n) s = .next ((s.bump (Reg.EJ_PLATE n.val) 31 0 1).modEjp n.val fun p => { p with queue := [] }) := by
  change execFireDue n s = _
  unfold execFireDue
  rw [whenLive_live _ hl]
  simp only [hup, ne_eq, not_true_eq_false, if_false, ejTurn_free _ hx ho, hq]
  simp [tooLate, hlate]

/-- The only command of a free port is due. -/
theorem execFireDue_due {n : Fin 4} {c : FireCmd} (hl : s.live = true) (hup : (s.ejp n.val).state = .up)
    (hx : (s.ejp n.val).exch = none) (ho : (s.ejp n.val).openNext = false) (hq : (s.ejp n.val).queue = [c])
    (htime : s.ct.toNat + 20000 ≤ c.tOn) (hdue : c.tOn ≤ s.ct.toNat + ejAdvance s n.val) :
    exec (.fireDue n) s =
      .next (ejStart ((s.bump (Reg.EJ_PLATE n.val) 31 0 0).modEjp n.val fun p => { p with queue := [] }) n.val .fire [c]) := by
  change execFireDue n s = _
  unfold execFireDue
  rw [whenLive_live _ hl]
  simp only [hup, ne_eq, not_true_eq_false, if_false, ejTurn_free _ hx ho, hq]
  simp [tooLate, not_lt.2 htime, hdue]

end

/-- Settles O42: each command by the branch that its premises select. -/
theorem ejectionCommands : Obligations.EjectionCommands := by
  refine ⟨fun s m v h => ?_, fun s t l hl hq hst => ⟨fun hbad => ?_, fun h6 hab harm => ?_⟩,
    fun s t w0 w1 w2 w3 w4 w5 hl hq hst hab harm => ?_, fun s n c hl hup hx ho hq =>
    ⟨execFireDue_late hl hup hx ho hq, execFireDue_due hl hup hx ho hq⟩⟩
  · extract_lets was svc clash arm t
    have hwrite : writeRow m Reg.EJ_CTRL v ejCtrlEffect s = .next ((ejCtrlEffect s v).resp m []) := writeRow_reaches v ejCtrlEffect h
    simp only [List.forall_mem_cons, List.not_mem_nil, false_implies, implies_true, and_true]
    exact ⟨hwrite, hwrite⟩
  · rw [execDecisionRecord_taken hl hq hst, recordJudge, if_pos hbad]
    rfl
  · rw [execDecisionRecord_taken hl hq hst, recordJudge, if_neg (by simp [h6, hab]), harm]
    rfl
  · extract_lets n part mask tOn
    intro hup hpart hmask hvalves hlate hfar hroom
    rw [execDecisionRecord_taken hl hq hst, recordJudge, if_neg (by simpa using hab), harm]
    have hplaced := fireJudge_passed (width := fld w0.data 15 0) (cls := some (fld w0.data 19 16)) hmask hvalves hlate hfar hroom
    simp only [Bool.not_true, Bool.false_eq_true, if_false, List.getElem?_cons_zero, List.getElem?_cons_succ, Option.map_some,
      Option.getD_some]
    rw [if_neg (by simpa using hup), if_neg (by simpa using hpart)]
    exact congrArg (fun x => Host.Outcome.next x.2) hplaced

end Sys2Proof.Machine
end

section
/-! The replay buffers of the ring (R340, R343, R344; O46): every operation of the sending side keeps each port's window. -/

namespace Sys2Proof.Machine

/-! ## The window of one port -/

/-- At most 64 frames await acknowledgement, under the consecutive LSEQ that end just before the next one to send (R340). -/
def InWindow (q : FrlPort) : Prop := q.unacked.length ≤ 64 ∧ q.txSeq < 4096 ∧
  ∀ i < q.unacked.length, (q.unacked[i]?).map Prod.fst = some ((q.txSeq + 4096 + i - q.unacked.length) % 4096)

theorem inWindow_congr {q r : FrlPort} (hu : r.unacked = q.unacked) (ht : r.txSeq = q.txSeq) (h : InWindow q) : InWindow r := by
  unfold InWindow
  rwa [hu, ht]

theorem inWindow_empty {q : FrlPort} (hu : q.unacked = []) (ht : q.txSeq = 0) : InWindow q := by
  simp [InWindow, hu, ht]

/-- Frames at the front are acknowledged. -/
theorem inWindow_drop {q r : FrlPort} {k : Nat} (h : InWindow q) (hu : r.unacked = q.unacked.drop k) (ht : r.txSeq = q.txSeq) : InWindow r := by
  obtain ⟨hlen, hseq, hall⟩ := h
  simp only [InWindow, hu, ht, List.length_drop, List.getElem?_drop]
  refine ⟨by omega, hseq, fun i hi => ?_⟩
  rw [hall (k + i) (by omega)]
  congr 2
  omega

/-- A frame leaves under the next LSEQ while the window has room. -/
theorem inWindow_append {q r : FrlPort} {f : Frame} (h : InWindow q) (hroom : q.unacked.length < 64)
    (hu : r.unacked = q.unacked ++ [(q.txSeq, f)]) (ht : r.txSeq = (q.txSeq + 1) % 4096) : InWindow r := by
  obtain ⟨_, hseq, hall⟩ := h
  simp only [InWindow, hu, ht, List.length_append, List.length_singleton]
  refine ⟨by omega, by omega, fun i hi => ?_⟩
  obtain hi | rfl : i < q.unacked.length ∨ i = q.unacked.length := by omega
  · rw [List.getElem?_append_left hi, hall i hi]
    congr 1
    omega
  · rw [List.getElem?_concat_length, Option.map_some]
    congr 1
    omega

/-! ## The windows of all ports -/

/-- Each port keeps its window. -/
def Windows (s : State) : Prop := ∀ p : Nat, InWindow (s.frl p)

section
variable {s : State}

theorem frl_congr {t : State} (h : t.ring.ports = s.ring.ports) (p : Nat) : t.frl p = s.frl p := by
  unfold State.frl
  rw [h]

theorem windows_congr {t : State} (h : t.ring.ports = s.ring.ports) (hs : Windows s) : Windows t := fun p => by
  rw [frl_congr h p]
  exact hs p

/-- The two ports of the device are all there are. -/
theorem windows_of_ports (h0 : InWindow (s.frl 0)) (h1 : InWindow (s.frl 1)) : Windows s
  | 0 => h0
  | 1 => h1
  | p + 2 => by
    rw [State.frl, dif_neg (by omega)]
    exact inWindow_empty rfl rfl

theorem frl_modFrl_eq (p : Nat) (f : FrlPort → FrlPort) (k : Nat) :
    (s.modFrl p f).frl k = if p = k ∧ k < 2 then f (s.frl k) else s.frl k := by
  unfold State.frl State.modFrl State.modRing
  by_cases hk : k < 2 <;> by_cases hp : p < 2
  · by_cases h : p = k
    · subst h
      simp [hp]
    · simp [hk, hp, h, Vector.getElem_set_ne _ _ h]
  · simp [hk, hp, show p ≠ k by omega]
  · simp [hk]
  · simp [hk]

theorem windows_modFrl {p : Nat} {f : FrlPort → FrlPort} (hs : Windows s) (hf : InWindow (f (s.frl p))) : Windows (s.modFrl p f) := fun k => by
  rw [frl_modFrl_eq]
  split
  next h => rwa [← h.1]
  · exact hs k

/-- A change of a port that leaves its replay buffer and its LSEQ alone. -/
theorem windows_modFrl_kept {p : Nat} {f : FrlPort → FrlPort} (hs : Windows s) (hu : ∀ q, (f q).unacked = q.unacked)
    (ht : ∀ q, (f q).txSeq = q.txSeq) : Windows (s.modFrl p f) := windows_modFrl hs (inWindow_congr (hu _) (ht _) (hs p))

theorem LatchesOnly.ring {t : State} (h : LatchesOnly s t) : t.ring = s.ring := by
  obtain ⟨fw, regs, rfl⟩ := h
  rfl

theorem windows_raise {code : Half} (src : Byte) (detail : DWord) (hf : errClass code ≠ 3) (hc : errClass code ≠ 4) (hs : Windows s) :
    Windows (raise s code src detail) := windows_congr (congrArg RingSt.ports (latchesOnly_raise src detail hf hc).ring) hs

/-! ## Sending -/

theorem windows_emitNew {p : Nat} (x : QFrame) (hs : Windows s) (hroom : (s.frl p).unacked.length < 64) : Windows (emitNew s p x) := by
  have hports : (if x.fix.isEmpty then ((0 : DWord), s) else drawStamp s).2.ring.ports = s.ring.ports := by
    split <;> rfl
  unfold emitNew
  generalize (if x.fix.isEmpty then ((0 : DWord), s) else drawStamp s) = z at hports ⊢
  refine windows_modFrl (windows_congr hports hs) ?_
  have hfrl (f : Frame) : (emitFrame z.2 p (z.2.frl p).txSeq f).frl p = s.frl p := frl_congr hports p
  rw [hfrl, frl_congr hports p]
  exact inWindow_append (hs p) hroom rfl rfl

/-- Taking the next frame to send leaves the replay buffer alone. -/
theorem frlNext_kept {q r : FrlPort} {x : QFrame} (h : frlNext q = some (x, r)) : r.unacked = q.unacked ∧ r.txSeq = q.txSeq := by
  unfold frlNext at h
  split at h
  case h_2 =>
    split at h <;> cases h <;> exact ⟨rfl, rfl⟩
  case h_5 => cases h
  all_goals
    cases h
    exact ⟨rfl, rfl⟩

theorem frlReady_room {p : Nat} (h : frlReady s p = true) : (s.frl p).unacked.length < 64 := by
  simp only [frlReady, Bool.and_eq_true, decide_eq_true_eq] at h
  exact h.1.1.2

theorem windows_frlPump (p : Nat) : ∀ (n : Nat) {s : State}, Windows s → Windows (frlPump p n s)
  | 0, _, hs => hs
  | n + 1, s, hs => by
    unfold frlPump
    split
    next hready =>
      split
      next x q hx =>
        obtain ⟨hu, ht⟩ := frlNext_kept hx
        have hkept : Windows (s.modFrl p fun _ => q) := windows_modFrl hs (inWindow_congr hu ht (hs p))
        refine windows_frlPump p n (windows_emitNew x hkept ?_)
        rw [frl_modFrl_eq]
        split
        · rw [hu]
          exact frlReady_room hready
        · exact frlReady_room hready
      · exact hs
    · exact hs

theorem windows_pumpPort (p : Nat) (hs : Windows s) : Windows (pumpPort s p) := windows_frlPump p 64 hs

/-! ## Acknowledgement and replay (R343, R344) -/

theorem windows_ackFrames (p n : Nat) (hs : Windows s) : Windows (ackFrames s p n) := by
  unfold ackFrames
  split
  · exact windows_modFrl hs (inWindow_drop (hs p) rfl rfl)
  · exact hs

theorem windows_emitFrames (p : Nat) : ∀ (l : List (Nat × Frame)) {s : State}, Windows s →
    Windows (l.foldl (fun t e => emitFrame t p e.1 e.2) s)
  | [], _, hs => hs
  | e :: l, _, hs => windows_emitFrames p l (windows_congr (t := emitFrame _ p e.1 e.2) rfl hs)

theorem windows_resendAll (p : Nat) (hs : Windows s) : Windows (resendAll s p) := windows_pumpPort p (windows_emitFrames p _ hs)

theorem windows_abortCut (p : Nat) (hs : Windows s) : Windows (abortCut s p) := by
  unfold abortCut
  split
  · split
    · exact windows_pumpPort _ (windows_modFrl_kept (windows_congr (t := s.emit _) rfl hs) (fun _ => rfl) fun _ => rfl)
    · exact hs
  · exact hs

theorem windows_ringOpen (hs : Windows s) : Windows (ringOpen s) := by
  unfold ringOpen
  split
  · refine windows_congr (s := if s.ring.openErr then s else raise s Err.FRL_RING_OPEN frlSrc 0) rfl ?_
    split
    · exact hs
    · exact windows_raise _ _ (by decide) (by decide) hs
  · exact hs

/-- The port that goes DOWN loses its buffers; the other one only what it was passing on. -/
theorem windows_portDown (p : Nat) (hs : Windows s) : Windows (portDown s p) := by
  unfold portDown
  extract_lets s1 s2 s3 s4
  have h1 : Windows s1 := windows_modFrl (windows_abortCut p hs) (inWindow_empty rfl rfl)
  have h2 : Windows s2 := windows_modFrl_kept h1 (fun _ => rfl) fun _ => rfl
  have h3 : Windows s3 := windows_congr rfl h2
  refine windows_ringOpen ?_
  unfold s4
  split
  · exact windows_raise _ _ (by decide) (by decide) h3
  · exact h3

theorem windows_replay (p : Nat) (hs : Windows s) : Windows (replay s p) := by
  unfold replay
  extract_lets n s1
  have h1 : Windows s1 := windows_modFrl_kept (windows_congr (t := s.bump _ 31 0) rfl hs) (fun _ => rfl) fun _ => rfl
  split
  · exact windows_portDown p (windows_raise _ _ (by decide) (by decide) h1)
  · exact windows_resendAll p h1

/-! ## The commands -/

/-- The six commands of the sending side keep every window. -/
def KeepsWindows (c : Instr) : Prop := ∀ {s t : State}, Windows s → exec c s = .next t → Windows t

theorem keepsWindows_whenLive {c : Instr} {f : State → State} (hc : ∀ s, exec c s = .next (whenLive s f))
    (hf : ∀ {s}, Windows s → Windows (f s)) : KeepsWindows c := fun {s t} hs ht => by
  rw [hc s] at ht
  obtain rfl := Host.Outcome.next.inj ht
  unfold whenLive
  split
  · exact hf hs
  · exact hs

theorem keepsWindows_ack (p : Fin 2) (a b k : Byte) : KeepsWindows (.ack p a b k) :=
  keepsWindows_whenLive (fun _ => rfl) fun {s} hs => by
    split
    · exact hs
    split
    · exact windows_congr rfl hs
    · exact windows_pumpPort _ (windows_ackFrames _ _ hs)

theorem keepsWindows_nak (p : Fin 2) (a b k : Byte) : KeepsWindows (.nak p a b k) :=
  keepsWindows_whenLive (fun _ => rfl) fun {s} hs => by
    split
    · exact hs
    split
    · exact windows_congr rfl hs
    · have hacked : Windows (ackFrames s p.val (ackSeq a b)) := windows_ackFrames _ _ hs
      extract_lets t
      split
      · exact windows_modFrl_kept hacked (fun _ => rfl) fun _ => rfl
      split
      · exact windows_pumpPort _ hacked
      · exact windows_replay _ hacked

theorem keepsWindows_busyBackoff (p : Fin 2) : KeepsWindows (.busyBackoff p) :=
  keepsWindows_whenLive (fun _ => rfl) fun {s} hs => by
    split
    · exact windows_resendAll _ (windows_modFrl_kept hs (fun _ => rfl) fun _ => rfl)
    · exact hs

theorem keepsWindows_replayTimeout (p : Fin 2) : KeepsWindows (.replayTimeout p) :=
  keepsWindows_whenLive (fun _ => rfl) fun {s} hs => by
    split
    · exact windows_replay _ hs
    · exact hs

theorem keepsWindows_linkDown (p : Fin 2) : KeepsWindows (.linkDown p) :=
  keepsWindows_whenLive (fun _ => rfl) fun {s} hs => by
    split
    · exact windows_portDown _ hs
    · exact hs

theorem keepsWindows_linkIdleTimeout (p : Fin 2) : KeepsWindows (.linkIdleTimeout p) :=
  keepsWindows_whenLive (fun _ => rfl) fun {s} hs => by
    split
    · exact windows_portDown _ hs
    · exact hs

/-! ## What an acknowledgement frees (R343) -/

/-- The number of the k-th frame of the window acknowledges the k frames before it. -/
theorem ackedCount_inWindow {q : FrlPort} {k : Nat} (h : InWindow q) (hk : k ≤ q.unacked.length) :
    ackedCount q ((q.txSeq + 4096 + k - q.unacked.length) % 4096) = some k := by
  obtain ⟨hlen, hseq, _⟩ := h
  have hd : ((q.txSeq + 4096 + k - q.unacked.length) % 4096 + 4096 + q.unacked.length - q.txSeq) % 4096 = k := by omega
  simp only [ackedCount, hd, if_pos hk]

theorem ackedCount_outside {q : FrlPort} {n : Nat} (h : InWindow q) (hn : n < 4096)
    (hout : ∀ k ≤ q.unacked.length, n ≠ (q.txSeq + 4096 + k - q.unacked.length) % 4096) : ackedCount q n = none := by
  obtain ⟨hlen, hseq, _⟩ := h
  refine if_neg fun hd => hout _ hd ?_
  omega

end

/-- Settles O46: the window is kept by every operation of the sending side. -/
theorem replayWindow : Obligations.ReplayWindow := by
  refine ⟨fun s t p a b k h0 h1 c hc ht => ?_, fun s p k h hk => ?_, fun s p n h hn hout => ?_⟩
  · have hkeeps : KeepsWindows c := by
      simp only [List.mem_cons, List.not_mem_nil, or_false] at hc
      obtain rfl | rfl | rfl | rfl | rfl | rfl := hc
      · exact keepsWindows_ack p a b k
      · exact keepsWindows_nak p a b k
      · exact keepsWindows_busyBackoff p
      · exact keepsWindows_replayTimeout p
      · exact keepsWindows_linkDown p
      · exact keepsWindows_linkIdleTimeout p
    have hafter : Windows t := hkeeps (windows_of_ports h0 h1) ht
    exact ⟨hafter 0, hafter 1⟩
  · extract_lets n
    simp only [ackFrames, n, ackedCount_inWindow h hk, frl_modFrl]
  · simp only [ackFrames, ackedCount_outside h hn hout]

end Sys2Proof.Machine
end

section
/-! Frames of the ring and their protection (R337, R349-R351; O47): headers, AES-GCM and the sequence numbers of protected frames. -/

namespace Sys2Proof.Machine

/-! ## Numbers in byte strings -/

/-- A number of n bytes is read back from where it stands. -/
theorem numAt_bytesLE {a r : List Byte} {off n v : Nat} (ha : a.length = off) (hv : v < 2 ^ (8 * n)) :
    numAt (a ++ (bytesLE n v ++ r)) off n = v := by
  have hlen : (bytesLE n v).length = n := length_bytesLE n v
  rw [numAt, slice, List.drop_left' ha, List.take_left' hlen, hlen, Nat.sub_self, List.replicate_zero, List.append_nil,
    natLE_bytesLE hv]

theorem crc16Bits_lt : ∀ (n : Nat) {c : Nat}, c < 65536 → crc16Bits n c < 65536
  | 0, _, h => h
  | n + 1, c, h => by
    refine crc16Bits_lt n ?_
    split
    · exact Nat.xor_lt_two_pow (n := 16) (Nat.mod_lt _ (by decide)) (by decide)
    · omega

theorem crc16_foldl_lt : ∀ (l : List Byte) {c : Nat}, c < 65536 →
    l.foldl (fun c b => crc16Bits 8 (c ^^^ (b.toNat * 256))) c < 65536
  | [], _, h => h
  | b :: l, c, h => by
    have hb : b.toNat * 256 < 2 ^ 16 := by
      have := b.isLt
      omega
    rw [List.foldl_cons]
    exact crc16_foldl_lt l (crc16Bits_lt 8 (Nat.xor_lt_two_pow h hb))

theorem crc16_lt (l : List Byte) : crc16 l < 65536 := crc16_foldl_lt l (by decide)

/-! ## Headers (R337) -/

section
variable {f : Frame} {n : Nat}

/-- The 14 bytes of a header that HCRC covers. -/
def headFields (f : Frame) (n : Nat) : List Byte :=
  bytesLE 1 f.typ ++ ([f.flags] ++ (bytesLE 1 f.src ++ (bytesLE 1 f.dst ++ (bytesLE 2 (n % 4096) ++
    (bytesLE 1 f.hops ++ ([0] ++ (bytesLE 2 f.payload.length ++ (bytesLE 4 f.txn.toNat ++ []))))))))

theorem length_headFields (f : Frame) (n : Nat) : (headFields f n).length = 14 := rfl

theorem frlHeader_eq (f : Frame) (n : Nat) : frlHeader f n = headFields f n ++ (bytesLE 2 (crc16 (headFields f n)) ++ []) := by
  rw [List.append_nil]
  rfl

/-- A field of the header is read from the 14 bytes. -/
theorem numAt_frlHeader {off k v : Nat} {a r : List Byte} (h : headFields f n = a ++ (bytesLE k v ++ r)) (ha : a.length = off)
    (hv : v < 2 ^ (8 * k)) : numAt (frlHeader f n) off k = v := by
  rw [frlHeader_eq, h, List.append_assoc, List.append_assoc]
  exact numAt_bytesLE ha hv

theorem hcrcOk_frlHeader (f : Frame) (n : Nat) : hcrcOk (frlHeader f n) = true := by
  have hlen : (frlHeader f n).length = 16 := rfl
  have hcovered : (frlHeader f n).take 14 = headFields f n := rfl
  have hcrc : numAt (frlHeader f n) 14 2 = crc16 (headFields f n) := by
    rw [frlHeader_eq]
    exact numAt_bytesLE (length_headFields f n) (crc16_lt _)
  rw [hcrcOk, hlen, hcovered, hcrc, beq_self_eq_true, beq_self_eq_true, Bool.and_self]

theorem numAt_frlHeader_lseq (hn : n < 4096) : numAt (frlHeader f n) 4 2 = n := by
  have hmod : n % 4096 = n := Nat.mod_eq_of_lt hn
  refine Eq.trans (numAt_frlHeader (v := n % 4096) (a := bytesLE 1 f.typ ++ ([f.flags] ++ (bytesLE 1 f.src ++ bytesLE 1 f.dst))) rfl rfl
    (by omega)) hmod

theorem numAt_frlHeader_length (hp : f.payload.length < 65536) : numAt (frlHeader f n) 8 2 = f.payload.length :=
  numAt_frlHeader (a := bytesLE 1 f.typ ++ ([f.flags] ++ (bytesLE 1 f.src ++ (bytesLE 1 f.dst ++ (bytesLE 2 (n % 4096) ++
    (bytesLE 1 f.hops ++ [0])))))) rfl rfl hp

theorem frlParse_frlHeader (ht : f.typ < 256) (hs : f.src < 256) (hd : f.dst < 256) (hh : f.hops < 256) :
    frlParse (frlHeader f n) = { f with payload := [] } := by
  have htyp : numAt (frlHeader f n) 0 1 = f.typ := numAt_frlHeader (a := []) rfl rfl ht
  have hsrc : numAt (frlHeader f n) 2 1 = f.src := numAt_frlHeader (a := bytesLE 1 f.typ ++ [f.flags]) rfl rfl hs
  have hdst : numAt (frlHeader f n) 3 1 = f.dst := numAt_frlHeader (a := bytesLE 1 f.typ ++ ([f.flags] ++ bytesLE 1 f.src)) rfl rfl hd
  have hhops : numAt (frlHeader f n) 6 1 = f.hops := numAt_frlHeader
    (a := bytesLE 1 f.typ ++ ([f.flags] ++ (bytesLE 1 f.src ++ (bytesLE 1 f.dst ++ bytesLE 2 (n % 4096))))) rfl rfl hh
  have htxn : numAt (frlHeader f n) 10 4 = f.txn.toNat := numAt_frlHeader (a := bytesLE 1 f.typ ++ ([f.flags] ++ (bytesLE 1 f.src ++
    (bytesLE 1 f.dst ++ (bytesLE 2 (n % 4096) ++ (bytesLE 1 f.hops ++ ([0] ++ bytesLE 2 f.payload.length))))))) rfl rfl f.txn.isLt
  have hflags : (frlHeader f n).getD 1 0 = f.flags := rfl
  rw [frlParse, htyp, hsrc, hdst, hhops, htxn, hflags, BitVec.ofNat_toNat, BitVec.setWidth_eq]

end

/-! ## The counter mode gives its input back (R458) -/

theorem xorBytes_self : ∀ {a e : List Byte}, a.length ≤ e.length → xorBytes (xorBytes a e) e = a
  | [], _, _ => rfl
  | x :: a, y :: e, h => by
    have hrest : xorBytes (xorBytes a e) e = a := xorBytes_self (Nat.le_of_succ_le_succ h)
    change (x ^^^ y ^^^ y) :: xorBytes (xorBytes a e) e = x :: a
    rw [hrest, BitVec.xor_assoc, BitVec.xor_self, BitVec.xor_zero]

theorem length_xorBytes (a e : List Byte) : (xorBytes a e).length = min a.length e.length := List.length_zipWith

theorem length_bytesBE (n v : Nat) : (bytesBE n v).length = n := by rw [bytesBE, List.length_reverse, length_bytesLE]

theorem length_aesEncrypt (key b : List Byte) : (aesEncrypt key b).length = 16 := by
  rw [aesEncrypt, aesRun, length_bytesBE]

section
variable {key : List Byte}

theorem length_ctrBlocks_chunks : ∀ {k : Nat} {l : List Byte} (c : List Byte), l.length ≤ 16 * k →
    (ctrBlocks key (chunks 16 k l) c).length = l.length
  | 0, l, c, h => by
    have : l = [] := List.length_eq_zero_iff.1 (by omega)
    rw [this]
    rfl
  | k + 1, l, c, h => by
    have hrest := length_ctrBlocks_chunks (k := k) (l := l.drop 16) (ctrAdd c 1) (by rw [List.length_drop]; omega)
    rw [chunks, ctrBlocks, List.length_append, hrest, length_xorBytes, length_aesEncrypt, List.length_take, List.length_drop]
    omega

/-- The first block of the output is the first block under its key stream, and the rest follows. -/
theorem ctrBlocks_chunks_again : ∀ {k : Nat} {l : List Byte} (c : List Byte), l.length ≤ 16 * k →
    ctrBlocks key (chunks 16 k (ctrBlocks key (chunks 16 k l) c)) c = l
  | 0, l, c, h => (List.length_eq_zero_iff.1 (by omega)).symm
  | k + 1, l, c, h => by
    have hdrop : (l.drop 16).length ≤ 16 * k := by
      rw [List.length_drop]
      omega
    have hrest := ctrBlocks_chunks_again (ctrAdd c 1) hdrop
    have hlen := length_ctrBlocks_chunks (key := key) (ctrAdd c 1) hdrop
    set block := xorBytes (l.take 16) (aesEncrypt key c) with hblock
    set rest := ctrBlocks key (chunks 16 k (l.drop 16)) (ctrAdd c 1)
    have hsize : block.length = min 16 l.length := by
      rw [length_xorBytes, length_aesEncrypt, List.length_take]
      omega
    have hcut : (block ++ rest).take 16 = block ∧ (block ++ rest).drop 16 = rest := by
      rw [List.length_drop] at hlen
      obtain hfull | hshort : 16 ≤ l.length ∨ l.length < 16 := by omega
      · exact ⟨List.take_left' (by omega), List.drop_left' (by omega)⟩
      · have hnil : rest = [] := List.length_eq_zero_iff.1 (by omega)
        rw [hnil, List.append_nil]
        exact ⟨List.take_of_length_le (by omega), List.drop_of_length_le (by omega)⟩
    rw [chunks, ctrBlocks, chunks, ctrBlocks, hcut.1, hcut.2, hrest, hblock, xorBytes_self, List.take_append_drop]
    rw [List.length_take, length_aesEncrypt]
    omega

theorem length_le_blocks (l : List Byte) : l.length ≤ 16 * blockCount l := by
  rw [blockCount]
  omega

theorem length_ctrCrypt (key c l : List Byte) : (ctrCrypt key c l).length = l.length := length_ctrBlocks_chunks c (length_le_blocks l)

theorem ctrCrypt_ctrCrypt (key c l : List Byte) : ctrCrypt key c (ctrCrypt key c l) = l := by
  have hcount : blockCount (ctrCrypt key c l) = blockCount l := by rw [blockCount, length_ctrCrypt, blockCount]
  rw [ctrCrypt, blocks16, hcount]
  exact ctrBlocks_chunks_again c (length_le_blocks l)

theorem gcmDecrypt_gcmEncrypt (key iv aad plain : List Byte) :
    gcmDecrypt key iv aad (gcmEncrypt key iv aad plain).1 (gcmEncrypt key iv aad plain).2 = some plain :=
  (if_pos rfl).trans (congrArg some (ctrCrypt_ctrCrypt key _ plain))

theorem length_gcmTag (key iv aad c : List Byte) : (gcmTag key iv aad c).length = 16 := by
  rw [gcmTag, length_xorBytes, length_bytesBE, length_aesEncrypt, Nat.min_self]

end

/-! ## Protected frames (R349-R351) -/

/-- A key that was set to a value other than the default reads as that value, in any sparse map. -/
theorem sget_sset_same {α : Type} [DecidableEq α] {d : Nat → α} {k : Nat} {v : α} (hv : v ≠ d k) : ∀ m : Sparse α, sget d (sset d m k v) k = v
  | [] => by simp [sset, sget, hv]
  | (k', v') :: r => by
    simp only [sset, hv, if_false]
    split
    · exact if_pos rfl
    split
    · exact if_pos rfl
    next hne => rw [sget, if_neg (Ne.symm hne), sget_sset_same hv r]

/-- The two outcomes of a protected frame that verifies: its PSEQ is new and taken, or it is a replay (R351). -/
def pseqJudged (r : State) (g : Frame) (peer pseq : Nat) (plain : List Byte) : Option Frame × State :=
  if pseq ≤ sget (fun _ => 0) r.ring.pseqRx (2 * peer + g.path) then
    (none, (raise r Err.FRL_PSEQ_REPLAY frlSrc (BitVec.ofNat 64 (g.src * 256 + g.typ))).bump Reg.FRL_AUTHFAIL 31 0)
  else (some { g with payload := plain }, r.modRing fun x =>
    { x with pseqRx := sset (fun _ => 0) x.pseqRx (2 * peer + g.path) pseq,
             lastProt := if h : g.path < 2 then x.lastProt.set g.path (some r.ct) else x.lastProt })

theorem openFrame_verified {r : State} {g : Frame} {plain : List Byte} (hkey : (sessKey r (protPeer r g) g.path).isEmpty = false)
    (hlen : 24 ≤ g.payload.length)
    (hdec : gcmDecrypt (sessKey r (protPeer r g) g.path) (frlIv (numAt g.payload 0 6) (protPeer r g) g.path (b2n r.isManager))
      (frlAad g (numAt g.payload 0 6) g.payload.length) ((g.payload.drop 8).take (g.payload.length - 24))
      (g.payload.drop (g.payload.length - 16)) = some plain) :
    openFrame r g = pseqJudged r g (protPeer r g) (numAt g.payload 0 6) plain := by
  simp only [openFrame, hkey, Bool.false_eq_true, if_false, if_neg (not_lt.2 hlen), hdec, pseqJudged]

/-- The parts of a protected payload (R349): its size, PSEQ, ciphertext and tag. -/
theorem protectedPayload_parts {pseq : Nat} {c tag payload : List Byte} (hp : pseq < 2 ^ 48) (htag : tag.length = 16)
    (h : payload = bytesLE 6 pseq ++ [0, 0] ++ c ++ tag) : payload.length = c.length + 24 ∧ numAt payload 0 6 = pseq ∧
      (payload.drop 8).take (payload.length - 24) = c ∧ payload.drop (payload.length - 16) = tag := by
  have hhead : (bytesLE 6 pseq ++ [0, 0]).length = 8 := rfl
  have hsize : payload.length = c.length + 24 := by
    rw [h, List.length_append, List.length_append, hhead, htag]
    omega
  refine ⟨hsize, ?_, ?_, ?_⟩
  · rw [h, List.append_assoc, List.append_assoc]
    exact numAt_bytesLE (a := []) rfl hp
  · rw [hsize, h, List.append_assoc, List.drop_left' hhead]
    exact List.take_left' (by omega)
  · rw [hsize, h]
    exact List.drop_left' (by rw [List.length_append, hhead]; omega)

/-- The next PSEQ of the manager toward a worker on a frame's path. -/
def nextPseq (s : State) (f : Frame) (w : Nat) : Nat := sget (fun _ => 0) s.ring.pseqTx (2 * w + f.path) + 1

/-- A worker that shares the manager's session key finds the padded payload in a frame that the manager protected for it. -/
theorem openFrame_protectFrame {s r : State} {f : Frame} (hs : s.isManager = true) (hr : r.isManager = false)
    (hlen : (sessKey s r.position f.path).length = 16 ∨ (sessKey s r.position f.path).length = 32)
    (hkey : sessKey r r.position f.path = sessKey s r.position f.path) (hp : nextPseq s f r.position < 2 ^ 48) :
    openFrame r (protectFrame s f r.position).1 = pseqJudged r f r.position (nextPseq s f r.position) (pad4 f.payload) := by
  set pseq := nextPseq s f r.position
  set key := sessKey s r.position f.path
  set plain := pad4 f.payload
  set c := gcmEncrypt key (frlIv pseq r.position f.path 0) (frlAad f pseq (plain.length + 24)) plain
  set payload := bytesLE 6 pseq ++ [0, 0] ++ c.1 ++ c.2 with hpayload
  set g := { f with payload := payload }
  obtain ⟨hsize, hseq, hcipher, htag⟩ := protectedPayload_parts hp (length_gcmTag key _ _ _) hpayload
  rw [show c.1.length = plain.length from length_ctrCrypt key _ plain] at hsize
  have hprotected : (protectFrame s f r.position).1 = g := by
    rw [protectFrame, hs]
    rfl
  have hpeer : protPeer r g = r.position := by
    rw [protPeer, hr]
    rfl
  have hshared : sessKey r (protPeer r g) g.path = key := by rw [hpeer, ← hkey, Frame.path, Frame.path]
  have hnonempty : key.isEmpty = false := by
    rw [List.isEmpty_eq_false_iff]
    intro h
    simp [h] at hlen
  have hdec : gcmDecrypt key (frlIv pseq r.position f.path 0) (frlAad f pseq (plain.length + 24)) c.1 c.2 = some plain :=
    gcmDecrypt_gcmEncrypt key _ _ plain
  rw [hprotected, openFrame_verified (plain := plain) (by rw [hshared, hnonempty]) (by rw [hsize]; omega) ?_, hpeer, hseq]
  · rfl
  · rw [hshared, hseq, hpeer, hr, hcipher, htag, hsize]
    exact hdec

/-- Settles O47: a header field by field, AES-GCM by its counter mode, a protected frame by the worker's own computation of the same key
stream and tag. -/
theorem framesRoundTrip : Obligations.FramesRoundTrip := by
  refine ⟨fun f n ht hs hd hh hp hn => ⟨frlParse_frlHeader ht hs hd hh, hcrcOk_frlHeader f n, numAt_frlHeader_lseq hn,
    numAt_frlHeader_length hp⟩, fun key iv aad plain _ => gcmDecrypt_gcmEncrypt key iv aad plain, fun s r f hs hr => ?_⟩
  extract_lets key k pseq
  intro hlen hkey hp
  have hopen := openFrame_protectFrame hs hr hlen hkey hp
  refine ⟨fun hnew => ?_, fun hold => hopen.trans (if_pos hold)⟩
  have hfresh := hopen.trans (if_neg (not_le.2 hnew))
  rw [hfresh]
  exact ⟨rfl, sget_sset_same (Nat.succ_ne_zero _) _⟩

end Sys2Proof.Machine
end

section
/-! Ring transactions and feature packets (R352-R354, R356; O49). -/

namespace Sys2Proof.Machine

section
variable {s t : State}

theorem takeFrame_packet {p : Nat} {l : List QEntry} {test : Frame → Bool} (hq : queuePacket s (frlQueue p) = (some l, t))
    (h : test (wordsFrame l) = true) : takeFrame s p test = (some (wordsFrame l), t) := by
  simp only [takeFrame, hq, h, if_true]

/-! ## Requests (R354) -/

theorem admitTxn_new {p : Nat} {f : Frame} (h : s.ring.done.find? (fun r => r.src == f.src && r.txn == f.txn.toNat) = none) :
    admitTxn s p f = (true, s.modRing fun g =>
      { g with done := { src := f.src, txn := f.txn.toNat, port := p, toEn := f.toEn } :: g.done }) := by
  rw [admitTxn, h]

theorem admitTxn_executing {p : Nat} {f : Frame} {r : TxnRec}
    (h : s.ring.done.find? (fun r => r.src == f.src && r.txn == f.txn.toNat) = some r) (hr : r.resp = none) :
    admitTxn s p f = (false, s) := by
  simp only [admitTxn, h, hr]

theorem admitTxn_recorded {p : Nat} {f : Frame} {r : TxnRec} {b : List Byte}
    (h : s.ring.done.find? (fun r => r.src == f.src && r.txn == f.txn.toNat) = some r) (hr : r.resp = some b) :
    admitTxn s p f = (false, sendTxnResponse s { r with port := p } b) := by
  simp only [admitTxn, h, hr]

/-- Only a request of which nothing is recorded is new. -/
theorem admitTxn_true {p : Nat} {f : Frame} (h : (admitTxn s p f).1 = true) :
    s.ring.done.find? (fun r => r.src == f.src && r.txn == f.txn.toNat) = none := by
  cases hd : s.ring.done.find? (fun r => r.src == f.src && r.txn == f.txn.toNat) with
  | none => rfl
  | some r =>
    cases hr : r.resp with
    | none =>
      rw [admitTxn_executing hd hr] at h
      cases h
    | some b =>
      rw [admitTxn_recorded hd hr] at h
      cases h

/-- A request that has just been noted is executing. -/
theorem admitTxn_again {p q : Nat} {f : Frame} (h : (admitTxn s p f).1 = true) :
    (admitTxn (admitTxn s p f).2 q f).1 = false ∧
      ∃ r ∈ (admitTxn s p f).2.ring.done, r.src = f.src ∧ r.txn = f.txn.toNat ∧ r.resp = none := by
  rw [admitTxn_new (admitTxn_true h)]
  set r : TxnRec := { src := f.src, txn := f.txn.toNat, port := p, toEn := f.toEn }
  refine ⟨congrArg Prod.fst (admitTxn_executing (r := r) (List.find?_cons_of_pos ?_) rfl), r, List.mem_cons_self, rfl, rfl, rfl⟩
  rw [beq_self_eq_true, beq_self_eq_true]
  rfl

theorem execTxn_request {p : Fin 2} {l : List QEntry} (hl : s.live = true) (hf : s.fwRuns = true)
    (hq : queuePacket s (frlQueue p.val) = (some l, t)) (htyp : (wordsFrame l).typ = 0x10) (hrsp : (wordsFrame l).rsp = false)
    (hown : ownRow s (wordsFrame l) = false) :
    exec (.txn p) s = .next (if (admitTxn t p.val (wordsFrame l)).1 then txnRun (admitTxn t p.val (wordsFrame l)).2 (wordsFrame l)
      else (admitTxn t p.val (wordsFrame l)).2) := by
  have htake : takeFrame s p.val (fun f => f.typ == 0x10 && !f.rsp && !ownRow s f && (s.fwRuns || f.toEn)) = (some (wordsFrame l), t) :=
    takeFrame_packet hq (by rw [htyp, hrsp, hown, hf]; rfl)
  change execTxn p s = _
  unfold execTxn
  rw [whenLive_live _ hl, htake]
  dsimp only
  obtain ⟨new, u⟩ := admitTxn t p.val (wordsFrame l)
  cases new <;> rfl

/-! ## Responses (R352) -/

theorem execTxnResponse_frame {p : Fin 2} {l : List QEntry} (hl : s.live = true) (hf : s.fwRuns = true)
    (hq : queuePacket s (frlQueue p.val) = (some l, t)) (htyp : (wordsFrame l).typ = 0x10) (hrsp : (wordsFrame l).rsp = true)
    (hdelta : s.ring.pend.any (fun t => t.txn == (wordsFrame l).txn.toNat && t.use == .delta) = false) :
    exec (.txnResponse p) s = .next
      ((t.ring.pend.find? fun x => x.txn == (wordsFrame l).txn.toNat && x.pos == (wordsFrame l).src).elim t fun x =>
        hostAdvance (admitAdvance (txnDone (t.modRing fun r => { r with pend := r.pend.filter fun y => y.txn != x.txn }) x
          (wordsFrame l).payload))) := by
  have htake : takeFrame s p.val (fun f => f.typ == 0x10 && f.rsp &&
      !(s.ring.pend.any fun t => t.txn == f.txn.toNat && t.use == .delta) && (s.fwRuns || f.toEn)) = (some (wordsFrame l), t) :=
    takeFrame_packet hq (by rw [htyp, hrsp, hdelta, hf]; rfl)
  change execTxnResponse p s = _
  unfold execTxnResponse
  rw [whenLive_live _ hl, htake]
  dsimp only
  cases t.ring.pend.find? fun x => x.txn == (wordsFrame l).txn.toNat && x.pos == (wordsFrame l).src <;> rfl

theorem txnDone_quiet {x : TxnPend} (b : List Byte) (h : x.use = .quiet) : txnDone s x b = s := by
  rw [txnDone, h]

/-! ## Records (R354) -/

/-- The completed records of an originator beyond the first 32 are the ones dropped. -/
theorem filter_trimRecs_completed (l : List TxnRec) (src : Nat) :
    ((trimRecs l src).filter fun r => r.src == src && r.resp.isSome).length ≤ 32 := by
  set P : TxnRec → Bool := fun r => r.src == src && r.resp.isSome
  set old := (l.filter P).drop 32 with hold
  have hcomm : (trimRecs l src).filter P = (l.filter P).filter fun r => !old.contains r := by
    rw [trimRecs, List.filter_filter, List.filter_filter]
    exact List.filter_congr fun r _ => Bool.and_comm _ _
  have hnone : old.filter (fun r => !old.contains r) = [] := by
    refine List.filter_eq_nil_iff.2 fun r hr => ?_
    rw [List.contains_iff_mem.2 hr]
    decide
  rw [hcomm, ← List.take_append_drop 32 (l.filter P), ← hold, List.filter_append, hnone, List.append_nil]
  exact (List.length_filter_le _ _).trans (List.length_take_le _ _)

theorem filter_trimRecs_other (l : List TxnRec) (src : Nat) :
    (trimRecs l src).filter (fun r => !(r.src == src && r.resp.isSome)) = l.filter fun r => !(r.src == src && r.resp.isSome) := by
  rw [trimRecs, List.filter_filter]
  refine List.filter_congr fun r _ => ?_
  cases hP : (r.src == src && r.resp.isSome) with
  | true => rfl
  | false =>
    have hkept : r ∉ (l.filter fun r => r.src == src && r.resp.isSome).drop 32 := fun h => by
      have := (List.mem_filter.1 (List.mem_of_mem_drop h)).2
      rw [hP] at this
      cases this
    rw [Bool.not_false, Bool.true_and, Bool.not_eq_true', ← Bool.not_eq_true, List.contains_iff_mem]
    exact hkept

/-! ## Retries (R353) -/

theorem execTxnRetry_pending {txn : Word} {x : TxnPend} (hl : s.live = true)
    (hx : s.ring.pend.find? (fun t => t.txn == txn.toNat) = some x) (hf : s.fwRuns = true) (hd : x.use ≠ .delta) (hp : x.use ≠ .probe) :
    exec (.txnRetry txn) s = .next (if 50 ≤ x.tries then hostAdvance (admitAdvance (txnFailed s x))
      else sendTxnFrame (s.modRing fun r =>
        { r with pend := r.pend.map fun y => if y.txn = x.txn then { y with tries := y.tries + 1 } else y }) x) := by
  have hresent : ¬ (x.use = .delta ∨ x.use = .probe ∨ (s.fwRuns = false ∧ x.toEn = false)) := by
    simp [hd, hp, hf]
  change execTxnRetry txn s = _
  unfold execTxnRetry
  rw [whenLive_live _ hl]
  simp only [hx, if_neg hresent]

theorem txnFailed_quiet {x : TxnPend} (hq : x.use = .quiet) (hm : s.isManager = true) :
    txnFailed s x = raise (s.modRing fun r => { r with pend := r.pend.filter fun y => y.txn != x.txn }) Err.FRL_TXN_FAILED frlSrc
      (BitVec.ofNat 64 x.pos) := by
  simp only [txnFailed, hq]
  exact if_pos hm

/-! ## Feature packets (R356) -/

theorem execFeatureSend_worker {l : List QEntry} (hl : s.live = true) (hq : queuePacket s 15 = (some l, t)) (hw : t.isManager = false) :
    exec .featureSend s = .next ((featurePath t).elim (t.bump Reg.FRL_FEAT_DROP 31 0) fun path =>
      if 290 < l.length ∨ 16 ≤ featuresWaiting t (pathPort t path) then t.bump Reg.FRL_FEAT_DROP 31 0
      else (sendParts t path t.ring.pkt l).modRing fun r => { r with pkt := (r.pkt + 1) % 65536 }) := by
  change execFeatureSend s = _
  unfold execFeatureSend
  rw [whenLive_live _ hl]
  simp only [hq, hw, Bool.false_eq_true, if_false]
  cases featurePath t <;> rfl

theorem execFeature_frame {p : Fin 2} {l : List QEntry} (hl : s.live = true) (hm : s.isManager = true) (hf : s.fwRuns = true)
    (hq : queuePacket s (frlQueue p.val) = (some l, t)) (htyp : (wordsFrame l).typ = 0x30) :
    exec (.feature p) s = .next (joinPart t (wordsFrame l).src (wordsFrame l).payload) := by
  have htake : takeFrame s p.val (fun f => f.typ == 0x30) = (some (wordsFrame l), t) := takeFrame_packet hq (by rw [htyp]; rfl)
  change execFeature p s = _
  unfold execFeature
  rw [whenLive_live _ hl]
  simp only [hm, hf, htake, Bool.not_true, Bool.or_self, Bool.false_eq_true, if_false]

theorem modRing_noJoins (hj : t.ring.joins = []) : (t.modRing fun r => { r with joins := [] }) = t := by
  have hring : { t.ring with joins := [] } = t.ring := by rw [← hj]
  rw [State.modRing, hring]

/-- The only part of a packet, where no packet is begun. -/
theorem joinPart_single {pos : Nat} {l : List Byte} (hpart : numAt l 2 1 = 0) (hparts : numAt l 3 1 = 1) (hj : t.ring.joins = []) :
    joinPart t pos l = featureOut t pos (partEntries l) := by
  have hdrop : dropJoin t pos = t := by simp [dropJoin, hj]
  simp only [joinPart, hpart, hparts, hj, hdrop, List.find?_nil, Option.isNone_none, if_true, Option.getD_none, ne_eq,
    not_true_eq_false, if_false, List.nil_append]
  exact congrArg (featureOut · pos (partEntries l)) (by simpa [State.modRing, hj] using modRing_noJoins hj)

/-- The packet begun by a position, the only one, is discarded. -/
theorem dropJoin_only {pos : Nat} {j : FeatJoin} (hj : s.ring.joins = [j]) (hp : j.pos = pos) :
    dropJoin s pos = (s.bump Reg.HOST_FEAT_DROP 31 0).modRing fun r => { r with joins := [] } := by
  have hring : (s.bump Reg.HOST_FEAT_DROP 31 0).ring.joins = [j] := hj
  simp [dropJoin, hj, hp, State.modRing, hring]

theorem execFeatureTimeout_live {pos : BitVec 8} (hl : s.live = true) : exec (.featureTimeout pos) s = .next (dropJoin s pos.toNat) :=
  congrArg Host.Outcome.next (whenLive_live _ hl)

end

/-- Settles O49: each command by what the records, the pending transactions or the begun packets hold. -/
theorem ringTransactions : Obligations.RingTransactions := by
  refine ⟨fun s t p l hl hf hq => ?_, fun s p q f h => admitTxn_again h,
    fun l src => ⟨filter_trimRecs_completed l src, filter_trimRecs_other l src⟩, fun s txn x hl hx hf hd hp => ⟨fun htries => ?_,
    fun htries hquiet hm => ?_⟩, fun s t l hl hq hw => ⟨fun path hpath hlen hroom => ?_, fun hpath => ?_⟩,
    fun s t p l hl hm hf hq => ?_, fun s pos j hl hj hp => ?_⟩
  · extract_lets f
    refine fun htyp => ⟨fun hrsp hown => ⟨fun hnew => ?_, fun r b hr => ⟨fun hb => ?_, fun hb => ?_⟩⟩,
      fun hrsp hdelta => ⟨fun hnone => ?_, fun x hx huse => ?_⟩⟩
    · rw [execTxn_request hl hf hq htyp hrsp hown, admitTxn_new hnew]
      rfl
    · rw [execTxn_request hl hf hq htyp hrsp hown, admitTxn_executing hr hb]
      rfl
    · rw [execTxn_request hl hf hq htyp hrsp hown, admitTxn_recorded hr hb]
      rfl
    · rw [execTxnResponse_frame hl hf hq htyp hrsp hdelta, hnone, Option.elim_none]
    · rw [execTxnResponse_frame hl hf hq htyp hrsp hdelta, hx, Option.elim_some, txnDone_quiet _ huse]
  · rw [execTxnRetry_pending hl hx hf hd hp, if_neg (not_le.2 htries)]
  · rw [execTxnRetry_pending hl hx hf hd hp, if_pos htries, txnFailed_quiet hquiet hm]
  · rw [execFeatureSend_worker hl hq hw, hpath, Option.elim_some]
    exact congrArg Host.Outcome.next (if_neg (by omega))
  · rw [execFeatureSend_worker hl hq hw, hpath, Option.elim_none]
  · extract_lets f
    intro htyp hpart hparts hj
    rw [execFeature_frame hl hm hf hq htyp, joinPart_single hpart hparts hj]
  · rw [execFeatureTimeout_live hl, dropJoin_only hj hp]

end Sys2Proof.Machine
end
